-- ==== Sys2Proof/Word.lean ====
section
/-! DEFINITION. The word types of the JT-860 model and their plainest arithmetic: bytes, 32- and 64-bit words,
little-endian assembly (R38) and named bit slices. -/

namespace Sys2Proof

/-- One byte. -/
abbrev Byte := BitVec 8
/-- One register word of a page (R540: every page access is 4 bytes wide). -/
abbrev W32 := BitVec 32
/-- One scalar or summary register (R161, R126). -/
abbrev W64 := BitVec 64
/-- One grid word in the GR128 layout (R61). -/
abbrev W128 := BitVec 128

/-- Bits [hi:lo] of a natural number, numbered as the manual numbers them. -/
def bits (v hi lo : Nat) : Nat := (v >>> lo) % 2 ^ (hi + 1 - lo)

/-- Bit n of a natural number. -/
def bit (v n : Nat) : Bool := v.testBit n

/-- `v` with bits [hi:lo] replaced by the low bits of `x`. -/
def setBits (v hi lo x : Nat) : Nat :=
  v - (bits v hi lo) * 2 ^ lo + (x % 2 ^ (hi + 1 - lo)) * 2 ^ lo

/-- 1 for true. -/
def b2n (b : Bool) : Nat := if b then 1 else 0

/-- The four levels of PAM4 (R300): -3, -1, +1 and +3. -/
inductive Level where
  | m3 | m1 | p1 | p3
deriving DecidableEq, Repr

/-- The number a list of bytes spells, least significant byte first (R38). -/
def leNat : List Byte → Nat
  | [] => 0
  | b :: bs => b.toNat + 256 * leNat bs

/-- The `n` bytes of a number, least significant first (R38). -/
def leBytes : Nat → Nat → List Byte
  | 0, _ => []
  | n + 1, v => BitVec.ofNat 8 v :: leBytes n (v / 256)

/-- The signed reading of the low `w` bits of `v`. -/
def signed (w v : Nat) : Int :=
  if v % 2 ^ w < 2 ^ (w - 1) then ((v % 2 ^ w : Nat) : Int) else ((v % 2 ^ w : Nat) : Int) - (2 ^ w : Nat)

/-- The two's-complement encoding of an integer in `w` bits. -/
def encInt (w : Nat) (i : Int) : Nat := (i % ((2 ^ w : Nat) : Int)).toNat

end Sys2Proof
end

