-- ==== Sys2Proof/Syntax.lean ====
section
/-! DEFINITION. The commands of the JT-860 block: one constructor of `Instr` per row of the table of operations and
events. A tile instruction carries the logical tile it issues on and every field of its 32-bit word (R167, R119, R157),
the reserved ones included; an event carries what comes from outside the modelled module. -/

namespace Sys2Proof

/-- A logical tile index (R4, R255: eleven bits). -/
abbrev Tile := BitVec 11

/-- What an error-correcting store finds in the word an access reads (R164, R270, R273, R279): nothing, a corrected
error, or an uncorrectable one. -/
inductive Ecc where
  | ok
  | corrected
  | uncorrectable
deriving DecidableEq, Repr

/-- A disturbance of an engine's datapath (R113, R156): the checked integer word of element `idx` comes out `err` too
large; of a grid word the VALUE, or the TALLY where `tally` is set. The residue check misses it exactly when 7 divides
`err` (R425). -/
structure Upset where
  idx : Nat
  err : Nat
  tally : Bool
deriving DecidableEq, Repr

/-- Scalar arithmetic of major opcode 0x01 (R format, R167); FN is the row itself. -/
structure ROp where
  gD : BitVec 5
  gA : BitVec 5
  gB : BitVec 5
  pG : BitVec 3
deriving DecidableEq, Repr

/-- The R format with its FN field (R167). -/
structure RfOp where
  gD : BitVec 5
  gA : BitVec 5
  gB : BitVec 5
  pG : BitVec 3
  fn : BitVec 8
deriving DecidableEq, Repr

/-- The I format; `gD` is the stored source gS of a store (R167). -/
structure IOp where
  gD : BitVec 5
  gA : BitVec 5
  pG : BitVec 3
  imm : BitVec 13
deriving DecidableEq, Repr

/-- The U format (R167). -/
structure UOp where
  gD : BitVec 5
  pos : BitVec 2
  pG : BitVec 3
  imm : BitVec 16
deriving DecidableEq, Repr

/-- c.cmp (R172). -/
structure CmpOp where
  rsv : BitVec 2
  pD : BitVec 3
  gA : BitVec 5
  gB : BitVec 5
  pG : BitVec 3
  fn : BitVec 8
deriving DecidableEq, Repr

/-- c.cmpi (R173). -/
structure CmpiOp where
  rsv : BitVec 2
  pD : BitVec 3
  gA : BitVec 5
  pG : BitVec 3
  imm : BitVec 13
deriving DecidableEq, Repr

/-- Predicate logic (R173); FN is the row itself. -/
structure PredOp where
  rsv1 : BitVec 2
  pD : BitVec 3
  rsv2 : BitVec 2
  pA : BitVec 3
  rsv3 : BitVec 2
  pB : BitVec 3
  pG : BitVec 3
deriving DecidableEq, Repr

/-- c.br (R174). -/
structure BrOp where
  pG : BitVec 3
  n : BitVec 1
  off : BitVec 22
deriving DecidableEq, Repr

/-- c.jal (R174). -/
structure JOp where
  gD : BitVec 5
  off : BitVec 21
deriving DecidableEq, Repr

/-- c.trap (R169): bits [25:16] are reserved. -/
structure TrapOp where
  rsv : BitVec 10
  pG : BitVec 3
  imm : BitVec 13
deriving DecidableEq, Repr

/-- The P format; `gD` is the stored source of pg.wr (R167, R178). -/
structure POp where
  gD : BitVec 5
  gA : BitVec 5
  pG : BitVec 3
  rsv : BitVec 1
  sel : BitVec 2
  word : BitVec 10
deriving DecidableEq, Repr

/-- sy.sigi (R185). -/
structure SigiOp where
  ctr : BitVec 6
  rsv : BitVec 4
  pG : BitVec 3
  n : BitVec 13
deriving DecidableEq, Repr

/-- sy.tack with its OP field as the row itself (R185, R249). -/
structure TackOp where
  k : BitVec 4
  b : BitVec 1
  rsv1 : BitVec 3
  pG : BitVec 3
  rsv2 : BitVec 13
deriving DecidableEq, Repr

/-- mx.open (R119). -/
structure OpenOp where
  aD : BitVec 2
  layout : BitVec 1
  hsrc : BitVec 2
  h : BitVec 4
  gS : BitVec 5
  gT : BitVec 5
  scope : BitVec 1
  rsv : BitVec 2
deriving DecidableEq, Repr

/-- mx.mma (R119). -/
structure MmaOp where
  aD : BitVec 2
  tA : BitVec 3
  tB : BitVec 3
  ta : BitVec 1
  tb : BitVec 1
  fa : BitVec 3
  fb : BitVec 3
  kbm1 : BitVec 4
  rsv : BitVec 2
deriving DecidableEq, Repr

/-- mx.close (R119). -/
structure CloseOp where
  aD : BitVec 2
  gD : BitVec 5
  rsv : BitVec 15
deriving DecidableEq, Repr

/-- mx.st (R119). -/
structure MxStOp where
  aD : BitVec 2
  gA : BitVec 5
  gC : BitVec 5
  gD : BitVec 5
  rsv : BitVec 5
deriving DecidableEq, Repr

/-- mx.la (R119). -/
structure MxLaOp where
  aD : BitVec 2
  gA : BitVec 5
  gC : BitVec 5
  rsv : BitVec 10
deriving DecidableEq, Repr

/-- mx.lt (R119). -/
structure LtOp where
  tD : BitVec 3
  fmt : BitVec 4
  bdir : BitVec 1
  t : BitVec 1
  gA : BitVec 5
  gP : BitVec 5
  rsv : BitVec 3
deriving DecidableEq, Repr

/-- mx.stt (R119). -/
structure SttOp where
  tS : BitVec 3
  fmt : BitVec 4
  bdir : BitVec 1
  rsv1 : BitVec 1
  gA : BitVec 5
  gP : BitVec 5
  rsv2 : BitVec 3
deriving DecidableEq, Repr

/-- mx.tag (R119). -/
structure TagOp where
  tD : BitVec 3
  fmt : BitVec 4
  bdir : BitVec 1
  rsv : BitVec 14
deriving DecidableEq, Repr

/-- mx.drop (R119). -/
structure DropOp where
  aD : BitVec 2
  rsv : BitVec 20
deriving DecidableEq, Repr

/-- The floating vx instructions on two sources (R157, minors 0x00 to 0x06). -/
structure VfOp where
  vD : BitVec 4
  vA : BitVec 4
  vB : BitVec 4
  f : BitVec 4
  rm : BitVec 3
  sat : BitVec 1
deriving DecidableEq, Repr

/-- The floating vx instructions on one source (R157, minors 0x07 to 0x0D). -/
structure VuOp where
  vD : BitVec 4
  vA : BitVec 4
  rsv : BitVec 4
  f : BitVec 4
  rm : BitVec 3
  sat : BitVec 1
deriving DecidableEq, Repr

/-- The integer and logical vx instructions (R157, minors 0x0E to 0x15). -/
structure ViOp where
  vD : BitVec 4
  vA : BitVec 4
  vB : BitVec 4
  f : BitVec 4
  rsv : BitVec 4
deriving DecidableEq, Repr

/-- vx.cmp (R157). -/
structure VcmpOp where
  vD : BitVec 4
  vA : BitVec 4
  vB : BitVec 4
  f : BitVec 4
  cc : BitVec 3
  rsv : BitVec 1
deriving DecidableEq, Repr

/-- vx.sel (R157). -/
structure VselOp where
  vD : BitVec 4
  vA : BitVec 4
  vB : BitVec 4
  vC : BitVec 4
  rsv : BitVec 4
deriving DecidableEq, Repr

/-- vx.cvt.pP; `p` is the part the minor opcode carries (R137, R157). -/
structure VcvtOp where
  p : BitVec 3
  vD : BitVec 4
  vS : BitVec 4
  fs : BitVec 4
  fd : BitVec 4
  rm : BitVec 3
  sat : BitVec 1
deriving DecidableEq, Repr

/-- vx.cut (R157). -/
structure VcutOp where
  tD : BitVec 3
  gC : BitVec 5
  fs : BitVec 4
  fd : BitVec 3
  bdir : BitVec 1
  rm : BitVec 3
  sat : BitVec 1
deriving DecidableEq, Repr

/-- vx.uncut (R157). -/
structure VuncutOp where
  tS : BitVec 3
  gC : BitVec 5
  fd : BitVec 4
  rsv : BitVec 4
  rm : BitVec 3
  sat : BitVec 1
deriving DecidableEq, Repr

/-- vx.ld and vx.st (R157). -/
structure VldOp where
  v : BitVec 4
  gA : BitVec 5
  rsv : BitVec 11
deriving DecidableEq, Repr

/-- vx.ldt, vx.ldc, vx.wrt and vx.wrc (R157). -/
structure VtOp where
  v : BitVec 4
  t : BitVec 3
  gR : BitVec 5
  rsv : BitVec 8
deriving DecidableEq, Repr

/-- vx.bcast (R157). -/
structure VbcastOp where
  vD : BitVec 4
  gS : BitVec 5
  f : BitVec 4
  rsv : BitVec 7
deriving DecidableEq, Repr

/-- vx.bob (R157). -/
structure VbobOp where
  vD : BitVec 4
  gR : BitVec 5
  gE : BitVec 5
  rsv : BitVec 6
deriving DecidableEq, Repr

/-- vx.vred (R157). -/
structure VvredOp where
  uD : BitVec 3
  vS : BitVec 4
  op : BitVec 3
  f : BitVec 4
  acc : BitVec 1
  rm : BitVec 3
  rsv : BitVec 2
deriving DecidableEq, Repr

/-- vx.tred (R157). -/
structure VtredOp where
  vD : BitVec 4
  tS : BitVec 3
  dir : BitVec 1
  op : BitVec 3
  rm : BitVec 3
  rsv : BitVec 6
deriving DecidableEq, Repr

/-- vx.tamax (R157). -/
structure VtamaxOp where
  uD : BitVec 3
  tS : BitVec 3
  acc : BitVec 1
  rsv : BitVec 13
deriving DecidableEq, Repr

/-- vx.rdiff (R157). -/
structure VrdiffOp where
  uD : BitVec 3
  vA : BitVec 4
  vB : BitVec 4
  f : BitVec 4
  acc : BitVec 1
  rsv : BitVec 4
deriving DecidableEq, Repr

/-- vx.gacc (R157). -/
structure VgaccOp where
  aD : BitVec 2
  vS : BitVec 4
  f : BitVec 4
  m : BitVec 1
  gC : BitVec 5
  rsv : BitVec 4
deriving DecidableEq, Repr

/-- vx.gtacc (R157). -/
structure VgtaccOp where
  aD : BitVec 2
  tS : BitVec 3
  dir : BitVec 1
  gC : BitVec 5
  rsv : BitVec 9
deriving DecidableEq, Repr

/-- vx.gdot (R157). -/
structure VgdotOp where
  aD : BitVec 2
  vA : BitVec 4
  vB : BitVec 4
  w : BitVec 1
  gC : BitVec 5
  rsv : BitVec 4
deriving DecidableEq, Repr

/-- vx.grd (R157). -/
structure VgrdOp where
  vD : BitVec 4
  aS : BitVec 2
  gC : BitVec 5
  rsv : BitVec 9
deriving DecidableEq, Repr

/-- vx.gcvt (R157). -/
structure VgcvtOp where
  vD : BitVec 4
  aS : BitVec 2
  gC : BitVec 5
  fd : BitVec 4
  rm : BitVec 3
  sat : BitVec 1
  rsv : BitVec 1
deriving DecidableEq, Repr

/-- vx.gcomb (R157). -/
structure VgcombOp where
  aD : BitVec 2
  gA : BitVec 5
  rsv : BitVec 13
deriving DecidableEq, Repr

/-- vx.gdec (R157). -/
structure VgdecOp where
  aD : BitVec 2
  gL : BitVec 5
  uD : BitVec 3
  rsv : BitVec 10
deriving DecidableEq, Repr

/-- vx.evt (R157). -/
structure VevtOp where
  uD : BitVec 3
  rsv : BitVec 17
deriving DecidableEq, Repr

/-- vx.pick (R157). -/
structure VpickOp where
  uD : BitVec 3
  vS : BitVec 4
  gI : BitVec 5
  f : BitVec 4
  rsv : BitVec 4
deriving DecidableEq, Repr

/-- vx.uset (R157). -/
structure VusetOp where
  uD : BitVec 3
  gS : BitVec 5
  rsv : BitVec 12
deriving DecidableEq, Repr

/-- vx.srctx (R157). -/
structure VsrctxOp where
  gR : BitVec 5
  gE : BitVec 5
  rsv : BitVec 10
deriving DecidableEq, Repr

/-- vx.trk (R157). -/
structure VtrkOp where
  uS : BitVec 3
  gE : BitVec 5
  f : BitVec 4
  rsv : BitVec 8
deriving DecidableEq, Repr

/-- The kinds of decision on a reduction group (R84, R123 DEC_KIND, R307 CX_CTRL). -/
inductive DecKind where
  | done
  | raise
  | exhausted
deriving DecidableEq, Repr

/-- Who asks: the parties that read and write pages and memory (R541, R255, R271). -/
inductive Party where
  | mgmt
  | host (port : BitVec 2)
  | tile (module : BitVec 3) (t : Tile)
deriving DecidableEq, Repr

/-- A queue of the host interface: the management queue of a port, or one of its data queues (R510, R518). -/
structure QRef where
  port : BitVec 2
  mgmt : Bool
  q : BitVec 8
deriving DecidableEq, Repr

/-- The link classes of a cell header (R305). -/
inductive LinkClass where
  | sch | lse | rcv | mgt | tim | res5 | res6 | null
deriving DecidableEq, Repr

/-- A packet header (R307). -/
structure PktHdr where
  type : Nat
  flags : Nat
  len : Nat
  origin : Nat
  psn : Nat
  addr : Nat
deriving DecidableEq, Repr

/-- A cell: its header (R305) and its 64 bytes of payload; a cell that waits in a queue or in the replay buffer of its
port also knows the packet that it is part of. -/
structure Cell where
  cls : LinkClass
  head : Bool
  tail : Bool
  seq : Nat
  data : List Byte
  pkt : Option (PktHdr × List Byte)
deriving DecidableEq, Repr

/-- The frame control block of a received frame (R304). -/
structure Fcb where
  frameNo : Nat
  rot : Nat
  rotNext : Nat
  nakValid : Bool
  idleFault : Bool
  lull : Bool
  portRetire : Bool
  ack : Nat
  nak : Nat
  credit : List Nat
  txFrame : Nat
  rxFrame : Nat
  tstate : Nat
  hops : Nat
  txStamp : Nat
  rxStamp : Nat
deriving DecidableEq, Repr

/-- A received frame as the decoder hands it on (R303): corrected symbols per position, whether a codeword of a position
was uncorrectable or the FCS failed, the FCB, the cells, and when in the current tick of hall time its timing point came,
in 2^-16 of a tick (R341). -/
structure Frame where
  corrected : Nat
  badPos : List Nat
  fcsOk : Bool
  fcb : Fcb
  cells : List Cell
  phase : BitVec 16
deriving DecidableEq, Repr

/-- What a port hears in one frame time: a frame as its decoder would hand it on, or the light of its nine wavelengths
(none for one that is dark), which the model decodes, with the time of the timing point as in `Frame`. -/
inductive Heard where
  | frame (f : Frame)
  | light (lanes : List (List Level)) (phase : BitVec 16)
deriving DecidableEq, Repr

/-- What the training of a port found (R312, R320, R335, R480): the wavelengths that locked, the peer and the round trip, and
by wavelength the launch power and the transmit and the receive setting. -/
structure Training where
  locked : List Nat
  rack : Nat
  bolt : Nat
  module : Nat
  port : Nat
  rtt : Nat
  txPower : List Int
  eq : List (Nat × Nat)
  attempts : Nat
deriving DecidableEq, Repr

/-- The data of an ANNOUNCE packet (R353). -/
structure Announce where
  rootId : Nat
  priority : Nat
  hops : Nat
  tstate : Nat
  now : Nat
deriving DecidableEq, Repr

/-- The IEEE 1588 messages that a slave of the delay request-response mechanism receives (R355), with the times that they
carry in units of 2^-16 ns: a Sync of a one-step master carries its departure, that of a two-step master leaves it to the
Follow_Up; a Delay_Resp carries the arrival of the slave's Delay_Req. -/
inductive PtpKind where
  | sync (origin : Option Nat)
  | followUp (origin : Nat)
  | delayResp (arrival : Nat)
deriving DecidableEq, Repr

/-- An IEEE 1588 message (R355): its domain, whether it came over UDP on IPv4 or IPv6, its sequence number, and when in
the current tick of hall time it arrived, in 2^-16 of a tick. -/
structure PtpMsg where
  domain : BitVec 8
  udp : Bool
  seq : BitVec 16
  kind : PtpKind
  phase : BitVec 16
deriving DecidableEq, Repr

/-- An Internet address (R508). -/
inductive IpAddr where
  | v4 (a : BitVec 32)
  | v6 (a : BitVec 128)
deriving DecidableEq, Repr

/-- A RoCEv2 packet (R509): OPCODE and destination QP of its base transport header, the bytes of its payload, and whether
it is ECN-marked. -/
structure RocePkt where
  opcode : Byte
  qpn : Nat
  len : Nat
  ecn : Bool
deriving DecidableEq, Repr

/-- What an Ethernet frame carries (R497, R508, R509): an ARP request or a neighbour solicitation for an address, an ICMP
echo request, a datagram to an IPv6 multicast group with its UDP port, IEEE 1588 traffic, a RoCEv2 packet, other traffic
to an address, an IEEE 802.1Qbb frame with the quanta of its eight priorities (none where the frame leaves one out), or
anything else. -/
inductive EthKind where
  | arp (target : BitVec 32)
  | nd (target : BitVec 128)
  | icmpEcho (dst : IpAddr)
  | multicast (udpPort : Nat)
  | ptp
  | roce (dst : IpAddr) (pkt : RocePkt)
  | ip (dst : IpAddr)
  | pfc (quanta : List (Option Nat))
  | other
deriving DecidableEq, Repr

/-- An Ethernet frame (R508, R534): its destination address, the corrected and the uncorrectable FEC codewords since the
frame before, and what it carries. -/
structure EthFrame where
  dst : BitVec 48
  corr : Nat
  uncorr : Nat
  kind : EthKind
deriving DecidableEq, Repr

/-- What the memory test and training of B3 find (R276, R282): channels that fail training, LPDDR5X lines that the test
finds uncorrectable, and bank rows that fail, as (physical tile, bank, bank row). -/
structure B3Obs where
  trainFail : List Nat
  badLines : List Nat
  badRows : List (Nat × Nat × Nat)
deriving DecidableEq, Repr

/-- What the tile test of B4 finds (R391, R433): failing tiles with the failing test, and bobbin mismatches of the BB
engine by input. -/
structure B4Obs where
  fails : List (Nat × Nat)
  katFail : List Nat
deriving DecidableEq, Repr

/-- What B0 finds (R476): the root PLL locked and the rails in range, or the rail out of range with its voltage. -/
structure B0Obs where
  pllLocked : Bool
  badRail : Option (Nat × Nat)
deriving DecidableEq, Repr

/-- A receiver's state at a status (R495). -/
inductive XferStatus where
  | incomplete (missing : List Nat)
  | digestOk
  | digestBad
deriving DecidableEq, Repr

/-- Where a sync signal or a packet comes from (R239, R255). -/
inductive Sender where
  | tile (module : BitVec 3) (t : Tile)
  | dma (module : BitVec 3) (t : Tile) (desc : BitVec 16)
  | cxu
  | mgmt
  | host (q : QRef)
deriving DecidableEq, Repr

/-- Where a collective packet comes from (R329): a local tile's stream, a child edge, the parent edge, or the ring
predecessor, by port group. -/
inductive CxSrc where
  | localTile (t : Tile)
  | child (g : BitVec 4)
  | parent
  | ring
deriving DecidableEq, Repr

/-- Management-defined recovery packets (R307, R442, R245, R445, R450); `regionData` and `regionAck` answer a read and a
write of the twin-keep region, and `homePart` carries a part of a home region to a module of another bolt. -/
inductive RcvMsg where
  | jobHold
  | lost (module : BitVec 3) (t : Option Tile)
  | regionRead (off len : Nat)
  | regionWrite (off : Nat) (data : List Byte)
  | regionData (off rsp : Nat) (data : List Byte)
  | regionAck (off rsp : Nat)
  | homePart (bolt module : BitVec 3) (off : Nat) (data : List Byte)
  | other (data : List Byte)
deriving DecidableEq, Repr

/-- What drives fail-safe (the rows of R447). -/
inductive FsTrigger where
  | integrity
  | fuses
  | pllLoss
  | refLoss
  | crossing
  | cxResidue
  | rail (r : BitVec 3)
  | temperature
  | mgmtMemory
  | other
deriving DecidableEq, Repr

/-- How a test slice ends (R431, R433). -/
inductive SliceEnd where
  | done (percent : Nat)
  | interrupted
  | failed (test : Nat)
deriving DecidableEq, Repr

/-- How a SEGMENT arrives (R494, R497, R499): as a datagram on an Ethernet port, for the module itself, or by the NoC at
the load port of a tile. -/
inductive SegSrc where
  | net (port : BitVec 2) (datagram : List Byte)
  | noc (t : Tile) (index : Nat)
deriving DecidableEq, Repr

/-- How an END arrives (R495, R497, R499), with the key that a firmware image carries (R523). -/
inductive EndSrc where
  | net (port : BitVec 2) (datagram key : List Byte)
  | noc (t : Tile)
deriving DecidableEq, Repr

/-- A debug token as presented (R529): the identity, power cycle and challenge that it signs, its SCOPE, its signer's key
and the signature (R523). -/
structure Token where
  dieId : BitVec 64
  pcycle : Nat
  challenge : List W32
  scope : BitVec 2
  key : List Byte
  sig : List Byte
deriving DecidableEq, Repr

/-- What an owner record holds (R525): DIE_ID, COUNTER, the new owner key, its signer's key and the signature (R523). -/
structure OwnerRec where
  dieId : BitVec 64
  counter : BitVec 32
  key : List Byte
  signer : List Byte
  sig : List Byte
deriving DecidableEq, Repr

/-- An authorisation of a life-cycle transition (R528): the DIE_ID and LC_COUNT to which it is bound, the target state, its
signer's key and the signature (R523). -/
structure LcAuth where
  dieId : BitVec 64
  lcCount : Byte
  target : Byte
  key : List Byte
  sig : List Byte
deriving DecidableEq, Repr

/-- What an in-field test package holds besides its content (R430): its version, how many of its first bytes are signed, its
signer's key and the signature (R523). -/
structure PkgInfo where
  version : W32
  signed : Nat
  key : List Byte
  sig : List Byte
deriving DecidableEq, Repr

/-- A command of the JT-860 block: one constructor per row of the table of operations and events. -/
inductive Instr where
  -- control core: scalar instructions (R171 to R173)
  | cAdd (t : Tile) (o : ROp)
  | cSub (t : Tile) (o : ROp)
  | cAnd (t : Tile) (o : ROp)
  | cOr (t : Tile) (o : ROp)
  | cXor (t : Tile) (o : ROp)
  | cShl (t : Tile) (o : ROp)
  | cShr (t : Tile) (o : ROp)
  | cSar (t : Tile) (o : ROp)
  | cMul (t : Tile) (o : ROp)
  | cMulhu (t : Tile) (o : ROp)
  | cMulh (t : Tile) (o : ROp)
  | cDivu (t : Tile) (o : ROp)
  | cRemu (t : Tile) (o : ROp)
  | cMin (t : Tile) (o : ROp)
  | cMax (t : Tile) (o : ROp)
  | cMinu (t : Tile) (o : ROp)
  | cMaxu (t : Tile) (o : ROp)
  | cSel (t : Tile) (o : ROp)
  | cSextb (t : Tile) (o : ROp)
  | cSexth (t : Tile) (o : ROp)
  | cSextw (t : Tile) (o : ROp)
  | cClz (t : Tile) (o : ROp)
  | cPopc (t : Tile) (o : ROp)
  | cAddi (t : Tile) (o : IOp)
  | cAndi (t : Tile) (o : IOp)
  | cOri (t : Tile) (o : IOp)
  | cXori (t : Tile) (o : IOp)
  | cShi (t : Tile) (o : IOp)
  | cMovz (t : Tile) (o : UOp)
  | cMovk (t : Tile) (o : UOp)
  | cGetu (t : Tile) (o : RfOp)
  | cCmp (t : Tile) (o : CmpOp)
  | cCmpi (t : Tile) (o : CmpiOp)
  | predicateAnd (t : Tile) (o : PredOp)
  | predicateOr (t : Tile) (o : PredOp)
  | predicateXor (t : Tile) (o : PredOp)
  | predicateAndn (t : Tile) (o : PredOp)
  | predicateNot (t : Tile) (o : PredOp)
  -- control core: data store, loose accesses, control flow, pages (R174 to R181)
  | cLdb (t : Tile) (o : IOp) (ecc : Ecc)
  | cLdh (t : Tile) (o : IOp) (ecc : Ecc)
  | cLdw (t : Tile) (o : IOp) (ecc : Ecc)
  | cLdd (t : Tile) (o : IOp) (ecc : Ecc)
  | cStb (t : Tile) (o : IOp) (ecc : Ecc)
  | cSth (t : Tile) (o : IOp) (ecc : Ecc)
  | cStw (t : Tile) (o : IOp) (ecc : Ecc)
  | cStd (t : Tile) (o : IOp) (ecc : Ecc)
  | cLld (t : Tile) (o : IOp)
  | cLst (t : Tile) (o : IOp)
  | cLldw (t : Tile) (o : IOp)
  | cLstw (t : Tile) (o : IOp)
  | cLfence (t : Tile) (o : RfOp)
  | cBr (t : Tile) (o : BrOp)
  | cJal (t : Tile) (o : JOp)
  | cJr (t : Tile) (o : RfOp)
  | cTret (t : Tile) (o : RfOp)
  | cTrap (t : Tile) (o : TrapOp)
  | cHalt (t : Tile) (o : RfOp)
  | cSleep (t : Tile) (o : RfOp)
  | pgRd (t : Tile) (o : POp)
  | pgWr (t : Tile) (o : POp)
  | cRdv (t : Tile) (o : IOp)
  -- DMA, sync and mailbox instructions (R182 to R186, R225 to R229)
  | dmGo (t : Tile) (o : RfOp) (ecc : Ecc)
  | dmFence (t : Tile) (o : RfOp)
  | sySig (t : Tile) (o : RfOp)
  | sySigi (t : Tile) (o : SigiOp)
  | syWait (t : Tile) (o : RfOp)
  | syWaitTimeout (t : Tile)
  | syTackArrive (t : Tile) (o : TackOp)
  | syTackWait (t : Tile) (o : TackOp)
  | syTackArriveWait (t : Tile) (o : TackOp)
  | syRealign (t : Tile) (o : RfOp) (ecc : Ecc)
  | realignTimeout (t : Tile)
  | realignOverdue (t : Tile)
  | mbSend (t : Tile) (o : RfOp) (ecc : Ecc)
  | mbRecv (t : Tile) (o : RfOp)
  -- matrix engine (R96 to R121)
  | mxOpen (t : Tile) (o : OpenOp)
  | mxMma (t : Tile) (o : MmaOp) (upset : Option Upset)
  | mxClose (t : Tile) (o : CloseOp) (upset : Option Upset)
  | mxSt (t : Tile) (o : MxStOp) (upset : Option Upset)
  | mxLa (t : Tile) (o : MxLaOp) (ecc : Ecc)
  | mxLt (t : Tile) (o : LtOp) (ecc : Ecc)
  | mxStt (t : Tile) (o : SttOp) (ecc : Ecc)
  | mxTag (t : Tile) (o : TagOp)
  | mxDrop (t : Tile) (o : DropOp)
  | decision (t : Tile) (gid : BitVec 24) (kind : DecKind) (hem : BitVec 16) (attempt : BitVec 3)
  | basteCheck (t : Tile) (err : BitVec 64)
  -- vector engine (R124 to R160)
  | vxAdd (t : Tile) (o : VfOp) (upset : Option Upset)
  | vxSub (t : Tile) (o : VfOp) (upset : Option Upset)
  | vxMul (t : Tile) (o : VfOp) (upset : Option Upset)
  | vxDiv (t : Tile) (o : VfOp) (upset : Option Upset)
  | vxFma (t : Tile) (o : VfOp) (upset : Option Upset)
  | vxMin (t : Tile) (o : VfOp)
  | vxMax (t : Tile) (o : VfOp)
  | vxSqrt (t : Tile) (o : VuOp) (upset : Option Upset)
  | vxRcp (t : Tile) (o : VuOp) (upset : Option Upset)
  | vxRsqrt (t : Tile) (o : VuOp) (upset : Option Upset)
  | vxExp2 (t : Tile) (o : VuOp) (upset : Option Upset)
  | vxLog2 (t : Tile) (o : VuOp) (upset : Option Upset)
  | vxAbs (t : Tile) (o : VuOp)
  | vxNeg (t : Tile) (o : VuOp)
  | vxIadd (t : Tile) (o : ViOp) (upset : Option Upset)
  | vxIsub (t : Tile) (o : ViOp) (upset : Option Upset)
  | vxImul (t : Tile) (o : ViOp) (upset : Option Upset)
  | vxAnd (t : Tile) (o : ViOp)
  | vxOr (t : Tile) (o : ViOp)
  | vxXor (t : Tile) (o : ViOp)
  | vxShl (t : Tile) (o : ViOp)
  | vxShr (t : Tile) (o : ViOp)
  | vxCmp (t : Tile) (o : VcmpOp)
  | vxSel (t : Tile) (o : VselOp)
  | vxCvt (t : Tile) (o : VcvtOp)
  | vxCut (t : Tile) (o : VcutOp) (ecc : Ecc)
  | vxUncut (t : Tile) (o : VuncutOp) (ecc : Ecc)
  | vxLd (t : Tile) (o : VldOp) (ecc : Ecc)
  | vxSt (t : Tile) (o : VldOp)
  | vxLdt (t : Tile) (o : VtOp)
  | vxLdc (t : Tile) (o : VtOp)
  | vxWrt (t : Tile) (o : VtOp)
  | vxWrc (t : Tile) (o : VtOp)
  | vxBcast (t : Tile) (o : VbcastOp)
  | vxBob (t : Tile) (o : VbobOp)
  | vxVred (t : Tile) (o : VvredOp) (upset : Option Upset)
  | vxTred (t : Tile) (o : VtredOp) (upset : Option Upset)
  | vxTamax (t : Tile) (o : VtamaxOp)
  | vxRdiff (t : Tile) (o : VrdiffOp) (upset : Option Upset)
  | vxGacc (t : Tile) (o : VgaccOp) (upset : Option Upset)
  | vxGtacc (t : Tile) (o : VgtaccOp) (upset : Option Upset)
  | vxGdot (t : Tile) (o : VgdotOp) (upset : Option Upset)
  | vxGrd (t : Tile) (o : VgrdOp) (upset : Option Upset)
  | vxGcvt (t : Tile) (o : VgcvtOp) (upset : Option Upset)
  | vxGcomb (t : Tile) (o : VgcombOp) (upset : Option Upset) (ecc : Ecc)
  | vxGdec (t : Tile) (o : VgdecOp) (ecc : Ecc)
  | vxEvt (t : Tile) (o : VevtOp)
  | vxPick (t : Tile) (o : VpickOp)
  | vxUset (t : Tile) (o : VusetOp)
  | vxSrctx (t : Tile) (o : VsrctxOp)
  | vxTrk (t : Tile) (o : VtrkOp)
  -- traps, program control, stalls, DMA transfers, fences (R166, R183 to R196, R206, R434)
  | trapEntry (t : Tile) (fetch : Ecc)
  | programStart (t : Tile)
  | globalStall (t : Tile) (row : BitVec 4)
  | stallResume
  | dmaTransferStart (t : Tile) (ecc : Ecc)
  | dmaTransferComplete (t : Tile) (rsp : BitVec 8) (remote : List Byte) (ecc : Ecc)
  | tileWake (t : Tile)
  | wake (t : Tile)
  | fence (t : Tile)
  -- stitches (R211 to R224)
  | stitchBoundary
  | passBoundary
  | programStitchStart
  | restStitch
  | hold (port : BitVec 6) (h : BitVec 32) (n : BitVec 4)
  | load (q : QRef) (key : List Byte)
  -- signals, tack lines, mailboxes, doldrums (R236 to R264)
  | signal (src : Sender) (word : BitVec 64)
  | lostNotice (module : BitVec 3) (x : Option Tile)
  | tackLineComplete (k : BitVec 4)
  | tack (module : BitVec 3) (k : BitVec 4) (gen : BitVec 8)
  | mailbox (port : Option (BitVec 6)) (stamp : W32) (word : BitVec 64) (data : List Byte) (rcv : Bool)
  | doldrums
  -- memories and loose traffic (R269 to R294)
  | scrub (ptile : Nat) (off : Nat) (ecc : Ecc) (synd : BitVec 8)
  | refresh (pkg : BitVec 4) (rate : BitVec 8) (doubled : Bool) (waits : Nat)
  | lseRead (src : Party) (addr : BitVec 48) (size : Nat) (tag : Nat) (ecc : Ecc)
  | lseWrite (src : Party) (addr : BitVec 48) (data : List Byte) (tag : Nat) (ecc : Ecc)
  | lseResp (t : Tile) (tag : Nat) (rsp : BitVec 8) (data : List Byte)
  -- links and collectives (R300 to R339)
  | frame (port : BitVec 6) (f : Heard)
  | tryTimeout (port : BitVec 6)
  | failoverComplete (port : BitVec 6)
  | wavelengthFail (port : BitVec 6) (w : BitVec 4)
  | rotationStep (port : BitVec 6)
  | portEnable (port : BitVec 6)
  | portDisable (port : BitVec 6)
  | trainingComplete (port : BitVec 6) (tr : Training)
  | calibration (port : BitVec 6) (bad : List Nat)
  | calWl (port : BitVec 6) (w : BitVec 4) (ok : Bool)
  | stream (port : BitVec 6) (hdr : PktHdr) (data : List Byte) (whole : Bool)
  | streamCredit (port : BitVec 6) (data : List Byte)
  | cxData (src : CxSrc) (gid : BitVec 24) (attempt : BitVec 3) (chunk : Nat) (hem : BitVec 16) (data : List Byte) (last : Bool) (upset : Option Upset)
  | verdict (src : CxSrc) (gid : BitVec 24) (attempt : BitVec 3) (overflow : Bool)
  | abort (src : CxSrc) (gid : BitVec 24)
  | rcv (port : BitVec 6) (m : RcvMsg)
  | mgt (port : BitVec 6) (data : List Byte)
  -- hall time and clocks (R340 to R367)
  | announce (port : BitVec 6) (data : List Byte)
  | announceSend
  | echoReq (port : BitVec 6) (data : List Byte)
  | echoAck (port : BitVec 6) (data : List Byte)
  | echoPathClose (port : BitVec 6) (w : BitVec 4)
  | echoMeasurement (port : BitVec 6) (own1 own2 peer : List (Nat × Nat))
  | filterPeriod (offset freq refPpb : Int)
  | holdoverExpiry
  | ptpFallback
  | ptpMessage (port : BitVec 2) (m : PtpMsg)
  | time1pps
  | asymExpiry (port : BitVec 6)
  | t0Arm (value : BitVec 64)
  | pllLoss (link : Bool)
  | refLoss
  | recoveredClockLost (g : BitVec 4)
  | ethPllLoss
  | fifoResync (x : BitVec 8)
  | xingErr (x : BitVec 8)
  -- training numerics (R370 to R399)
  | observation (entry : BitVec 12) (x : W32)
  | nmCommit
  | nmLoad
  | coldAll
  | stepBoundary
  | bbGo
  | bbKat
  | katFailed
  -- stow, in-field test, recovery, twin, fail-safe (R409 to R461)
  | stow (q : QRef)
  | stowSave
  | resume (q : QRef) (t0 : BitVec 64)
  | itDue (ptile : Nat)
  | itSlice (ptile len window : Nat) (e : SliceEnd)
  | itOverdue (ptile : Nat)
  | jobHold (from_ : Option (BitVec 6))
  | drainComplete
  | recoveryRestart (t0 : BitVec 64)
  | tileRemap (t : Tile) (o3 : B3Obs) (o4 : B4Obs)
  | moduleReplacement (spare : BitVec 3) (twin : Bool)
  | plannedDetach
  | twCommit (rsp : BitVec 8)
  | twSeed (rsp : BitVec 8)
  | failSafe (trig : FsTrigger)
  | lullMode (memOk : Bool)
  -- the logbook (R462 to R475)
  | recordAcceptance
  | mirror (flashOk : Bool)
  | timeStoreWrite
  | evClear
  | optReinit
  | calSec (v : W32)
  | evRecW0Read
  -- bring-up and firmware distribution (R476 to R507)
  | b0 (ms : Nat) (o : B0Obs)
  | b1 (ms : Nat)
  | b2 (ms : Nat) (key : List Byte)
  | b3 (ms : Nat) (o : B3Obs)
  | b4 (ms : Nat) (o : B4Obs)
  | b5 (ms : Nat)
  | b6 (ms : Nat)
  | b7 (ms : Nat) (key : List Byte)
  | b8 (ms : Nat)
  | mgGo
  | runAll
  | recoveryReq
  | segment (m : SegSrc)
  | endRound (m : EndSrc)
  | status (t : Tile) (st : XferStatus)
  | statusWindow
  | activate (port : BitVec 2) (datagram : List Byte)
  | manifest (q : QRef) (key : List Byte)
  -- host interface and security (R508 to R539)
  | ethFrame (port : BitVec 2) (f : EthFrame)
  | linkDown (port : BitVec 2) (rxFault : Bool)
  | cmReq (port : BitVec 2) (qpn : Nat) (service : BitVec 64)
  | cmRtu (port : BitVec 2) (qpn : Nat)
  | cmDreq (port : BitVec 2) (qpn : Nat)
  | rdmaWrite (port : BitVec 2) (qpn : Nat) (key : W32) (va : BitVec 64) (data : List Byte) (imm : Option W32)
  | rdmaRead (port : BitVec 2) (qpn : Nat) (key : W32) (va : BitVec 64) (len : Nat)
  | cnp (port : BitVec 2) (qpn : Nat)
  | mqSetup (port : BitVec 2) (data : List Byte)
  | doorbell (q : QRef) (value : BitVec 64)
  | consumed (q : QRef) (value : BitVec 64)
  | completion (q : QRef)
  | nop (q : QRef)
  | copyIn (q : QRef) (data : List Byte) (syndrome : Nat)
  | copyOut (q : QRef) (syndrome : Nat)
  | signalCommand (q : QRef)
  | mailboxCommand (q : QRef)
  | queueCreate (q : QRef)
  | queueDestroy (q : QRef)
  | region (q : QRef)
  | regionFree (q : QRef)
  | reset (q : QRef)
  | regRead (q : QRef)
  | regWrite (q : QRef)
  | logRead (q : QRef)
  | twinRead (q : QRef)
  | itPackage (q : QRef) (p : PkgInfo)
  | fwEpoch (q : QRef)
  | quote (q : QRef)
  | identity (q : QRef)
  | ownerSet (q : QRef) (r : OwnerRec)
  | lcTransition (q : QRef) (owner vendor : Option LcAuth)
  | debugToken (q : QRef) (tk : Token)
  | lcToken (tk : Token)
  | newChallenge
  | entropyHealth (adaptive : Bool)
  -- register pages (R540 to R550)
  | registerWrite (page : Nat) (off : BitVec 12) (v : W32)
  | pgFaultForce (page : Nat) (v : W32)
  | clrCnt (page : Nat)
  | readLatch (page : Nat) (off : BitVec 12)
  | readToClear (page : Nat) (off : BitVec 12)
  -- rails, temperatures, lasers, pins, SMBus (R554 to R578)
  | railWarn (r : BitVec 3) (mv : Nat)
  | railFault (r : BitVec 3) (mv : Nat)
  | capThrottle (watts : Nat)
  | capRelease (watts : Nat)
  | tempHigh (sensor : BitVec 4) (temp : Int)
  | thermAlertRelease (temps : List Int)
  | tempShutdown (sensor : BitVec 4) (temp : Int)
  | dutyUpdate (temps : List Int)
  | throttle
  | inletWarn (temp : Int)
  | laserFail (g : BitVec 4) (w : BitVec 4)
  | laserLow (g : BitVec 4) (w : BitVec 4)
  | rxLos (port : BitVec 6) (w : BitVec 4)
  | engineTempHigh (g : BitVec 4) (temp : Nat)
  | stbyValid
  | mainApplied (mv : Nat)
  | pwrOk (mvs : List Nat)
  | resetN (high : Bool)
  | mainFault (mv : Nat)
  | stbyLoss
  | twinPresent (high : Bool)
  | smbStatus
  | smbPower
  | smbTemperature
  | smbHeadSeq
  | smbLogSlot
  | smbDieId
  | smbSlotSelect (slot : BitVec 16)
  -- responses and the far halves of exchanges (R239, R256, R302, R331, R439, R509, R529, R533)
  | frameSend (port : BitVec 6) (phase : BitVec 16)
  | signalResponse (t : Tile) (word : BitVec 64) (rsp : BitVec 8)
  | mailboxResponse (t : Tile) (word : BitVec 64) (status : BitVec 3)
  | cxCtrl (src : CxSrc) (gid : BitVec 24) (kind : DecKind) (hem : BitVec 16) (attempt : BitVec 3)
  | stepCommitted
  | linkUp (port : BitVec 2)
  | ethPllRelock
  | refclk100Return
  | transportRetry (port : BitVec 2) (qpn : Nat) (rnr : Bool)
  | lcChallenge
deriving DecidableEq, Repr

end Sys2Proof
end

