-- ==== Sys2Proof/Decode.lean ====
section
/-! DEFINITION. The decoders. A word of a tile's instruction store spells an instruction (R119, R157, R167, R169 to R173,
R185). The rows of the table of operations and events give no bits of their own: the decoder that the host asks for reads the
words of those rows that are instructions, as the instructions of tile 0. -/

namespace Sys2Proof

/-- The field of an instruction word whose lowest bit is `lo`; its width is that of the operand. -/
def fldAt (w : W32) (lo : Nat) {n : Nat} : BitVec n := w.extractLsb' lo n

/-- The operands of a control-core word, format by format (R167, R172, R173, R174, R185). -/
def decR (w : W32) : ROp := { gD := fldAt w 21, gA := fldAt w 16, gB := fldAt w 11, pG := fldAt w 8 }
def decRf (w : W32) : RfOp := { gD := fldAt w 21, gA := fldAt w 16, gB := fldAt w 11, pG := fldAt w 8, fn := fldAt w 0 }
def decI (w : W32) : IOp := { gD := fldAt w 21, gA := fldAt w 16, pG := fldAt w 13, imm := fldAt w 0 }
def decU (w : W32) : UOp := { gD := fldAt w 21, pos := fldAt w 19, pG := fldAt w 16, imm := fldAt w 0 }
def decCmp (w : W32) : CmpOp :=
  { rsv := fldAt w 24, pD := fldAt w 21, gA := fldAt w 16, gB := fldAt w 11, pG := fldAt w 8, fn := fldAt w 0 }
def decCmpi (w : W32) : CmpiOp :=
  { rsv := fldAt w 24, pD := fldAt w 21, gA := fldAt w 16, pG := fldAt w 13, imm := fldAt w 0 }
def decPred (w : W32) : PredOp :=
  { rsv1 := fldAt w 24, pD := fldAt w 21, rsv2 := fldAt w 19, pA := fldAt w 16, rsv3 := fldAt w 14, pB := fldAt w 11,
    pG := fldAt w 8 }
def decBr (w : W32) : BrOp := { pG := fldAt w 23, n := fldAt w 22, off := fldAt w 0 }
def decJ (w : W32) : JOp := { gD := fldAt w 21, off := fldAt w 0 }
def decTrap (w : W32) : TrapOp := { rsv := fldAt w 16, pG := fldAt w 13, imm := fldAt w 0 }
def decP (w : W32) : POp :=
  { gD := fldAt w 21, gA := fldAt w 16, pG := fldAt w 13, rsv := fldAt w 12, sel := fldAt w 10, word := fldAt w 0 }
def decSigi (w : W32) : SigiOp := { ctr := fldAt w 20, rsv := fldAt w 16, pG := fldAt w 13, n := fldAt w 0 }
def decTack (w : W32) : TackOp :=
  { k := fldAt w 22, b := fldAt w 19, rsv1 := fldAt w 16, pG := fldAt w 13, rsv2 := fldAt w 0 }

/-- Scalar arithmetic by FN (R171); FN 0x17 on is reserved. -/
def decScalar (t : Tile) (w : W32) : Option Instr :=
  let o := decR w
  match w.toNat % 256 with
  | 0x00 => some (.cAdd t o)
  | 0x01 => some (.cSub t o)
  | 0x02 => some (.cAnd t o)
  | 0x03 => some (.cOr t o)
  | 0x04 => some (.cXor t o)
  | 0x05 => some (.cShl t o)
  | 0x06 => some (.cShr t o)
  | 0x07 => some (.cSar t o)
  | 0x08 => some (.cMul t o)
  | 0x09 => some (.cMulhu t o)
  | 0x0A => some (.cMulh t o)
  | 0x0B => some (.cDivu t o)
  | 0x0C => some (.cRemu t o)
  | 0x0D => some (.cMin t o)
  | 0x0E => some (.cMax t o)
  | 0x0F => some (.cMinu t o)
  | 0x10 => some (.cMaxu t o)
  | 0x11 => some (.cSel t o)
  | 0x12 => some (.cSextb t o)
  | 0x13 => some (.cSexth t o)
  | 0x14 => some (.cSextw t o)
  | 0x15 => some (.cClz t o)
  | 0x16 => some (.cPopc t o)
  | _ => none

/-- Predicate logic by FN (R173); FN 5 on is reserved. -/
def decPredicate (t : Tile) (w : W32) : Option Instr :=
  let o := decPred w
  match w.toNat % 256 with
  | 0 => some (.predicateAnd t o)
  | 1 => some (.predicateOr t o)
  | 2 => some (.predicateXor t o)
  | 3 => some (.predicateAndn t o)
  | 4 => some (.predicateNot t o)
  | _ => none

/-- sy.tack by OP (R185, R249); OP 3 is illegal. -/
def decSyTack (t : Tile) (w : W32) : Option Instr :=
  match bits w.toNat 21 20 with
  | 0 => some (.syTackArrive t (decTack w))
  | 1 => some (.syTackWait t (decTack w))
  | 2 => some (.syTackArriveWait t (decTack w))
  | _ => none

/-- The MXE class by minor opcode (R119); 0x9 to 0xF are reserved. -/
def decMx (t : Tile) (w : W32) : Option Instr :=
  match bits w.toNat 25 22 with
  | 0 => some (.mxOpen t { aD := fldAt w 20, layout := fldAt w 19, hsrc := fldAt w 17, h := fldAt w 13, gS := fldAt w 8,
                           gT := fldAt w 3, scope := fldAt w 2, rsv := fldAt w 0 })
  | 1 => some (.mxMma t { aD := fldAt w 20, tA := fldAt w 17, tB := fldAt w 14, ta := fldAt w 13, tb := fldAt w 12,
                          fa := fldAt w 9, fb := fldAt w 6, kbm1 := fldAt w 2, rsv := fldAt w 0 } none)
  | 2 => some (.mxClose t { aD := fldAt w 20, gD := fldAt w 15, rsv := fldAt w 0 } none)
  | 3 => some (.mxSt t { aD := fldAt w 20, gA := fldAt w 15, gC := fldAt w 10, gD := fldAt w 5, rsv := fldAt w 0 } none)
  | 4 => some (.mxLa t { aD := fldAt w 20, gA := fldAt w 15, gC := fldAt w 10, rsv := fldAt w 0 } .ok)
  | 5 => some (.mxLt t { tD := fldAt w 19, fmt := fldAt w 15, bdir := fldAt w 14, t := fldAt w 13, gA := fldAt w 8,
                         gP := fldAt w 3, rsv := fldAt w 0 } .ok)
  | 6 => some (.mxStt t { tS := fldAt w 19, fmt := fldAt w 15, bdir := fldAt w 14, rsv1 := fldAt w 13, gA := fldAt w 8,
                          gP := fldAt w 3, rsv2 := fldAt w 0 } .ok)
  | 7 => some (.mxTag t { tD := fldAt w 19, fmt := fldAt w 15, bdir := fldAt w 14, rsv := fldAt w 0 })
  | 8 => some (.mxDrop t { aD := fldAt w 20, rsv := fldAt w 0 })
  | _ => none

/-- The operand groups of the VXE class that several minors share (R157). -/
def decVf (w : W32) : VfOp :=
  { vD := fldAt w 16, vA := fldAt w 12, vB := fldAt w 8, f := fldAt w 4, rm := fldAt w 1, sat := fldAt w 0 }
def decVu (w : W32) : VuOp :=
  { vD := fldAt w 16, vA := fldAt w 12, rsv := fldAt w 8, f := fldAt w 4, rm := fldAt w 1, sat := fldAt w 0 }
def decVi (w : W32) : ViOp :=
  { vD := fldAt w 16, vA := fldAt w 12, vB := fldAt w 8, f := fldAt w 4, rsv := fldAt w 0 }
def decVcvt (w : W32) (p : Nat) : VcvtOp :=
  { p := BitVec.ofNat 3 p, vD := fldAt w 16, vS := fldAt w 12, fs := fldAt w 8, fd := fldAt w 4, rm := fldAt w 1,
    sat := fldAt w 0 }
def decVld (w : W32) : VldOp := { v := fldAt w 16, gA := fldAt w 11, rsv := fldAt w 0 }
def decVt (w : W32) : VtOp := { v := fldAt w 16, t := fldAt w 13, gR := fldAt w 8, rsv := fldAt w 0 }

/-- The element-wise minors of the VXE class, 0x00 to 0x1D and 0x2C to 0x2F (R157). -/
def decVx0 (t : Tile) (w : W32) : Option Instr :=
  match bits w.toNat 25 20 with
  | 0x00 => some (.vxAdd t (decVf w) none)
  | 0x01 => some (.vxSub t (decVf w) none)
  | 0x02 => some (.vxMul t (decVf w) none)
  | 0x03 => some (.vxDiv t (decVf w) none)
  | 0x04 => some (.vxFma t (decVf w) none)
  | 0x05 => some (.vxMin t (decVf w))
  | 0x06 => some (.vxMax t (decVf w))
  | 0x07 => some (.vxSqrt t (decVu w) none)
  | 0x08 => some (.vxRcp t (decVu w) none)
  | 0x09 => some (.vxRsqrt t (decVu w) none)
  | 0x0A => some (.vxExp2 t (decVu w) none)
  | 0x0B => some (.vxLog2 t (decVu w) none)
  | 0x0C => some (.vxAbs t (decVu w))
  | 0x0D => some (.vxNeg t (decVu w))
  | 0x0E => some (.vxIadd t (decVi w) none)
  | 0x0F => some (.vxIsub t (decVi w) none)
  | 0x10 => some (.vxImul t (decVi w) none)
  | 0x11 => some (.vxAnd t (decVi w))
  | 0x12 => some (.vxOr t (decVi w))
  | 0x13 => some (.vxXor t (decVi w))
  | 0x14 => some (.vxShl t (decVi w))
  | 0x15 => some (.vxShr t (decVi w))
  | 0x16 => some (.vxCmp t { vD := fldAt w 16, vA := fldAt w 12, vB := fldAt w 8, f := fldAt w 4, cc := fldAt w 1,
                             rsv := fldAt w 0 })
  | 0x17 => some (.vxSel t { vD := fldAt w 16, vA := fldAt w 12, vB := fldAt w 8, vC := fldAt w 4, rsv := fldAt w 0 })
  | 0x18 => some (.vxCvt t (decVcvt w 0))
  | 0x19 => some (.vxCvt t (decVcvt w 1))
  | 0x1A => some (.vxCvt t (decVcvt w 2))
  | 0x1B => some (.vxCvt t (decVcvt w 3))
  | 0x2C => some (.vxCvt t (decVcvt w 4))
  | 0x2D => some (.vxCvt t (decVcvt w 5))
  | 0x2E => some (.vxCvt t (decVcvt w 6))
  | 0x2F => some (.vxCvt t (decVcvt w 7))
  | 0x1C => some (.vxCut t { tD := fldAt w 17, gC := fldAt w 12, fs := fldAt w 8, fd := fldAt w 5, bdir := fldAt w 4,
                             rm := fldAt w 1, sat := fldAt w 0 } .ok)
  | 0x1D => some (.vxUncut t { tS := fldAt w 17, gC := fldAt w 12, fd := fldAt w 8, rsv := fldAt w 4, rm := fldAt w 1,
                               sat := fldAt w 0 } .ok)
  | _ => none

/-- The other minors of the VXE class (R157). -/
def decVx1 (t : Tile) (w : W32) : Option Instr :=
  match bits w.toNat 25 20 with
  | 0x20 => some (.vxLd t (decVld w) .ok)
  | 0x21 => some (.vxSt t (decVld w))
  | 0x22 => some (.vxLdt t (decVt w))
  | 0x23 => some (.vxLdc t (decVt w))
  | 0x24 => some (.vxWrt t (decVt w))
  | 0x25 => some (.vxWrc t (decVt w))
  | 0x26 => some (.vxBcast t { vD := fldAt w 16, gS := fldAt w 11, f := fldAt w 7, rsv := fldAt w 0 })
  | 0x27 => some (.vxBob t { vD := fldAt w 16, gR := fldAt w 11, gE := fldAt w 6, rsv := fldAt w 0 })
  | 0x28 => some (.vxVred t { uD := fldAt w 17, vS := fldAt w 13, op := fldAt w 10, f := fldAt w 6, acc := fldAt w 5,
                              rm := fldAt w 2, rsv := fldAt w 0 } none)
  | 0x29 => some (.vxTred t { vD := fldAt w 16, tS := fldAt w 13, dir := fldAt w 12, op := fldAt w 9, rm := fldAt w 6,
                              rsv := fldAt w 0 } none)
  | 0x2A => some (.vxTamax t { uD := fldAt w 17, tS := fldAt w 14, acc := fldAt w 13, rsv := fldAt w 0 })
  | 0x2B => some (.vxRdiff t { uD := fldAt w 17, vA := fldAt w 13, vB := fldAt w 9, f := fldAt w 5, acc := fldAt w 4,
                               rsv := fldAt w 0 } none)
  | 0x30 => some (.vxGacc t { aD := fldAt w 18, vS := fldAt w 14, f := fldAt w 10, m := fldAt w 9, gC := fldAt w 4,
                              rsv := fldAt w 0 } none)
  | 0x31 => some (.vxGtacc t { aD := fldAt w 18, tS := fldAt w 15, dir := fldAt w 14, gC := fldAt w 9,
                               rsv := fldAt w 0 } none)
  | 0x32 => some (.vxGdot t { aD := fldAt w 18, vA := fldAt w 14, vB := fldAt w 10, w := fldAt w 9, gC := fldAt w 4,
                              rsv := fldAt w 0 } none)
  | 0x33 => some (.vxGrd t { vD := fldAt w 16, aS := fldAt w 14, gC := fldAt w 9, rsv := fldAt w 0 } none)
  | 0x34 => some (.vxGcvt t { vD := fldAt w 16, aS := fldAt w 14, gC := fldAt w 9, fd := fldAt w 5, rm := fldAt w 2,
                              sat := fldAt w 1, rsv := fldAt w 0 } none)
  | 0x35 => some (.vxGcomb t { aD := fldAt w 18, gA := fldAt w 13, rsv := fldAt w 0 } none .ok)
  | 0x36 => some (.vxGdec t { aD := fldAt w 18, gL := fldAt w 13, uD := fldAt w 10, rsv := fldAt w 0 } .ok)
  | 0x38 => some (.vxEvt t { uD := fldAt w 17, rsv := fldAt w 0 })
  | 0x39 => some (.vxPick t { uD := fldAt w 17, vS := fldAt w 13, gI := fldAt w 8, f := fldAt w 4, rsv := fldAt w 0 })
  | 0x3A => some (.vxUset t { uD := fldAt w 17, gS := fldAt w 12, rsv := fldAt w 0 })
  | 0x3B => some (.vxSrctx t { gR := fldAt w 15, gE := fldAt w 10, rsv := fldAt w 0 })
  | 0x3C => some (.vxTrk t { uS := fldAt w 17, gE := fldAt w 12, f := fldAt w 8, rsv := fldAt w 0 })
  | _ => none

/-- The VXE class (R157): a minor opcode of neither list is reserved. -/
def decVx (t : Tile) (w : W32) : Option Instr :=
  match decVx0 t w with
  | some i => some i
  | none => decVx1 t w

/-- The instruction that a word of the store spells (R167, R169), read without error and run without disturbance; none
for a reserved opcode, which raises ILLEGAL (R120, R157, R169, R170). -/
def decodeWord (t : Tile) (w : W32) : Option Instr :=
  match bits w.toNat 31 26 with
  | 0x01 => decScalar t w
  | 0x02 => some (.cAddi t (decI w))
  | 0x03 => some (.cAndi t (decI w))
  | 0x04 => some (.cOri t (decI w))
  | 0x05 => some (.cXori t (decI w))
  | 0x06 => some (.cShi t (decI w))
  | 0x07 => some (.cCmpi t (decCmpi w))
  | 0x08 => some (.cMovz t (decU w))
  | 0x09 => some (.cMovk t (decU w))
  | 0x0A => some (.cCmp t (decCmp w))
  | 0x0B => decPredicate t w
  | 0x10 => some (.cLdb t (decI w) .ok)
  | 0x11 => some (.cLdh t (decI w) .ok)
  | 0x12 => some (.cLdw t (decI w) .ok)
  | 0x13 => some (.cLdd t (decI w) .ok)
  | 0x14 => some (.cStb t (decI w) .ok)
  | 0x15 => some (.cSth t (decI w) .ok)
  | 0x16 => some (.cStw t (decI w) .ok)
  | 0x17 => some (.cStd t (decI w) .ok)
  | 0x18 => some (.cLld t (decI w))
  | 0x19 => some (.cLst t (decI w))
  | 0x1A => some (.cLldw t (decI w))
  | 0x1B => some (.cLstw t (decI w))
  | 0x1C => some (.cLfence t (decRf w))
  | 0x20 => some (.cBr t (decBr w))
  | 0x21 => some (.cJal t (decJ w))
  | 0x22 => some (.cJr t (decRf w))
  | 0x23 => some (.cTret t (decRf w))
  | 0x24 => some (.cTrap t (decTrap w))
  | 0x25 => some (.cHalt t (decRf w))
  | 0x26 => some (.cSleep t (decRf w))
  | 0x28 => some (.pgRd t (decP w))
  | 0x29 => some (.pgWr t (decP w))
  | 0x2C => some (.cGetu t (decRf w))
  | 0x2D => some (.cRdv t (decI w))
  | 0x30 => decMx t w
  | 0x31 => decVx t w
  | 0x32 => some (.dmGo t (decRf w) .ok)
  | 0x33 => some (.dmFence t (decRf w))
  | 0x34 => some (.sySig t (decRf w))
  | 0x35 => some (.sySigi t (decSigi w))
  | 0x36 => some (.syWait t (decRf w))
  | 0x37 => decSyTack t w
  | 0x38 => some (.syRealign t (decRf w) .ok)
  | 0x3A => some (.mbSend t (decRf w) .ok)
  | 0x3B => some (.mbRecv t (decRf w))
  | _ => none

/-- The command that a 32-bit word spells. The table gives no bits, and the word of an instruction stands for it at tile 0
(log entry 113). -/
def decodeTableWord (nbits w : Nat) : Option Instr :=
  if nbits = 32 ∧ w < 2 ^ 32 then decodeWord 0 (BitVec.ofNat 32 w) else none

end Sys2Proof
end

