-- ==== Sys2Proof/Config.lean ====
section
/-! DEFINITION. What the manual leaves open and no state of the machine fixes: free values without a body, so that no
proof can see what they are. -/

namespace Sys2Proof.Config

/-- The n-th 64-bit word that the entropy source delivers (R180 SEL 5, R532): a physical noise source. -/
opaque entropy : Nat → BitVec 64

/-- The signature over a byte string of the identity key that the die made from these words of its entropy source (R523,
R528, R530). -/
opaque identitySign : List (BitVec 64) → List (BitVec 8) → List (BitVec 8)

/-- A value the manual leaves open, by the number of its use: the state counts the uses (`freeIdx`). -/
opaque free : Nat → BitVec 64

/-- What a variant register that shows a measurement reads, by the number of its reads: a count of its own (`senseIdx`),
so that no value that is the same on every run depends on how often such a register is read (R12). -/
opaque sensor : Nat → BitVec 64

/-- The check bits of a spool word that is found wrong (R296), by the word and how many corrections the module has counted. -/
opaque eccSynd : Nat → Nat → BitVec 8

/-- The symbol of an LPDDR5X line that is found wrong (R298) and the row address that the placement of R278 keeps to itself
(R282), by the line and how many corrections the module has counted. -/
opaque eccSymbol : Nat → Nat → Nat
opaque lpRow : Nat → BitVec 32

/-- The memory words and lines that a disturbance strikes in one idle cycle of the core clock, by the number of the cycle:
whether it is an LPDDR5X line, whether the error is beyond correction, and the word or line (R270, R273, R279, R280). -/
opaque strikes : Nat → List (Bool × Bool × Nat)

/-- The index that TL_TRAP_AUX or TL_TRAP_PC receives where the manual states none (R188, R192): by cause code, place in
issue order and index, so that it is the same on every run (R12). -/
opaque trapIndex : Nat → Nat → Nat → BitVec 14

/-- How much of RATE, in units of 2^-48 ns per tick, slews a filtered offset out: R345 states its direction and its
bound of 0.1 ppm, not the number. -/
opaque servoSlew : Int → Nat

/-- Whether the servo rounds RATE up where a frequency correction is no whole number of units (R345). -/
opaque servoUp : Nat → Int → Bool

/-- The state of the scrambler of a position at the start of each frame (R302). -/
opaque prbsStart : Nat → BitVec 31

/-- What an idle or a training wavelength sends in one frame time (R300, R320): the manual does not give the pattern. -/
opaque trainingPattern : List Sys2Proof.Level

/-- The transmit and the receive delay of each wavelength of each port, in units of 2^-16 ns, that the optical engines
hold from manufacture (R342). -/
opaque oeTxDelay : Nat → Nat → Int
opaque oeRxDelay : Nat → Nat → Int

/-- Where in LPDDR5X the job's fingerprint table lies, by the header of the program image: R419 has the image name the
place and gives no form for it. -/
opaque jobTableAt : List (BitVec 8) → Nat

/-- The identity certificate (R531): X.509, of the die with this DIE_ID and the identity key made from these words, signed
by the vendor when the die is keyed, and never changed. -/
opaque identityCert : BitVec 64 → List (BitVec 64) → List (BitVec 8)

/-- What a twin-keep section holds, by the image's header, SEC_ID and the section's bytes: for each tensor of its ranges the
FP_ID, and the global index and the element word of each element (R415, R417, R419). The shard map that names the ranges
has no layout in the manual. -/
opaque sectionElems : List (BitVec 8) → Nat → List (BitVec 8) → List (BitVec 32 × List (BitVec 64 × BitVec 64))

/-- Which sections the marks in the image's section list name as changed (R438), by the bytes from the list's address on
and the number of the section: the manual gives the list no layout. -/
opaque listMarks : (Nat → BitVec 8) → Nat → Bool

/-- What the firmware reads in a message of a layer's reporter tile (R383, R384), whose layout the manual does not give:
none where the message is no report; else which of FMT_WIDEN, FMT_NARROW, LAYER_INVALID and FMT_EXHAUSTED it reports (0
to 3), the layer, the old code, the new code and the step. -/
opaque fmtReport : List (BitVec 8) → Option (Fin 4 × BitVec 16 × BitVec 8 × BitVec 8 × BitVec 32)

/-- The version and the measurement of the boot ROM (R491, R530 M6): the manual gives neither. -/
opaque romVersion : BitVec 32
opaque romDigest : BitVec 512

end Sys2Proof.Config
end

