-- ==== Sys2Proof/Machine/SMap.lean ====
section
/-! DEFINITION. Sparse storage in one canonical form: a list of keyed values, keys strictly rising, no entry equal to
what an unlisted key reads as. Registers, memories and tables are held this way, so that equal contents are equal
data. -/

namespace Sys2Proof.Machine

/-- Keyed values, sorted by key. -/
abbrev SMap (α : Type) := List (Nat × α)

/-- The value at key `k`; `d k` where nothing is listed. -/
def smGet {α : Type} (d : Nat → α) : SMap α → Nat → α
  | [], k => d k
  | c :: m, k => if c.1 = k then c.2 else smGet d m k

/-- Insert before the first greater key. -/
def smIns {α : Type} (k : Nat) (v : α) : SMap α → SMap α
  | [] => [(k, v)]
  | c :: m => if k < c.1 then (k, v) :: c :: m else c :: smIns k v m

/-- The map without key `k`. -/
def smDel {α : Type} (m : SMap α) (k : Nat) : SMap α := m.filter (fun c => c.1 != k)

/-- Set key `k`: the default value removes the entry. -/
def smPut {α : Type} [DecidableEq α] (d : Nat → α) (m : SMap α) (k : Nat) (v : α) : SMap α :=
  if v = d k then smDel m k else smIns k v (smDel m k)

/-- Keys strictly rising from `lo` on, and no entry equal to its default. -/
def smWfFrom {α : Type} [DecidableEq α] (d : Nat → α) : Nat → SMap α → Bool
  | _, [] => true
  | lo, c :: m => decide (lo ≤ c.1) && (decide (c.2 ≠ d c.1) && smWfFrom d (c.1 + 1) m)

/-- The canonical form. -/
def smWf {α : Type} [DecidableEq α] (d : Nat → α) (m : SMap α) : Bool := smWfFrom d 0 m

/-- The map with every key `k` such that `p k` dropped. -/
def smDrop {α : Type} (m : SMap α) (p : Nat → Bool) : SMap α := m.filter (fun c => !(p c.1))

end Sys2Proof.Machine
end

