-- ==== Sys2Proof/Machine/Regs.lean ====
section
/-! DEFINITION. The fields of the register pages, as the register tables of the manual give them (R9, R543, R551):
offset, instance stride and count, bit range, type, reset value, and whether PG_CTRL.CLR_CNT zeroes the field. Reset
values shown as "by page", "by port", "fused" or "derived" are 0 here: they are computed on read or set from the fuses
(Machine/Pages.lean). -/

namespace Sys2Proof.Machine

/-- The types of R9. -/
inductive FTy where
  | ro
  | rw
  | w1c
  | wo
  | rws
deriving DecidableEq, Repr

/-- One field of a register page. -/
structure Fld where
  off : Nat
  stride : Nat
  count : Nat
  hi : Nat
  lo : Nat
  ty : FTy
  rst : Nat
  cnt : Bool
deriving DecidableEq, Repr

/-- The blocks of the page index (R551). -/
inductive Blk where
  | mg | ck | pw | th | fz | lc | sc | ev | tm | st | lp | nm | bb | cx | tw | dl | tk | gs | en | nc | it | lk | oe
  | tl | mx | vx | sy
deriving DecidableEq, Repr


/-- R543. -/
def pg_TYPE : Fld := ⟨0x000, 0, 1, 31, 16, .ro, 0, false⟩
/-- R543. -/
def pg_INST : Fld := ⟨0x000, 0, 1, 15, 0, .ro, 0, false⟩
/-- R543. -/
def pg_MAJOR : Fld := ⟨0x004, 0, 1, 15, 8, .ro, 1, false⟩
/-- R543. -/
def pg_MINOR : Fld := ⟨0x004, 0, 1, 7, 0, .ro, 0, false⟩
/-- R543. -/
def pg_BLOCK : Fld := ⟨0x008, 0, 1, 31, 16, .ro, 0, false⟩
/-- R543. -/
def pg_FORCED : Fld := ⟨0x008, 0, 1, 1, 1, .ro, 0, false⟩
/-- R543. -/
def pg_WREJ : Fld := ⟨0x008, 0, 1, 0, 0, .w1c, 0, false⟩
/-- R543. -/
def pg_CLR_CNT : Fld := ⟨0x00C, 0, 1, 0, 0, .wo, 0, false⟩
/-- R543. -/
def pg_LOCK : Fld := ⟨0x01C, 0, 1, 0, 0, .rw, 0, false⟩
/-- R543. -/
def pg_PG_SEQ : Fld := ⟨0x020, 0, 1, 31, 0, .ro, 0, false⟩
/-- R543. -/
def pg_FAULT : Fld := ⟨0x010, 0, 1, 31, 0, .w1c, 0, false⟩
/-- R543. -/
def pg_FAULT_MASK : Fld := ⟨0x014, 0, 1, 31, 0, .rw, 0, false⟩
/-- R543. -/
def pg_FAULT_FORCE : Fld := ⟨0x018, 0, 1, 31, 0, .wo, 0, false⟩

/-- The fields of the PG page header common to every page (R543). -/
def pgFields : List Fld :=
  [pg_TYPE, pg_INST, pg_MAJOR, pg_MINOR, pg_BLOCK, pg_FORCED, pg_WREJ, pg_CLR_CNT, pg_LOCK, pg_PG_SEQ,
   pg_FAULT, pg_FAULT_MASK, pg_FAULT_FORCE]

/-- R506. -/
def mg_F_VERIFY_FAIL : Fld := ⟨0x010, 0, 1, 4, 4, .rws, 0, false⟩
/-- R506. -/
def mg_F_TOPO_REFUSED : Fld := ⟨0x010, 0, 1, 3, 3, .w1c, 0, false⟩
/-- R506. -/
def mg_F_LOAD_REFUSED : Fld := ⟨0x010, 0, 1, 2, 2, .w1c, 0, false⟩
/-- R506. -/
def mg_F_LAGGARD : Fld := ⟨0x010, 0, 1, 1, 1, .w1c, 0, false⟩
/-- R506. -/
def mg_F_PHASE_FAIL : Fld := ⟨0x010, 0, 1, 0, 0, .w1c, 0, false⟩
/-- R507. -/
def mg_RUN_ALL : Fld := ⟨0x040, 0, 1, 31, 31, .wo, 0, false⟩
/-- R507. -/
def mg_GO : Fld := ⟨0x040, 0, 1, 30, 30, .wo, 0, false⟩
/-- R507. -/
def mg_STANDBY : Fld := ⟨0x040, 0, 1, 29, 29, .rws, 0, false⟩
/-- R507. -/
def mg_EQ_CACHE_EN : Fld := ⟨0x040, 0, 1, 28, 28, .rw, 1, false⟩
/-- R507. -/
def mg_PHASE : Fld := ⟨0x044, 0, 1, 31, 28, .ro, 0, false⟩
/-- R507. -/
def mg_FAIL_PHASE : Fld := ⟨0x044, 0, 1, 27, 24, .ro, 15, false⟩
/-- R507. -/
def mg_FAIL_REASON : Fld := ⟨0x044, 0, 1, 23, 16, .ro, 0, false⟩
/-- R507. -/
def mg_STANDBY_HELD : Fld := ⟨0x044, 0, 1, 15, 15, .ro, 0, false⟩
/-- R507. -/
def mg_WARM : Fld := ⟨0x044, 0, 1, 14, 14, .ro, 0, false⟩
/-- R507. -/
def mg_RECOVERED : Fld := ⟨0x044, 0, 1, 13, 13, .rws, 0, false⟩
/-- R507. -/
def mg_FW_VER : Fld := ⟨0x048, 0, 1, 31, 0, .ro, 0, false⟩
/-- R507. -/
def mg_BRING_MS : Fld := ⟨0x04C, 0, 1, 31, 0, .ro, 0, false⟩
/-- R507. -/
def mg_PHASE_MS : Fld := ⟨0x050, 4, 9, 31, 0, .ro, 0, false⟩
/-- R507. -/
def mg_LOAD_REASON : Fld := ⟨0x074, 0, 1, 31, 24, .ro, 0, false⟩
/-- R507. -/
def mg_ROUND : Fld := ⟨0x074, 0, 1, 23, 16, .ro, 0, false⟩
/-- R507. -/
def mg_LAGGARDS : Fld := ⟨0x074, 0, 1, 15, 0, .ro, 0, false⟩
/-- R507. -/
def mg_LAG_TILE : Fld := ⟨0x078, 0, 1, 10, 0, .ro, 0, false⟩
/-- R507. -/
def mg_MAN_SERIAL : Fld := ⟨0x07C, 0, 1, 31, 0, .ro, 0, false⟩
/-- R507. -/
def mg_STAGE_LO : Fld := ⟨0x080, 0, 1, 31, 27, .rw, 0, false⟩
/-- R507. -/
def mg_STAGE_HI : Fld := ⟨0x084, 0, 1, 6, 0, .rw, 0, false⟩

/-- The fields of the MG page. -/
def mgFields : List Fld :=
  [mg_F_VERIFY_FAIL, mg_F_TOPO_REFUSED, mg_F_LOAD_REFUSED, mg_F_LAGGARD, mg_F_PHASE_FAIL, mg_RUN_ALL, mg_GO,
   mg_STANDBY, mg_EQ_CACHE_EN, mg_PHASE, mg_FAIL_PHASE, mg_FAIL_REASON, mg_STANDBY_HELD, mg_WARM,
   mg_RECOVERED, mg_FW_VER, mg_BRING_MS, mg_PHASE_MS, mg_LOAD_REASON, mg_ROUND, mg_LAGGARDS, mg_LAG_TILE,
   mg_MAN_SERIAL, mg_STAGE_LO, mg_STAGE_HI]

/-- R366. -/
def ck_F_XING_ERR : Fld := ⟨0x010, 0, 1, 4, 4, .w1c, 0, false⟩
/-- R366. -/
def ck_F_ETH_PLL_LOSS : Fld := ⟨0x010, 0, 1, 3, 3, .w1c, 0, false⟩
/-- R366. -/
def ck_F_REF_RANGE : Fld := ⟨0x010, 0, 1, 2, 2, .w1c, 0, false⟩
/-- R366. -/
def ck_F_REF_LOSS : Fld := ⟨0x010, 0, 1, 1, 1, .w1c, 0, false⟩
/-- R366. -/
def ck_F_PLL_LOSS : Fld := ⟨0x010, 0, 1, 0, 0, .rws, 0, false⟩
/-- R367. -/
def ck_ROOT_LOCK : Fld := ⟨0x040, 0, 1, 31, 31, .ro, 0, false⟩
/-- R367. -/
def ck_LINK_LOCK : Fld := ⟨0x040, 0, 1, 30, 30, .ro, 0, false⟩
/-- R367. -/
def ck_ETH_LOCK : Fld := ⟨0x040, 0, 1, 29, 29, .ro, 0, false⟩
/-- R367. -/
def ck_AON_INTERNAL : Fld := ⟨0x040, 0, 1, 28, 28, .ro, 0, false⟩
/-- R367. -/
def ck_RX_LOCK : Fld := ⟨0x040, 0, 1, 15, 0, .ro, 0, false⟩
/-- R367. -/
def ck_REF_PPB : Fld := ⟨0x044, 0, 1, 31, 0, .ro, 0, false⟩
/-- R367. -/
def ck_RESYNC_CNT : Fld := ⟨0x048, 0, 1, 31, 0, .ro, 0, true⟩
/-- R367. -/
def ck_XING_ID : Fld := ⟨0x04C, 0, 1, 7, 0, .ro, 0, false⟩

/-- The fields of the CK page. -/
def ckFields : List Fld :=
  [ck_F_XING_ERR, ck_F_ETH_PLL_LOSS, ck_F_REF_RANGE, ck_F_REF_LOSS, ck_F_PLL_LOSS, ck_ROOT_LOCK,
   ck_LINK_LOCK, ck_ETH_LOCK, ck_AON_INTERNAL, ck_RX_LOCK, ck_REF_PPB, ck_RESYNC_CNT, ck_XING_ID]

/-- R556. -/
def pw_F_CAP_THROTTLE : Fld := ⟨0x010, 0, 1, 2, 2, .w1c, 0, false⟩
/-- R556. -/
def pw_F_RAIL_FAULT : Fld := ⟨0x010, 0, 1, 1, 1, .rws, 0, false⟩
/-- R556. -/
def pw_F_RAIL_WARN : Fld := ⟨0x010, 0, 1, 0, 0, .w1c, 0, false⟩
/-- R556. -/
def pw_IN_W : Fld := ⟨0x040, 0, 1, 31, 16, .ro, 0, false⟩
/-- R556. -/
def pw_PEAK_W : Fld := ⟨0x040, 0, 1, 15, 0, .ro, 0, false⟩
/-- R556. -/
def pw_CAP_W : Fld := ⟨0x044, 0, 1, 15, 0, .rw, 1250, false⟩
/-- R556. -/
def pw_ENERGY_LO : Fld := ⟨0x048, 0, 1, 31, 0, .ro, 0, false⟩
/-- R556. -/
def pw_ENERGY_HI : Fld := ⟨0x04C, 0, 1, 31, 0, .ro, 0, false⟩
/-- R556. -/
def pw_MV : Fld := ⟨0x080, 4, 8, 31, 16, .ro, 0, false⟩
/-- R556. -/
def pw_CUR : Fld := ⟨0x080, 4, 8, 15, 0, .ro, 0, false⟩

/-- The fields of the PW page. -/
def pwFields : List Fld :=
  [pw_F_CAP_THROTTLE, pw_F_RAIL_FAULT, pw_F_RAIL_WARN, pw_IN_W, pw_PEAK_W, pw_CAP_W, pw_ENERGY_LO,
   pw_ENERGY_HI, pw_MV, pw_CUR]

/-- R559. -/
def th_F_SHUTDOWN : Fld := ⟨0x010, 0, 1, 2, 2, .rws, 0, false⟩
/-- R559. -/
def th_F_THROTTLE : Fld := ⟨0x010, 0, 1, 1, 1, .w1c, 0, false⟩
/-- R559. -/
def th_F_TEMP_HIGH : Fld := ⟨0x010, 0, 1, 0, 0, .w1c, 0, false⟩
/-- R559. -/
def th_WARN_C : Fld := ⟨0x040, 0, 1, 31, 24, .rw, 95, false⟩
/-- R559. -/
def th_THROT_C : Fld := ⟨0x040, 0, 1, 23, 16, .rw, 105, false⟩
/-- R559. -/
def th_SHUT_C : Fld := ⟨0x040, 0, 1, 15, 8, .ro, 115, false⟩
/-- R559. -/
def th_THROT_EN : Fld := ⟨0x040, 0, 1, 7, 7, .rw, 1, false⟩
/-- R559. -/
def th_MAX_C : Fld := ⟨0x044, 0, 1, 31, 24, .ro, 0, false⟩
/-- R559. -/
def th_MAX_SENSOR : Fld := ⟨0x044, 0, 1, 23, 20, .ro, 0, false⟩
/-- R559. -/
def th_DUTY : Fld := ⟨0x044, 0, 1, 19, 14, .ro, 0, false⟩
/-- R559. -/
def th_ALERT : Fld := ⟨0x044, 0, 1, 13, 13, .ro, 0, false⟩
/-- R559. -/
def th_THROT_CYC_LO : Fld := ⟨0x048, 0, 1, 31, 0, .ro, 0, false⟩
/-- R559. -/
def th_THROT_CYC_HI : Fld := ⟨0x04C, 0, 1, 31, 0, .ro, 0, false⟩
/-- R559. -/
def th_TEMP : Fld := ⟨0x080, 4, 16, 15, 0, .ro, 0, false⟩

/-- The fields of the TH page. -/
def thFields : List Fld :=
  [th_F_SHUTDOWN, th_F_THROTTLE, th_F_TEMP_HIGH, th_WARN_C, th_THROT_C, th_SHUT_C, th_THROT_EN, th_MAX_C,
   th_MAX_SENSOR, th_DUTY, th_ALERT, th_THROT_CYC_LO, th_THROT_CYC_HI, th_TEMP]

/-- R504. -/
def fz_F_INCONSISTENT : Fld := ⟨0x010, 0, 1, 0, 0, .w1c, 0, false⟩
/-- R505. -/
def fz_GRADE : Fld := ⟨0x040, 0, 1, 23, 16, .ro, 0, false⟩
/-- R505. -/
def fz_LCOLS : Fld := ⟨0x040, 0, 1, 15, 8, .ro, 0, false⟩
/-- R505. -/
def fz_ROWS : Fld := ⟨0x040, 0, 1, 7, 0, .ro, 32, false⟩
/-- R505. -/
def fz_DIE_LO : Fld := ⟨0x044, 0, 1, 31, 0, .ro, 0, false⟩
/-- R505. -/
def fz_DIE_HI : Fld := ⟨0x048, 0, 1, 31, 0, .ro, 0, false⟩
/-- R505. -/
def fz_ROW_IDX : Fld := ⟨0x04C, 0, 1, 4, 0, .rw, 0, false⟩
/-- R505. -/
def fz_ROW_BAD_LO : Fld := ⟨0x050, 0, 1, 31, 0, .ro, 0, false⟩
/-- R505. -/
def fz_ROW_BAD_HI : Fld := ⟨0x054, 0, 1, 3, 0, .ro, 0, false⟩
/-- R505. -/
def fz_ROW_UNUSABLE_LO : Fld := ⟨0x058, 0, 1, 31, 0, .ro, 0, false⟩
/-- R505. -/
def fz_ROW_UNUSABLE_HI : Fld := ⟨0x05C, 0, 1, 3, 0, .ro, 0, false⟩
/-- R505. -/
def fz_SPARES : Fld := ⟨0x060, 0, 1, 31, 24, .ro, 0, false⟩
/-- R505. -/
def fz_RETIRED : Fld := ⟨0x060, 0, 1, 23, 16, .ro, 0, false⟩
/-- R505. -/
def fz_FUSED : Fld := ⟨0x060, 0, 1, 15, 8, .ro, 0, false⟩
/-- R505. -/
def fz_MAP_IDX : Fld := ⟨0x064, 0, 1, 10, 0, .rw, 0, false⟩
/-- R505. -/
def fz_MAP_VALID : Fld := ⟨0x068, 0, 1, 31, 31, .ro, 0, false⟩
/-- R505. -/
def fz_MAP_PTILE : Fld := ⟨0x068, 0, 1, 10, 0, .ro, 0, false⟩
/-- R505. -/
def fz_WL_IDX : Fld := ⟨0x06C, 0, 1, 5, 0, .rw, 0, false⟩
/-- R505. -/
def fz_WL_FUSED : Fld := ⟨0x070, 0, 1, 3, 0, .ro, 0, false⟩
/-- R505. -/
def fz_SPOOL_REP : Fld := ⟨0x074, 0, 1, 9, 0, .ro, 0, false⟩
/-- R505. -/
def fz_RETIRE_CNT : Fld := ⟨0x078, 0, 1, 15, 0, .ro, 0, false⟩

/-- The fields of the FZ page. -/
def fzFields : List Fld :=
  [fz_F_INCONSISTENT, fz_GRADE, fz_LCOLS, fz_ROWS, fz_DIE_LO, fz_DIE_HI, fz_ROW_IDX, fz_ROW_BAD_LO,
   fz_ROW_BAD_HI, fz_ROW_UNUSABLE_LO, fz_ROW_UNUSABLE_HI, fz_SPARES, fz_RETIRED, fz_FUSED, fz_MAP_IDX,
   fz_MAP_VALID, fz_MAP_PTILE, fz_WL_IDX, fz_WL_FUSED, fz_SPOOL_REP, fz_RETIRE_CNT]

/-- R535. -/
def lc_F_DEBUG_DENIED : Fld := ⟨0x010, 0, 1, 1, 1, .w1c, 0, false⟩
/-- R535. -/
def lc_F_TRANSITION_REFUSED : Fld := ⟨0x010, 0, 1, 0, 0, .w1c, 0, false⟩
/-- R536. -/
def lc_STATE : Fld := ⟨0x040, 0, 1, 31, 29, .ro, 0, false⟩
/-- R536. -/
def lc_COUNT : Fld := ⟨0x040, 0, 1, 28, 24, .ro, 0, false⟩
/-- R536. -/
def lc_EPOCH : Fld := ⟨0x040, 0, 1, 23, 16, .ro, 0, false⟩
/-- R536. -/
def lc_DEBUG_OPEN : Fld := ⟨0x040, 0, 1, 15, 15, .ro, 0, false⟩
/-- R536. -/
def lc_SCOPE : Fld := ⟨0x040, 0, 1, 14, 13, .ro, 0, false⟩
/-- R536. -/
def lc_OWNER : Fld := ⟨0x040, 0, 1, 12, 12, .ro, 0, false⟩
/-- R536. -/
def lc_NEW_CHALLENGE : Fld := ⟨0x044, 0, 1, 0, 0, .wo, 0, false⟩
/-- R536. -/
def lc_OWNER_CTR : Fld := ⟨0x048, 0, 1, 31, 0, .ro, 0, false⟩
/-- R536. -/
def lc_CHALLENGE : Fld := ⟨0x080, 4, 16, 31, 0, .ro, 0, false⟩

/-- The fields of the LC page. -/
def lcFields : List Fld :=
  [lc_F_DEBUG_DENIED, lc_F_TRANSITION_REFUSED, lc_STATE, lc_COUNT, lc_EPOCH, lc_DEBUG_OPEN, lc_SCOPE,
   lc_OWNER, lc_NEW_CHALLENGE, lc_OWNER_CTR, lc_CHALLENGE]

/-- R537. -/
def sc_F_STORE_BAD : Fld := ⟨0x010, 0, 1, 4, 4, .rws, 0, false⟩
/-- R537. -/
def sc_F_ROLLBACK : Fld := ⟨0x010, 0, 1, 3, 3, .w1c, 0, false⟩
/-- R537. -/
def sc_F_SIG_FAIL : Fld := ⟨0x010, 0, 1, 2, 2, .w1c, 0, false⟩
/-- R537. -/
def sc_F_ENTROPY_FAIL : Fld := ⟨0x010, 0, 1, 1, 1, .w1c, 0, false⟩
/-- R537. -/
def sc_F_ENTROPY_HEALTH : Fld := ⟨0x010, 0, 1, 0, 0, .w1c, 0, false⟩
/-- R538. -/
def sc_ENT_OK : Fld := ⟨0x040, 0, 1, 31, 31, .ro, 0, false⟩
/-- R538. -/
def sc_ENT_FAILED : Fld := ⟨0x040, 0, 1, 30, 30, .ro, 0, false⟩
/-- R538. -/
def sc_HEALTH_FAILS : Fld := ⟨0x040, 0, 1, 15, 0, .ro, 0, true⟩
/-- R538. -/
def sc_QUOTES : Fld := ⟨0x044, 0, 1, 31, 0, .ro, 0, true⟩
/-- R538. -/
def sc_SIG_FAILS : Fld := ⟨0x048, 0, 1, 31, 0, .ro, 0, true⟩

/-- The fields of the SC page. -/
def scFields : List Fld :=
  [sc_F_STORE_BAD, sc_F_ROLLBACK, sc_F_SIG_FAIL, sc_F_ENTROPY_FAIL, sc_F_ENTROPY_HEALTH, sc_ENT_OK,
   sc_ENT_FAILED, sc_HEALTH_FAILS, sc_QUOTES, sc_SIG_FAILS]

/-- R474. -/
def ev_F_MIRROR_FAIL : Fld := ⟨0x010, 0, 1, 2, 2, .w1c, 0, false⟩
/-- R474. -/
def ev_F_OPT_BAD : Fld := ⟨0x010, 0, 1, 1, 1, .w1c, 0, false⟩
/-- R474. -/
def ev_F_DROP : Fld := ⟨0x010, 0, 1, 0, 0, .w1c, 0, false⟩
/-- R475. -/
def ev_CLEAR : Fld := ⟨0x040, 0, 1, 1, 1, .wo, 0, false⟩
/-- R475. -/
def ev_OPT_REINIT : Fld := ⟨0x040, 0, 1, 0, 0, .wo, 0, false⟩
/-- R475. -/
def ev_HEAD_SEQ : Fld := ⟨0x044, 0, 1, 31, 0, .ro, 0, false⟩
/-- R475. -/
def ev_MIRROR_SEQ : Fld := ⟨0x048, 0, 1, 31, 0, .ro, 0, false⟩
/-- R475. -/
def ev_PCYCLE : Fld := ⟨0x04C, 0, 1, 23, 0, .ro, 0, false⟩
/-- R475. -/
def ev_SEC : Fld := ⟨0x050, 0, 1, 31, 0, .ro, 0, false⟩
/-- R475. -/
def ev_CAL : Fld := ⟨0x054, 0, 1, 31, 31, .ro, 0, false⟩
/-- R475. -/
def ev_UNSET : Fld := ⟨0x054, 0, 1, 30, 30, .ro, 0, false⟩
/-- R475. -/
def ev_SUBSEC : Fld := ⟨0x054, 0, 1, 15, 0, .ro, 0, false⟩
/-- R475. -/
def ev_CAL_SEC : Fld := ⟨0x058, 0, 1, 31, 0, .rw, 0, false⟩
/-- R475. -/
def ev_OPT_SET : Fld := ⟨0x05C, 0, 1, 31, 0, .rw, 0, false⟩
/-- R475. -/
def ev_DROP : Fld := ⟨0x060, 4, 5, 31, 0, .ro, 0, true⟩
/-- R475. -/
def ev_QDROP : Fld := ⟨0x074, 0, 1, 31, 0, .ro, 0, true⟩
/-- R475. -/
def ev_MIRROR_COUNT : Fld := ⟨0x078, 0, 1, 31, 0, .ro, 0, false⟩
/-- R475. -/
def ev_SLOT : Fld := ⟨0x07C, 0, 1, 10, 0, .rw, 0, false⟩
/-- R475. -/
def ev_REC_W : Fld := ⟨0x080, 4, 8, 31, 0, .ro, 0, false⟩

/-- The fields of the EV page. -/
def evFields : List Fld :=
  [ev_F_MIRROR_FAIL, ev_F_OPT_BAD, ev_F_DROP, ev_CLEAR, ev_OPT_REINIT, ev_HEAD_SEQ, ev_MIRROR_SEQ, ev_PCYCLE,
   ev_SEC, ev_CAL, ev_UNSET, ev_SUBSEC, ev_CAL_SEC, ev_OPT_SET, ev_DROP, ev_QDROP, ev_MIRROR_COUNT, ev_SLOT,
   ev_REC_W]

/-- R364. -/
def tm_F_T0_LATE : Fld := ⟨0x010, 0, 1, 7, 7, .w1c, 0, false⟩
/-- R364. -/
def tm_F_HOLD_LATE : Fld := ⟨0x010, 0, 1, 6, 6, .w1c, 0, false⟩
/-- R364. -/
def tm_F_ROOT_CHANGE : Fld := ⟨0x010, 0, 1, 5, 5, .w1c, 0, false⟩
/-- R364. -/
def tm_F_ASYM_FAIL : Fld := ⟨0x010, 0, 1, 4, 4, .w1c, 0, false⟩
/-- R364. -/
def tm_F_DEPTH : Fld := ⟨0x010, 0, 1, 3, 3, .w1c, 0, false⟩
/-- R364. -/
def tm_F_PPS_MISMATCH : Fld := ⟨0x010, 0, 1, 2, 2, .w1c, 0, false⟩
/-- R364. -/
def tm_F_PARENT_LOST : Fld := ⟨0x010, 0, 1, 1, 1, .w1c, 0, false⟩
/-- R364. -/
def tm_F_LOCK_LOST : Fld := ⟨0x010, 0, 1, 0, 0, .w1c, 0, false⟩
/-- R365. -/
def tm_ROOT_EN : Fld := ⟨0x040, 0, 1, 31, 31, .rw, 0, false⟩
/-- R365. -/
def tm_PTP_EN : Fld := ⟨0x040, 0, 1, 30, 30, .rw, 0, false⟩
/-- R365. -/
def tm_PTP_PORT : Fld := ⟨0x040, 0, 1, 29, 28, .rw, 0, false⟩
/-- R365. -/
def tm_AVG : Fld := ⟨0x040, 0, 1, 27, 24, .rw, 12, false⟩
/-- R365. -/
def tm_PTP_DOMAIN : Fld := ⟨0x040, 0, 1, 23, 16, .rw, 0, false⟩
/-- R365. -/
def tm_PRIORITY : Fld := ⟨0x040, 0, 1, 15, 8, .rw, 255, false⟩
/-- R365. -/
def tm_TSTATE : Fld := ⟨0x044, 0, 1, 31, 29, .ro, 0, false⟩
/-- R365. -/
def tm_LOCKED : Fld := ⟨0x044, 0, 1, 28, 28, .ro, 0, false⟩
/-- R365. -/
def tm_ACTIVE_ROOT : Fld := ⟨0x044, 0, 1, 27, 27, .ro, 0, false⟩
/-- R365. -/
def tm_PARENT_PORT : Fld := ⟨0x044, 0, 1, 21, 16, .ro, 0, false⟩
/-- R365. -/
def tm_PARENT_VALID : Fld := ⟨0x044, 0, 1, 15, 15, .ro, 0, false⟩
/-- R365. -/
def tm_HOPS : Fld := ⟨0x044, 0, 1, 13, 8, .ro, 63, false⟩
/-- R365. -/
def tm_NOW_LO : Fld := ⟨0x048, 0, 1, 31, 0, .ro, 0, false⟩
/-- R365. -/
def tm_NOW_HI : Fld := ⟨0x04C, 0, 1, 31, 0, .ro, 0, false⟩
/-- R365. -/
def tm_NOW_FRAC : Fld := ⟨0x050, 0, 1, 15, 0, .ro, 0, false⟩
/-- R365. -/
def tm_OFFSET : Fld := ⟨0x054, 0, 1, 31, 0, .ro, 0, false⟩
/-- R365. -/
def tm_FREQ : Fld := ⟨0x058, 0, 1, 31, 0, .ro, 0, false⟩
/-- R365. -/
def tm_PPS_DIFF : Fld := ⟨0x05C, 0, 1, 31, 0, .ro, 0, false⟩
/-- R365. -/
def tm_EPOCH_LO : Fld := ⟨0x060, 0, 1, 31, 0, .rw, 0, false⟩
/-- R365. -/
def tm_EPOCH_HI : Fld := ⟨0x064, 0, 1, 31, 0, .rw, 0, false⟩
/-- R365. -/
def tm_T0_LO : Fld := ⟨0x068, 0, 1, 31, 0, .rw, 0, false⟩
/-- R365. -/
def tm_T0_HI : Fld := ⟨0x06C, 0, 1, 31, 0, .rw, 0, false⟩
/-- R365. -/
def tm_STITCH_LO : Fld := ⟨0x070, 0, 1, 31, 0, .ro, 0, false⟩
/-- R365. -/
def tm_STITCH_HI : Fld := ⟨0x074, 0, 1, 31, 0, .ro, 0, false⟩
/-- R365. -/
def tm_ROOT_ID : Fld := ⟨0x078, 0, 1, 31, 0, .ro, 0, false⟩
/-- R365. -/
def tm_VALID : Fld := ⟨0x100, 4, 64, 31, 31, .ro, 0, false⟩
/-- R365. -/
def tm_ASYM : Fld := ⟨0x100, 4, 64, 15, 0, .ro, 0, false⟩

/-- The fields of the TM page. -/
def tmFields : List Fld :=
  [tm_F_T0_LATE, tm_F_HOLD_LATE, tm_F_ROOT_CHANGE, tm_F_ASYM_FAIL, tm_F_DEPTH, tm_F_PPS_MISMATCH,
   tm_F_PARENT_LOST, tm_F_LOCK_LOST, tm_ROOT_EN, tm_PTP_EN, tm_PTP_PORT, tm_AVG, tm_PTP_DOMAIN, tm_PRIORITY,
   tm_TSTATE, tm_LOCKED, tm_ACTIVE_ROOT, tm_PARENT_PORT, tm_PARENT_VALID, tm_HOPS, tm_NOW_LO, tm_NOW_HI,
   tm_NOW_FRAC, tm_OFFSET, tm_FREQ, tm_PPS_DIFF, tm_EPOCH_LO, tm_EPOCH_HI, tm_T0_LO, tm_T0_HI, tm_STITCH_LO,
   tm_STITCH_HI, tm_ROOT_ID, tm_VALID, tm_ASYM]

/-- R295. -/
def st_F_UE : Fld := ⟨0x010, 0, 1, 2, 2, .w1c, 0, false⟩
/-- R295. -/
def st_F_CE_LIMIT : Fld := ⟨0x010, 0, 1, 1, 1, .w1c, 0, false⟩
/-- R295. -/
def st_F_SPARE_OUT : Fld := ⟨0x010, 0, 1, 0, 0, .w1c, 0, false⟩
/-- R296. -/
def st_SCRUB_EN : Fld := ⟨0x040, 0, 1, 31, 31, .rw, 1, false⟩
/-- R296. -/
def st_SEXP : Fld := ⟨0x040, 0, 1, 4, 0, .rw, 12, false⟩
/-- R296. -/
def st_CE_LIMIT : Fld := ⟨0x044, 0, 1, 15, 0, .rw, 16, false⟩
/-- R296. -/
def st_CE_CNT : Fld := ⟨0x048, 0, 1, 31, 0, .ro, 0, true⟩
/-- R296. -/
def st_UE_CNT : Fld := ⟨0x04C, 0, 1, 31, 0, .ro, 0, true⟩
/-- R296. -/
def st_ERR_TYPE : Fld := ⟨0x050, 0, 1, 31, 30, .ro, 0, false⟩
/-- R296. -/
def st_ERR_PORT : Fld := ⟨0x050, 0, 1, 29, 28, .ro, 0, false⟩
/-- R296. -/
def st_ERR_PTILE : Fld := ⟨0x050, 0, 1, 27, 17, .ro, 0, false⟩
/-- R296. -/
def st_ERR_BANK : Fld := ⟨0x050, 0, 1, 16, 12, .ro, 0, false⟩
/-- R296. -/
def st_ERR_LINE : Fld := ⟨0x050, 0, 1, 11, 0, .ro, 0, false⟩
/-- R296. -/
def st_ERR_SYND : Fld := ⟨0x054, 0, 1, 10, 3, .ro, 0, false⟩
/-- R296. -/
def st_ERR_WORD : Fld := ⟨0x054, 0, 1, 2, 0, .ro, 0, false⟩
/-- R296. -/
def st_MIN_PTILE : Fld := ⟨0x058, 0, 1, 26, 16, .ro, 0, false⟩
/-- R296. -/
def st_MIN_SPARE : Fld := ⟨0x058, 0, 1, 2, 0, .ro, 4, false⟩
/-- R296. -/
def st_REPAIR_PEND : Fld := ⟨0x05C, 0, 1, 15, 0, .ro, 0, false⟩

/-- The fields of the ST page. -/
def stFields : List Fld :=
  [st_F_UE, st_F_CE_LIMIT, st_F_SPARE_OUT, st_SCRUB_EN, st_SEXP, st_CE_LIMIT, st_CE_CNT, st_UE_CNT,
   st_ERR_TYPE, st_ERR_PORT, st_ERR_PTILE, st_ERR_BANK, st_ERR_LINE, st_ERR_SYND, st_ERR_WORD, st_MIN_PTILE,
   st_MIN_SPARE, st_REPAIR_PEND]

/-- R297. -/
def lp_F_TRAIN_FAIL : Fld := ⟨0x010, 0, 1, 3, 3, .w1c, 0, false⟩
/-- R297. -/
def lp_F_UE : Fld := ⟨0x010, 0, 1, 2, 2, .w1c, 0, false⟩
/-- R297. -/
def lp_F_CE_LIMIT : Fld := ⟨0x010, 0, 1, 1, 1, .w1c, 0, false⟩
/-- R297. -/
def lp_F_HOT : Fld := ⟨0x010, 0, 1, 0, 0, .w1c, 0, false⟩
/-- R298. -/
def lp_SELF_REFRESH : Fld := ⟨0x040, 0, 1, 31, 31, .ro, 0, false⟩
/-- R298. -/
def lp_DERATE : Fld := ⟨0x040, 0, 1, 30, 30, .ro, 0, false⟩
/-- R298. -/
def lp_TRAINED : Fld := ⟨0x040, 0, 1, 15, 0, .ro, 0, false⟩
/-- R298. -/
def lp_REF_RATE : Fld := ⟨0x044, 0, 1, 31, 0, .ro, 0, false⟩
/-- R298. -/
def lp_CE_CNT : Fld := ⟨0x048, 0, 1, 31, 0, .ro, 0, true⟩
/-- R298. -/
def lp_UE_CNT : Fld := ⟨0x04C, 0, 1, 31, 0, .ro, 0, true⟩
/-- R298. -/
def lp_ERR_ADDR_LO : Fld := ⟨0x050, 0, 1, 31, 6, .ro, 0, false⟩
/-- R298. -/
def lp_ERR_ADDR_HI : Fld := ⟨0x054, 0, 1, 6, 0, .ro, 0, false⟩
/-- R298. -/
def lp_ERR_TYPE : Fld := ⟨0x058, 0, 1, 31, 30, .ro, 0, false⟩
/-- R298. -/
def lp_ERR_CHAN : Fld := ⟨0x058, 0, 1, 29, 24, .ro, 0, false⟩
/-- R298. -/
def lp_ERR_SYMBOL : Fld := ⟨0x058, 0, 1, 4, 0, .ro, 0, false⟩
/-- R298. -/
def lp_REF_WAITS : Fld := ⟨0x05C, 0, 1, 31, 0, .ro, 0, true⟩
/-- R298. -/
def lp_CE_LIMIT : Fld := ⟨0x060, 0, 1, 15, 0, .rw, 8, false⟩
/-- R298. -/
def lp_TK_BASE : Fld := ⟨0x080, 0, 1, 8, 0, .rw, 0, false⟩
/-- R298. -/
def lp_TK_SIZE : Fld := ⟨0x084, 0, 1, 9, 0, .rw, 0, false⟩
/-- R298. -/
def lp_FREEZE : Fld := ⟨0x088, 0, 1, 2, 2, .rw, 0, false⟩
/-- R298. -/
def lp_SERVE : Fld := ⟨0x088, 0, 1, 1, 1, .rw, 1, false⟩
/-- R298. -/
def lp_ENABLE : Fld := ⟨0x088, 0, 1, 0, 0, .rw, 0, false⟩

/-- The fields of the LP page. -/
def lpFields : List Fld :=
  [lp_F_TRAIN_FAIL, lp_F_UE, lp_F_CE_LIMIT, lp_F_HOT, lp_SELF_REFRESH, lp_DERATE, lp_TRAINED, lp_REF_RATE,
   lp_CE_CNT, lp_UE_CNT, lp_ERR_ADDR_LO, lp_ERR_ADDR_HI, lp_ERR_TYPE, lp_ERR_CHAN, lp_ERR_SYMBOL,
   lp_REF_WAITS, lp_CE_LIMIT, lp_TK_BASE, lp_TK_SIZE, lp_FREEZE, lp_SERVE, lp_ENABLE]

/-- R396. -/
def nm_F_DRIFT_HIGH : Fld := ⟨0x010, 0, 1, 3, 3, .w1c, 0, false⟩
/-- R396. -/
def nm_F_DRIFT_WARN : Fld := ⟨0x010, 0, 1, 2, 2, .w1c, 0, false⟩
/-- R396. -/
def nm_F_NONFIN : Fld := ⟨0x010, 0, 1, 1, 1, .w1c, 0, false⟩
/-- R396. -/
def nm_F_LATE_OBS : Fld := ⟨0x010, 0, 1, 0, 0, .w1c, 0, false⟩
/-- R397. -/
def nm_LOAD : Fld := ⟨0x040, 0, 1, 2, 2, .wo, 0, false⟩
/-- R397. -/
def nm_COLD_ALL : Fld := ⟨0x040, 0, 1, 1, 1, .wo, 0, false⟩
/-- R397. -/
def nm_COMMIT : Fld := ⟨0x040, 0, 1, 0, 0, .wo, 0, false⟩
/-- R397. -/
def nm_LOAD_ERR : Fld := ⟨0x044, 0, 1, 1, 1, .ro, 0, false⟩
/-- R397. -/
def nm_BUSY : Fld := ⟨0x044, 0, 1, 0, 0, .ro, 0, false⟩
/-- R397. -/
def nm_COMMITS : Fld := ⟨0x048, 0, 1, 31, 0, .ro, 0, false⟩
/-- R397. -/
def nm_TABLE_LO : Fld := ⟨0x04C, 0, 1, 31, 16, .rw, 0, false⟩
/-- R397. -/
def nm_TABLE_HI : Fld := ⟨0x050, 0, 1, 6, 0, .rw, 0, false⟩
/-- R397. -/
def nm_IDX : Fld := ⟨0x054, 0, 1, 11, 0, .rw, 0, false⟩
/-- R397. -/
def nm_ENT_AMAX : Fld := ⟨0x058, 0, 1, 31, 0, .rw, 0, false⟩
/-- R397. -/
def nm_ENT_PEND : Fld := ⟨0x05C, 0, 1, 31, 0, .rw, 0, false⟩
/-- R397. -/
def nm_ENT_HIST : Fld := ⟨0x060, 0, 1, 31, 16, .rw, 0, false⟩
/-- R397. -/
def nm_ENT_PVALID : Fld := ⟨0x060, 0, 1, 15, 15, .rw, 0, false⟩
/-- R397. -/
def nm_ENT_COLD : Fld := ⟨0x060, 0, 1, 14, 14, .rw, 1, false⟩
/-- R397. -/
def nm_ENT_NONFIN : Fld := ⟨0x060, 0, 1, 13, 13, .rw, 0, false⟩
/-- R397. -/
def nm_ENT_DRIFT : Fld := ⟨0x060, 0, 1, 12, 12, .rw, 0, false⟩
/-- R397. -/
def nm_ENT_D : Fld := ⟨0x060, 0, 1, 11, 8, .rw, 6, false⟩
/-- R397. -/
def nm_ENT_HR : Fld := ⟨0x060, 0, 1, 2, 0, .rw, 1, false⟩
/-- R397. -/
def nm_DW_WARN : Fld := ⟨0x064, 0, 1, 31, 0, .rw, 1040187392, false⟩
/-- R397. -/
def nm_DW_ERR : Fld := ⟨0x068, 0, 1, 31, 0, .rw, 1065353216, false⟩
/-- R397. -/
def nm_DW_MAX : Fld := ⟨0x06C, 0, 1, 31, 0, .ro, 0, false⟩
/-- R397. -/
def nm_DW_ENTRY : Fld := ⟨0x070, 0, 1, 11, 0, .ro, 0, false⟩
/-- R397. -/
def nm_DW_COUNT : Fld := ⟨0x074, 0, 1, 31, 0, .ro, 0, false⟩
/-- R397. -/
def nm_OBS_CNT : Fld := ⟨0x078, 0, 1, 31, 0, .ro, 0, true⟩
/-- R397. -/
def nm_LATE_CNT : Fld := ⟨0x07C, 0, 1, 31, 0, .ro, 0, true⟩

/-- The fields of the NM page. -/
def nmFields : List Fld :=
  [nm_F_DRIFT_HIGH, nm_F_DRIFT_WARN, nm_F_NONFIN, nm_F_LATE_OBS, nm_LOAD, nm_COLD_ALL, nm_COMMIT,
   nm_LOAD_ERR, nm_BUSY, nm_COMMITS, nm_TABLE_LO, nm_TABLE_HI, nm_IDX, nm_ENT_AMAX, nm_ENT_PEND, nm_ENT_HIST,
   nm_ENT_PVALID, nm_ENT_COLD, nm_ENT_NONFIN, nm_ENT_DRIFT, nm_ENT_D, nm_ENT_HR, nm_DW_WARN, nm_DW_ERR,
   nm_DW_MAX, nm_DW_ENTRY, nm_DW_COUNT, nm_OBS_CNT, nm_LATE_CNT]

/-- R398. -/
def bb_F_KAT_FAIL : Fld := ⟨0x010, 0, 1, 0, 0, .w1c, 0, false⟩
/-- R399. -/
def bb_SEED_LO : Fld := ⟨0x040, 0, 1, 31, 0, .rw, 0, false⟩
/-- R399. -/
def bb_SEED_HI : Fld := ⟨0x044, 0, 1, 31, 0, .rw, 0, false⟩
/-- R399. -/
def bb_STEP : Fld := ⟨0x048, 0, 1, 31, 0, .rw, 0, false⟩
/-- R399. -/
def bb_KAT_FAILED : Fld := ⟨0x04C, 0, 1, 4, 4, .wo, 0, false⟩
/-- R399. -/
def bb_KAT_IDX : Fld := ⟨0x04C, 0, 1, 3, 2, .rw, 0, false⟩
/-- R399. -/
def bb_KAT : Fld := ⟨0x04C, 0, 1, 1, 1, .wo, 0, false⟩
/-- R399. -/
def bb_GO : Fld := ⟨0x04C, 0, 1, 0, 0, .wo, 0, false⟩
/-- R399. -/
def bb_IN_STREAM : Fld := ⟨0x050, 0, 1, 31, 0, .rw, 0, false⟩
/-- R399. -/
def bb_IN_STEP : Fld := ⟨0x054, 0, 1, 31, 0, .rw, 0, false⟩
/-- R399. -/
def bb_IN_CTR_LO : Fld := ⟨0x058, 0, 1, 31, 0, .rw, 0, false⟩
/-- R399. -/
def bb_IN_CTR_HI : Fld := ⟨0x05C, 0, 1, 31, 0, .rw, 0, false⟩
/-- R399. -/
def bb_OUT : Fld := ⟨0x060, 4, 4, 31, 0, .ro, 0, false⟩
/-- R399. -/
def bb_DONE : Fld := ⟨0x070, 0, 1, 0, 0, .ro, 0, false⟩

/-- The fields of the BB page. -/
def bbFields : List Fld :=
  [bb_F_KAT_FAIL, bb_SEED_LO, bb_SEED_HI, bb_STEP, bb_KAT_FAILED, bb_KAT_IDX, bb_KAT, bb_GO, bb_IN_STREAM,
   bb_IN_STEP, bb_IN_CTR_LO, bb_IN_CTR_HI, bb_OUT, bb_DONE]

/-- R338. -/
def cx_F_ABORT : Fld := ⟨0x010, 0, 1, 5, 5, .w1c, 0, false⟩
/-- R338. -/
def cx_F_HEM_MISMATCH : Fld := ⟨0x010, 0, 1, 4, 4, .w1c, 0, false⟩
/-- R338. -/
def cx_F_BUF_OVER : Fld := ⟨0x010, 0, 1, 3, 3, .w1c, 0, false⟩
/-- R338. -/
def cx_F_DESC_BAD : Fld := ⟨0x010, 0, 1, 2, 2, .w1c, 0, false⟩
/-- R338. -/
def cx_F_DUP : Fld := ⟨0x010, 0, 1, 1, 1, .w1c, 0, false⟩
/-- R338. -/
def cx_F_RESIDUE : Fld := ⟨0x010, 0, 1, 0, 0, .w1c, 0, false⟩
/-- R339. -/
def cx_ENABLE : Fld := ⟨0x040, 0, 1, 31, 31, .rw, 0, false⟩
/-- R339. -/
def cx_DESC_COUNT : Fld := ⟨0x040, 0, 1, 11, 0, .rw, 0, false⟩
/-- R339. -/
def cx_DESC_BASE_LO : Fld := ⟨0x044, 0, 1, 31, 6, .rw, 0, false⟩
/-- R339. -/
def cx_DESC_BASE_HI : Fld := ⟨0x048, 0, 1, 6, 0, .rw, 0, false⟩
/-- R339. -/
def cx_OPEN : Fld := ⟨0x04C, 0, 1, 15, 1, .ro, 0, false⟩
/-- R339. -/
def cx_BUSY : Fld := ⟨0x04C, 0, 1, 0, 0, .ro, 0, false⟩
/-- R339. -/
def cx_STALE : Fld := ⟨0x060, 0, 1, 31, 0, .ro, 0, true⟩
/-- R339. -/
def cx_DUP : Fld := ⟨0x064, 0, 1, 31, 0, .ro, 0, true⟩
/-- R339. -/
def cx_DEC_SENT : Fld := ⟨0x068, 0, 1, 31, 0, .ro, 0, true⟩
/-- R339. -/
def cx_RAISES : Fld := ⟨0x06C, 0, 1, 31, 0, .ro, 0, true⟩
/-- R339. -/
def cx_ABORTS : Fld := ⟨0x070, 0, 1, 31, 0, .ro, 0, true⟩
/-- R339. -/
def cx_LAST_OP : Fld := ⟨0x074, 0, 1, 31, 24, .ro, 0, false⟩
/-- R339. -/
def cx_LAST_GROUP : Fld := ⟨0x074, 0, 1, 23, 0, .ro, 0, false⟩

/-- The fields of the CX page. -/
def cxFields : List Fld :=
  [cx_F_ABORT, cx_F_HEM_MISMATCH, cx_F_BUF_OVER, cx_F_DESC_BAD, cx_F_DUP, cx_F_RESIDUE, cx_ENABLE,
   cx_DESC_COUNT, cx_DESC_BASE_LO, cx_DESC_BASE_HI, cx_OPEN, cx_BUSY, cx_STALE, cx_DUP, cx_DEC_SENT,
   cx_RAISES, cx_ABORTS, cx_LAST_OP, cx_LAST_GROUP]

/-- R454. -/
def tw_F_HOME_BAD : Fld := ⟨0x010, 0, 1, 2, 2, .w1c, 0, false⟩
/-- R454. -/
def tw_F_PARTNER_LOST : Fld := ⟨0x010, 0, 1, 1, 1, .w1c, 0, false⟩
/-- R454. -/
def tw_F_WRITE_FAIL : Fld := ⟨0x010, 0, 1, 0, 0, .w1c, 0, false⟩
/-- R455. -/
def tw_ENABLE : Fld := ⟨0x040, 0, 1, 31, 31, .rw, 0, false⟩
/-- R455. -/
def tw_SEED : Fld := ⟨0x040, 0, 1, 1, 1, .wo, 0, false⟩
/-- R455. -/
def tw_COMMIT : Fld := ⟨0x040, 0, 1, 0, 0, .wo, 0, false⟩
/-- R455. -/
def tw_HOME_BASE : Fld := ⟨0x044, 0, 1, 8, 0, .rw, 0, false⟩
/-- R455. -/
def tw_HOME_SIZE : Fld := ⟨0x048, 0, 1, 9, 0, .rw, 0, false⟩
/-- R455. -/
def tw_STEP : Fld := ⟨0x04C, 0, 1, 31, 0, .rw, 0, false⟩
/-- R455. -/
def tw_LIST_LO : Fld := ⟨0x050, 0, 1, 31, 6, .rw, 0, false⟩
/-- R455. -/
def tw_LIST_HI : Fld := ⟨0x054, 0, 1, 6, 0, .rw, 0, false⟩
/-- R455. -/
def tw_PARTNER_OK : Fld := ⟨0x058, 0, 1, 31, 31, .ro, 0, false⟩
/-- R455. -/
def tw_BUSY : Fld := ⟨0x058, 0, 1, 30, 30, .ro, 0, false⟩
/-- R455. -/
def tw_STAGE : Fld := ⟨0x058, 0, 1, 1, 0, .ro, 0, false⟩
/-- R455. -/
def tw_HOME_STEP : Fld := ⟨0x05C, 0, 1, 31, 0, .ro, 0, false⟩
/-- R455. -/
def tw_TWIN_STEP : Fld := ⟨0x060, 0, 1, 31, 0, .ro, 0, false⟩
/-- R455. -/
def tw_BYTES_MIB : Fld := ⟨0x064, 0, 1, 31, 0, .ro, 0, false⟩
/-- R455. -/
def tw_LAST_US : Fld := ⟨0x068, 0, 1, 31, 0, .ro, 0, false⟩

/-- The fields of the TW page. -/
def twFields : List Fld :=
  [tw_F_HOME_BAD, tw_F_PARTNER_LOST, tw_F_WRITE_FAIL, tw_ENABLE, tw_SEED, tw_COMMIT, tw_HOME_BASE,
   tw_HOME_SIZE, tw_STEP, tw_LIST_LO, tw_LIST_HI, tw_PARTNER_OK, tw_BUSY, tw_STAGE, tw_HOME_STEP,
   tw_TWIN_STEP, tw_BYTES_MIB, tw_LAST_US]

/-- R458. -/
def dl_F_DOLDRUMS : Fld := ⟨0x010, 0, 1, 0, 0, .w1c, 0, false⟩
/-- R459. -/
def dl_ENABLE : Fld := ⟨0x040, 0, 1, 31, 31, .rw, 1, false⟩
/-- R459. -/
def dl_WEXP : Fld := ⟨0x040, 0, 1, 5, 0, .rw, 26, false⟩
/-- R459. -/
def dl_STALL_SRC : Fld := ⟨0x044, 0, 1, 10, 0, .ro, 0, false⟩
/-- R459. -/
def dl_REQ_TILES : Fld := ⟨0x048, 0, 1, 10, 0, .ro, 0, false⟩
/-- R459. -/
def dl_SRC : Fld := ⟨0x04C, 0, 1, 31, 28, .ro, 0, false⟩
/-- R459. -/
def dl_PC : Fld := ⟨0x04C, 0, 1, 27, 14, .ro, 0, false⟩
/-- R459. -/
def dl_TILE : Fld := ⟨0x04C, 0, 1, 10, 0, .ro, 0, false⟩
/-- R459. -/
def dl_EPISODES : Fld := ⟨0x050, 0, 1, 31, 0, .ro, 0, true⟩

/-- The fields of the DL page. -/
def dlFields : List Fld :=
  [dl_F_DOLDRUMS, dl_ENABLE, dl_WEXP, dl_STALL_SRC, dl_REQ_TILES, dl_SRC, dl_PC, dl_TILE, dl_EPISODES]

/-- R268. -/
def tk_LINE_SCOPE : Fld := ⟨0x040, 4, 16, 29, 29, .rw, 0, false⟩
/-- R268. -/
def tk_LINE_MODULES : Fld := ⟨0x040, 4, 16, 23, 16, .rw, 0, false⟩
/-- R268. -/
def tk_LINE_GEN : Fld := ⟨0x040, 4, 16, 15, 8, .ro, 0, false⟩
/-- R268. -/
def tk_STRAY : Fld := ⟨0x080, 0, 1, 31, 0, .ro, 0, true⟩

/-- The fields of the TK page. -/
def tkFields : List Fld :=
  [tk_LINE_SCOPE, tk_LINE_MODULES, tk_LINE_GEN, tk_STRAY]

/-- R456. -/
def gs_F_HOLD_SENT : Fld := ⟨0x010, 0, 1, 1, 1, .w1c, 0, false⟩
/-- R456. -/
def gs_F_OVERRUN : Fld := ⟨0x010, 0, 1, 0, 0, .w1c, 0, false⟩
/-- R457. -/
def gs_JOB_HOLD : Fld := ⟨0x040, 0, 1, 31, 31, .rw, 0, false⟩
/-- R457. -/
def gs_EASE : Fld := ⟨0x040, 0, 1, 15, 0, .rw, 1024, false⟩
/-- R457. -/
def gs_NET : Fld := ⟨0x044, 0, 1, 31, 31, .ro, 0, false⟩
/-- R457. -/
def gs_GATE : Fld := ⟨0x044, 0, 1, 30, 30, .ro, 0, false⟩
/-- R457. -/
def gs_BEHIND : Fld := ⟨0x044, 0, 1, 29, 29, .ro, 0, false⟩
/-- R457. -/
def gs_DEFICIT : Fld := ⟨0x044, 0, 1, 3, 0, .ro, 0, false⟩
/-- R457. -/
def gs_STALL_MAX : Fld := ⟨0x048, 0, 1, 31, 0, .ro, 0, false⟩
/-- R457. -/
def gs_HOLDS : Fld := ⟨0x04C, 0, 1, 31, 0, .ro, 0, true⟩
/-- R457. -/
def gs_REST_LO : Fld := ⟨0x050, 0, 1, 31, 0, .ro, 0, false⟩
/-- R457. -/
def gs_REST_HI : Fld := ⟨0x054, 0, 1, 31, 0, .ro, 0, false⟩
/-- R457. -/
def gs_ISSUE_LO : Fld := ⟨0x058, 0, 1, 31, 0, .rw, 0, false⟩
/-- R457. -/
def gs_ISSUE_HI : Fld := ⟨0x05C, 0, 1, 31, 0, .rw, 0, false⟩
/-- R457. -/
def gs_KBASE_LO : Fld := ⟨0x060, 0, 1, 31, 0, .rw, 0, false⟩
/-- R457. -/
def gs_KBASE_HI : Fld := ⟨0x064, 0, 1, 31, 0, .rw, 0, false⟩

/-- The fields of the GS page. -/
def gsFields : List Fld :=
  [gs_F_HOLD_SENT, gs_F_OVERRUN, gs_JOB_HOLD, gs_EASE, gs_NET, gs_GATE, gs_BEHIND, gs_DEFICIT, gs_STALL_MAX,
   gs_HOLDS, gs_REST_LO, gs_REST_HI, gs_ISSUE_LO, gs_ISSUE_HI, gs_KBASE_LO, gs_KBASE_HI]

/-- R533. -/
def en_F_DOORBELL_BAD : Fld := ⟨0x010, 0, 1, 3, 3, .w1c, 0, false⟩
/-- R533. -/
def en_F_QP_ERROR : Fld := ⟨0x010, 0, 1, 2, 2, .w1c, 0, false⟩
/-- R533. -/
def en_F_RX_FAULT : Fld := ⟨0x010, 0, 1, 1, 1, .w1c, 0, false⟩
/-- R533. -/
def en_F_LINK_DOWN : Fld := ⟨0x010, 0, 1, 0, 0, .w1c, 0, false⟩
/-- R534. -/
def en_ENABLE : Fld := ⟨0x040, 0, 1, 31, 31, .rw, 0, false⟩
/-- R534. -/
def en_PFC_EN : Fld := ⟨0x040, 0, 1, 30, 30, .rw, 0, false⟩
/-- R534. -/
def en_PFC_PRIO : Fld := ⟨0x040, 0, 1, 29, 27, .rw, 0, false⟩
/-- R534. -/
def en_ECN_EN : Fld := ⟨0x040, 0, 1, 26, 26, .rw, 1, false⟩
/-- R534. -/
def en_MTU : Fld := ⟨0x040, 0, 1, 25, 24, .rw, 2, false⟩
/-- R534. -/
def en_LINK_UP : Fld := ⟨0x044, 0, 1, 31, 31, .ro, 0, false⟩
/-- R534. -/
def en_SENDING_LF : Fld := ⟨0x044, 0, 1, 30, 30, .ro, 0, false⟩
/-- R534. -/
def en_MQ_CONNECTED : Fld := ⟨0x044, 0, 1, 29, 29, .ro, 0, false⟩
/-- R534. -/
def en_QUEUES : Fld := ⟨0x044, 0, 1, 8, 0, .ro, 0, false⟩
/-- R534. -/
def en_MAC_LO : Fld := ⟨0x048, 0, 1, 31, 0, .rw, 0, false⟩
/-- R534. -/
def en_MAC_HI : Fld := ⟨0x04C, 0, 1, 15, 0, .rw, 0, false⟩
/-- R534. -/
def en_IP4 : Fld := ⟨0x050, 0, 1, 31, 0, .rw, 0, false⟩
/-- R534. -/
def en_IP6 : Fld := ⟨0x060, 4, 4, 31, 0, .rw, 0, false⟩
/-- R534. -/
def en_RX_DISCARD : Fld := ⟨0x080, 0, 1, 31, 0, .ro, 0, true⟩
/-- R534. -/
def en_FEC_CORR : Fld := ⟨0x084, 0, 1, 31, 0, .ro, 0, true⟩
/-- R534. -/
def en_FEC_UNCORR : Fld := ⟨0x088, 0, 1, 31, 0, .ro, 0, true⟩
/-- R534. -/
def en_CNP_RX : Fld := ⟨0x08C, 0, 1, 31, 0, .ro, 0, true⟩
/-- R534. -/
def en_ECN_RX : Fld := ⟨0x090, 0, 1, 31, 0, .ro, 0, true⟩
/-- R534. -/
def en_CPL_WAITS : Fld := ⟨0x094, 0, 1, 31, 0, .ro, 0, true⟩

/-- The fields of the EN page. -/
def enFields : List Fld :=
  [en_F_DOORBELL_BAD, en_F_QP_ERROR, en_F_RX_FAULT, en_F_LINK_DOWN, en_ENABLE, en_PFC_EN, en_PFC_PRIO,
   en_ECN_EN, en_MTU, en_LINK_UP, en_SENDING_LF, en_MQ_CONNECTED, en_QUEUES, en_MAC_LO, en_MAC_HI, en_IP4,
   en_IP6, en_RX_DISCARD, en_FEC_CORR, en_FEC_UNCORR, en_CNP_RX, en_ECN_RX, en_CPL_WAITS]

/-- R561. -/
def nc_DIR : Fld := ⟨0x040, 0, 1, 12, 11, .rw, 0, false⟩
/-- R561. -/
def nc_PTILE : Fld := ⟨0x040, 0, 1, 10, 0, .rw, 0, false⟩
/-- R561. -/
def nc_GRANT : Fld := ⟨0x044, 4, 5, 31, 0, .ro, 0, false⟩

/-- The fields of the NC page. -/
def ncFields : List Fld :=
  [nc_DIR, nc_PTILE, nc_GRANT]

/-- R460. -/
def it_F_PKG_REFUSED : Fld := ⟨0x010, 0, 1, 2, 2, .w1c, 0, false⟩
/-- R460. -/
def it_F_OVERDUE : Fld := ⟨0x010, 0, 1, 1, 1, .w1c, 0, false⟩
/-- R460. -/
def it_F_TEST_FAIL : Fld := ⟨0x010, 0, 1, 0, 0, .w1c, 0, false⟩
/-- R461. -/
def it_ENABLE : Fld := ⟨0x040, 0, 1, 31, 31, .rw, 1, false⟩
/-- R461. -/
def it_SLICES_EN : Fld := ⟨0x040, 0, 1, 30, 30, .rw, 1, false⟩
/-- R461. -/
def it_DEFER_H : Fld := ⟨0x040, 0, 1, 23, 16, .rw, 72, false⟩
/-- R461. -/
def it_INTERVAL_H : Fld := ⟨0x040, 0, 1, 15, 0, .rw, 24, false⟩
/-- R461. -/
def it_SLICE_MAX : Fld := ⟨0x044, 0, 1, 12, 0, .rw, 4500, false⟩
/-- R461. -/
def it_VER : Fld := ⟨0x048, 0, 1, 31, 0, .ro, 0, false⟩
/-- R461. -/
def it_IDX : Fld := ⟨0x04C, 0, 1, 10, 0, .rw, 0, false⟩
/-- R461. -/
def it_T_STATE : Fld := ⟨0x050, 0, 1, 31, 30, .ro, 0, false⟩
/-- R461. -/
def it_T_DONE : Fld := ⟨0x050, 0, 1, 29, 23, .ro, 0, false⟩
/-- R461. -/
def it_T_HOURS : Fld := ⟨0x050, 0, 1, 15, 0, .ro, 0, false⟩
/-- R461. -/
def it_T_PASS_STEP : Fld := ⟨0x054, 0, 1, 31, 0, .ro, 0, false⟩
/-- R461. -/
def it_FAIL_TEST : Fld := ⟨0x058, 0, 1, 31, 16, .ro, 0, false⟩
/-- R461. -/
def it_FAIL_TILE : Fld := ⟨0x058, 0, 1, 10, 0, .ro, 0, false⟩
/-- R461. -/
def it_SLICES : Fld := ⟨0x05C, 0, 1, 31, 0, .ro, 0, true⟩
/-- R461. -/
def it_FORCED : Fld := ⟨0x060, 0, 1, 31, 16, .ro, 0, true⟩
/-- R461. -/
def it_ABANDONED : Fld := ⟨0x060, 0, 1, 15, 0, .ro, 0, true⟩
/-- R461. -/
def it_BASTE_PAIRS : Fld := ⟨0x064, 0, 1, 31, 0, .ro, 0, true⟩

/-- The fields of the IT page. -/
def itFields : List Fld :=
  [it_F_PKG_REFUSED, it_F_OVERDUE, it_F_TEST_FAIL, it_ENABLE, it_SLICES_EN, it_DEFER_H, it_INTERVAL_H,
   it_SLICE_MAX, it_VER, it_IDX, it_T_STATE, it_T_DONE, it_T_HOURS, it_T_PASS_STEP, it_FAIL_TEST,
   it_FAIL_TILE, it_SLICES, it_FORCED, it_ABANDONED, it_BASTE_PAIRS]

/-- R334. -/
def lk_F_PSN_GAP : Fld := ⟨0x010, 0, 1, 6, 6, .w1c, 0, false⟩
/-- R334. -/
def lk_F_FOREIGN : Fld := ⟨0x010, 0, 1, 5, 5, .w1c, 0, false⟩
/-- R334. -/
def lk_F_REACH : Fld := ⟨0x010, 0, 1, 4, 4, .w1c, 0, false⟩
/-- R334. -/
def lk_F_PORT_DOWN : Fld := ⟨0x010, 0, 1, 3, 3, .w1c, 0, false⟩
/-- R334. -/
def lk_F_RETRY_LIMIT : Fld := ⟨0x010, 0, 1, 2, 2, .w1c, 0, false⟩
/-- R334. -/
def lk_F_WL_NO_SPARE : Fld := ⟨0x010, 0, 1, 1, 1, .w1c, 0, false⟩
/-- R334. -/
def lk_F_WL_SPARED : Fld := ⟨0x010, 0, 1, 0, 0, .w1c, 0, false⟩
/-- R335. -/
def lk_CFG_ENABLE : Fld := ⟨0x040, 0, 1, 31, 31, .rw, 0, false⟩
/-- R335. -/
def lk_CFG_FOREIGN : Fld := ⟨0x040, 0, 1, 30, 30, .rw, 0, false⟩
/-- R335. -/
def lk_CFG_CAL_EN : Fld := ⟨0x040, 0, 1, 29, 29, .rw, 1, false⟩
/-- R335. -/
def lk_CFG_TRY_LIMIT : Fld := ⟨0x040, 0, 1, 20, 16, .ro, 16, false⟩
/-- R335. -/
def lk_CFG_ROLE : Fld := ⟨0x040, 0, 1, 7, 6, .ro, 0, false⟩
/-- R335. -/
def lk_CFG_PORT : Fld := ⟨0x040, 0, 1, 5, 0, .ro, 0, false⟩
/-- R335. -/
def lk_STATUS_STATE : Fld := ⟨0x044, 0, 1, 31, 29, .ro, 0, false⟩
/-- R335. -/
def lk_STATUS_PEER_FAULT : Fld := ⟨0x044, 0, 1, 28, 28, .ro, 0, false⟩
/-- R335. -/
def lk_STATUS_ROT : Fld := ⟨0x044, 0, 1, 27, 24, .ro, 8, false⟩
/-- R335. -/
def lk_STATUS_WL_BAD : Fld := ⟨0x044, 0, 1, 23, 15, .ro, 0, false⟩
/-- R335. -/
def lk_STATUS_CAL_ACTIVE : Fld := ⟨0x044, 0, 1, 14, 14, .ro, 0, false⟩
/-- R335. -/
def lk_STATUS_TAKEOVER : Fld := ⟨0x044, 0, 1, 13, 8, .ro, 0, false⟩
/-- R335. -/
def lk_STATUS_TAKEOVER_VALID : Fld := ⟨0x044, 0, 1, 7, 7, .ro, 0, false⟩
/-- R335. -/
def lk_PEER_RACK : Fld := ⟨0x048, 0, 1, 31, 24, .ro, 0, false⟩
/-- R335. -/
def lk_PEER_BOLT : Fld := ⟨0x048, 0, 1, 23, 21, .ro, 0, false⟩
/-- R335. -/
def lk_PEER_MODULE : Fld := ⟨0x048, 0, 1, 20, 18, .ro, 0, false⟩
/-- R335. -/
def lk_PEER_PORT : Fld := ⟨0x048, 0, 1, 17, 12, .ro, 0, false⟩
/-- R335. -/
def lk_RTT : Fld := ⟨0x04C, 0, 1, 15, 0, .ro, 0, false⟩
/-- R335. -/
def lk_CAL_SEC : Fld := ⟨0x050, 0, 1, 15, 0, .rw, 600, false⟩
/-- R335. -/
def lk_CAL_WL : Fld := ⟨0x054, 0, 1, 3, 0, .wo, 0, false⟩
/-- R335. -/
def lk_CORR_SYM : Fld := ⟨0x060, 0, 1, 31, 0, .ro, 0, true⟩
/-- R335. -/
def lk_BAD_FRAME : Fld := ⟨0x064, 0, 1, 31, 0, .ro, 0, true⟩
/-- R335. -/
def lk_RETRY : Fld := ⟨0x068, 0, 1, 31, 0, .ro, 0, true⟩
/-- R335. -/
def lk_TIMEOUT : Fld := ⟨0x06C, 0, 1, 31, 0, .ro, 0, true⟩
/-- R335. -/
def lk_DUP_CELL : Fld := ⟨0x070, 0, 1, 31, 0, .ro, 0, true⟩
/-- R335. -/
def lk_DUP_PSN : Fld := ⟨0x074, 0, 1, 31, 0, .ro, 0, true⟩
/-- R335. -/
def lk_FOREIGN_DROP : Fld := ⟨0x078, 0, 1, 31, 0, .ro, 0, true⟩
/-- R335. -/
def lk_MALFORMED : Fld := ⟨0x07C, 0, 1, 31, 0, .ro, 0, true⟩
/-- R335. -/
def lk_REPLAY_PEAK : Fld := ⟨0x080, 0, 1, 27, 16, .ro, 0, false⟩
/-- R335. -/
def lk_REPLAY_OCC : Fld := ⟨0x080, 0, 1, 11, 0, .ro, 0, false⟩

/-- The fields of the LK page. -/
def lkFields : List Fld :=
  [lk_F_PSN_GAP, lk_F_FOREIGN, lk_F_REACH, lk_F_PORT_DOWN, lk_F_RETRY_LIMIT, lk_F_WL_NO_SPARE,
   lk_F_WL_SPARED, lk_CFG_ENABLE, lk_CFG_FOREIGN, lk_CFG_CAL_EN, lk_CFG_TRY_LIMIT, lk_CFG_ROLE, lk_CFG_PORT,
   lk_STATUS_STATE, lk_STATUS_PEER_FAULT, lk_STATUS_ROT, lk_STATUS_WL_BAD, lk_STATUS_CAL_ACTIVE,
   lk_STATUS_TAKEOVER, lk_STATUS_TAKEOVER_VALID, lk_PEER_RACK, lk_PEER_BOLT, lk_PEER_MODULE, lk_PEER_PORT,
   lk_RTT, lk_CAL_SEC, lk_CAL_WL, lk_CORR_SYM, lk_BAD_FRAME, lk_RETRY, lk_TIMEOUT, lk_DUP_CELL, lk_DUP_PSN,
   lk_FOREIGN_DROP, lk_MALFORMED, lk_REPLAY_PEAK, lk_REPLAY_OCC]

/-- R336. -/
def oe_F_TEMP_HIGH : Fld := ⟨0x010, 0, 1, 3, 3, .w1c, 0, false⟩
/-- R336. -/
def oe_F_LASER_LOW : Fld := ⟨0x010, 0, 1, 2, 2, .w1c, 0, false⟩
/-- R336. -/
def oe_F_LASER_FAIL : Fld := ⟨0x010, 0, 1, 1, 1, .w1c, 0, false⟩
/-- R336. -/
def oe_F_RX_LOS : Fld := ⟨0x010, 0, 1, 0, 0, .w1c, 0, false⟩
/-- R337. -/
def oe_TEMP : Fld := ⟨0x040, 0, 1, 31, 24, .ro, 0, false⟩
/-- R337. -/
def oe_LASER_OK : Fld := ⟨0x040, 0, 1, 8, 0, .ro, 0, false⟩
/-- R337. -/
def oe_BIAS : Fld := ⟨0x044, 4, 9, 31, 16, .ro, 0, false⟩
/-- R337. -/
def oe_TX_POWER : Fld := ⟨0x044, 4, 9, 15, 0, .ro, 0, false⟩
/-- R337. -/
def oe_TEMP_LIMIT : Fld := ⟨0x070, 0, 1, 7, 0, .rw, 85, false⟩
/-- R337. -/
def oe_RX_POWER : Fld := ⟨0x080, 4, 36, 15, 0, .ro, 0, false⟩

/-- The fields of the OE page. -/
def oeFields : List Fld :=
  [oe_F_TEMP_HIGH, oe_F_LASER_LOW, oe_F_LASER_FAIL, oe_F_RX_LOS, oe_TEMP, oe_LASER_OK, oe_BIAS, oe_TX_POWER,
   oe_TEMP_LIMIT, oe_RX_POWER]

/-- R198. -/
def tl_F_DOUBLE : Fld := ⟨0x010, 0, 1, 8, 8, .w1c, 0, false⟩
/-- R198. -/
def tl_F_STORE_UE : Fld := ⟨0x010, 0, 1, 7, 7, .w1c, 0, false⟩
/-- R198. -/
def tl_F_SYNC : Fld := ⟨0x010, 0, 1, 6, 6, .w1c, 0, false⟩
/-- R198. -/
def tl_F_DMA : Fld := ⟨0x010, 0, 1, 5, 5, .w1c, 0, false⟩
/-- R198. -/
def tl_F_BUS : Fld := ⟨0x010, 0, 1, 4, 4, .w1c, 0, false⟩
/-- R198. -/
def tl_F_PRIV : Fld := ⟨0x010, 0, 1, 3, 3, .w1c, 0, false⟩
/-- R198. -/
def tl_F_DADDR : Fld := ⟨0x010, 0, 1, 2, 2, .w1c, 0, false⟩
/-- R198. -/
def tl_F_IADDR : Fld := ⟨0x010, 0, 1, 1, 1, .w1c, 0, false⟩
/-- R198. -/
def tl_F_ILLEGAL : Fld := ⟨0x010, 0, 1, 0, 0, .w1c, 0, false⟩
/-- R199. -/
def tl_CTRL_TRAP_EN : Fld := ⟨0x040, 0, 1, 1, 1, .rw, 0, false⟩
/-- R199. -/
def tl_CTRL_RUN : Fld := ⟨0x040, 0, 1, 0, 0, .rw, 0, false⟩
/-- R199. -/
def tl_STATUS_DOUBLE : Fld := ⟨0x044, 0, 1, 5, 5, .ro, 0, false⟩
/-- R199. -/
def tl_STATUS_SLEEP : Fld := ⟨0x044, 0, 1, 4, 4, .ro, 0, false⟩
/-- R199. -/
def tl_STATUS_HALTED : Fld := ⟨0x044, 0, 1, 3, 3, .ro, 0, false⟩
/-- R199. -/
def tl_STATUS_HMODE : Fld := ⟨0x044, 0, 1, 2, 2, .ro, 0, false⟩
/-- R199. -/
def tl_STATUS_FENCED : Fld := ⟨0x044, 0, 1, 1, 1, .ro, 0, false⟩
/-- R199. -/
def tl_STATUS_RUNNING : Fld := ⟨0x044, 0, 1, 0, 0, .ro, 0, false⟩
/-- R199. -/
def tl_TRAP_VEC : Fld := ⟨0x048, 0, 1, 13, 0, .rw, 0, false⟩
/-- R199. -/
def tl_TRAP_PC : Fld := ⟨0x04C, 0, 1, 13, 0, .rw, 0, false⟩
/-- R199. -/
def tl_MULTI : Fld := ⟨0x050, 0, 1, 12, 12, .ro, 0, false⟩
/-- R199. -/
def tl_SRC : Fld := ⟨0x050, 0, 1, 11, 8, .ro, 0, false⟩
/-- R199. -/
def tl_CAUSE : Fld := ⟨0x050, 0, 1, 7, 0, .ro, 0, false⟩
/-- R199. -/
def tl_TRAP_INFO_LO : Fld := ⟨0x054, 0, 1, 31, 0, .ro, 0, false⟩
/-- R199. -/
def tl_TRAP_INFO_HI : Fld := ⟨0x058, 0, 1, 31, 0, .ro, 0, false⟩
/-- R199. -/
def tl_PRED : Fld := ⟨0x05C, 0, 1, 7, 1, .rw, 0, false⟩
/-- R199. -/
def tl_TRAP_AUX : Fld := ⟨0x060, 0, 1, 13, 0, .ro, 0, false⟩
/-- R199. -/
def tl_DMA_QDEPTH : Fld := ⟨0x064, 0, 1, 7, 4, .ro, 0, false⟩
/-- R199. -/
def tl_DMA_BUSY : Fld := ⟨0x064, 0, 1, 0, 0, .ro, 0, false⟩
/-- R199. -/
def tl_DMA_RESP : Fld := ⟨0x068, 0, 1, 31, 24, .ro, 0, false⟩
/-- R199. -/
def tl_DMA_DESC : Fld := ⟨0x068, 0, 1, 15, 0, .ro, 0, false⟩
/-- R199. -/
def tl_SCRATCH : Fld := ⟨0x070, 4, 4, 31, 0, .rw, 0, false⟩
/-- R267. -/
def tl_MB_MSG_PEND : Fld := ⟨0x100, 0, 1, 8, 8, .ro, 0, false⟩
/-- R267. -/
def tl_MB_NONTILE : Fld := ⟨0x100, 0, 1, 7, 4, .ro, 0, false⟩
/-- R267. -/
def tl_MB_OCC : Fld := ⟨0x100, 0, 1, 3, 0, .ro, 0, false⟩
/-- R267. -/
def tl_MB_FULL_CNT : Fld := ⟨0x104, 0, 1, 31, 0, .ro, 0, true⟩
/-- R267. -/
def tl_MB_WAKE : Fld := ⟨0x108, 0, 1, 0, 0, .wo, 0, false⟩
/-- R267. -/
def tl_MB_STAMP : Fld := ⟨0x110, 4, 4, 31, 0, .ro, 0, false⟩
/-- R553. -/
def tl_FENCE : Fld := ⟨0x080, 0, 1, 0, 0, .wo, 0, false⟩

/-- The fields of the TL page. -/
def tlFields : List Fld :=
  [tl_F_DOUBLE, tl_F_STORE_UE, tl_F_SYNC, tl_F_DMA, tl_F_BUS, tl_F_PRIV, tl_F_DADDR, tl_F_IADDR,
   tl_F_ILLEGAL, tl_CTRL_TRAP_EN, tl_CTRL_RUN, tl_STATUS_DOUBLE, tl_STATUS_SLEEP, tl_STATUS_HALTED,
   tl_STATUS_HMODE, tl_STATUS_FENCED, tl_STATUS_RUNNING, tl_TRAP_VEC, tl_TRAP_PC, tl_MULTI, tl_SRC, tl_CAUSE,
   tl_TRAP_INFO_LO, tl_TRAP_INFO_HI, tl_PRED, tl_TRAP_AUX, tl_DMA_QDEPTH, tl_DMA_BUSY, tl_DMA_RESP,
   tl_DMA_DESC, tl_SCRATCH, tl_MB_MSG_PEND, tl_MB_NONTILE, tl_MB_OCC, tl_MB_FULL_CNT, tl_MB_WAKE,
   tl_MB_STAMP, tl_FENCE]

/-- R122. -/
def mx_F_NUM : Fld := ⟨0x010, 0, 1, 6, 6, .w1c, 0, false⟩
/-- R122. -/
def mx_F_ILLEGAL : Fld := ⟨0x010, 0, 1, 5, 5, .w1c, 0, false⟩
/-- R122. -/
def mx_F_ADDR : Fld := ⟨0x010, 0, 1, 4, 4, .w1c, 0, false⟩
/-- R122. -/
def mx_F_STATE : Fld := ⟨0x010, 0, 1, 3, 3, .w1c, 0, false⟩
/-- R122. -/
def mx_F_FMT : Fld := ⟨0x010, 0, 1, 2, 2, .w1c, 0, false⟩
/-- R122. -/
def mx_F_BASTE_MISMATCH : Fld := ⟨0x010, 0, 1, 1, 1, .w1c, 0, false⟩
/-- R122. -/
def mx_F_RESIDUE : Fld := ⟨0x010, 0, 1, 0, 0, .w1c, 0, false⟩
/-- R123. -/
def mx_CFG_BASTE_EN : Fld := ⟨0x040, 0, 1, 8, 8, .rw, 0, false⟩
/-- R123. -/
def mx_CFG_BASTE_N : Fld := ⟨0x040, 0, 1, 3, 0, .rw, 8, false⟩
/-- R123. -/
def mx_BASTE_KEY_LO : Fld := ⟨0x044, 0, 1, 31, 0, .rw, 0, false⟩
/-- R123. -/
def mx_BASTE_KEY_HI : Fld := ⟨0x048, 0, 1, 31, 0, .rw, 0, false⟩
/-- R123. -/
def mx_STATUS_QDEPTH : Fld := ⟨0x04C, 0, 1, 7, 5, .ro, 0, false⟩
/-- R123. -/
def mx_STATUS_INV_SEEN : Fld := ⟨0x04C, 0, 1, 4, 4, .w1c, 0, false⟩
/-- R123. -/
def mx_STATUS_BASTE_OUT : Fld := ⟨0x04C, 0, 1, 1, 1, .ro, 0, false⟩
/-- R123. -/
def mx_STATUS_BUSY : Fld := ⟨0x04C, 0, 1, 0, 0, .ro, 0, false⟩
/-- R123. -/
def mx_ACC_STATE : Fld := ⟨0x050, 8, 4, 31, 30, .rw, 0, false⟩
/-- R123. -/
def mx_ACC_CTL_LAYOUT : Fld := ⟨0x050, 8, 4, 29, 29, .rw, 0, false⟩
/-- R123. -/
def mx_ACC_CTL_SCOPE : Fld := ⟨0x050, 8, 4, 28, 28, .rw, 0, false⟩
/-- R123. -/
def mx_ACC_CTL_ATTEMPT : Fld := ⟨0x050, 8, 4, 26, 24, .rw, 0, false⟩
/-- R123. -/
def mx_ACC_CTL_HEM : Fld := ⟨0x050, 8, 4, 15, 0, .rw, 0, false⟩
/-- R123. -/
def mx_ACC_GRP_DEC_KIND : Fld := ⟨0x054, 8, 4, 28, 27, .ro, 0, false⟩
/-- R123. -/
def mx_ACC_GRP_DEC_ATTEMPT : Fld := ⟨0x054, 8, 4, 26, 24, .ro, 0, false⟩
/-- R123. -/
def mx_ACC_GRP_GROUP_ID : Fld := ⟨0x054, 8, 4, 23, 0, .rw, 0, false⟩
/-- R123. -/
def mx_ACC_RESTART : Fld := ⟨0x070, 4, 4, 13, 0, .rw, 0, false⟩
/-- R123. -/
def mx_TAG_BDIR : Fld := ⟨0x080, 4, 8, 4, 4, .rw, 0, false⟩
/-- R123. -/
def mx_TAG_FMT : Fld := ⟨0x080, 4, 8, 3, 0, .rw, 6, false⟩
/-- R123. -/
def mx_SEQ_LO : Fld := ⟨0x0A0, 0, 1, 31, 0, .rw, 0, false⟩
/-- R123. -/
def mx_SEQ_HI : Fld := ⟨0x0A4, 0, 1, 31, 0, .rw, 0, false⟩
/-- R123. -/
def mx_BASTE_SENT : Fld := ⟨0x0A8, 0, 1, 31, 0, .ro, 0, true⟩
/-- R123. -/
def mx_BASTE_SKIP : Fld := ⟨0x0AC, 0, 1, 31, 0, .ro, 0, true⟩
/-- R123. -/
def mx_DIG_LOCAL_LO : Fld := ⟨0x0B0, 0, 1, 31, 0, .ro, 0, false⟩
/-- R123. -/
def mx_DIG_LOCAL_HI : Fld := ⟨0x0B4, 0, 1, 31, 0, .ro, 0, false⟩
/-- R123. -/
def mx_DIG_REMOTE_LO : Fld := ⟨0x0B8, 0, 1, 31, 0, .ro, 0, false⟩
/-- R123. -/
def mx_DIG_REMOTE_HI : Fld := ⟨0x0BC, 0, 1, 31, 0, .ro, 0, false⟩
/-- R123. -/
def mx_DIG_SEQ : Fld := ⟨0x0C0, 0, 1, 31, 0, .ro, 0, false⟩
/-- R123. -/
def mx_DEC_DROP : Fld := ⟨0x0C4, 0, 1, 31, 0, .ro, 0, true⟩
/-- R123. -/
def mx_ERR_CODE : Fld := ⟨0x0C8, 0, 1, 31, 28, .ro, 0, false⟩
/-- R123. -/
def mx_ERR_PC : Fld := ⟨0x0C8, 0, 1, 13, 0, .ro, 0, false⟩

/-- The fields of the MX page. -/
def mxFields : List Fld :=
  [mx_F_NUM, mx_F_ILLEGAL, mx_F_ADDR, mx_F_STATE, mx_F_FMT, mx_F_BASTE_MISMATCH, mx_F_RESIDUE,
   mx_CFG_BASTE_EN, mx_CFG_BASTE_N, mx_BASTE_KEY_LO, mx_BASTE_KEY_HI, mx_STATUS_QDEPTH,
   mx_STATUS_INV_SEEN, mx_STATUS_BASTE_OUT,
   mx_STATUS_BUSY, mx_ACC_STATE, mx_ACC_CTL_LAYOUT, mx_ACC_CTL_SCOPE, mx_ACC_CTL_ATTEMPT, mx_ACC_CTL_HEM,
   mx_ACC_GRP_DEC_KIND, mx_ACC_GRP_DEC_ATTEMPT, mx_ACC_GRP_GROUP_ID, mx_ACC_RESTART, mx_TAG_BDIR, mx_TAG_FMT,
   mx_SEQ_LO, mx_SEQ_HI, mx_BASTE_SENT, mx_BASTE_SKIP, mx_DIG_LOCAL_LO, mx_DIG_LOCAL_HI, mx_DIG_REMOTE_LO,
   mx_DIG_REMOTE_HI, mx_DIG_SEQ, mx_DEC_DROP, mx_ERR_CODE, mx_ERR_PC]

/-- R159. -/
def vx_F_ILLEGAL : Fld := ⟨0x010, 0, 1, 4, 4, .w1c, 0, false⟩
/-- R159. -/
def vx_F_ADDR : Fld := ⟨0x010, 0, 1, 3, 3, .w1c, 0, false⟩
/-- R159. -/
def vx_F_STATE : Fld := ⟨0x010, 0, 1, 2, 2, .w1c, 0, false⟩
/-- R159. -/
def vx_F_FMT : Fld := ⟨0x010, 0, 1, 1, 1, .w1c, 0, false⟩
/-- R159. -/
def vx_F_RESIDUE : Fld := ⟨0x010, 0, 1, 0, 0, .w1c, 0, false⟩
/-- R160. -/
def vx_STATUS_QDEPTH : Fld := ⟨0x040, 0, 1, 3, 1, .ro, 0, false⟩
/-- R160. -/
def vx_STATUS_BUSY : Fld := ⟨0x040, 0, 1, 0, 0, .ro, 0, false⟩
/-- R160. -/
def vx_EVENT_INVALID : Fld := ⟨0x044, 0, 1, 1, 1, .w1c, 0, false⟩
/-- R160. -/
def vx_EVENT_SAT : Fld := ⟨0x044, 0, 1, 0, 0, .w1c, 0, false⟩
/-- R160. -/
def vx_SEED_LO : Fld := ⟨0x048, 0, 1, 31, 0, .rw, 0, false⟩
/-- R160. -/
def vx_SEED_HI : Fld := ⟨0x04C, 0, 1, 31, 0, .rw, 0, false⟩
/-- R160. -/
def vx_SR_STREAM : Fld := ⟨0x050, 0, 1, 31, 0, .rw, 0, false⟩
/-- R160. -/
def vx_SR_STEP : Fld := ⟨0x054, 0, 1, 31, 0, .rw, 0, false⟩
/-- R160. -/
def vx_SR_BASE_LO : Fld := ⟨0x058, 0, 1, 31, 0, .rw, 0, false⟩
/-- R160. -/
def vx_SR_BASE_HI : Fld := ⟨0x05C, 0, 1, 31, 0, .rw, 0, false⟩
/-- R160. -/
def vx_STALE : Fld := ⟨0x070, 0, 1, 31, 0, .ro, 0, true⟩
/-- R160. -/
def vx_ERR_CODE : Fld := ⟨0x074, 0, 1, 31, 28, .ro, 0, false⟩
/-- R160. -/
def vx_ERR_PC : Fld := ⟨0x074, 0, 1, 13, 0, .ro, 0, false⟩
/-- R160. -/
def vx_ACC_PCNT : Fld := ⟨0x060, 4, 4, 6, 0, .rw, 0, false⟩
/-- R160. -/
def vx_U_LO : Fld := ⟨0x080, 8, 8, 31, 0, .rw, 0, false⟩
/-- R160. -/
def vx_U_HI : Fld := ⟨0x084, 8, 8, 31, 0, .rw, 0, false⟩

/-- The fields of the VX page. -/
def vxFields : List Fld :=
  [vx_F_ILLEGAL, vx_F_ADDR, vx_F_STATE, vx_F_FMT, vx_F_RESIDUE, vx_STATUS_QDEPTH, vx_STATUS_BUSY,
   vx_EVENT_INVALID, vx_EVENT_SAT, vx_SEED_LO, vx_SEED_HI, vx_SR_STREAM, vx_SR_STEP, vx_SR_BASE_LO,
   vx_SR_BASE_HI, vx_STALE, vx_ERR_CODE, vx_ERR_PC, vx_ACC_PCNT, vx_U_LO, vx_U_HI]

/-- R265. -/
def sy_F_TACK : Fld := ⟨0x010, 0, 1, 3, 3, .w1c, 0, false⟩
/-- R265. -/
def sy_F_REALIGN : Fld := ⟨0x010, 0, 1, 2, 2, .w1c, 0, false⟩
/-- R265. -/
def sy_F_SATURATED : Fld := ⟨0x010, 0, 1, 1, 1, .w1c, 0, false⟩
/-- R265. -/
def sy_F_INDEX : Fld := ⟨0x010, 0, 1, 0, 0, .w1c, 0, false⟩
/-- R266. -/
def sy_STATUS_WAITING : Fld := ⟨0x040, 0, 1, 31, 31, .ro, 0, false⟩
/-- R266. -/
def sy_STATUS_TACK_WAIT : Fld := ⟨0x040, 0, 1, 30, 30, .ro, 0, false⟩
/-- R266. -/
def sy_STATUS_WAIT_CTR : Fld := ⟨0x040, 0, 1, 29, 24, .ro, 0, false⟩
/-- R266. -/
def sy_STATUS_TACK_LINE : Fld := ⟨0x040, 0, 1, 23, 20, .ro, 0, false⟩
/-- R266. -/
def sy_STATUS_WAIT_N : Fld := ⟨0x040, 0, 1, 15, 0, .ro, 0, false⟩
/-- R266. -/
def sy_TACK_PEND : Fld := ⟨0x044, 0, 1, 31, 16, .ro, 0, false⟩
/-- R266. -/
def sy_TACK_PART : Fld := ⟨0x044, 0, 1, 15, 0, .rw, 0, false⟩
/-- R266. -/
def sy_ISSUE : Fld := ⟨0x048, 0, 1, 31, 0, .ro, 0, true⟩
/-- R266. -/
def sy_RA_EXPECTED : Fld := ⟨0x04C, 0, 1, 31, 16, .ro, 0, false⟩
/-- R266. -/
def sy_RA_ACTUAL : Fld := ⟨0x04C, 0, 1, 15, 0, .ro, 0, false⟩
/-- R266. -/
def sy_RA_WHICH : Fld := ⟨0x050, 0, 1, 7, 6, .ro, 0, false⟩
/-- R266. -/
def sy_RA_CTR : Fld := ⟨0x050, 0, 1, 5, 0, .ro, 0, false⟩
/-- R266. -/
def sy_LOST_WAKES : Fld := ⟨0x054, 0, 1, 31, 16, .ro, 0, true⟩
/-- R266. -/
def sy_TIMEOUTS : Fld := ⟨0x054, 0, 1, 15, 0, .ro, 0, true⟩
/-- R266. -/
def sy_CNT_COUNT : Fld := ⟨0x100, 4, 48, 15, 0, .rw, 0, false⟩
/-- R266. -/
def sy_PC_CONS_CNT : Fld := ⟨0x200, 4, 48, 31, 16, .rw, 0, false⟩
/-- R266. -/
def sy_PC_PROD_CNT : Fld := ⟨0x200, 4, 48, 15, 0, .rw, 0, false⟩
/-- R266. -/
def sy_OWN_CHECK : Fld := ⟨0x300, 4, 48, 31, 31, .rw, 0, false⟩
/-- R266. -/
def sy_OWN_KIND : Fld := ⟨0x300, 4, 48, 30, 29, .rw, 0, false⟩
/-- R266. -/
def sy_OWN_MODULE : Fld := ⟨0x300, 4, 48, 26, 24, .rw, 0, false⟩
/-- R266. -/
def sy_OWN_LOST : Fld := ⟨0x300, 4, 48, 23, 23, .w1c, 0, false⟩
/-- R266. -/
def sy_OWN_TILE : Fld := ⟨0x300, 4, 48, 10, 0, .rw, 0, false⟩

/-- The fields of the SY page. -/
def syFields : List Fld :=
  [sy_F_TACK, sy_F_REALIGN, sy_F_SATURATED, sy_F_INDEX, sy_STATUS_WAITING, sy_STATUS_TACK_WAIT,
   sy_STATUS_WAIT_CTR, sy_STATUS_TACK_LINE, sy_STATUS_WAIT_N, sy_TACK_PEND, sy_TACK_PART, sy_ISSUE,
   sy_RA_EXPECTED, sy_RA_ACTUAL, sy_RA_WHICH, sy_RA_CTR, sy_LOST_WAKES, sy_TIMEOUTS, sy_CNT_COUNT,
   sy_PC_CONS_CNT, sy_PC_PROD_CNT, sy_OWN_CHECK, sy_OWN_KIND, sy_OWN_MODULE, sy_OWN_LOST, sy_OWN_TILE]

/-- The block fields of a page kind. -/
def blkFields : Blk → List Fld
  | .mg => mgFields
  | .ck => ckFields
  | .pw => pwFields
  | .th => thFields
  | .fz => fzFields
  | .lc => lcFields
  | .sc => scFields
  | .ev => evFields
  | .tm => tmFields
  | .st => stFields
  | .lp => lpFields
  | .nm => nmFields
  | .bb => bbFields
  | .cx => cxFields
  | .tw => twFields
  | .dl => dlFields
  | .tk => tkFields
  | .gs => gsFields
  | .en => enFields
  | .nc => ncFields
  | .it => itFields
  | .lk => lkFields
  | .oe => oeFields
  | .tl => tlFields
  | .mx => mxFields
  | .vx => vxFields
  | .sy => syFields

/-- PG_ID.TYPE: the two ASCII letters of the prefix (R543, R551). -/
def blkType : Blk → Nat
  | .mg => 0x4D47
  | .ck => 0x434B
  | .pw => 0x5057
  | .th => 0x5448
  | .fz => 0x465A
  | .lc => 0x4C43
  | .sc => 0x5343
  | .ev => 0x4556
  | .tm => 0x544D
  | .st => 0x5354
  | .lp => 0x4C50
  | .nm => 0x4E4D
  | .bb => 0x4242
  | .cx => 0x4358
  | .tw => 0x5457
  | .dl => 0x444C
  | .tk => 0x544B
  | .gs => 0x4753
  | .en => 0x454E
  | .nc => 0x4E43
  | .it => 0x4954
  | .lk => 0x4C4B
  | .oe => 0x4F45
  | .tl => 0x544C
  | .mx => 0x4D58
  | .vx => 0x5658
  | .sy => 0x5359

end Sys2Proof.Machine
end

