-- ==== Sys2Proof/Machine/State.lean ====
section
/-! DEFINITION. The state of one JT-860 module as plain data, the reasons a command can stop, and the state right after
reset. Every register of every page lives in `regs`, keyed page * 0x1000 + offset (R540); state that has no page of its
own stands in named fields. -/

namespace Sys2Proof.Machine

/-- Why a command faults: every fault the manual names is a next state, so only operands that name nothing the module
has end here. -/
inductive Fault where
  /-- Raised by every command whose operand names a logical tile at or above the grade's count (R4). Safe. -/
  | noSuchTile
  /-- Raised by a command whose operand names a physical tile, a crossing or a queue the module does not have. Safe. -/
  | noSuchUnit
deriving DecidableEq, Repr

/-- Why a command is refused. -/
inductive Refusal where
  /-- Raised only by an arm of `exec` whose meaning is not written. Safe: nothing can be concluded from it. -/
  | notModelled (mnemonic : String)
deriving DecidableEq, Repr

/-- The kinds of trap cause (R188). -/
inductive CauseKind where
  | precise | deferred | async
deriving DecidableEq, Repr

/-- A pending trap cause (R188, R189): code, source, the faulting instruction's index, TL_TRAP_INFO, the place of its
instruction in issue order, and whether it was raised in handler mode (R196). -/
structure Cause where
  code : Nat
  src : Nat
  kind : CauseKind
  pc : Nat
  info : W64
  ord : Nat
  inHandler : Bool
deriving DecidableEq, Repr

/-- What an outstanding loose access waits for (R176, R371). -/
inductive LooseKind where
  | load (gD : BitVec 5) (bank : Bool) | store | trk
deriving DecidableEq, Repr

/-- A loose access of a tile that has no response yet (R176, R286). -/
structure Loose where
  tag : Nat
  kind : LooseKind
  addr : BitVec 48
  size : Nat
  pc : Nat
  ord : Nat
  inHandler : Bool
deriving DecidableEq, Repr

/-- A posted sync signal without a response (R239): its word, the index and place of its instruction, and for a DMA SIG
the offset of its descriptor (R184). -/
structure SigWait where
  word : W64
  pc : Nat
  ord : Nat
  dma : Option Nat
deriving DecidableEq, Repr

/-- An unsatisfied sy.wait (R241); `since` is the CCLK cycle of its first check that failed. -/
structure SyWait where
  ctr : Nat
  n : Nat
  timeout : Nat
  gD : BitVec 5
  since : Nat
deriving DecidableEq, Repr

/-- The two engines (R100, R127). -/
inductive Engine where
  | mx | vx
deriving DecidableEq, Repr

/-- What an engine's queue holds: an instruction, or a word of its class whose minor opcode is reserved, which the engine
finds when it reaches it (R120, R157). -/
inductive Queued where
  | op (i : Instr)
  | reserved (w : W32)
deriving DecidableEq, Repr

/-- An issued instruction that waits in an engine's queue of four (R100, R127): the command, its index, its place in issue
order, whether the handler issued it, and the scalar operands it read at issue (R165). -/
structure QEnt where
  ins : Queued
  pc : Nat
  ord : Nat
  inHandler : Bool
  vals : List (BitVec 5 × W64)
deriving DecidableEq, Repr

/-- What a withheld instruction waits for, where the rows of R208 leave it to the instruction: scalar registers, the limit
of sixteen loose accesses, the stores before a c.lfence, a full DMA queue, an empty one, a full engine queue, the
engines' accesses before it, the vx instructions before it that write a summary register, the tile registers of DMA
transfers (with the instruction's own writes marked), or nothing that the state holds. -/
inductive Hold where
  | regs (hm : Bool) (rs : List (BitVec 5))
  | looseFull
  | lfence
  | dmaFull
  | dmFence
  | full (e : Engine)
  | engines
  | summary (u : Nat)
  | tregs (us : List (Nat × Bool))
  | passing
deriving DecidableEq, Repr

/-- A DMA descriptor in a tile's queue (R182, R183): `sent` counts the packets of a STREAM destination that have gone
(R323), and is 1 once the lines of a transfer to another module have gone; `tag` names its requests to other modules
(R307), and `rsp` is the response other than OK that one of its packets has received (R184, R232). `read` says that every
source byte has been read, and `told` that LOC_CTR has been signalled (R183, R239). -/
structure DmaEnt where
  desc : Nat
  pc : Nat
  ord : Nat
  bytes : List Byte
  active : Bool
  sent : Nat
  tag : Nat
  rsp : Nat
  read : Bool
  told : Bool
deriving DecidableEq, Repr

/-- A mailbox message: its stamp (R255) and its 64 bytes. -/
structure Msg where
  stamp : W32
  data : List Byte
deriving DecidableEq, Repr

/-- A copy of a tile register: cells keyed 64r + c, scale plane, format and block direction (R90). -/
structure TReg where
  cells : SMap W32
  scl : SMap Byte
  fmt : Nat
  bdir : Nat
deriving DecidableEq, Repr

/-- A baste sample in a partner's bay (R116, R117). -/
structure Sample where
  origin : Tile
  seq : Nat
  pc : Nat
  a : TReg
  b : TReg
  kb : Nat
  hem : Int
  layout : Nat
  digest : Nat
deriving DecidableEq, Repr

/-- The state of one logical tile that its four register pages do not hold. -/
structure TileSt where
  /-- PC (R161), with room for the index above 0x3FFF that sequential flow reaches (R162). -/
  pc : BitVec 15
  /-- g1 to g31 (R161). -/
  g : SMap W64
  /-- The handler bank gh28 to gh31 (R192), keyed 28 to 31. -/
  gh : SMap W64
  /-- p7 to p0; p0 reads 1 (R161). -/
  p : BitVec 8
  /-- The instruction store, by index (R162). -/
  imem : SMap W32
  /-- The scalar data store, by byte (R163). -/
  dstore : SMap Byte
  /-- Tile-register cells, keyed 4096m + 64r + c (R90). -/
  treg : SMap W32
  /-- Scale planes, keyed 1024m + b (R90, R93). -/
  scl : SMap Byte
  /-- Accumulator words, keyed 4096n + 64row + col (R104). -/
  acc : SMap W128
  /-- HEM of a latched decision, by accumulator (R104). -/
  decHem : SMap (BitVec 16)
  /-- v0 to v15 (R124). -/
  v : SMap (BitVec 4096)
  /-- Causes detected and not yet taken (R189). -/
  causes : List Cause
  /-- Loose accesses without a response (R286). -/
  loose : List Loose
  /-- Signals without a response (R239). -/
  sigs : List SigWait
  /-- mb.send messages without a response: the target word, the destination register, and whether it is of the handler
  bank (R256). -/
  sends : List (W64 × BitVec 5 × Bool)
  /-- The fraction and LOCKED sampled by a c.rdv SEL 0 and held for the next SEL 1 (R180). -/
  rdv : Option (BitVec 17)
  /-- The DMA queue, oldest first (R182). -/
  dma : List DmaEnt
  /-- Held mailbox messages with their slots, in order of arrival (R254). -/
  slots : List (Nat × Msg)
  /-- The sy.wait that holds a stall request (R241). -/
  wait : Option SyWait
  /-- The tack line whose completion the tile waits for (R249), and whether the sy.tack itself is withheld, as a WAIT is,
  or has issued, as an ARRIVE and WAIT has. -/
  tackWait : Option (BitVec 4 × Bool)
  /-- The sy.realign that waits: its table offset and the CCLK cycle at which the wait began (R228). -/
  realign : Option (Nat × Nat)
  /-- The mx.close that waits for a decision: accumulator and gD (R108). -/
  closeWait : Option (BitVec 2 × BitVec 5)
  /-- The baste bay (R117). -/
  bay : Option Sample
  /-- Issue cycles since the program's start (R211). -/
  issued : Nat
  /-- Instructions given to the engines and the core since the program's start, handler included: the order of R189. -/
  ord : Nat
  /-- A doorbell has rung (R260). -/
  rung : Bool
  /-- The tile is powered off (R261). -/
  off : Bool
  /-- The next tag of a loose access (R307). -/
  tagNo : Nat
  /-- The MXE queue, oldest first (R100). -/
  mxQ : List QEnt
  /-- The VXE queue, oldest first (R127). -/
  vxQ : List QEnt
  /-- An mx instruction is executing (R123). -/
  mxBusy : Bool
  /-- A vx instruction is executing (R160). -/
  vxBusy : Bool
  /-- What the withheld instruction waits for, with its row of R208 (R206, R207). -/
  held : Option (Nat × Hold)
deriving DecidableEq, Repr

/-- A tile as reset leaves it. -/
def TileSt.reset : TileSt :=
  { pc := 0, g := [], gh := [], p := 1, imem := [], dstore := [], treg := [], scl := [], acc := [], decHem := [],
    v := [], causes := [], loose := [], sigs := [], sends := [], rdv := none, dma := [], slots := [], wait := none,
    tackWait := none, realign := none, closeWait := none, bay := none, issued := 0, ord := 0, rung := false,
    off := false, tagNo := 0, mxQ := [], vxQ := [], mxBusy := false, vxBusy := false, held := none }

/-- One copy of the fuse array (R484), with the CRC-16 of each of its words, numbered in the order of the table. -/
structure FuseCopy where
  grade : Byte
  dieId : BitVec 64
  rowBad : SMap (BitVec 36)
  spoolRep : List (BitVec 24)
  wlBad : SMap (BitVec 4)
  crc : SMap (BitVec 16)
deriving DecidableEq, Repr

/-- The fuses: the two copies (R484), the life-cycle fuses (R526, R527) and the die key (R523). -/
structure Fuses where
  c0 : FuseCopy
  c1 : FuseCopy
  lcCount : Nat
  voided : Bool
  epoch : Nat
  dieKey : BitVec 256
deriving DecidableEq, Repr

/-- What a copy of the operating-time store holds (R464). -/
structure TimeCopy where
  secs : Nat
  pcycle : Nat
  seq : Nat
deriving DecidableEq, Repr

/-- A logbook record (R462); its VALID bit is set by presence in the ring. -/
structure LogRec where
  seq : Nat
  sec : Nat
  subsec : Nat
  pcycle : Nat
  flags : Nat
  code : Nat
  source : Nat
  payload : List Byte
deriving DecidableEq, Repr

/-- A request to log, not yet accepted, with the always-on cycle in which it arrived (R467). -/
structure LogReq where
  sev : Nat
  code : Nat
  source : Nat
  payload : List Byte
  cycle : Nat
deriving DecidableEq, Repr

/-- A calibration (R317): the wavelengths that the idle index still goes to, those that fail recalibration, and whether
the management core asked for one wavelength alone. -/
structure Cal where
  todo : List Nat
  bad : List Nat
  one : Bool
deriving DecidableEq, Repr

/-- A port's state beyond its LK page (R300 to R321, R341 to R353): the sender's and receiver's sequence numbers, the
replay buffer, the queue, credits, the cell from which it resends and the tries of the oldest cell, the failing
wavelength and the announced ROT, runs of PORT_RETIRE and IDLE_FAULT, frame numbers and stamps, the packet that each
class is receiving, PSN by class, the echo paths by wavelength with their enable times in µs, a running failover and the packets that
wait for it (class, type, flags, address, data), the frames still to send before the transmitters go dark, the
arbiter's place in its window of 128, whether a resume restored the PSN state (R413), the run of frames with an
uncorrectable codeword of each wavelength (R314), a running calibration (R317), the round trip of the last time sample in
units of 2^-16 ns (R344), whether the peer is in lull mode (R321), the transmit and receive setting of each wavelength with which the
port runs (R480), and whether its training has learned the peer (R335). -/
structure PortSt where
  txSeq : Nat
  rxSeq : Nat
  replay : List Cell
  queue : List Cell
  credits : List Nat
  peerFreed : List Nat
  freed : List Nat
  resend : Option Nat
  tries : Nat
  failing : Option Nat
  rotStep : Option Nat
  retireRun : Nat
  idleRun : Nat
  nakDue : Bool
  frameNo : Nat
  rxFrame : Nat
  txStamps : List (Nat × Nat)
  rxStamps : List (Nat × Nat)
  sample : Option Int
  partial_ : SMap (Option (List Byte × Nat))
  psn : SMap Nat
  echo : List (Nat × Nat)
  failover : Bool
  waiting : List (LinkClass × Nat × Nat × Nat × List Byte)
  retiring : Nat
  slot : Nat
  keepPsn : Bool
  badRun : List Nat
  cal : Option Cal
  trip : Option Int
  peerLull : Bool
  eq : List (Nat × Nat)
  learned : Bool
deriving DecidableEq, Repr

/-- A port as reset leaves it: the receive buffers of R309 as credits. -/
def PortSt.reset : PortSt :=
  { txSeq := 0, rxSeq := 0, replay := [], queue := [], credits := [3072, 512, 256, 256, 64],
    peerFreed := [0, 0, 0, 0, 0], resend := none, freed := [0, 0, 0, 0, 0],
    tries := 0, failing := none, rotStep := none, retireRun := 0, idleRun := 0, nakDue := false,
    frameNo := 0, rxFrame := 0, txStamps := [], rxStamps := [], sample := none, partial_ := [], psn := [],
    echo := [], failover := false, waiting := [], retiring := 0, slot := 0, keepPsn := false,
    badRun := List.replicate 9 0, cal := none, trip := none, peerLull := false, eq := [], learned := false }

/-- A stream-table entry (R322). -/
structure StreamEnt where
  kind : Nat
  group : Nat
  credits : Nat
  desc : Nat
  land : Nat
  size : Nat
  sig : W64
deriving DecidableEq, Repr

/-- The exchange of a slave of IEEE 1588 (R355): the sequence number of the Sync, its departure and arrival, and the
departure of the slave's Delay_Req, in units of 2^-16 ns. -/
structure Ptp where
  seq : BitVec 16
  t1 : Option Nat
  t2 : Option Nat
  t3 : Option Nat
deriving DecidableEq, Repr

/-- The time servo's filter (R345): the frames of its period so far, and the least and the greatest sample in it. -/
structure Filt where
  frames : Nat
  span : Option (Int × Int)
deriving DecidableEq, Repr

/-- A FIFO that resynchronises (R362): its row in the table of R360, counted from 0, which of the row's FIFOs it is, and
the RST and ACK flags of the handshake. -/
structure Fifo where
  row : Nat
  unit : Nat
  rst : Bool
  ack : Bool
deriving DecidableEq, Repr

/-- An unused stream. -/
def StreamEnt.none_ : StreamEnt := { kind := 0, group := 0, credits := 0, desc := 0, land := 0, size := 0, sig := 0 }

/-- The partial packet header that opened a local contribution to a grid reduction (R149, R329). -/
structure CxHdr where
  tile : Tile
  gid : Nat
  attempt : Nat
  lay : Nat
  hem : Nat
  first : Nat
  count : Nat
deriving DecidableEq, Repr

/-- An open collective (R329 to R333): its descriptor and the tiles of its LIST as they were read when it opened (R328),
its words, the chunks that arrived by source (R332), the first word and the count of each local contribution that has a
header (R149), the verdicts of its children, whether a hem mismatch made it invalid (R70), whether its contribution or
verdict has gone up, and whether DONE has been decided while results still arrive. -/
structure CxGroup where
  gid : Nat
  bytes : List Byte
  tiles : List Tile
  op : Nat
  attempt : Nat
  hem : Option Nat
  words : SMap W128
  got : List (CxSrc × Nat)
  hdrs : List (Tile × Nat × Nat)
  verdicts : List (CxSrc × Bool)
  bad : Bool
  up : Bool
  dec : Bool
deriving DecidableEq, Repr

/-- A scale-tracker entry (R370). -/
structure NmEnt where
  amax : W32
  pend : W32
  pvalid : Bool
  hist : Nat
  cold : Bool
  nonfin : Bool
  drift : Bool
  d : BitVec 4
  hr : BitVec 3
deriving DecidableEq, Repr

/-- An entry as reset leaves it (R377, R397). -/
def NmEnt.reset : NmEnt :=
  { amax := 0, pend := 0, pvalid := false, hist := 0, cold := true, nonfin := false, drift := false, d := 6, hr := 1 }

/-- A region of module memory that host software created (R511). -/
structure Region where
  key : W32
  base : Nat
  len : Nat
  read : Bool
  write : Bool
deriving DecidableEq, Repr

/-- A queue pair (R509, R510). -/
inductive QpSt where
  | idle | connecting | ready | error
deriving DecidableEq, Repr

/-- What a completion waits for: nothing, its command's end, or the completions of the queue that its command destroys
(R515, R520). -/
inductive CplHold where
  | no
  | command
  | queue (k : Nat)
deriving DecidableEq, Repr

/-- A completion in the order in which the commands started (R515, R518): `hold` says what it waits for, `waited`
once its delay has been counted. -/
structure Cpl where
  tag : Nat
  status : Nat
  seq : Nat
  detail : Nat
  notify : Bool
  hold : CplHold
  waited : Bool
deriving DecidableEq, Repr

/-- A command queue (R512, R513, R518). -/
structure HostQ where
  ring : Nat
  n : Nat
  cpl : Nat
  m : Nat
  hostKey : W32
  dbKey : W32
  tail : Nat
  head : Nat
  cplCount : Nat
  consumed : Nat
  stopped : Bool
  cpls : List Cpl
deriving DecidableEq, Repr

/-- A queue pair with its retry counts (R509). -/
structure Qp where
  st : QpSt
  retries : Nat
  rnr : Nat
  rate : Nat
deriving DecidableEq, Repr

/-- A physical tile's in-field test state (R427, R431, R432, R461): T_STATE, T_DONE, the operating second and BB_STEP of its
last passed round, the second since which it is due, whether it is overdue and whether its forced test has begun, and the
MXE set after a baste mismatch: 0 not asked for, 1 asked for, 2 passed. -/
structure ItTile where
  state : Nat
  percent : Nat
  passSec : Nat
  passStep : Nat
  due : Option Nat
  forced : Bool
  begun : Bool
  mxe : Nat
deriving DecidableEq, Repr

/-- An in-field test state before any round. -/
def ItTile.reset : ItTile := { state := 0, percent := 0, passSec := 0, passStep := 0, due := none, forced := false, begun := false, mxe := 0 }

/-- An accepted stow request (R409). -/
structure StowReq where
  k : Nat
  area : Nat
deriving DecidableEq, Repr

/-- The running transfer of a tile program (R495, R499): the image's address and length, the round, its target tiles, the
segments that each has received whole, and the answers of this round. -/
structure Xfer where
  addr : Nat
  len : Nat
  round : Nat
  targets : List Tile
  have_ : List (Tile × Nat)
  answered : List (Tile × XferStatus)
deriving DecidableEq, Repr

/-- The management command in progress (R522): its opcode and its queue's key, where its completion waits. -/
structure RunCmd where
  op : Nat
  key : Nat
deriving DecidableEq, Repr

/-- The firmware transfer that the module receives (R494, R497, R498): its XFER_ID, the segments of the image, those that
have arrived, and whether DIGEST_OK has been reported. -/
structure RxXfer where
  id : W64
  count : Nat
  have_ : List Nat
  digestOk : Bool
deriving DecidableEq, Repr

/-- The owner record installed in the security store (R525). -/
structure Owner where
  key : List Byte
  counter : Nat
deriving DecidableEq, Repr

/-- The security store (R523, R524): the owner record, the DEBUG_OPENED history, the identity key, as the words of the
entropy source from which it was made, with its certificate, and the keys under which the four items are sealed: a seal
passes its check when its key is the die key. -/
structure SecStore where
  owner : Option Owner
  debugOpened : Bool
  idKey : Option (List W64)
  seals : List (BitVec 256)
deriving DecidableEq, Repr

/-- A recovery in progress (R436, R442, R443): the code of its fault, whether the drain is complete, the code of a second
fault, whether a NUM ERROR came again on the replay, and whether one of two faults cannot be contained. -/
structure Recovery where
  code : Nat
  drained : Bool
  second : Option Nat
  again : Bool
  stuck : Bool
deriving DecidableEq, Repr

/-- What the TW engine has under way (R293, R439): the step, whether it is a seed (R445), what it has done last (0 the home
commit, 1 the sections sent to the twin's region, 2 its table, 3 its record), and the offsets of the writes that have no
response yet. -/
structure TwRun where
  step : Nat
  seed : Bool
  sent : Nat
  wait : List Nat
deriving DecidableEq, Repr

/-- What the module has sent and not yet seen arrive, and what it has sent out of the module. A `remoteRsp` answers a
signal or a message of a tile of another module, or a message of a management core (R239, R254, R261), for which R307
lists no packet (log entry 127). -/
inductive NetMsg where
  | signal (src : Sender) (word : W64)
  | signalRsp (t : Tile) (word : W64) (rsp : Nat)
  | mbox (stamp : W32) (word : W64) (data : List Byte) (rcv : Bool)
  | mboxRsp (t : Tile) (word : W64) (status : Nat)
  | lseRead (src : Party) (addr : BitVec 48) (size tag : Nat)
  | lseWrite (src : Party) (addr : BitVec 48) (data : List Byte) (tag : Nat)
  | lseRsp (dst : Party) (tag rsp : Nat) (data : List Byte)
  | decision (t : Tile) (gid : BitVec 24) (kind : DecKind) (hem : BitVec 16) (attempt : BitVec 3)
  | observation (t : Tile) (tag : Nat) (entry : BitVec 12) (x : W32)
  | halted (t : Tile)
  | lost (module : BitVec 3) (x : Option Tile)
  | remoteRsp (module : Nat) (t : Option Tile) (word : Option W64) (rsp : Nat)
  | pkt (port : Nat) (hdr : PktHdr) (data : List Byte)
  | cxData (src : CxSrc) (gid : BitVec 24) (chunk : Nat) (data : List Byte)
  | mgt (port : Nat) (data : List Byte)
  | frame (port : Nat) (fcb : Fcb) (cells : List Cell) (light : List (List Level))
  | training (port : Nat) (light : List (List Level))
  | echoed (port w : Nat) (light : List Level)
  | delayReq (port : Nat) (domain : Nat) (seq : BitVec 16)
  | ethReply (port : Nat) (k : EthKind)
  | cmRep (port qpn : Nat)
  | cmRej (port qpn : Nat)
  | cmDrep (port qpn : Nat)
  | rdmaWrite (port : Nat) (addr : Nat) (key : W32) (data : List Byte)
  | rdmaImm (port : Nat) (imm : Nat)
  | rdmaReadReq (port : Nat) (addr : Nat) (key : W32) (len : Nat)
  | rdmaReadRsp (port qpn : Nat) (data : List Byte)
  | rdmaNak (port qpn : Nat)
  | retry (port qpn : Nat)
  | recoveryReq (dieId check romVer : Nat)
  | segment (ts : List Tile) (index : Nat) (data : List Byte)
  | endRound (t : Tile) (round : Nat)
  | status (t : Tile) (st : XferStatus)
  | datagram (port : Nat) (data : List Byte)
  | twinWrite (off : Nat) (data : List Byte)
  | barrier (step : Nat)
  | smb (data : List Byte)
  | hostReport (code : Nat)
deriving DecidableEq, Repr

/-- A request to another module that holds an LSE request credit (R285, R286): the peer, the port by which it left (64 above
the failed port while it waits for a failover), its source and its tag. -/
structure LseReq where
  peer : Nat
  port : Nat
  src : Party
  tag : Nat
deriving DecidableEq, Repr

/-- The pins and power states (R566 to R572). -/
structure Pins where
  stby : Bool
  main : Bool
  pwrOk : Bool
  resetN : Bool
  faultN : Bool
  thermAlertN : Bool
  smbAlertN : Bool
  twinPresent : Bool
  modpos : BitVec 3
  heldOff : Bool
deriving DecidableEq, Repr

/-- The state of one module. -/
structure State where
  /-- Fuses (R484, R526, R527). -/
  fuses : Fuses
  /-- Every register of every page, keyed page * 0x1000 + offset (R540). -/
  regs : SMap W32
  /-- Halves held for R550, keyed as `regs`: a _LO half written and waiting for its _HI write, and the _HI half that a
  read of _LO latched. -/
  loHeld : SMap (Option W32)
  /-- The logical tiles (R4, R161). -/
  tiles : SMap TileSt
  /-- The spools, keyed physical tile * 0x800000 + offset (R269). -/
  spool : SMap Byte
  /-- LPDDR5X, by address (R278). -/
  lp : SMap Byte
  /-- Spool words that hold an uncorrectable error, keyed physical tile * 0x100000 + offset / 8 (R270, R274). -/
  spoolBad : List Nat
  /-- LPDDR5X lines that hold an uncorrectable error, by address / 64 (R280). -/
  lpBad : List Nat
  /-- Spool words and LPDDR5X lines that hold a correctable error which no read has found, keyed as the two lists before
  (R273, R280). -/
  spoolWeak : List Nat
  lpWeak : List Nat
  /-- Corrections per spool bank row since bring-up, keyed (physical tile * 32 + bank) * 256 + bank row (R273, R276). -/
  spoolCe : SMap Nat
  /-- Corrections per LPDDR5X line (R282). -/
  lpCe : SMap Nat
  /-- LPDDR5X rows that post-package repair has replaced in this bring-up: channel and row address (R282). -/
  lpRepaired : List (Nat × Nat)
  /-- LPDDR5X training has left values in its cache, which later training reuses and so is shorter (R282). -/
  lpTrained : Bool
  /-- Spare bank rows in use, keyed physical tile * 32 + bank (R276). -/
  spares : SMap Nat
  /-- Unusable physical columns of each row, as B1 computed them (R16, R486). -/
  unusable : SMap (BitVec 36)
  /-- Module flash by byte: firmware image, in-field test content, logbook mirror, repair log, operating-time store,
  equalisation cache, manifest (R487). -/
  flash : SMap Byte
  /-- Records in the repair log (R488). -/
  repairN : Nat
  /-- The copy to write next (R464). -/
  timeNext : Bool
  /-- The security store (R524). -/
  sec : SecStore
  /-- The SHA-512 of the vendor key, in the boot ROM (R523). -/
  vendorHash : List Byte
  /-- The SHA-512 of the signed part of the stored and of the active in-field test package (R430, R530 M1). -/
  pkgStored : List Byte
  pkgActive : List Byte
  /-- Versions of in-field test content: active and stored (R430). -/
  itStored : Nat
  /-- The logbook ring, by slot (R468). -/
  ring : SMap (Option LogRec)
  /-- Requests waiting for acceptance, oldest first (R467). -/
  logQ : List LogReq
  /-- Accepted ERROR and FATAL records waiting for the mirror (R470). -/
  mirrorQ : List LogRec
  /-- Where the mirror writes next, of its 131,072 places (R470). -/
  mirrorPos : Nat
  /-- The management core's 56 general slots, in order of arrival (R262). -/
  mgmtBox : List Msg
  /-- The management core's eight RCV slots (R262). -/
  mgmtRcv : List Msg
  /-- Interrupts to the management core: page and PG_FAULT bit (R545). -/
  irqs : List (Nat × Nat)
  /-- Interrupts to host software: bits of the MG page (R506, R545). -/
  hostIrqs : List Nat
  /-- The accepted stow request (R409). -/
  stowReq : Option StowReq
  /-- The tiles that have reported from the handler of the stow (R410, R411). -/
  stowTold : List Tile
  /-- The loaded program image: the first 256 bytes of its header (R222), and where it lies. -/
  image : Option (List Byte × Nat × Nat)
  /-- The transfer of a tile program (R499). -/
  xfer : Option Xfer
  /-- The firmware transfer being received (R498). -/
  rxXfer : Option RxXfer
  /-- The management command in progress (R522). -/
  mgmtBusy : Option RunCmd
  /-- The queue whose completions a reset waits for (R522, R528). -/
  resetDue : Option Nat
  /-- The recovery in progress (R442). -/
  recovery : Option Recovery
  /-- What the TW engine has under way in the twin's region (R293). -/
  twRun : Option TwRun
  /-- The next offset to read of the twin's copy of an unreadable home region (R443). -/
  homeFetch : Option Nat
  /-- The step of the job commit (R440). -/
  jobCommit : Nat
  /-- The step that the module has committed and whose barrier has not completed (R440). -/
  barrier : Option Nat
  /-- The manifest in force, without its signature (R501, R503). -/
  manifest : Option (List Byte)
  /-- A manifest that arrived before B7 and waits for it, with its signature (R502). -/
  manNew : Option (List Byte)
  /-- A detach waits for the step in progress (R424). -/
  detach : Bool
  /-- The ports (R300). -/
  ports : SMap PortSt
  /-- NEXT_PSN, keyed (peer * 64 + ORIGIN) * 8 + class, where peer is PEER_RACK, PEER_BOLT and PEER_MODULE (R313). -/
  nextPsn : SMap Nat
  /-- Offers of time parents, by port (R350). -/
  offers : SMap (Option Announce)
  /-- The stream table (R322). -/
  streams : SMap StreamEnt
  /-- Stream credits in use by the sender, by stream (R323). -/
  streamUse : SMap Nat
  /-- Requests to other modules that hold an LSE request credit: 256 for each peer (R286). -/
  lseOut : List LseReq
  /-- Requests that wait in the LSE channel for a credit, oldest first (R286). -/
  lseWait : List NetMsg
  /-- Open collectives (R329). -/
  cx : List CxGroup
  /-- The header of the last local contribution of each tile to each group (R329). -/
  cxHdrs : List CxHdr
  /-- Streams whose LAST packet has landed while an earlier packet of the transfer has not (R323). -/
  lastSeen : List Nat
  /-- N(h) by hall index (R217). -/
  holdN : SMap Nat
  /-- The n forwarded for each hall index (R216). -/
  holdFwd : SMap Nat
  /-- Agreed rest stitches not yet run: hall index and count (R217). -/
  rests : List (Nat × Nat)
  /-- The boundary cycle passed to GS (R356). -/
  passed : Option Nat
  /-- Program stitches started since the program's start or resume base: the next index (R213). -/
  nextStitch : Nat
  /-- The current hall stitch is a rest stitch (R217). -/
  resting : Bool
  /-- B(0) has passed: TM_STITCH holds the current hall stitch (R356, R357). -/
  begun : Bool
  /-- T0 armed: the origin in whole nanoseconds (R357). -/
  t0 : Option Nat
  /-- Stall requests on the net: tile and row of R208 (R206). -/
  netReq : List (Tile × Nat)
  /-- Stall cycles of the current stitch (R210, R456). -/
  stitchStall : Nat
  /-- Duty-throttle cycles of the current stitch, and of the last (R558, R473). -/
  throtNow : Nat
  throtLast : Nat
  /-- What the ticks since the last change of SUBSEC have added to the clock of R463, in units of 1 / 2,250,000,000 of a
  step of 2^-16 s. -/
  aonAcc : Nat
  /-- CCLK cycles since bring-up (R180 SEL 2). -/
  cycles : Nat
  /-- Cycles of the core clock's length that the always-on domain has seen: ninety are one of its own (R358). -/
  ticks : Nat
  /-- Global-stall cycles since bring-up (R180 SEL 3, R210). -/
  stallCycles : Nat
  /-- Hall time in units of 2^-48 ns (R340). -/
  hallTime : Nat
  /-- RATE in units of 2^-48 ns per hall-time tick (R340). -/
  rate : Nat
  /-- Consecutive filter periods within the bound of R352 or R355. -/
  lockRun : Nat
  /-- The module runs as an IEEE 1588 slave (R355). -/
  ptpSlave : Bool
  /-- The last sample of the IEEE 1588 servo, in units of 2^-16 ns (R355). -/
  ptpSample : Option Int
  /-- The exchange of the IEEE 1588 slave that runs (R355). -/
  ptp : Ptp
  /-- The samples that the time servo's filter holds (R345). -/
  filt : Filt
  /-- An active root has been known since reset (R351). -/
  rooted : Bool
  /-- Crossing FIFOs one side of which has been reset and which resynchronise (R362). -/
  fifos : List Fifo
  /-- A TIME_1PPS edge has been seen (R352). -/
  ppsSeen : Bool
  /-- TM_EPOCH, written and not yet assigned to an edge (R349). -/
  epoch : Option Nat
  /-- Scale-tracker entries (R370). -/
  nm : SMap NmEnt
  /-- Observations that came after the last step-end report and before the commit, which apply to PEND after it (R379). -/
  lateObs : List (Nat × W32)
  /-- Every running tile has reported the end of the step, and the tiles are not released yet (R378, R379); whether the
  commit has begun (R428). -/
  stepClosed : Option Bool
  /-- The job's barrier has completed, and forced tests still delay the release of the tiles (R432). -/
  releaseDue : Bool
  /-- Command queues, keyed port * 512 + queue, with 256 for the management queue (R510, R512). -/
  queues : SMap (Option HostQ)
  /-- Queue pairs, keyed port * 0x1000000 + QPN (R510). -/
  qps : SMap Qp
  /-- Regions (R511). -/
  regions : List Region
  /-- The cycle up to which the peer of an Ethernet port has paused its priority (R509). -/
  pfcUntil : SMap Nat
  /-- In-field test state by physical tile (R431). -/
  it : SMap ItTile
  /-- The operating second from which T_HOURS counts after a CLR_CNT (R461, R543). -/
  itClr : Nat
  /-- The operating second, plus 1, of the last baste mismatch of a pair that passed its test, by lower physical tile
  (R427). -/
  pairs : SMap Nat
  /-- Physical tiles that failed in service where their row had no spare: the next bring-up finds them failed (R20). -/
  failed : List Nat
  /-- The pairs of physical tiles that are under test after a baste mismatch (R427). -/
  pairTest : List (Nat × Nat)
  /-- The code and the step of the last NUM ERROR that held the job (R443). -/
  numFault : Option (Nat × Nat)
  /-- The doldrums window counter (R263). -/
  dlCount : Nat
  /-- The doldrums detector has reported this episode (R264). -/
  dlFired : Bool
  /-- Modules whose TACK has arrived, keyed line * 256 + GEN (R252). -/
  tackGot : SMap (BitVec 8)
  /-- Lines whose chip-level condition was announced by TACK (R252). -/
  tackSent : List Nat
  /-- A cap throttle request is held (R555). -/
  capReq : Bool
  /-- The inlet episode is open (R578). -/
  inletEp : Bool
  /-- Consecutive failures of the entropy tests (R532). -/
  entFails : Nat
  /-- Entropy words drawn (R180, R532). -/
  entIdx : Nat
  /-- The model's own counter: uses of free values. No rule of the manual names it. -/
  freeIdx : Nat
  /-- The model's own counter: reads of registers that show a measurement. No rule of the manual names it. -/
  senseIdx : Nat
  /-- Fail-safe is in force, and whether its trigger permits lull mode (R447). -/
  failSafe : Option Bool
  /-- Lull mode (R449). -/
  lull : Bool
  /-- Main or standby power was applied since the last entry to B0 (R465). -/
  freshPower : Bool
  /-- The always-on domain lost its counts and has not resumed them from flash (R464, R469). -/
  evLost : Bool
  /-- SEC * 65536 + SUBSEC at the entry to B0 (R466). -/
  b0At : Nat
  /-- Host software has written EV_OPT_SET since the last OPT_REINIT (R466). -/
  optSet : Bool
  /-- Records of the surviving ring are still to be mirrored before anything else is logged (R470). -/
  mirrorHold : Bool
  /-- The phase B0 was entered since power or reset: SMBus reads 0xF before (R573). -/
  entered : Bool
  /-- A phase failed and bring-up stopped (R478). -/
  stopped : Bool
  /-- B8 has passed (R476). -/
  ready : Bool
  /-- The body offset at which the firmware that runs was started; none while the management core runs no firmware
  (R490). -/
  fwEntry : Option Nat
  /-- Network recovery runs in B2: the failing check (R491). -/
  netRecovery : Option Nat
  /-- The slot that SMBus command 0x04 reads (R573). -/
  smbSlot : Nat
  /-- Pins and power (R566 to R572). -/
  pins : Pins
  /-- What the module has sent (R14, R307). -/
  net : List NetMsg
  /-- The commands that wait, first in, first out. -/
  pending : List Instr
deriving DecidableEq, Repr

/-- The fuses of the module that State.reset stands for: grade A, no defect, in FIELD. DESIGN CHOICE (log entry 1). -/
def FuseCopy.reset : FuseCopy :=
  { grade := 0x41, dieId := 0, rowBad := [], spoolRep := [], wlBad := [], crc := [] }

/-- The machine right after reset: every register at its reset value (R543 and the register tables), memories empty,
standby and main power valid and RESET_N high, bring-up not begun. -/
def State.reset : State :=
  { fuses := { c0 := FuseCopy.reset, c1 := FuseCopy.reset, lcCount := 2, voided := false, epoch := 0, dieKey := 0 },
    regs := [(0x1504C, 0x0200#32), (0x1604C, 0x0240#32), (0x1704C, 0x0280#32), (0x1804C, 0x02C0#32)], loHeld := [], tiles := [], spool := [], lp := [], spoolBad := [], lpBad := [], spoolWeak := [], lpWeak := [], spoolCe := [], lpCe := [],
    lpRepaired := [], lpTrained := false, spares := [], unusable := [], flash := [], repairN := 0,
    timeNext := false, sec := { owner := none, debugOpened := false, idKey := some [], seals := [0, 0, 0, 0] },
    vendorHash := [], pkgStored := [], pkgActive := [], hostIrqs := [], b0At := 0, optSet := false, mirrorHold := false, ready := false,
    fwEntry := none, pfcUntil := [], itClr := 0, itStored := 0, ring := [], logQ := [], mirrorQ := [], mirrorPos := 0, mgmtBox := [], mgmtRcv := [], irqs := [], stowReq := none, stowTold := [],
    image := none, xfer := none, rxXfer := none, mgmtBusy := none, resetDue := none, recovery := none, twRun := none, homeFetch := none, jobCommit := 0, barrier := none,
    manifest := none, manNew := none, detach := false, ports := [], nextPsn := [], offers := [], streams := [], streamUse := [], lseOut := [], lseWait := [],
    cx := [], cxHdrs := [], lastSeen := [], holdN := [], holdFwd := [], rests := [], passed := none, nextStitch := 0,
    resting := false, begun := false, t0 := none, netReq := [], stitchStall := 0, throtNow := 0, throtLast := 0, aonAcc := 0, cycles := 0, stallCycles := 0, hallTime := 0,
    rate := 0xE38E38E38E39, lockRun := 0, ptpSlave := false, ptpSample := none, ptp := { seq := 0, t1 := none, t2 := none, t3 := none }, filt := { frames := 0, span := none },
    rooted := false, fifos := [], ticks := 0, ppsSeen := false, epoch := none, nm := [], lateObs := [], stepClosed := none, releaseDue := false, queues := [], qps := [], regions := [], it := [],
    pairs := [], failed := [], pairTest := [], numFault := none, dlCount := 0, dlFired := false, tackGot := [], tackSent := [], capReq := false, inletEp := false,
    entFails := 0, entIdx := 0, freeIdx := 0, senseIdx := 0, failSafe := none, lull := false, freshPower := true, evLost := true, entered := false, stopped := false,
    netRecovery := none, smbSlot := 0,
    pins := { stby := true, main := true, pwrOk := true, resetN := true, faultN := true, thermAlertN := true,
              smbAlertN := true, twinPresent := false, modpos := 0, heldOff := false },
    net := [], pending := [] }

end Sys2Proof.Machine
end

