-- ==== Sys2Proof/Machine/Ops.lean ====
section
/-! DEFINITION. The named operations over registers, tiles, memories, the logbook queue, the network and the stall net,
entering a trap and returning from it (R192 to R195). Every meaning is written over these. -/

namespace Sys2Proof.Machine

/-- The answer of a command. -/
abbrev Out := Host.Outcome State Fault Refusal

/-- The state after a command that reaches neither the queue of commands nor the fuses (R5, R484, R526). -/
def settle (s s' : State) : State := { s' with pending := s.pending, fuses := s.fuses }

/-- The answer of a command that takes effect and blows no fuse. -/
def done (s s' : State) : Out := .next (settle s s')

/-- The state after a command that may blow LC_EPOCH, LC_COUNT and VOID (R526, R528): the two copies of R484 hold for
the die's life. -/
def settleFuses (s s' : State) : State :=
  { s' with pending := s.pending, fuses := { s'.fuses with c0 := s.fuses.c0, c1 := s.fuses.c1 } }

/-- The answer of a command that may blow a fuse. -/
def doneFuses (s s' : State) : Out := .next (settleFuses s s')

/-- `f` applied for every member of a list, first to last. -/
def forEach {α : Type} (l : List α) (f : α → State → State) (s : State) : State := l.foldl (fun s a => f a s) s

/-! ### Grade and tile map -/

/-- Logical columns of the fused grade (R4). -/
def State.ncols (s : State) : Nat := if s.fuses.c0.grade = 0x41#8 then 34 else 32

/-- Logical tiles of the fused grade (R4). -/
def State.ntiles (s : State) : Nat := s.ncols * 32

/-- Row spares of the fused grade (R4). -/
def State.rowSpares (s : State) : Nat := 36 - s.ncols

/-- Unusable physical columns of row `y`, as the last B1 found them (R16). -/
def State.unusableRow (s : State) (y : Nat) : BitVec 36 := smGet (fun _ => 0) s.unusable y

/-- The usable physical columns of row `y`, in order (R16). -/
def State.usableCols (s : State) (y : Nat) : List Nat :=
  (List.range 36).filter (fun x => !((s.unusableRow y).getLsbD x))

/-- The physical tile of logical tile `t` (R16): y * 36 + x. -/
def State.ptile (s : State) (t : Nat) : Nat :=
  let y := t / s.ncols
  y * 36 + (s.usableCols y).getD (t % s.ncols) 0

/-- The logical tile at a physical tile, if the map has one. -/
def State.ltile (s : State) (p : Nat) : Option Nat :=
  let y := p / 36
  ((s.usableCols y).take s.ncols).idxOf? (p % 36) |>.map (fun x => y * s.ncols + x)

/-- The tiles of the grade. -/
def State.tileList (s : State) : List Tile := (List.range s.ntiles).map (BitVec.ofNat 11)

/-- A command whose operand names a logical tile: none at or above the grade's count exists (R4). -/
def onTile (s : State) (t : Tile) (k : Out) : Out := if t.toNat < s.ntiles then k else .fault .noSuchTile

/-! ### Register pages -/

/-- The blocks with pages 0x00 to 0x1F, in the order of the page index (R551). -/
def mgmtBlks : List (Option Blk) :=
  [some .mg, some .ck, some .pw, some .th, some .fz, some .lc, some .sc, some .ev, some .tm, some .st]
    ++ List.replicate 4 (some .lp)
    ++ [some .nm, some .bb, some .cx, some .tw, some .dl, some .tk, some .gs]
    ++ List.replicate 4 (some .en) ++ [some .nc, some .it] ++ List.replicate 5 none

/-- The block of a page below 0x20. -/
def mgmtBlk (n : Nat) : Option Blk := mgmtBlks.getD n none

/-- The block of a tile page, by its place among the tile's four (R551). -/
def tileBlk (k : Nat) : Blk := match k with | 0 => .tl | 1 => .mx | 2 => .vx | _ => .sy

/-- The block of a page number (R551); tile pages of either grade. -/
def pageBlk (n : Nat) : Option Blk :=
  if n < 0x20 then mgmtBlk n
  else if n < 0x60 then some .lk
  else if n < 0x70 then some .oe
  else if n < 0x1000 ∨ 0x1000 + 4 * 1088 ≤ n then none
  else some (tileBlk (n % 4))

/-- The field covers the register at offset `off`. -/
def Fld.at (f : Fld) (off : Nat) : Bool :=
  if f.count = 1 then off == f.off
  else decide (f.off ≤ off) && ((off - f.off) % f.stride == 0) && decide ((off - f.off) / f.stride < f.count)

/-- The fields of the register at an offset of a page of block `b`. -/
def fieldsAt (b : Blk) (off : Nat) : List Fld := ((pgFields ++ blkFields b).filter (fun f => f.at off))

/-- The reset word of a register (R543 and the register tables). -/
def rstWord (b : Blk) (off : Nat) : Nat := ((blkFields b).filter (fun f => f.at off)).foldl (fun a f => a + f.rst * 2 ^ f.lo) 0

/-- What an unlisted register reads as: its reset word. -/
def regDflt (k : Nat) : W32 :=
  match pageBlk (k / 0x1000) with
  | some b => BitVec.ofNat 32 (rstWord b (k % 0x1000))
  | none => 0

/-- The stored word of a register. -/
def regW (s : State) (page off : Nat) : Nat := (smGet regDflt s.regs (page * 0x1000 + off)).toNat

/-- Store a register word. -/
def setW (s : State) (page off v : Nat) : State :=
  { s with regs := smPut regDflt s.regs (page * 0x1000 + off) (BitVec.ofNat 32 v) }

/-- Field `f`, number `i`, of a page. -/
def rdi (s : State) (page : Nat) (f : Fld) (i : Nat) : Nat := bits (regW s page (f.off + f.stride * i)) f.hi f.lo

/-- Field `f` of a page. -/
def rd (s : State) (page : Nat) (f : Fld) : Nat := rdi s page f 0

/-- Set field `f`, number `i`, of a page. -/
def wri (s : State) (page : Nat) (f : Fld) (i v : Nat) : State :=
  setW s page (f.off + f.stride * i) (setBits (regW s page (f.off + f.stride * i)) f.hi f.lo v)

/-- Set field `f` of a page. -/
def wr (s : State) (page : Nat) (f : Fld) (v : Nat) : State := wri s page f 0 v

/-- The largest value of a field. -/
def Fld.max (f : Fld) : Nat := 2 ^ (f.hi + 1 - f.lo) - 1

/-- Add to a saturating counter. -/
def inci (s : State) (page : Nat) (f : Fld) (i n : Nat) : State := wri s page f i (min (rdi s page f i + n) f.max)

/-- Add to a saturating counter. -/
def inc (s : State) (page : Nat) (f : Fld) (n : Nat) : State := inci s page f 0 n

/-- Add to a wrapping counter. -/
def incWrap (s : State) (page : Nat) (f : Fld) (n : Nat) : State := wr s page f (rd s page f + n)

/-- A pair of fields read as one number, low half first. -/
def rd64 (s : State) (page : Nat) (lo hi : Fld) : Nat := rd s page lo + 2 ^ 32 * rd s page hi

/-- A pair of fields written from one number, low half first. -/
def wr64 (s : State) (page : Nat) (lo hi : Fld) (v : Nat) : State := wr (wr s page lo v) page hi (v / 2 ^ 32)

/-- The four pages of a tile (R551). -/
def tlPg (t : Tile) : Nat := 0x1000 + 4 * t.toNat
def mxPg (t : Tile) : Nat := 0x1001 + 4 * t.toNat
def vxPg (t : Tile) : Nat := 0x1002 + 4 * t.toNat
def syPg (t : Tile) : Nat := 0x1003 + 4 * t.toNat
/-- The pages with one instance, and those by port, engine or channel (R551). -/
def mgPg : Nat := 0x00
def ckPg : Nat := 0x01
def pwPg : Nat := 0x02
def thPg : Nat := 0x03
def fzPg : Nat := 0x04
def lcPg : Nat := 0x05
def scPg : Nat := 0x06
def evPg : Nat := 0x07
def tmPg : Nat := 0x08
def stPg : Nat := 0x09
def lpPg (g : Nat) : Nat := 0x0A + g
def nmPg : Nat := 0x0E
def bbPg : Nat := 0x0F
def cxPg : Nat := 0x10
def twPg : Nat := 0x11
def dlPg : Nat := 0x12
def tkPg : Nat := 0x13
def gsPg : Nat := 0x14
def enPg (n : Nat) : Nat := 0x15 + n
def ncPg : Nat := 0x19
def itPg : Nat := 0x1A
def lkPg (p : Nat) : Nat := 0x20 + p
def oePg (g : Nat) : Nat := 0x60 + g

/-- The refusal of a write by a rule of the page (R543). -/
def wrej (s : State) (page : Nat) : State := wr s page pg_WREJ 1

/-- A tile of the map runs. -/
def programRuns (s : State) : Bool := s.tileList.any (fun t => rd s (tlPg t) tl_STATUS_RUNNING == 1)

/-- The management core holds PG_LOCK of the first LP page, the CX page and the BB page while a job runs (R299, R339,
R399). That a job runs while a tile of the map does is the model's choice (log entry 138). -/
def jobLocks (s : State) (page : Nat) : Bool := (page == lpPg 0 || page == cxPg || page == bbPg) && programRuns s

/-- LOCK of a page is in force (R548): a tile page has none. -/
def locked (s : State) (page : Nat) : Bool := decide (page < 0x1000) && (rd s page pg_LOCK == 1 || jobLocks s page)

/-- An accepted write counts in PG_SEQ (R549). -/
def countWrite (s : State) (page : Nat) : State := incWrap s page pg_PG_SEQ 1

/-- A write that acts, by the management core, of a field at 0x040 or above (R548, R549): under LOCK it stores nothing and
sets WREJ. -/
def actWrite (s : State) (page : Nat) (f : State → State) : State :=
  if locked s page then wrej s page else f (countWrite s page)

/-- Report a PG_FAULT bit to the management core, and one of the MG page to host software, once until it is cleared
(R545). -/
def report (s : State) (page b : Nat) : State :=
  if page = mgPg then { s with hostIrqs := if s.hostIrqs.contains b then s.hostIrqs else s.hostIrqs ++ [b] }
  else { s with irqs := if s.irqs.contains (page, b) then s.irqs else s.irqs ++ [(page, b)] }

/-- The interrupts of a page whose PG_FAULT bits have been cleared stand no longer: a bit that is set again interrupts
again (R544, R545). -/
def quietPage (s : State) (page : Nat) : State :=
  let set := fun b => bit (regW s page pg_FAULT.off) b
  { s with irqs := s.irqs.filter (fun x => x.1 != page || set x.2),
           hostIrqs := if page = mgPg then s.hostIrqs.filter set else s.hostIrqs }

/-- A PG_FAULT bit is set by its condition (R544, R545); a mask bit suppresses only the report. -/
def raiseBit (s : State) (page b : Nat) : State :=
  let s := setW s page pg_FAULT.off (regW s page pg_FAULT.off ||| 2 ^ b)
  if bit (regW s page pg_FAULT_MASK.off) b then s else report (wr s page pg_FORCED 0) page b

/-- `raiseBit` for the bit of a fault field. -/
def raiseF (s : State) (page : Nat) (f : Fld) : State := raiseBit s page f.lo

/-! ### The logbook queue -/

/-- The cycle of the always-on domain, 25 MHz, that runs (R358). -/
def aonCycle (s : State) : Nat := s.ticks / 90

/-- Of two requests of one always-on cycle the first enters the queue before the second (R467): by descending severity,
then by ascending SOURCE. -/
def entersBefore (q r : LogReq) : Bool :=
  q.cycle == r.cycle && (decide (r.sev < q.sev) || (q.sev == r.sev && decide (q.source < r.source)))

/-- A request enters the queue (R467). -/
def enterLog : List LogReq → LogReq → List LogReq
  | [], q => [q]
  | r :: rs, q => if entersBefore q r then q :: r :: rs else r :: enterLog rs q

/-- The queue of sixteen with one more request, and the request that finds it full (R467). -/
def pushLog (l : List LogReq) (q : LogReq) : List LogReq × Option LogReq :=
  let l' := enterLog l q
  if l'.length ≤ 16 then (l', none) else (l'.take 16, (l'.drop 16).head?)

/-- A request to log (R467): one that finds the queue full is dropped before it takes a SEQ. -/
def logReq (s : State) (sev code source : Nat) (payload : List Byte) : State :=
  let r := pushLog s.logQ { sev := sev, code := code, source := source, payload := payload, cycle := aonCycle s }
  let s := { s with logQ := r.1 }
  match r.2 with
  | none => s
  | some q => raiseF (inci (inc s evPg ev_QDROP 1) evPg ev_DROP q.sev 1) evPg ev_F_DROP

/-- Bytes of a 16-bit payload field. -/
def b2 (v : Nat) : List Byte := leBytes 2 v
/-- Bytes of a 32-bit payload field. -/
def b4 (v : Nat) : List Byte := leBytes 4 v
/-- Bytes of a one-byte payload field. -/
def b1 (v : Nat) : List Byte := leBytes 1 v

/-- The SEQ that the newest waiting request will take (R468). -/
def nextSeqOf (s : State) : Nat := rd s evPg ev_HEAD_SEQ + s.logQ.length

/-! ### Free values -/

/-- The next free value, and the state that has used it. -/
def freshFree (s : State) : W64 × State := (Config.free s.freeIdx, { s with freeIdx := s.freeIdx + 1 })

/-- The next measurement, and the state that has read it. -/
def freshSense (s : State) : W64 × State := (Config.sensor s.senseIdx, { s with senseIdx := s.senseIdx + 1 })

/-! ### Tiles -/

/-- A tile's state. -/
def State.tile (s : State) (t : Tile) : TileSt := smGet (fun _ => TileSt.reset) s.tiles t.toNat

/-- The tiles whose register at offset `off` of page kind `kind` (0 TL, 1 MX, 2 VX, 3 SY) satisfies `p`. -/
def tilesWhere (s : State) (kind off : Nat) (p : Nat → Bool) : List Tile :=
  (s.regs.filter (fun c => decide (0x1000 ≤ c.1 / 0x1000) && (c.1 / 0x1000 % 4 == kind) && (c.1 % 0x1000 == off)
    && p c.2.toNat)).map (fun c => BitVec.ofNat 11 ((c.1 / 0x1000 - 0x1000) / 4))

/-- The tiles whose state differs from reset. -/
def listedTiles (s : State) : List Tile := s.tiles.map (fun c => BitVec.ofNat 11 c.1)

/-- Set a tile's state. -/
def State.setTile (s : State) (t : Tile) (ts : TileSt) : State :=
  { s with tiles := smPut (fun _ => TileSt.reset) s.tiles t.toNat ts }

/-- Change a tile's state. -/
def State.modTile (s : State) (t : Tile) (f : TileSt → TileSt) : State := s.setTile t (f (s.tile t))

/-- The mode bit HMODE (R161, R199). -/
def State.hmode (s : State) (t : Tile) : Bool := rd s (tlPg t) tl_STATUS_HMODE == 1

/-- The tile has a program that runs or sleeps (R580). -/
def State.hasProgram (s : State) (t : Tile) : Bool :=
  (rd s (tlPg t) tl_STATUS_RUNNING == 1) || (rd s (tlPg t) tl_STATUS_SLEEP == 1)

/-- Scalar register `r` under mode `hm` (R161, R192): g0 reads 0, g28 to g31 select the handler bank in handler mode. -/
def TileSt.readG (ts : TileSt) (hm : Bool) (r : BitVec 5) : W64 :=
  if r = 0 then 0
  else if hm && decide (28 ≤ r.toNat) then smGet (fun _ => 0) ts.gh r.toNat
  else smGet (fun _ => 0) ts.g r.toNat

/-- Write scalar register `r` under mode `hm`: g0 ignores writes (R161). -/
def TileSt.writeG (ts : TileSt) (hm : Bool) (r : BitVec 5) (v : W64) : TileSt :=
  if r = 0 then ts
  else if hm && decide (28 ≤ r.toNat) then { ts with gh := smPut (fun _ => 0) ts.gh r.toNat v }
  else { ts with g := smPut (fun _ => 0) ts.g r.toNat v }

/-- Predicate `i` (R161): p0 reads 1. -/
def TileSt.readP (ts : TileSt) (i : BitVec 3) : Bool := (i == 0) || ts.p.getLsbD i.toNat

/-- Write predicate `i`: p0 ignores writes (R161). -/
def TileSt.writeP (ts : TileSt) (i : BitVec 3) (b : Bool) : TileSt :=
  if i = 0 then ts
  else { ts with p := BitVec.ofNat 8 (setBits ts.p.toNat i.toNat i.toNat (b2n b)) }

/-- `readG` in the tile's present mode. -/
def State.g (s : State) (t : Tile) (r : BitVec 5) : W64 := (s.tile t).readG (s.hmode t) r

/-- `writeG` in the tile's present mode. -/
def State.setG (s : State) (t : Tile) (r : BitVec 5) (v : W64) : State :=
  s.modTile t (fun ts => ts.writeG (s.hmode t) r v)

/-! ### Byte memories -/

/-- A byte memory: unlisted bytes read 0 (log entry 3). -/
def Memory.wf (m : SMap Byte) : Bool := smWf (fun _ => (0 : Byte)) m

/-- One byte. -/
def memByte (m : SMap Byte) (a : Nat) : Byte := smGet (fun _ => 0) m a

/-- `n` bytes from address `a`. -/
def memRead (m : SMap Byte) (a n : Nat) : List Byte := (List.range n).map (fun i => memByte m (a + i))

/-- Store bytes from address `a` on. -/
def memWrite : SMap Byte → Nat → List Byte → SMap Byte
  | m, _, [] => m
  | m, a, b :: bs => memWrite (smPut (fun _ => 0) m a b) (a + 1) bs

/-- The number at `a`, least significant byte first (R38). -/
def memNat (m : SMap Byte) (a n : Nat) : Nat := leNat (memRead m a n)

/-- The key of a spool byte: physical tile and offset (R269). -/
def spKey (p o : Nat) : Nat := p * 0x800000 + o

/-- Bytes of the spool of physical tile `p`. -/
def spRead (s : State) (p o n : Nat) : List Byte := memRead s.spool (spKey p o) n

/-- The keys of the spool words that `n` bytes at `o` touch (R270). -/
def spWords (p o n : Nat) : List Nat := (List.range ((o + n + 7) / 8 - o / 8)).map (fun i => p * 0x100000 + o / 8 + i)

/-- A touched word that keeps its bad check bits (R270, R274). -/
def spIsBad (s : State) (p o n : Nat) : Bool :=
  s.spoolBad.any (fun w => decide (p * 0x100000 + o / 8 ≤ w) && decide (w < p * 0x100000 + (o + n + 7) / 8))

/-- A write of `n` bytes at `o` leaves word `w` as it is, in whole or in part. -/
def spKeeps (p o n w : Nat) : Bool :=
  !((spWords p o n).contains w && decide (p * 0x800000 + o ≤ w * 8) && decide (w * 8 + 8 ≤ p * 0x800000 + o + n))

/-- Store into the spool of physical tile `p`: a word written whole is good again (R274). -/
def spWrite (s : State) (p o : Nat) (bs : List Byte) : State :=
  { s with spool := memWrite s.spool (spKey p o) bs,
           spoolBad := s.spoolBad.filter (spKeeps p o bs.length),
           spoolWeak := s.spoolWeak.filter (spKeeps p o bs.length) }

/-- An LPDDR5X line that `n` bytes at `a` touch. -/
def lpTouch (a n l : Nat) : Bool := decide (a / 64 ≤ l) && decide (l < (a + n + 63) / 64)

/-- A touched LPDDR5X line that keeps its bad check symbols (R280). -/
def lpIsBad (s : State) (a n : Nat) : Bool := s.lpBad.any (lpTouch a n)

/-- The first such line that the state lists, as an address of the access. -/
def lpBadAt (s : State) (a n : Nat) : Nat := max a (((s.lpBad.find? (lpTouch a n)).getD 0) * 64)

/-- A write of `n` bytes at `a` leaves line `l` as it is, in whole or in part. -/
def lpKeeps (a n l : Nat) : Bool := !(decide (a ≤ l * 64) && decide (l * 64 + 64 ≤ a + n))

/-- Store into LPDDR5X: a line written whole is good again (R280). -/
def lpWrite (s : State) (a : Nat) (bs : List Byte) : State :=
  { s with lp := memWrite s.lp a bs, lpBad := s.lpBad.filter (lpKeeps a bs.length),
           lpWeak := s.lpWeak.filter (lpKeeps a bs.length) }

/-- Store into flash. -/
def flWrite (s : State) (a : Nat) (bs : List Byte) : State := { s with flash := memWrite s.flash a bs }

/-- What a module address names (R284). -/
inductive Loc where
  | lp (a : Nat)
  | spool (t o : Nat)
  | page (n off : Nat)
  | unmapped
deriving DecidableEq, Repr

/-- A page of the index that the fused grade has (R551). -/
def pageExists (s : State) (n : Nat) : Bool :=
  (pageBlk n).isSome && (decide (n < 0x1000) || decide (n < 0x1000 + 4 * s.ntiles))

/-- The module address map (R284). -/
def decodeAddr (s : State) (a : Nat) : Loc :=
  if a < 0x8000000000 then .lp a
  else if 0x10000000000 ≤ a ∧ a < 0x20000000000 then
    let t := (a - 0x10000000000) / 0x800000
    let o := (a - 0x10000000000) % 0x800000
    if t < s.ntiles ∧ o < 0x500000 then .spool t o else .unmapped
  else if 0x20000000000 ≤ a ∧ pageExists s ((a - 0x20000000000) / 0x1000) then
    .page ((a - 0x20000000000) / 0x1000) (a % 0x1000)
  else .unmapped

/-- The module of a bolt address (R284). -/
def modOf (a : Nat) : Nat := bits a 47 45

/-- The location of a bolt address within its module (R284). -/
def locOf (a : Nat) : Nat := a % 2 ^ 45

/-- A tile is OFF (R261): fenced, retired or power-gated, and every tile in fail-safe (R448), in
standby (R482) and where bring-up has stopped (R478). -/
def State.tileOff (s : State) (t : Tile) : Bool :=
  (s.tile t).off || s.failSafe.isSome || s.stopped || rd s mgPg mg_STANDBY_HELD == 1

/-- A tile's data store. -/
def dsRead (ts : TileSt) (a n : Nat) : List Byte := memRead ts.dstore a n

/-- Store into a tile's data store. -/
def dsWrite (ts : TileSt) (a : Nat) (bs : List Byte) : TileSt := { ts with dstore := memWrite ts.dstore a bs }

/-! ### Messages of the network -/

/-- Send a message. -/
def send (s : State) (m : NetMsg) : State := { s with net := s.net ++ [m] }

/-- The first message in flight that `p` accepts, and the state without it. -/
def takeMsg (s : State) (p : NetMsg → Bool) : Option NetMsg × State :=
  match s.net.find? p with
  | some m => (some m, { s with net := s.net.erase m })
  | none => (none, s)

/-- The state without the first message in flight that `p` accepts. -/
def dropMsg (s : State) (p : NetMsg → Bool) : State := (takeMsg s p).2

/-- The module's own number within its bolt (R566, R255). -/
def State.module (s : State) : Nat := s.pins.modpos.toNat

/-- The stamp of a tile of this module (R255). -/
def tileStamp (s : State) (t : Tile) : W32 := BitVec.ofNat 32 (s.module * 2 ^ 27 + t.toNat)

/-- The stamp of this module's management core (R255). -/
def mgmtStamp (s : State) : W32 := BitVec.ofNat 32 (2 ^ 30 + s.module * 2 ^ 27)

/-! ### The stall net -/

/-- Rows of R208, counted from 0. -/
def rowOperand : Nat := 0
def rowLoose : Nat := 1
def rowLate : Nat := 2
def rowEcc : Nat := 3
def rowEngine : Nat := 4
def rowDma : Nat := 5
def rowSync : Nat := 6
def rowClose : Nat := 7
def rowEntropy : Nat := 8
def rowThermal : Nat := 9
def rowTrap : Nat := 10

/-- A scalar register that the engine queue will still write: gD of an mx.st or an mx.close (R108, R110). -/
def queueDest (i : Queued) : Option (BitVec 5) :=
  match i with
  | .op (.mxSt _ o _) => some o.gD
  | .op (.mxClose _ o _) => some o.gD
  | _ => none

/-- An mx.close waits in the queue (R109). -/
def closeQueued (ts : TileSt) : Bool := ts.mxQ.any (fun q => match q.ins with | .op (.mxClose _ _ _) => true | _ => false)

/-- Neither engine executes or holds an instruction. -/
def enginesIdle (ts : TileSt) : Bool := ts.mxQ.isEmpty && ts.vxQ.isEmpty && !ts.mxBusy && !ts.vxBusy

/-- No instruction waits in either engine's queue: everything issued so far has had its effect. -/
def enginesDrained (ts : TileSt) : Bool := ts.mxQ.isEmpty && ts.vxQ.isEmpty

/-- An engine's queue. -/
def TileSt.queueOf (ts : TileSt) (e : Engine) : List QEnt := match e with | .mx => ts.mxQ | .vx => ts.vxQ

/-- The thermal row withholds this cycle (R558): the first DUTY cycles of each 64. -/
def dutyCycle (s : State) : Bool := decide (s.cycles % 64 < rd s thPg th_DUTY)

/-- The engines and the DMA issue stage of a tile run: nothing stalls the chip, or the stall is the tile's own, which waits
for them or holds the net in its handler; the thermal row withholds its cycles from all but a handler (R26, R100, R193,
R206; log entry 124). -/
def enginesRun (s : State) (t : Tile) : Bool :=
  (s.netReq.isEmpty || s.netReq.any (fun r => r.1 == t)) && (s.hmode t || !dutyCycle s)

/-- Raise a request on the stall net (R206). -/
def request (s : State) (t : Tile) (row : Nat) : State :=
  { s with netReq := if s.netReq.contains (t, row) then s.netReq else s.netReq ++ [(t, row)] }

/-- Withhold an instruction and raise its tile's request (R206); `h` is the condition that must clear (R207). -/
def withhold (s : State) (t : Tile) (row : Nat) (h : Hold) : State :=
  request (s.modTile t (fun ts => { ts with held := some (row, h) })) t row

/-- Drop a request (R207). -/
def unrequest (s : State) (t : Tile) (row : Nat) : State := { s with netReq := s.netReq.filter (· != (t, row)) }

/-- Drop every request of a tile. -/
def unrequestAll (s : State) (t : Tile) : State := { s with netReq := s.netReq.filter (fun r => r.1 != t) }

/-- Issue cycles of a program stitch: W = 65,536 - E (R212). -/
def State.stitchW (s : State) : Nat := 65536 - rd s gsPg gs_EASE

/-- A cause that stops issue now: in handler mode only those the handler raised (R189, R192). -/
def causeDue (ts : TileSt) (hm : Bool) : Bool := ts.causes.any (fun c => !hm || c.inHandler)

/-- A register that waits for a response of a loose load or an mb.send, or for a queued engine instruction that writes
it (R165, R176, R256). -/
def regBusy (ts : TileSt) (hm : Bool) (r : BitVec 5) : Bool :=
  r != 0 &&
    (ts.loose.any (fun l => match l.kind with
        | .load gD bank => gD == r && (decide (r.toNat < 28) || bank == hm)
        | _ => false)
      || ts.sends.any (fun x => x.2.1 == r && (decide (r.toNat < 28) || x.2.2 == hm))
      || ts.mxQ.any (fun q => queueDest q.ins == some r && (decide (r.toNat < 28) || q.inHandler == hm)))

/-- PEND of a tack line at a tile (R248). -/
def tackPend (s : State) (t : Tile) (k : Nat) : Bool := bit (rd s (syPg t) sy_TACK_PEND) k

/-- The tiles that run. -/
def runningTiles (s : State) : List Tile := tilesWhere s 0 0x044 (fun w => bit w 0)

/-- Lockstep (R26): no running tile has issued fewer cycles of its program than `t`. -/
def inLockstep (s : State) (t : Tile) : Bool :=
  (runningTiles s).all (fun u => (s.tile u).off || decide ((s.tile t).issued ≤ (s.tile u).issued))

/-- Nothing of the chip withholds issue (R206, R208, R442): no request stands on the net, the thermal row does not take
the cycle, and the job is not held. -/
def chipIssues (s : State) : Bool := s.netReq.isEmpty && !dutyCycle s && (rd s gsPg gs_JOB_HOLD == 0)

/-- The control core can issue (R26, R109, R165, R189, R193, R206, R213, R249).
A tile in handler mode issues through the stall of the others. -/
def canIssue (s : State) (t : Tile) : Bool :=
  let ts := s.tile t
  let hm := s.hmode t
  (rd s (tlPg t) tl_STATUS_RUNNING == 1) && !ts.off && !causeDue ts hm
    && (hm || (chipIssues s && decide (ts.issued < s.nextStitch * s.stitchW) && inLockstep s t))
    && ts.closeWait.isNone && !closeQueued ts && ts.realign.isNone && ts.wait.isNone
    && (hm || (match ts.tackWait with | some k => !k.2 && !tackPend s t k.1.toNat | none => true))

/-- A progress event resets the doldrums window and re-arms the detector (R263, R264). -/
def progress (s : State) : State := { s with dlCount := 0, dlFired := false }

/-- An issue cycle of the program (R165, R211, R225); a handler's issue cycles are stall cycles (R193), and the program's
own pending tack wait outlasts them. -/
def countIssue (s : State) (t : Tile) : State :=
  let hm := s.hmode t
  let s := (progress s).modTile t (fun ts =>
    { ts with ord := ts.ord + 1, held := none, tackWait := if hm then ts.tackWait else none })
  if s.hmode t then s
  else
    let s := s.modTile t (fun ts => { ts with issued := ts.issued + 1 })
    let i := (s.tile t).issued
    let s := inc s (syPg t) sy_ISSUE 1
    if rd64 s gsPg gs_ISSUE_LO gs_ISSUE_HI < i then wr64 s gsPg gs_ISSUE_LO gs_ISSUE_HI i else s

/-- Sequential flow: the next index (R162). -/
def advance (s : State) (t : Tile) : State := (countIssue s t).modTile t (fun ts => { ts with pc := ts.pc + 1 })

/-- A taken branch to an index of the store (R174). -/
def jump (s : State) (t : Tile) (target : Nat) : State :=
  (countIssue s t).modTile t (fun ts => { ts with pc := BitVec.ofNat 15 target })

/-! ### Traps -/

def cIllegal : Nat := 0x01
def cIaddr : Nat := 0x02
def cDaddr : Nat := 0x03
def cPriv : Nat := 0x04
def cBus : Nat := 0x05
def cDma : Nat := 0x06
def cSync : Nat := 0x07
def cSoft : Nat := 0x08
def cFmt : Nat := 0x09
def cAddr : Nat := 0x0A
def cState : Nat := 0x0B
def cNum : Nat := 0x0C
def cStow : Nat := 0x10
def cMsg : Nat := 0x11

/-- The PG_FAULT bit of a cause on the page of its source (R198, R122, R159). -/
def causeBit (s : State) (t : Tile) (code src : Nat) : State :=
  if src = 1 then
    (if code = cIllegal then raiseF s (mxPg t) mx_F_ILLEGAL else if code = cFmt then raiseF s (mxPg t) mx_F_FMT
      else if code = cAddr then raiseF s (mxPg t) mx_F_ADDR else if code = cState then raiseF s (mxPg t) mx_F_STATE
      else if code = cNum then raiseF s (mxPg t) mx_F_NUM else s)
  else if src = 2 then
    (if code = cIllegal then raiseF s (vxPg t) vx_F_ILLEGAL else if code = cFmt then raiseF s (vxPg t) vx_F_FMT
      else if code = cAddr then raiseF s (vxPg t) vx_F_ADDR else if code = cState then raiseF s (vxPg t) vx_F_STATE
      else s)
  else if 1 ≤ code ∧ code ≤ 7 then raiseBit s (tlPg t) (code - 1)
  else s

/-- ERR_CODE, the bit number in PG_FAULT, and ERR_PC of an engine page (R123, R160, R188). -/
def causeCapture (s : State) (t : Tile) (code src pc : Nat) : State :=
  if src = 1 then
    wr (wr s (mxPg t) mx_ERR_CODE (if code = cIllegal then 5 else if code = cFmt then 2 else if code = cAddr then 4
      else if code = cState then 3 else 6)) (mxPg t) mx_ERR_PC pc
  else if src = 2 then
    wr (wr s (vxPg t) vx_ERR_CODE (if code = cIllegal then 4 else if code = cFmt then 1 else if code = cAddr then 3
      else 2)) (vxPg t) vx_ERR_PC pc
  else s

/-- A cause is detected (R188, R192 step 1); without a running program it is reported and discarded (R580). -/
def raiseCause (s : State) (t : Tile) (c : Cause) : State :=
  let s := causeCapture (causeBit s t c.code c.src) t c.code c.src c.pc
  if s.hasProgram t then
    let s := s.modTile t (fun ts => { ts with causes := ts.causes ++ [c] })
    if rd s (tlPg t) tl_STATUS_SLEEP = 1 then s else request s t rowTrap
  else s

/-- A precise cause of the control core at the present index: the instruction has no effect (R188). -/
def precise (s : State) (t : Tile) (code : Nat) (info : W64) : State :=
  let ts := s.tile t
  raiseCause s t
    { code := code, src := 0, kind := .precise, pc := ts.pc.toNat, info := info, ord := ts.ord + 1,
      inHandler := s.hmode t }

/-- An engine that raises a cause discards every later instruction of its own queue (R190). -/
def flushEngine (src : Nat) (ts : TileSt) : TileSt :=
  { ts with mxQ := if src = 1 then [] else ts.mxQ, vxQ := if src = 2 then [] else ts.vxQ }

/-- A deferred cause of an engine for the instruction in hand, whose index was `pc` (R188, R190). -/
def deferred (s : State) (t : Tile) (code src pc : Nat) (info : W64) : State :=
  raiseCause (s.modTile t (flushEngine src)) t
    { code := code, src := src, kind := .deferred, pc := pc, info := info, ord := (s.tile t).ord,
      inHandler := s.hmode t }

/-- The first of two causes (R189): asynchronous causes come after all others, then issue order decides. -/
def causeBefore (a b : Cause) : Bool :=
  if a.kind = .async then decide (b.kind = .async) && decide (a.ord ≤ b.ord)
  else decide (b.kind = .async) || decide (a.ord ≤ b.ord)

/-- The cause that the tile takes (R189). -/
def firstCause : List Cause → Option Cause
  | [] => none
  | c :: cs => match firstCause cs with
    | none => some c
    | some d => if causeBefore c d then some c else some d

/-- A tack wait that outlasts a trap: the sy.tack ARRIVE and WAIT has issued, and TL_TRAP_PC names what comes after it. -/
def TileSt.keptTack (ts : TileSt) : Option (BitVec 4 × Bool) :=
  match ts.tackWait with
  | some k => if k.2 then none else some k
  | none => none

/-- The core as it is in trap entry: a withheld instruction has not issued (R188), and comes again after c.tret. -/
def TileSt.unheld (ts : TileSt) : TileSt :=
  { ts with wait := none, realign := none, held := none, tackWait := ts.keptTack }

/-- TRAP_PC of a cause (R188); the register has no room for the index 0x4000 of R162: a free value, the same on every
run (R12). -/
def trapPc (s : State) (t : Tile) (c : Cause) : Nat :=
  let pc := if c.kind = .precise then c.pc else (s.tile t).pc.toNat
  if pc < 0x4000 then pc else (Config.trapIndex c.code (c.ord + 1) pc).toNat

/-- TRAP_AUX of a cause: the faulting index of a deferred cause; for the others the manual states none: a free value, the
same on every run (R12). -/
def trapAux (c : Cause) : Nat := if c.kind = .deferred then c.pc else (Config.trapIndex c.code 0 c.pc).toNat

/-- The requests of a tile in handler mode (R193): its hold, and that of a tack wait that outlasts the trap. -/
def trapRequests (s : State) (t : Tile) : State :=
  let s := unrequestAll s t
  request (if (s.tile t).tackWait.isSome then request s t rowSync else s) t rowTrap

/-- Steps 3 to 5 of trap entry (R192), with MULTI and the causes that stay pending (R189). -/
def enterTrap (s : State) (t : Tile) (c : Cause) : State :=
  let ts := s.tile t
  let rest := ts.causes.erase c
  let p := tlPg t
  let s := wr (wr s p tl_TRAP_PC (trapPc s t c)) p tl_TRAP_AUX (trapAux c)
  let s := wr (wr (wr s p tl_CAUSE c.code) p tl_SRC c.src) p tl_MULTI (b2n (!rest.isEmpty))
  let s := wr64 s p tl_TRAP_INFO_LO tl_TRAP_INFO_HI c.info.toNat
  let s := wr s p tl_PRED (ts.p.toNat / 2)
  let s := wr s p tl_STATUS_HMODE 1
  let s := s.modTile t (fun ts =>
    { ts.unheld with causes := rest.filter (fun d => d.kind != .precise), pc := BitVec.ofNat 15 (rd s p tl_TRAP_VEC) })
  trapRequests s t

/-- A tile takes the precise SYNC cause of a tack line (R249, R251, R265). -/
def tackCause (s : State) (t : Tile) (k : Nat) : State :=
  precise (raiseF s (syPg t) sy_F_TACK) t cSync (BitVec.ofNat 64 (2 * 2 ^ 48 + k))

/-- A tack wait whose line broke while the tile was in the handler takes the SYNC cause on return (R251). -/
def brokenTack (s : State) (t : Tile) : State :=
  match (s.tile t).tackWait with
  | none => s
  | some k =>
    if bit (regW s tkPg pg_FAULT.off) k.1.toNat then
      tackCause (unrequest (s.modTile t (fun ts => { ts with tackWait := none })) t rowSync) t k.1.toNat
    else s

/-- Return from the handler (R195): causes that stayed pending stop issue again (R189). -/
def trapReturn (s : State) (t : Tile) : State :=
  let p := tlPg t
  let s := countIssue s t
  let s := s.modTile t (fun ts =>
    { ts with pc := BitVec.ofNat 15 (rd s p tl_TRAP_PC), p := BitVec.ofNat 8 (2 * rd s p tl_PRED + 1) })
  let s := brokenTack (unrequest (wr s p tl_STATUS_HMODE 0) t rowTrap) t
  if (s.tile t).causes.isEmpty then s else request s t rowTrap

/-- The tile halts (R166, R195, R580): in handler mode HMODE is cleared and the hold released. No rule says what RUN reads
then: that it reads 1 until it is written 0 is the model's choice (log entry 119). -/
def haltTile (s : State) (t : Tile) : State :=
  let p := tlPg t
  let s := wr (wr (wr s p tl_STATUS_RUNNING 0) p tl_STATUS_HALTED 1) p tl_STATUS_HMODE 0
  unrequestAll (s.modTile t (fun ts => { ts with causes := [] })) t

/-! ### Sync counters -/

/-- COUNT of a counter. -/
def syCount (s : State) (t : Tile) (c : Nat) : Nat := rdi s (syPg t) sy_CNT_COUNT c

/-- A counter saturates (R238): SATURATED, the deferred SYNC cause with TL_TRAP_INFO of R265, and the record. -/
def sySaturate (s : State) (t : Tile) (c pc : Nat) : State :=
  let s := raiseF s (syPg t) sy_F_SATURATED
  let s := deferred s t cSync 4 pc (BitVec.ofNat 64 (2 ^ 48 + c))
  logReq s 2 0x0007 (syPg t) (b2 t.toNat ++ b1 c)

/-- A signal of `n` arrives at counter `c` (R237 step 1, R238); `pc` is the index of the tile's own instruction that
sent it, and of another sender's signal the manual names no index: a free value, the same on every run (R12). -/
def sySignal (s : State) (t : Tile) (c n : Nat) (pc : Option Nat) : State :=
  let s := progress s
  let old := syCount s t c
  let new := min (old + n) 65535
  let s := wri s (syPg t) sy_CNT_COUNT c new
  let s := wri s (syPg t) sy_PC_PROD_CNT c (rdi s (syPg t) sy_PC_PROD_CNT c + n)
  if old < 65535 ∧ new = 65535 then
    sySaturate s t c (pc.getD (Config.trapIndex cSync (s.tile t).ord c).toNat)
  else s

/-- Step 2 of R237: a wait subtracts. -/
def sySubtract (s : State) (t : Tile) (c n : Nat) : State :=
  let s := wri s (syPg t) sy_CNT_COUNT c (syCount s t c - n)
  wri s (syPg t) sy_PC_CONS_CNT c (rdi s (syPg t) sy_PC_CONS_CNT c + n)

end Sys2Proof.Machine
end

