-- ==== Sys2Proof/Machine/Formats.lean ====
section
/-! DEFINITION. Number formats and conversions (chapter "Number Formats, Block Scales and Conversions"): the value of
every encoding, rounding from exact rationals, saturation and events, block scales, SR8 and bobbin. -/

namespace Sys2Proof.Machine

/-! ### Formats -/

/-- Element width of a format code in bits (R32). -/
def fmtW (f : Nat) : Nat :=
  match f with
  | 0 => 4 | 1 => 6 | 2 => 8 | 3 => 8 | 4 => 12
  | 5 => 16 | 6 => 32 | 7 => 64
  | 8 => 8 | 9 => 16 | 10 => 32 | 11 => 64
  | 12 => 8 | 13 => 16 | 14 => 32 | _ => 64

/-- A block-scaled format (R32). -/
def isJ (f : Nat) : Bool := decide (f < 5)
/-- An IEEE 754 format (R32). -/
def isIEEE (f : Nat) : Bool := decide (5 ≤ f) && decide (f ≤ 7)
/-- An integer format (R32). -/
def isInt (f : Nat) : Bool := decide (8 ≤ f)
/-- A signed integer format (R41). -/
def isSigned (f : Nat) : Bool := decide (8 ≤ f) && decide (f ≤ 11)

/-- Exponent bits (R34, R40). -/
def eBits (f : Nat) : Nat :=
  match f with | 0 => 2 | 1 => 3 | 2 => 4 | 3 => 5 | 4 => 5 | 5 => 5 | 6 => 8 | _ => 11
/-- MBITS (R34, R40). -/
def mBits (f : Nat) : Nat :=
  match f with | 0 => 1 | 1 => 2 | 2 => 3 | 3 => 2 | 4 => 6 | 5 => 10 | 6 => 23 | _ => 52
/-- EMIN (R34, R40, R59): 1 - B. -/
def eMin (f : Nat) : Int :=
  match f with | 0 => 0 | 1 => -2 | 2 => -6 | 3 => -14 | 4 => -14 | 5 => -14 | 6 => -126 | _ => -1022
/-- EMAX of a J-format (R49 step 4). -/
def eMaxJ (f : Nat) : Int := match f with | 0 => 2 | 1 => 4 | 2 => 8 | _ => 16

/-- The first magnitude code above the largest finite value (R33: J-formats use every exponent code). -/
def ovfCode (f : Nat) : Nat := if isJ f then 2 ^ (eBits f + mBits f) else (2 ^ eBits f - 1) * 2 ^ mBits f

/-- The canonical quiet NaN (R40). -/
def canonNaN (f : Nat) : Nat := (2 ^ eBits f - 1) * 2 ^ mBits f + 2 ^ (mBits f - 1)

/-- The infinity code, without sign (R39). -/
def infCode (f : Nat) : Nat := (2 ^ eBits f - 1) * 2 ^ mBits f

/-- The sign bit. -/
def signBit (f : Nat) (neg : Bool) : Nat := if neg then 2 ^ (fmtW f - 1) else 0

/-! ### Values -/

/-- The value of an encoding: exact. A finite nonzero value is its sign and its magnitude n / d. -/
inductive Val where
  | nan
  | inf (neg : Bool)
  | zero (neg : Bool)
  | fin (neg : Bool) (n d : Nat)
deriving DecidableEq, Repr

/-- m * 2^e as a value. -/
def dyadic (neg : Bool) (m : Nat) (e : Int) : Val :=
  if m = 0 then .zero neg else .fin neg (m * 2 ^ e.toNat) (2 ^ (-e).toNat)

/-- A signed integer times 2^e as a value. -/
def ofIntExp (i : Int) (e : Int) : Val := dyadic (decide (i < 0)) i.natAbs e

/-- A signed rational as a value; `zneg` is the sign of an exact zero. -/
def ofRat (zneg : Bool) (i : Int) (d : Nat) : Val :=
  if i = 0 then .zero zneg else .fin (decide (i < 0)) i.natAbs d

/-- Magnitude bits of a J-format or IEEE code with exponent field e and mantissa f (R33, R40). -/
def decMag (f neg : Nat) (c : Nat) : Val :=
  let m := mBits f
  let e := c / 2 ^ m
  let fr := c % 2 ^ m
  if e = 0 then dyadic (neg == 1) fr (eMin f - m) else dyadic (neg == 1) (2 ^ m + fr) (eMin f - m + (e - 1))

/-- The element value of a J code, before its scale (R33, R35). -/
def decJ (f c : Nat) : Val :=
  match decMag f (c / 2 ^ (fmtW f - 1) % 2) (c % 2 ^ (fmtW f - 1)) with
  | .zero _ => .zero false
  | v => v

/-- A value times 2^k. -/
def scaleVal (v : Val) (k : Int) : Val :=
  match v with
  | .fin neg n d => .fin neg (n * 2 ^ k.toNat) (d * 2 ^ (-k).toNat)
  | v => v

/-- The value of an IEEE or integer code (R39 to R41). -/
def decVal (f c : Nat) : Val :=
  let c := c % 2 ^ fmtW f
  if isIEEE f then
    let neg := c / 2 ^ (fmtW f - 1)
    let mag := c % 2 ^ (fmtW f - 1)
    if mag < infCode f then decMag f neg mag
    else if mag = infCode f then .inf (neg == 1)
    else .nan
  else if isSigned f then
    let i := signed (fmtW f) c
    ofRat false i 1
  else ofRat false (c : Int) 1

/-! ### Rounding -/

/-- floor(log2(n / d)) of a positive rational. -/
def floorLog2 (n d : Nat) : Int :=
  let k : Int := (Nat.log2 n : Int) - (Nat.log2 d : Int)
  if d * 2 ^ k.toNat ≤ n * 2 ^ (-k).toNat then k else k - 1

/-- The rounding modes (R42). -/
def rmRNE : Nat := 0
def rmRTZ : Nat := 1
def rmRUP : Nat := 2
def rmRDN : Nat := 3
def rmSR8 : Nat := 4

/-- round_grid (R59): to the nearest integer, ties to even, of a magnitude n / d. -/
def roundNearest (n d : Nat) : Nat :=
  let k := n / d
  let r := n % d
  if d < 2 * r ∨ (2 * r = d ∧ k % 2 = 1) then k + 1 else k

/-- sr8 (R46): the eight bits below the rounding point against the random byte. -/
def sr8 (n d r : Nat) : Nat := if r < (n % d) * 256 / d then n / d + 1 else n / d

/-- A magnitude of m = n / d ulps rounded under RM (R42, R59). -/
def roundMag (neg : Bool) (n d rm r : Nat) : Nat :=
  if rm = rmRNE then roundNearest n d
  else if rm = rmRTZ then n / d
  else if rm = rmRUP then (if neg then n / d else (n + d - 1) / d)
  else if rm = rmRDN then (if neg then (n + d - 1) / d else n / d)
  else sr8 n d r

/-- The exponent of the ulp of a nonzero magnitude (R59). -/
def ulpExp (f : Nat) (n d : Nat) : Int := max (floorLog2 n d) (eMin f) - mBits f

/-- The magnitude code of k ulps of exponent `ue`. -/
def magCode (f : Nat) (k : Nat) (ue : Int) : Nat := (ue + mBits f - eMin f).toNat * 2 ^ mBits f + k

/-- A converted element with the events it raises (R58). -/
structure Cv where
  bits : Nat
  sat : Bool
  inv : Bool
deriving DecidableEq, Repr

/-- An element without events. -/
def cvOk (b : Nat) : Cv := { bits := b, sat := false, inv := false }

/-- The overflow table of R45 for an IEEE destination with SAT = 0: the result is an infinity. -/
def ovfInf (neg : Bool) (rm : Nat) : Bool :=
  if rm = rmRTZ then false else if rm = rmRUP then !neg else if rm = rmRDN then neg else true

/-- overflow (R45) for an IEEE destination. -/
def ovfIEEE (f : Nat) (neg : Bool) (rm : Nat) (sat : Bool) : Cv :=
  let big := signBit f neg + infCode f - 1
  if sat then { bits := big, sat := true, inv := false }
  else if ovfInf neg rm then { bits := signBit f neg + infCode f, sat := false, inv := true }
  else cvOk big

/-- A rounded magnitude code to an IEEE format, with overflow (R44, R45). -/
def packIEEE (f : Nat) (neg : Bool) (code rm : Nat) (sat : Bool) : Cv :=
  if ovfCode f ≤ code then ovfIEEE f neg rm sat else cvOk (signBit f neg + code)

/-- cvt_elem (R59) to an IEEE format. -/
def cvtIEEE (f : Nat) (neg : Bool) (n d rm : Nat) (sat : Bool) (r : Nat) : Cv :=
  let ue := ulpExp f n d
  let k := roundMag neg (n * 2 ^ (-ue).toNat) (d * 2 ^ ue.toNat) rm r
  packIEEE f neg (magCode f k ue) rm sat

/-- The range of an integer format (R41). -/
def intMin (f : Nat) : Int := if isSigned f then -(2 ^ (fmtW f - 1) : Nat) else 0
def intMax (f : Nat) : Int := if isSigned f then (2 ^ (fmtW f - 1) : Nat) - 1 else (2 ^ fmtW f : Nat) - 1

/-- A rounded integer to an integer format (R52): out of range gives the nearest end. -/
def clampInt (f : Nat) (i : Int) (sat : Bool) : Cv :=
  if i < intMin f then { bits := encInt (fmtW f) (intMin f), sat := sat, inv := !sat }
  else if intMax f < i then { bits := encInt (fmtW f) (intMax f), sat := sat, inv := !sat }
  else cvOk (encInt (fmtW f) i)

/-- A value to an IEEE or integer format (R44, R45, R52, R56), one rounding from the exact value (R43). -/
def cvtVal (f : Nat) (v : Val) (rm : Nat) (sat : Bool) (r : Nat) : Cv :=
  if isIEEE f then
    match v with
    | .nan => cvOk (canonNaN f)
    | .inf neg => cvOk (signBit f neg + infCode f)
    | .zero neg => cvOk (signBit f neg)
    | .fin neg n d => cvtIEEE f neg n d rm sat r
  else
    match v with
    | .nan => { bits := 0, sat := false, inv := true }
    | .inf neg => { bits := encInt (fmtW f) (if neg then intMin f else intMax f), sat := sat, inv := !sat }
    | .zero _ => cvOk 0
    | .fin neg n d =>
      let k := roundMag neg n d rm r
      clampInt f (if neg then -(k : Int) else k) sat

/-- Integer to integer (R53). -/
def cvtIntInt (fs fd c : Nat) (sat : Bool) : Cv :=
  let i : Int := if isSigned fs then signed (fmtW fs) c else ((c % 2 ^ fmtW fs : Nat) : Int)
  if intMin fd ≤ i ∧ i ≤ intMax fd then cvOk (encInt (fmtW fd) i)
  else if sat then clampInt fd i true
  else { bits := encInt (fmtW fd) i, sat := false, inv := true }

/-- One element between two formats that are not J-formats (R54, R56). -/
def cvtElem (fs fd c rm : Nat) (sat : Bool) (r : Nat) : Cv :=
  if isInt fs && isInt fd then cvtIntInt fs fd c sat
  else if fs = fd then (if decVal fs c = .nan then cvOk (canonNaN fd) else cvOk (c % 2 ^ fmtW fs))
  else cvtVal fd (decVal fs c) rm sat r

/-! ### Block formats -/

/-- A source element of a block conversion: an element of an invalid block, or a value. -/
inductive Src where
  | invalid
  | val (v : Val)
deriving DecidableEq, Repr

/-- A block written by a conversion. -/
structure Block where
  scale : Nat
  codes : List Nat
  sat : Bool
  inv : Bool
deriving DecidableEq, Repr

/-- An invalid block (R36). -/
def badBlock (inv : Bool) : Block := { scale := 0xFF, codes := List.replicate 32 0, sat := false, inv := inv }

/-- Compare two positive rationals. -/
def ratLe (n1 d1 n2 d2 : Nat) : Bool := decide (n1 * d2 ≤ n2 * d1)

/-- The larger of two magnitudes; zero is 0 / 1. -/
def ratMax (a b : Nat × Nat) : Nat × Nat := if ratLe a.1 a.2 b.1 b.2 then b else a

/-- The magnitude of a finite value. -/
def magOf : Val → Nat × Nat
  | .fin _ n d => (n, d)
  | _ => (0, 1)

/-- 2^(127 - S) as an exponent. -/
def scaleExp (sc : Nat) : Int := 127 - (sc : Int)

/-- n / d times 2^e exceeds the largest element of a J-format (R34). -/
def exceedsMaxJ (f : Nat) (n d : Nat) (e : Int) : Bool :=
  decide (d * 2 ^ (-e).toNat * ((2 ^ (mBits f + 1) - 1) * 2 ^ (eMaxJ f - mBits f).toNat) < n * 2 ^ e.toNat)

/-- The raw AUTO scale of a finite nonzero amax (R49 step 4). -/
def rawScale (f : Nat) (n d : Nat) : Int :=
  let e := floorLog2 n d - eMaxJ f + 127
  if exceedsMaxJ f n d (127 - e) then e + 1 else e

/-- auto_scale (R49): the scale, or none for an invalid block. -/
def autoScale (f : Nat) (xs : List Val) (sat : Bool) : Option Nat :=
  if xs.contains .nan then none
  else if xs.any (fun v => match v with | .inf _ => true | _ => false) then (if sat then some 0xFE else none)
  else
    let (n, d) := (xs.map magOf).foldl ratMax (0, 1)
    if n = 0 then some 0
    else
      let e := rawScale f n d
      if e < 0 then some 0 else if 254 < e then (if sat then some 0xFE else none) else some e.toNat

/-- One element of a block at scale S (R43, R44, R46, R50): its code, or none when it overflows. -/
def cvtJElem (f sc : Nat) (v : Val) (rm r : Nat) : Option Nat :=
  match scaleVal v (scaleExp sc) with
  | .fin neg n d =>
    let ue := ulpExp f n d
    let k := roundMag neg (n * 2 ^ (-ue).toNat) (d * 2 ^ ue.toNat) rm r
    let code := magCode f k ue
    if code = 0 then some 0 else if ovfCode f ≤ code then none else some (signBit f neg + code)
  | .zero _ => some 0
  | _ => none

/-- The largest element with a sign (R51). -/
def maxJ (f : Nat) (neg : Bool) : Nat := signBit f neg + ovfCode f - 1

/-- The sign of a value. -/
def negOf : Val → Bool
  | .fin neg _ _ => neg
  | .inf neg => neg
  | .zero neg => neg
  | .nan => false

/-- The elements of a block at a scale in use (R50, R51); `rs` are the random bytes. -/
def blockAt (f sc : Nat) (xs : List Val) (rm : Nat) (sat : Bool) (rs : List Nat) : Block :=
  let cs := (xs.zip rs).map (fun (v, r) => (v, cvtJElem f sc v rm r))
  if cs.any (fun c => c.2.isNone) then
    if sat then { scale := sc, codes := cs.map (fun c => c.2.getD (maxJ f (negOf c.1))), sat := true, inv := false }
    else badBlock true
  else { scale := sc, codes := cs.map (fun c => c.2.getD 0), sat := false, inv := false }

/-- Conversion of 32 source elements into a block (R48 to R51, R55): `given` is the scale under GIVEN. -/
def cvtBlock (f : Nat) (xs : List Src) (given : Option Nat) (rm : Nat) (sat : Bool) (rs : List Nat) : Block :=
  let vs := xs.map (fun x => match x with | .val v => v | .invalid => .zero false)
  if xs.contains .invalid then badBlock (vs.contains .nan)
  else match given with
    | some g =>
      if vs.contains .nan then badBlock true
      else if g = 0xFF then badBlock false
      else blockAt f g vs rm sat rs
    | none =>
      match autoScale f vs sat with
      | none => badBlock true
      | some sc => blockAt f sc vs rm sat rs

/-! ### bobbin (R59) -/

/-- rotl32. -/
def rotl32 (w : BitVec 32) (n : Nat) : BitVec 32 := w.rotateLeft n

/-- The round state of bobbin: four words and the two key words. -/
structure Bob where
  x0 : BitVec 32
  x1 : BitVec 32
  x2 : BitVec 32
  x3 : BitVec 32
  u : BitVec 32
  v : BitVec 32
deriving DecidableEq, Repr

/-- One round. -/
def bobRound (b : Bob) : Bob :=
  let x0 := b.x0 + b.u
  let x2 := b.x2 ^^^ b.v
  let x1 := b.x1 + rotl32 x0 5
  let x3 := b.x3 ^^^ rotl32 x1 14
  let x2 := x2 + rotl32 x3 23
  let x0 := x0 ^^^ rotl32 x2 9
  let u := b.u + 0x6C1E58B3#32
  let v := rotl32 b.v 7 ^^^ u
  { x0 := x1, x1 := x2, x2 := x3, x3 := x0, u := u, v := v }

/-- `n` rounds. -/
def bobRounds : Nat → Bob → Bob
  | 0, b => b
  | n + 1, b => bobRounds n (bobRound b)

/-- bobbin(seed, stream, step, ctr): 128 bits, result[31:0] = x0. -/
def bobbin (seed : W64) (stream step : W32) (ctr : W64) : W128 :=
  let b := bobRounds 12
    { x0 := ctr.extractLsb' 0 32, x1 := ctr.extractLsb' 32 32, x2 := step, x3 := stream,
      u := seed.extractLsb' 0 32, v := seed.extractLsb' 32 32 }
  b.x3 ++ (b.x2 ^^^ b.v) ++ b.x1 ++ (b.x0 + b.u)

/-- The random byte of element `e` (R47). -/
def srByte (seed : W64) (stream step : W32) (e : W64) : Nat :=
  ((bobbin seed stream step (e >>> 4)).extractLsb' (8 * (e.toNat % 16)) 8).toNat

end Sys2Proof.Machine
end

