-- ==== Sys2Proof/Machine/Flags.lean ====
section
/-! DEFINITION. Conditions and events: the comparisons of c.cmp and vx.cmp (R132, R172), floating arithmetic with its
special cases and the SAT and INVALID events (R129 to R131), and the sticky event register (R133). -/

namespace Sys2Proof.Machine

/-! ### Comparison -/

/-- The signed rational of a finite value. -/
def valRat : Val → Int × Nat
  | .fin neg n d => (if neg then -(n : Int) else n, d)
  | _ => (0, 1)

/-- Exact order of two values without NaN: a < b; -0 equals +0. -/
def valLt (a b : Val) : Bool :=
  match a, b with
  | .inf na, .inf nb => na && !nb
  | .inf na, _ => na
  | _, .inf nb => !nb
  | a, b => decide ((valRat a).1 * (valRat b).2 < (valRat b).1 * (valRat a).2)

/-- Either operand is NaN. -/
def unordered (a b : Val) : Bool := a == .nan || b == .nan

/-- Quiet comparisons: every one with a NaN gives 0 (R132, R172). -/
def fLt (a b : Val) : Bool := !unordered a b && valLt a b
def fEq (a b : Val) : Bool := !unordered a b && !valLt a b && !valLt b a
def fLe (a b : Val) : Bool := fLt a b || fEq a b

/-- Integer conditions of c.cmp (R172); code 7 is illegal. -/
def intCond (cc : Nat) (a b : W64) : Option Bool :=
  match cc with
  | 0 => some (a == b)
  | 1 => some (a != b)
  | 2 => some (a.slt b)
  | 3 => some (!(a.slt b))
  | 4 => some (a.ult b)
  | 5 => some (!(a.ult b))
  | 6 => some ((a &&& b) != 0)
  | _ => none

/-- Floating conditions of c.cmp (R172); codes 4 to 7 are illegal. -/
def floatCond (cc f : Nat) (a b : W64) : Option Bool :=
  let x := decVal f a.toNat
  let y := decVal f b.toNat
  match cc with
  | 0 => some (fEq x y)
  | 1 => some (!(fEq x y))
  | 2 => some (fLt x y)
  | 3 => some (fLe y x)
  | _ => none

/-- The condition of c.cmp, from FN (R172): CC in [2:0], operand kind in [4:3], [7:5] zero. -/
def cmpCond (fn : BitVec 8) (a b : W64) : Option Bool :=
  if bits fn.toNat 7 5 ≠ 0 then none
  else match bits fn.toNat 4 3 with
    | 0 => intCond (bits fn.toNat 2 0) a b
    | 1 => floatCond (bits fn.toNat 2 0) 6 a b
    | 2 => floatCond (bits fn.toNat 2 0) 7 a b
    | _ => none

/-! ### Floating arithmetic -/

/-- What an operation yields before rounding (R130, R131). -/
inductive Res where
  | nan
  | nanNew
  | inf (neg : Bool)
  | infNew (neg : Bool)
  | val (v : Val)
deriving DecidableEq, Repr

/-- The rounded result of an operation with its events (R129, R131). -/
def finish (f : Nat) (r : Res) (rm : Nat) (sat : Bool) : Cv :=
  match r with
  | .nan => cvOk (canonNaN f)
  | .nanNew => { bits := canonNaN f, sat := false, inv := true }
  | .inf neg => cvOk (signBit f neg + infCode f)
  | .infNew neg =>
    if sat then { bits := signBit f neg + infCode f - 1, sat := true, inv := false }
    else { bits := signBit f neg + infCode f, sat := false, inv := true }
  | .val v => cvtVal f v rm sat 0

/-- Exact sum (IEEE 754): the sign of an exact zero is + except under RDN. -/
def addVal (rm : Nat) (a b : Val) : Res :=
  match a, b with
  | .nan, _ => .nan
  | _, .nan => .nan
  | .inf x, .inf y => if x = y then .inf x else .nanNew
  | .inf x, _ => .inf x
  | _, .inf y => .inf y
  | .zero x, .zero y => .val (.zero (if x = y then x else rm == rmRDN))
  | .zero _, v => .val v
  | v, .zero _ => .val v
  | a, b =>
    let (i, d) := valRat a
    let (j, e) := valRat b
    .val (ofRat (rm == rmRDN) (i * e + j * d) (d * e))

/-- A value with its sign inverted. -/
def negVal : Val → Val
  | .nan => .nan
  | .inf n => .inf (!n)
  | .zero n => .zero (!n)
  | .fin n a d => .fin (!n) a d

/-- Exact product (IEEE 754). -/
def mulVal (a b : Val) : Res :=
  match a, b with
  | .nan, _ => .nan
  | _, .nan => .nan
  | .inf _, .zero _ => .nanNew
  | .zero _, .inf _ => .nanNew
  | .inf x, b => .inf (x != negOf b)
  | a, .inf y => .inf (negOf a != y)
  | .zero x, b => .val (.zero (x != negOf b))
  | a, .zero y => .val (.zero (negOf a != y))
  | .fin x n d, .fin y m e => .val (.fin (x != y) (n * m) (d * e))

/-- Exact quotient (IEEE 754, R131). -/
def divVal (a b : Val) : Res :=
  match a, b with
  | .nan, _ => .nan
  | _, .nan => .nan
  | .inf _, .inf _ => .nanNew
  | .zero _, .zero _ => .nanNew
  | .inf x, b => .inf (x != negOf b)
  | a, .inf y => .val (.zero (negOf a != y))
  | .zero x, b => .val (.zero (x != negOf b))
  | .fin x _ _, .zero y => .infNew (x != y)
  | .fin x n d, .fin y m e => .val (.fin (x != y) (n * e) (d * m))

/-- a * b + c, rounded once (R129); 0 times infinity is invalid even with a NaN addend (R130). -/
def fmaVal (rm : Nat) (a b c : Val) : Res :=
  match mulVal a b with
  | .nanNew => .nanNew
  | .nan => .nan
  | .inf x => addVal rm (.inf x) c
  | .infNew x => addVal rm (.inf x) c
  | .val v => addVal rm v c

/-- IEEE 754-2019 minimum and maximum (R130): NaN wins, -0 below +0. -/
def minVal (a b : Val) : Val :=
  if unordered a b then .nan
  else match a, b with
    | .zero x, .zero y => .zero (x || y)
    | a, b => if valLt b a then b else a
def maxVal (a b : Val) : Val :=
  if unordered a b then .nan
  else match a, b with
    | .zero x, .zero y => .zero (x && y)
    | a, b => if valLt a b then b else a

/-- The magnitude of a value. -/
def absVal : Val → Val
  | .nan => .nan
  | .inf _ => .inf false
  | .zero _ => .zero false
  | .fin _ n d => .fin false n d

/-! ### Correctly rounded functions (R129) -/

/-- a * 2^e <= b. -/
def leShift (a : Nat) (e : Int) (b : Nat) : Bool := decide (a * 2 ^ e.toNat ≤ b * 2 ^ (-e).toNat)

/-- The largest number below 2^n that a downward-closed test accepts, by its bits. -/
def searchTop (ge : Nat → Bool) : Nat → Nat → Nat
  | 0, acc => acc
  | b + 1, acc => if ge (acc + 2 ^ b) then searchTop ge b (acc + 2 ^ b) else searchTop ge b acc

/-- Rounding of a positive value known by its order to half ulps: `ge h` says that it is at least h half ulps, `exact h`
that it is exactly h of them. -/
def roundHalf (f : Nat) (neg : Bool) (ue : Int) (ge exact : Nat → Bool) (rm : Nat) (sat : Bool) : Cv :=
  let h := searchTop ge (mBits f + 3) 0
  let k := h / 2
  let whole := h % 2 == 0 && exact h
  let up :=
    if rm = rmRNE then h % 2 == 1 && (!exact h || k % 2 == 1)
    else if rm = rmRUP then !neg && !whole
    else if rm = rmRDN then neg && !whole
    else false
  packIEEE f neg (magCode f (if up then k + 1 else k) ue) rm sat

/-- Square root of n / d. -/
def sqrtCv (f n d rm : Nat) (sat : Bool) : Cv :=
  let ue := max (floorLog2 n d / 2) (eMin f) - mBits f
  roundHalf f false ue (fun h => leShift (h * h * d) (2 * ue - 2) n)
    (fun h => leShift (h * h * d) (2 * ue - 2) n && leShift n (2 - 2 * ue) (h * h * d)) rm sat

/-- The fixed-point precision of the transcendental functions: far below every rounding boundary of R39's formats that
their irrational values come near. -/
def fixP : Nat := 1536

/-- z + z^3/3 + z^5/5 + ..., in fixed point: `n` terms from exponent 2k + 1 with power `p`. -/
def atanhLoop (z2 : Nat) : Nat → Nat → Nat → Nat → Nat
  | 0, _, _, acc => acc
  | n + 1, k, p, acc => atanhLoop z2 n (k + 1) (p * z2 / 2 ^ fixP) (acc + p / (2 * k + 1))

/-- atanh of z in fixed point, for z at most 1/3. -/
def atanhFix (z : Nat) : Nat := atanhLoop (z * z / 2 ^ fixP) 500 0 z 0

/-- ln 2 in fixed point: 2 atanh(1/3). -/
def ln2Fix : Nat := 2 * atanhFix (2 ^ fixP / 3)

/-- 1 + y + y^2/2! + ..., in fixed point. -/
def expLoop (y : Nat) : Nat → Nat → Nat → Nat → Nat
  | 0, _, _, acc => acc
  | n + 1, k, t, acc => expLoop y n (k + 1) (t * y / (2 ^ fixP * k)) (acc + t)

/-- 2^fr in fixed point for 0 <= fr < 1. -/
def exp2Fix (fr : Nat) : Nat := expLoop (fr * ln2Fix / 2 ^ fixP) 320 1 (2 ^ fixP) 0

/-- 2^x for a finite nonzero x = n / d with its sign (R129, R130). -/
def exp2Cv (f : Nat) (neg : Bool) (n d rm : Nat) (sat : Bool) : Cv :=
  let i : Int := if neg then -(((n + d - 1) / d : Nat) : Int) else ((n / d : Nat) : Int)
  let fr := (if neg then ((n + d - 1) / d) * d - n else n % d) * 2 ^ fixP / d
  if 1024 ≤ i then ovfIEEE f false rm sat
  else
    let ue := max i (eMin f) - mBits f
    if i < eMin f - mBits f - 2 then roundHalf f false ue (fun _ => false) (fun _ => false) rm sat
    else
      let e := if fr = 0 then 2 ^ fixP else exp2Fix fr
      let sh : Int := ue - 1 - i + fixP
      roundHalf f false ue (fun h => leShift h sh e)
        (fun h => decide (fr = 0) && leShift h sh e && leShift e (-sh) h) rm sat

/-- log2 of a positive finite n / d, in fixed point: the exponent and the fraction. -/
def log2Fix (n d : Nat) : Int :=
  let e := floorLog2 n d
  let a := n * 2 ^ (-e).toNat
  let b := d * 2 ^ e.toNat
  let l := if a = b then 0 else 2 * atanhFix ((a - b) * 2 ^ fixP / (a + b)) * 2 ^ fixP / ln2Fix
  e * (2 ^ fixP : Nat) + l

/-- log2 of a positive finite n / d (R129, R130). -/
def log2Cv (f n d rm : Nat) (sat : Bool) : Cv :=
  let e := floorLog2 n d
  let v := log2Fix n d
  if v = 0 then cvOk 0
  else
    let neg := decide (v < 0)
    let a := v.natAbs
    let ue := max ((Nat.log2 a : Int) - fixP) (eMin f) - mBits f
    let pow2 := n * 2 ^ (-e).toNat == d * 2 ^ e.toNat
    let sh : Int := ue - 1 + fixP
    roundHalf f neg ue (fun h => leShift h sh a) (fun h => pow2 && leShift h sh a && leShift a (-sh) h) rm sat

/-- vx.sqrt with its special cases (R130). -/
def sqrtOp (f : Nat) (v : Val) (rm : Nat) (sat : Bool) : Cv :=
  match v with
  | .nan => finish f .nan rm sat
  | .inf neg => finish f (if neg then .nanNew else .inf false) rm sat
  | .zero neg => cvOk (signBit f neg)
  | .fin true _ _ => finish f .nanNew rm sat
  | .fin false n d => sqrtCv f n d rm sat

/-- vx.rcp (R130). -/
def rcpOp (f : Nat) (v : Val) (rm : Nat) (sat : Bool) : Cv :=
  match v with
  | .nan => finish f .nan rm sat
  | .inf neg => cvOk (signBit f neg)
  | .zero neg => finish f (.infNew neg) rm sat
  | .fin neg n d => finish f (.val (.fin neg d n)) rm sat

/-- vx.rsqrt (R130). -/
def rsqrtOp (f : Nat) (v : Val) (rm : Nat) (sat : Bool) : Cv :=
  match v with
  | .nan => finish f .nan rm sat
  | .inf neg => if neg then finish f .nanNew rm sat else cvOk 0
  | .zero neg => finish f (.infNew neg) rm sat
  | .fin true _ _ => finish f .nanNew rm sat
  | .fin false n d => sqrtCv f d n rm sat

/-- vx.exp2 (R130). -/
def exp2Op (f : Nat) (v : Val) (rm : Nat) (sat : Bool) : Cv :=
  match v with
  | .nan => finish f .nan rm sat
  | .inf neg => if neg then cvOk 0 else finish f (.inf false) rm sat
  | .zero _ => finish f (.val (.fin false 1 1)) rm sat
  | .fin neg n d => exp2Cv f neg n d rm sat

/-- vx.log2 (R130). -/
def log2Op (f : Nat) (v : Val) (rm : Nat) (sat : Bool) : Cv :=
  match v with
  | .nan => finish f .nan rm sat
  | .inf neg => finish f (if neg then .nanNew else .inf false) rm sat
  | .zero _ => finish f (.infNew true) rm sat
  | .fin true _ _ => finish f .nanNew rm sat
  | .fin false n d => log2Cv f n d rm sat

/-! ### Events -/

/-- The sticky events of a vx instruction (R58, R133). -/
def raiseEvents (s : State) (t : Tile) (sat inv : Bool) : State :=
  let s := if sat then wr s (vxPg t) vx_EVENT_SAT 1 else s
  if inv then wr s (vxPg t) vx_EVENT_INVALID 1 else s

end Sys2Proof.Machine
end

