-- ==== Sys2Proof/Machine/Grid.lean ====
section
/-! DEFINITION. Grid accumulation (chapter "Grid Accumulation: Hem, Tally and Exact Sums"): grid words, terms, additions,
overflow and the starting hem; and the containers of tile registers and vector registers (R91 to R93, R124). A grid word
is one number with TALLY above VALUE; `lay` is 0 for GR128 and 1 for GR64 (R119). -/

namespace Sys2Proof.Machine

/-- Bits of VALUE (R61, R82). -/
def gValW (lay : Nat) : Nat := if lay = 0 then 96 else 48
/-- The invalid TALLY (R61, R82). -/
def gBad (lay : Nat) : Nat := if lay = 0 then 0xFFFFFFFF else 0xFFFF
/-- The saturation limit of a valid TALLY (R61, R82). -/
def gMax (lay : Nat) : Nat := gBad lay - 1
/-- The tally unit is 2^(hem + gUnit) (R61, R82). -/
def gUnit (lay : Nat) : Nat := if lay = 0 then 64 else 32
/-- The overflow threshold (R71, R82). -/
def gThr (lay : Nat) : Nat := if lay = 0 then 2 ^ 31 else 2 ^ 15
/-- Bytes of a word in memory (R66, R82). -/
def gBytes (lay : Nat) : Nat := if lay = 0 then 16 else 8
/-- w of hem_start (R75, R82). -/
def gW (lay : Nat) : Nat := if lay = 0 then 95 else 47

/-- TALLY of a word. -/
def gTally (lay w : Nat) : Nat := w / 2 ^ gValW lay % (gBad lay + 1)
/-- VALUE of a word, unsigned. -/
def gVal (lay w : Nat) : Nat := w % 2 ^ gValW lay
/-- A word from its parts. -/
def gMk (lay tally value : Nat) : Nat := tally * 2 ^ gValW lay + value
/-- INVALID_GR (R65, R82). -/
def gInvalid (lay : Nat) : Nat := gMk lay (gBad lay) (2 ^ (gValW lay - 1))

/-- grid_add (R69). -/
def gridAdd (lay x y : Nat) : Nat :=
  if gTally lay x = gBad lay ∨ gTally lay y = gBad lay then gInvalid lay
  else gMk lay (min (gTally lay x + gTally lay y) (gMax lay)) ((gVal lay x + gVal lay y) % 2 ^ gValW lay)

/-- grid_term (R68, R82): the contribution of an exact term. -/
def gridTerm (lay : Nat) (hem : Int) (v : Val) : Nat :=
  match v with
  | .nan => gInvalid lay
  | .inf _ => gInvalid lay
  | .zero _ => 0
  | .fin neg n d =>
    let a := n * 2 ^ (-hem).toNat
    let b := d * 2 ^ hem.toNat
    let k := roundNearest a b
    let i : Int := if neg then -(k : Int) else k
    let u := b * 2 ^ gUnit lay
    gMk lay (min ((a + u - 1) / u) (gMax lay)) (encInt (gValW lay) i)

/-- A hem field as an integer (R62). -/
def hemInt (h : Nat) : Int := signed 16 h

/-- The exact value of a valid word (R87); none for an invalid one. -/
def gridValue (lay : Nat) (hem : Int) (w : Nat) : Option Val :=
  if gTally lay w = gBad lay then none else some (ofIntExp (signed (gValW lay) (gVal lay w)) hem)

/-- A group overflows (R71): some valid word has TALLY at the threshold. -/
def gridOver (lay w : Nat) : Bool := gTally lay w != gBad lay && decide (gThr lay ≤ gTally lay w)

/-- ceil(log2 k) for k >= 1. -/
def ceilLog2 (k : Nat) : Nat := if 2 ^ Nat.log2 k = k then Nat.log2 k else Nat.log2 k + 1

/-- The exponent input of hem_start from a binary32 estimate (R75): zero gives -149; non-finite is taken as 2^128. -/
def amaxExp (x : Nat) : Int :=
  match decVal 6 x with
  | .zero _ => -149
  | .fin _ n d => floorLog2 n d + 1
  | _ => 129

/-- hem_start (R75) from the two exponents. -/
def hemStart (ea eb : Int) (k : Nat) (h : Int) (lay : Nat) : Int :=
  min (max (ea + eb + ceilLog2 (if k = 0 then 1 else k) - gW lay + h) (-32768)) 0x7FBF

/-- What a close decides (R71, R72): done, raise or exhausted, with the HEM and ATTEMPT that follow. -/
def gridDecide (ovf : Bool) (hem attempt : Nat) : DecKind × Nat × Nat :=
  if ¬ ovf then (.done, hem, attempt)
  else if attempt < 4 ∧ hemInt hem + 16 ≤ 0x7FFF then (.raise, (hem + 16) % 65536, attempt + 1)
  else (.exhausted, hem, attempt)

/-! ### Tile registers -/

/-- Container width in a cell (R91). -/
def contW (f : Nat) : Nat := if f = 1 then 8 else if f = 4 then 16 else fmtW f

/-- K-vector length (R91). -/
def kLen (f : Nat) : Nat := 64 * 32 / contW f

/-- Blocks per K-vector of a J-format (R91). -/
def kBlocks (f : Nat) : Nat := kLen f / 32

/-- The cell of tile register m at row r, column c (R90). -/
def cellKey (m r c : Nat) : Nat := 4096 * m + 64 * r + c

/-- The cell that holds container `q` of K-vector i (R92). -/
def kCell (m bdir i q : Nat) : Nat := if bdir = 0 then cellKey m i q else cellKey m q i

/-- Element k of K-vector i (R92): its container's bits. -/
def kElem (cells : SMap W32) (m f bdir i k : Nat) : Nat :=
  let w := contW f
  if w = 64 then
    (smGet (fun _ => 0) cells (cellKey m i (2 * k))).toNat + 2 ^ 32 * (smGet (fun _ => 0) cells (cellKey m i (2 * k + 1))).toNat
  else
    let c := 32 / w
    bits (smGet (fun _ => 0) cells (kCell m bdir i (k / c))).toNat (w * (k % c + 1) - 1) (w * (k % c)) % 2 ^ fmtW f

/-- Pack containers into words of 32 bits, lowest first. -/
def packCells (w : Nat) (es : List Nat) : List Nat :=
  let c := 32 / w
  (List.range ((es.length + c - 1) / c)).map (fun q =>
    leCat w ((es.drop (q * c)).take c))
where
  /-- Containers side by side. -/
  leCat (w : Nat) : List Nat → Nat
    | [] => 0
    | e :: es => e % 2 ^ w + 2 ^ w * leCat w es

/-- The cell words of one K-vector (R91, R92). -/
def kWords (f : Nat) (es : List Nat) : List Nat :=
  if contW f = 64 then es.flatMap (fun e => [e % 2 ^ 32, e / 2 ^ 32 % 2 ^ 32]) else packCells (contW f) es

/-- Set one cell. -/
def putCell (cells : SMap W32) (key v : Nat) : SMap W32 := smPut (fun _ => 0) cells key (BitVec.ofNat 32 v)

/-- Set one scale byte. -/
def putScl (scl : SMap Byte) (key v : Nat) : SMap Byte := smPut (fun _ => 0) scl key (BitVec.ofNat 8 v)

/-- Set numbered entries from a list. -/
def putList {α : Type} (put : α → Nat → Nat → α) (key : Nat → Nat) (x : α) (vs : List Nat) : α :=
  (vs.zipIdx).foldl (fun x (v, q) => put x (key q) v) x

/-- Write K-vector i of register m: its cells (R92). -/
def setKVec (ts : TileSt) (m f bdir i : Nat) (es : List Nat) : TileSt :=
  { ts with treg := putList putCell (kCell m bdir i) ts.treg (kWords f es) }

/-- Write the scale bytes of K-vector i, zero beyond its blocks (R93). -/
def setKScl (ts : TileSt) (m i : Nat) (ss : List Nat) : TileSt :=
  { ts with scl := putList putScl (fun b => 1024 * m + 16 * i + b) ts.scl ((ss ++ List.replicate 16 0).take 16) }

/-- The scale of block b of K-vector i (R93). -/
def kScl (scl : SMap Byte) (m i b : Nat) : Nat := (smGet (fun _ => 0) scl (1024 * m + 16 * i + b)).toNat

/-- Element k of K-vector i of a J-format register as a source: its value, or an element of an invalid block (R33, R36). -/
def kSrc (cells : SMap W32) (scl : SMap Byte) (m f bdir i k : Nat) : Src :=
  let sc := kScl scl m i (k / 32)
  if sc = 0xFF then .invalid else .val (scaleVal (decJ f (kElem cells m f bdir i k)) (sc - 127))

/-- Element k of K-vector i of a register of any format as a source. -/
def kAny (cells : SMap W32) (scl : SMap Byte) (m f bdir i k : Nat) : Src :=
  if isJ f then kSrc cells scl m f bdir i k else .val (decVal f (kElem cells m f bdir i k))

/-- Elements of a K-vector as memory bytes: packed at their width (R37, R38), zero to the byte. -/
def packBytes (f : Nat) (es : List Nat) : List Byte :=
  leBytes (es.length * fmtW f / 8) (packCells.leCat (fmtW f) es)

/-- The elements of memory bytes (R37, R38). -/
def unpackBytes (f n : Nat) (bs : List Byte) : List Nat :=
  let v := leNat bs
  (List.range n).map (fun i => bits v (fmtW f * (i + 1) - 1) (fmtW f * i))

/-! ### Vector registers -/

/-- Elements of one vector register (R124). -/
def vCount (f : Nat) : Nat := 4096 / fmtW f

/-- A vector register. -/
def TileSt.readV (ts : TileSt) (v : BitVec 4) : BitVec 4096 := smGet (fun _ => 0) ts.v v.toNat

/-- Write a vector register. -/
def TileSt.writeV (ts : TileSt) (v : BitVec 4) (x : BitVec 4096) : TileSt :=
  { ts with v := smPut (fun _ => 0) ts.v v.toNat x }

/-- Element e of a register in format f (R124). -/
def vElem (x : BitVec 4096) (f e : Nat) : Nat := bits x.toNat (fmtW f * (e + 1) - 1) (fmtW f * e)

/-- Every element in format f. -/
def vElems (x : BitVec 4096) (f : Nat) : List Nat := (List.range (vCount f)).map (vElem x f)

/-- A register from its elements (R124). -/
def vPack (f : Nat) (es : List Nat) : BitVec 4096 := BitVec.ofNat 4096 (packCells.leCat (fmtW f) es)

/-- Summary register u (R155, R160). -/
def readU (s : State) (t : Tile) (u : Nat) : Nat := rdi s (vxPg t) vx_U_LO u + 2 ^ 32 * rdi s (vxPg t) vx_U_HI u

/-- Write a summary register. -/
def writeU (s : State) (t : Tile) (u : Nat) (v : Nat) : State :=
  wri (wri s (vxPg t) vx_U_LO u v) (vxPg t) vx_U_HI u (v / 2 ^ 32)

/-! ### Accumulators -/

/-- Word i of accumulator n. -/
def TileSt.readAcc (ts : TileSt) (n i : Nat) : Nat := (smGet (fun _ => 0) ts.acc (4096 * n + i)).toNat

/-- Write a word. -/
def TileSt.writeAcc (ts : TileSt) (n i w : Nat) : TileSt :=
  { ts with acc := smPut (fun _ => 0) ts.acc (4096 * n + i) (BitVec.ofNat 128 w) }

/-- Every word zero (R72, R106). -/
def TileSt.zeroAcc (ts : TileSt) (n : Nat) : TileSt := { ts with acc := smDrop ts.acc (fun k => k / 4096 == n) }

/-- Every word the same. -/
def TileSt.fillAcc (ts : TileSt) (n w : Nat) : TileSt :=
  { ts with acc := ((smDrop ts.acc (fun k => k / 4096 == n)).filter (fun c => c.1 / 4096 < n))
      ++ (if w = 0 then [] else (List.range 4096).map (fun i => (4096 * n + i, BitVec.ofNat 128 w)))
      ++ ((smDrop ts.acc (fun k => k / 4096 == n)).filter (fun c => n < c.1 / 4096)) }

/-- The words that are listed: every other word is 0 and can neither overflow nor be invalid. -/
def TileSt.accWords (ts : TileSt) (n : Nat) : List Nat := (ts.acc.filter (fun c => c.1 / 4096 == n)).map (fun c => c.2.toNat)

/-- Fields of MX_ACCn_CTL and MX_ACCn_GRP (R123). -/
def accState (s : State) (t : Tile) (n : Nat) : Nat := rdi s (mxPg t) mx_ACC_STATE n
def accLay (s : State) (t : Tile) (n : Nat) : Nat := rdi s (mxPg t) mx_ACC_CTL_LAYOUT n
def accScope (s : State) (t : Tile) (n : Nat) : Nat := rdi s (mxPg t) mx_ACC_CTL_SCOPE n
def accAttempt (s : State) (t : Tile) (n : Nat) : Nat := rdi s (mxPg t) mx_ACC_CTL_ATTEMPT n
def accHem (s : State) (t : Tile) (n : Nat) : Nat := rdi s (mxPg t) mx_ACC_CTL_HEM n
def accGroup (s : State) (t : Tile) (n : Nat) : Nat := rdi s (mxPg t) mx_ACC_GRP_GROUP_ID n
def accDecKind (s : State) (t : Tile) (n : Nat) : Nat := rdi s (mxPg t) mx_ACC_GRP_DEC_KIND n
def setAccState (s : State) (t : Tile) (n v : Nat) : State := wri s (mxPg t) mx_ACC_STATE n v
def setAccHem (s : State) (t : Tile) (n v : Nat) : State := wri s (mxPg t) mx_ACC_CTL_HEM n v
def setAccAttempt (s : State) (t : Tile) (n v : Nat) : State := wri s (mxPg t) mx_ACC_CTL_ATTEMPT n v
/-- States of an accumulator (R123). -/
def accIdle : Nat := 0
def accOpen : Nat := 1
def accClosing : Nat := 2
def accDone : Nat := 3

/-- Discard a latched decision (R105, R106). -/
def clearDec (s : State) (t : Tile) (n : Nat) : State :=
  let s := wri (wri s (mxPg t) mx_ACC_GRP_DEC_KIND n 0) (mxPg t) mx_ACC_GRP_DEC_ATTEMPT n 0
  s.modTile t (fun ts => { ts with decHem := smPut (fun _ => 0) ts.decHem n 0 })

/-- DEC_KIND of a decision (R123). -/
def decCode : DecKind → Nat
  | .done => 1
  | .raise => 2
  | .exhausted => 3

/-- Tag of a tile register (R90, R123). -/
def tagFmt (s : State) (t : Tile) (m : Nat) : Nat := rdi s (mxPg t) mx_TAG_FMT m
def tagBdir (s : State) (t : Tile) (m : Nat) : Nat := rdi s (mxPg t) mx_TAG_BDIR m
def setTag (s : State) (t : Tile) (m f bdir : Nat) : State :=
  wri (wri s (mxPg t) mx_TAG_FMT m f) (mxPg t) mx_TAG_BDIR m bdir

/-- Add a word to word i of accumulator n (R69). -/
def accAdd (ts : TileSt) (lay n i w : Nat) : TileSt := ts.writeAcc n i (gridAdd lay (ts.readAcc n i) w)

/-- Every word of accumulator n invalid (R72). -/
def accInvalidate (s : State) (t : Tile) (n : Nat) : State :=
  s.modTile t (fun ts => ts.fillAcc n (gInvalid (accLay s t n)))

/-- The group of accumulator n overflows (R71, R82). -/
def accOver (s : State) (t : Tile) (n : Nat) : Bool := ((s.tile t).accWords n).any (gridOver (accLay s t n))

end Sys2Proof.Machine
end

