-- ==== Sys2Proof/Machine/Crypto.lean ====
section
/-! DEFINITION. SHA-512 (R222, R290, R412, R490, R530): the manual names the standard, FIPS 180-4, and does not restate
it. Words are numbers below 2^64. -/

namespace Sys2Proof

/-- The first sixty-four bits of the fractions of the cube roots of the first forty primes. -/
def shaKLow : List Nat :=
  [0x428A2F98D728AE22, 0x7137449123EF65CD, 0xB5C0FBCFEC4D3B2F, 0xE9B5DBA58189DBBC,
   0x3956C25BF348B538, 0x59F111F1B605D019, 0x923F82A4AF194F9B, 0xAB1C5ED5DA6D8118,
   0xD807AA98A3030242, 0x12835B0145706FBE, 0x243185BE4EE4B28C, 0x550C7DC3D5FFB4E2,
   0x72BE5D74F27B896F, 0x80DEB1FE3B1696B1, 0x9BDC06A725C71235, 0xC19BF174CF692694,
   0xE49B69C19EF14AD2, 0xEFBE4786384F25E3, 0x0FC19DC68B8CD5B5, 0x240CA1CC77AC9C65,
   0x2DE92C6F592B0275, 0x4A7484AA6EA6E483, 0x5CB0A9DCBD41FBD4, 0x76F988DA831153B5,
   0x983E5152EE66DFAB, 0xA831C66D2DB43210, 0xB00327C898FB213F, 0xBF597FC7BEEF0EE4,
   0xC6E00BF33DA88FC2, 0xD5A79147930AA725, 0x06CA6351E003826F, 0x142929670A0E6E70,
   0x27B70A8546D22FFC, 0x2E1B21385C26C926, 0x4D2C6DFC5AC42AED, 0x53380D139D95B3DF,
   0x650A73548BAF63DE, 0x766A0ABB3C77B2A8, 0x81C2C92E47EDAEE6, 0x92722C851482353B]

/-- The same of the next forty. -/
def shaKHigh : List Nat :=
  [0xA2BFE8A14CF10364, 0xA81A664BBC423001, 0xC24B8B70D0F89791, 0xC76C51A30654BE30,
   0xD192E819D6EF5218, 0xD69906245565A910, 0xF40E35855771202A, 0x106AA07032BBD1B8,
   0x19A4C116B8D2D0C8, 0x1E376C085141AB53, 0x2748774CDF8EEB99, 0x34B0BCB5E19B48A8,
   0x391C0CB3C5C95A63, 0x4ED8AA4AE3418ACB, 0x5B9CCA4F7763E373, 0x682E6FF3D6B2B8A3,
   0x748F82EE5DEFB2FC, 0x78A5636F43172F60, 0x84C87814A1F0AB72, 0x8CC702081A6439EC,
   0x90BEFFFA23631E28, 0xA4506CEBDE82BDE9, 0xBEF9A3F7B2C67915, 0xC67178F2E372532B,
   0xCA273ECEEA26619C, 0xD186B8C721C0C207, 0xEADA7DD6CDE0EB1E, 0xF57D4F7FEE6ED178,
   0x06F067AA72176FBA, 0x0A637DC5A2C898A6, 0x113F9804BEF90DAE, 0x1B710B35131C471B,
   0x28DB77F523047D84, 0x32CAAB7B40C72493, 0x3C9EBE0A15C9BEBC, 0x431D67C49C100D4C,
   0x4CC5D4BECB3E42B6, 0x597F299CFC657E2A, 0x5FCB6FAB3AD6FAEC, 0x6C44198C4A475817]

/-- A word turned right by `n`. -/
def rotr64 (x n : Nat) : Nat := (x >>> n) ||| ((x <<< (64 - n)) % 2 ^ 64)

/-- The eight words that a block changes. -/
structure Sha where
  a : Nat
  b : Nat
  c : Nat
  d : Nat
  e : Nat
  f : Nat
  g : Nat
  h : Nat
deriving DecidableEq, Repr

/-- The initial words: the fractions of the square roots of the first eight primes. -/
def Sha.start : Sha :=
  { a := 0x6A09E667F3BCC908, b := 0xBB67AE8584CAA73B,
    c := 0x3C6EF372FE94F82B, d := 0xA54FF53A5F1D36F1,
    e := 0x510E527FADE682D1, f := 0x9B05688C2B3E6C1F,
    g := 0x1F83D9ABFB41BD6B, h := 0x5BE0CD19137E2179 }

/-- The word that the schedule adds behind sixteen words, the oldest first. -/
def shaNext (w : List Nat) : Nat :=
  let x := w.getD 1 0
  let y := w.getD 14 0
  ((rotr64 y 19 ^^^ rotr64 y 61 ^^^ (y >>> 6)) + w.getD 9 0 + (rotr64 x 1 ^^^ rotr64 x 8 ^^^ (x >>> 7)) + w.getD 0 0) % 2 ^ 64

/-- One round with constant `k` and the next word of the schedule. -/
def shaRound (r : Sha × List Nat) (k : Nat) : Sha × List Nat :=
  let s := r.1
  let t := s.h + (rotr64 s.e 14 ^^^ rotr64 s.e 18 ^^^ rotr64 s.e 41) + ((s.e &&& s.f) ^^^ ((2 ^ 64 - 1 - s.e) &&& s.g)) + k + r.2.getD 0 0
  let u := (rotr64 s.a 28 ^^^ rotr64 s.a 34 ^^^ rotr64 s.a 39) + ((s.a &&& s.b) ^^^ (s.a &&& s.c) ^^^ (s.b &&& s.c))
  ({ a := (t + u) % 2 ^ 64, b := s.a, c := s.b, d := s.c, e := (s.d + t) % 2 ^ 64, f := s.e, g := s.f, h := s.g },
   r.2.drop 1 ++ [shaNext r.2])

/-- The sum of two sets of words. -/
def Sha.add (x y : Sha) : Sha :=
  { a := (x.a + y.a) % 2 ^ 64, b := (x.b + y.b) % 2 ^ 64, c := (x.c + y.c) % 2 ^ 64, d := (x.d + y.d) % 2 ^ 64,
    e := (x.e + y.e) % 2 ^ 64, f := (x.f + y.f) % 2 ^ 64, g := (x.g + y.g) % 2 ^ 64, h := (x.h + y.h) % 2 ^ 64 }

/-- A number from bytes, most significant byte first. -/
def beNum (bs : List Byte) : Nat := bs.foldl (fun n b => n * 256 + b.toNat) 0

/-- One block of 128 bytes. -/
def shaBlock (x : Sha) (bs : List Byte) : Sha :=
  x.add ((shaKLow ++ shaKHigh).foldl shaRound (x, (List.range 16).map (fun i => beNum ((bs.drop (8 * i)).take 8)))).1

/-- `n` blocks. -/
def shaBlocks : Nat → Sha → List Byte → Sha
  | 0, x, _ => x
  | n + 1, x, bs => shaBlocks n (shaBlock x (bs.take 128)) (bs.drop 128)

/-- The bytes with the padding of the standard: 0x80, zeros, and the length in bits as 16 bytes. -/
def shaPad (bs : List Byte) : List Byte :=
  bs ++ (0x80 : Byte) :: List.replicate ((239 - bs.length % 128) % 128) 0 ++ (leBytes 16 (8 * bs.length)).reverse

/-- SHA-512 as 64 bytes in the order of the standard, most significant first. -/
@[irreducible] def digestBytes (bs : List Byte) : List Byte :=
  let p := shaPad bs
  let x := shaBlocks (p.length / 128) Sha.start p
  ([x.a, x.b, x.c, x.d, x.e, x.f, x.g, x.h].map (fun w => (leBytes 8 w).reverse)).flatten

/-! ### RSASSA-PSS (R523; RFC 8017 with SHA-512, a salt of 64 bytes and public exponent 65,537) -/

/-- `n` squarings modulo `m`. -/
def sqMod (m : Nat) : Nat → Nat → Nat
  | 0, x => x
  | n + 1, x => sqMod m n (x * x % m)

/-- The number that a signature representative opens to: its 65,537th power modulo the key. -/
def rsaOpen (m x : Nat) : Nat := sqMod m 16 x * x % m

/-- The mask of 447 bytes that MGF1 makes of a seed. -/
def pssMask (seed : List Byte) : List Byte :=
  ((List.range 7).flatMap (fun c => digestBytes (seed ++ (leBytes 4 c).reverse))).take 447

/-- The data block of an encoded message: unmasked, its first bit cleared. -/
def pssBlock (em : List Byte) : List Byte :=
  match ((em.take 447).zip (pssMask ((em.drop 447).take 64))).map (fun x => x.1 ^^^ x.2) with
  | [] => []
  | b :: bs => (b &&& 0x7F#8) :: bs

/-- The encoded message `em` is one of the message `msg`. -/
def pssEncodes (em msg : List Byte) : Bool :=
  let db := pssBlock em
  em.getD 511 0 == 0xBC#8 && decide ((em.getD 0 0).toNat < 128) && (db.take 382).all (· == 0) && db.getD 382 0 == 1#8
    && digestBytes (List.replicate 8 0 ++ digestBytes msg ++ db.drop 383) == (em.drop 447).take 64

/-- `sig` is a signature over `msg` by the key `key`: the modulus of 4,096 bits as 512 bytes, most significant first
(log entry 170). -/
def pssVerify (key msg sig : List Byte) : Bool :=
  key.length == 512 && sig.length == 512 && decide (2 ^ 4095 ≤ beNum key) && decide (beNum sig < beNum key)
    && pssEncodes (leBytes 512 (rsaOpen (beNum key) (beNum sig))).reverse msg

/-- The check of a signed object (R523): the SHA-512 of its key is the hash that the device holds, and then the signature
verifies. -/
def signedBy (held key msg sig : List Byte) : Bool := digestBytes key == held && pssVerify key msg sig

end Sys2Proof
end

