-- ==== Sys2Proof/Machine/Log.lean ====
section
/-! DEFINITION. The logbook (chapter "The Logbook"): the record, its acceptance, the mirror, the operating-time store and
the page that reads the ring; and the repair log of module flash (R488). -/

namespace Sys2Proof.Machine

/-! ### CRC-32 (IEEE 802.3, R464, R488) -/

/-- One bit of the reflected CRC-32. -/
def crcBit (c : W32) : W32 := if c.getLsbD 0 then (c >>> 1) ^^^ 0xEDB88320#32 else c >>> 1

/-- One byte. -/
def crcByte (c : W32) (b : Byte) : W32 :=
  crcBit (crcBit (crcBit (crcBit (crcBit (crcBit (crcBit (crcBit (c ^^^ b.setWidth 32))))))))

/-- CRC-32 of a byte string. -/
def crc32 (bs : List Byte) : Nat := (bs.foldl crcByte 0xFFFFFFFF#32 ^^^ 0xFFFFFFFF#32).toNat

/-! ### Records -/

/-- A byte string cut or filled with zeros to `n` bytes. -/
def padTo (n : Nat) (bs : List Byte) : List Byte := (bs ++ List.replicate n 0).take n

/-- The 32 bytes of a record (R462); FLAGS[5] is VALID. -/
def recBytes (r : LogRec) : List Byte :=
  leBytes 4 r.seq ++ leBytes 4 r.sec ++ leBytes 2 r.subsec ++ leBytes 3 r.pcycle ++ leBytes 1 (r.flags + 0x20)
    ++ leBytes 2 r.code ++ leBytes 2 r.source ++ padTo 14 r.payload

/-- The 32 bytes of a slot: an empty slot reads all zero (R462). -/
def slotBytes (s : State) (i : Nat) : List Byte :=
  match smGet (fun _ => none) s.ring i with
  | some r => recBytes r
  | none => List.replicate 32 0

/-- Severity of a record. -/
def LogRec.sev (r : LogRec) : Nat := r.flags % 8

/-- The SEQ after `h`: 0 is never assigned (R469). -/
def seqAfter (h : Nat) : Nat := if (h + 1) % 2 ^ 32 = 0 then 1 else (h + 1) % 2 ^ 32

/-- Acceptance of a request (R463, R466, R468 to R470). -/
def acceptRec (s : State) (q : LogReq) : State :=
  let seq := seqAfter (rd s evPg ev_HEAD_SEQ)
  let r : LogRec :=
    { seq := seq, sec := rd s evPg ev_SEC, subsec := rd s evPg ev_SUBSEC, pcycle := rd s evPg ev_PCYCLE,
      flags := q.sev + 8 * rd s evPg ev_CAL + 16 * rd s evPg ev_UNSET, code := q.code, source := q.source,
      payload := q.payload }
  let higher := match smGet (fun _ => none) s.ring (seq % 2048) with
    | some o => decide (q.sev < o.sev)
    | none => false
  let s := if higher then raiseF (inci s evPg ev_DROP q.sev 1) evPg ev_F_DROP
    else { s with ring := smPut (fun _ => none) s.ring (seq % 2048) (some r) }
  let s := wr s evPg ev_HEAD_SEQ seq
  if 3 ≤ q.sev then { s with mirrorQ := s.mirrorQ ++ [r] } else s

/-- RECORD_ACCEPTANCE (R467): the oldest waiting request is accepted. After a loss of standby power none is before B1 has
resumed SEQ (R469), and none while B1 still mirrors the surviving ring (R470). -/
def execRecordAcceptance (s : State) : Out :=
  done s <|
    if s.evLost ∨ s.mirrorHold then s
    else match s.logQ with
      | [] => s
      | q :: qs => acceptRec { s with logQ := qs } q

/-- Where the mirror lies in flash (R487). -/
def mirrorBase : Nat := 0x0A000000

/-- The management core runs: its firmware has started, or it mirrors in B1 (R470). -/
def mgmtRuns (s : State) : Bool := s.fwEntry.isSome || s.mirrorHold

/-- MIRROR (R470): the oldest record that waits is written to flash; a failed write sets MIRROR_FAIL and the record
stays due. A module whose management core cannot run mirrors nothing. -/
def mirrorOne (s : State) (flashOk : Bool) : State :=
  match s.mirrorQ with
  | [] => s
  | r :: rs =>
    if ¬ mgmtRuns s then s
    else if ¬ flashOk then raiseF s evPg ev_F_MIRROR_FAIL
    else
      let s := flWrite { s with mirrorQ := rs, mirrorHold := s.mirrorHold && !rs.isEmpty } (mirrorBase + 32 * s.mirrorPos) (recBytes r)
      let s := { s with mirrorPos := (s.mirrorPos + 1) % 131072 }
      wr (wr s evPg ev_MIRROR_SEQ r.seq) evPg ev_MIRROR_COUNT (min (rd s evPg ev_MIRROR_COUNT + 1) 131072)

/-- MIRROR. -/
def execMirror (flashOk : Bool) (s : State) : Out := done s (mirrorOne s flashOk)

/-! ### The operating-time store -/

/-- Where copy `i`, 0 or 1, of the operating-time store lies in flash (R487). -/
def timeBase (i : Nat) : Nat := 0x0A500000 + 0x10000 * i

/-- The bytes of a copy with its CRC-32 (R464): the layout is the model's choice (log entry 171). -/
def timeCopyBytes (c : TimeCopy) : List Byte :=
  let body := leBytes 4 c.secs ++ leBytes 4 c.pcycle ++ leBytes 4 c.seq
  body ++ leBytes 4 (crc32 body)

/-- What copy `i` holds; none where its CRC does not match (R464). -/
def timeCopy (s : State) (i : Nat) : Option TimeCopy :=
  let bs := memRead s.flash (timeBase i) 16
  if leNat (bs.drop 12) = crc32 (bs.take 12) then
    some { secs := leNat (bs.take 4), pcycle := leNat ((bs.drop 4).take 4), seq := leNat ((bs.drop 8).take 4) }
  else none

/-- A copy is written. -/
def putCopy (s : State) (i : Nat) (c : TimeCopy) : State := flWrite s (timeBase i) (timeCopyBytes c)

/-- The copies are written in turn (R464). -/
def putTime (s : State) (c : TimeCopy) : State := putCopy { s with timeNext := !s.timeNext } (b2n s.timeNext) c

/-- What the EV block holds now. -/
def timeNow (s : State) : TimeCopy :=
  { secs := rd s evPg ev_SEC, pcycle := rd s evPg ev_PCYCLE, seq := rd s evPg ev_HEAD_SEQ }

/-- A write of the operating-time store (R464). In calendar mode there is no operating time to write: the mode ends only
by R466, so no copy becomes valid. Between a loss of standby power and B1 the block has no count to write (R469). -/
def writeTime (s : State) : State :=
  if rd s evPg ev_CAL = 1 ∨ s.evLost then s else putTime s (timeNow s)

/-- TIME_STORE_WRITE (R464). -/
def execTimeStoreWrite (s : State) : Out := done s (writeTime s)

/-- EV_CTRL.CLEAR (R471): the first record after it is LOG_CLEARED. -/
def evClearOp (s : State) : State :=
  let h := rd s evPg ev_HEAD_SEQ
  let s := forEach (List.range 5) (fun v s => wri s evPg ev_DROP v 0) { s with ring := [] }
  acceptRec (wr s evPg ev_QDROP 0) { sev := 0, code := 0x0810, source := evPg, payload := b4 h, cycle := aonCycle s }

/-- EV_CLEAR. -/
def execEvClear (s : State) : Out := done s (actWrite s evPg evClearOp)

/-- EV_CTRL.OPT_REINIT (R466, R475): both copies are rewritten from OPT_SET. Calendar mode ends only after a write of
OPT_SET, and without one there is no operating time to write. -/
def optReinitOp (s : State) : State :=
  if rd s evPg ev_CAL = 1 ∧ ¬ s.optSet then s
  else
    let c := { timeNow s with secs := rd s evPg ev_OPT_SET }
    let s := putCopy (putCopy { s with optSet := false } 0 c) 1 c
    wr (wr (wr s evPg ev_CAL 0) evPg ev_UNSET 0) evPg ev_SEC c.secs

/-- OPT_REINIT. -/
def execOptReinit (s : State) : Out := done s (actWrite s evPg optReinitOp)

/-- A write of EV_CAL_SEC (R466, R475): in calendar mode it sets the count. -/
def calSecOp (s : State) (v : Nat) : State :=
  let s := wr s evPg ev_CAL_SEC v
  if rd s evPg ev_CAL = 1 then wr (wr s evPg ev_SEC v) evPg ev_UNSET 0 else s

/-- CAL_SEC. -/
def execCalSec (v : W32) (s : State) : Out := done s (actWrite s evPg (fun s => calSecOp s v.toNat))

/-- A read of EV_REC_W0 latches the slot (R472). -/
def latchRec (s : State) : State :=
  let bs := slotBytes s (rd s evPg ev_SLOT)
  forEach (List.range 8) (fun w s => wri s evPg ev_REC_W w (leNat ((bs.drop (4 * w)).take 4))) s

/-- EV_REC_W0_READ. -/
def execEvRecW0Read (s : State) : Out := done s (latchRec s)

/-! ### The repair log -/

/-- Where the repair log lies in flash (R487). -/
def repairBase : Nat := 0x0A400000

/-- The bytes of a record of the repair log (R488). -/
def repairBytes (kind a b seq : Nat) : List Byte :=
  let body := leBytes 1 kind ++ leBytes 1 0 ++ leBytes 2 a ++ leBytes 4 b ++ leBytes 4 seq
  body ++ leBytes 4 (crc32 body)

/-- Write a record of the repair log (R488); a full log refuses it. -/
def repairWrite (s : State) (kind a b seq : Nat) : State :=
  if 65536 ≤ s.repairN then logReq s 3 0x0811 mgPg (b1 kind ++ b2 a)
  else { flWrite s (repairBase + 16 * s.repairN) (repairBytes kind a b seq) with repairN := s.repairN + 1 }

/-- The record `i` of the repair log as it lies in flash. -/
def repairRec (s : State) (i : Nat) : List Byte := memRead s.flash (repairBase + 16 * i) 16

/-- A record is valid (R488). -/
def repairValid (r : List Byte) : Bool :=
  decide (1 ≤ leNat (r.take 1)) && decide (leNat (r.take 1) ≤ 3) && leNat (r.drop 12) == crc32 (r.take 12)

/-- The valid records of the repair log, oldest first. -/
def repairRecs (s : State) : List (List Byte) := ((List.range s.repairN).map (repairRec s)).filter repairValid

/-- The physical tiles that a valid soft-retire record names (R486). -/
def softRetired (s : State) : List Nat :=
  (((repairRecs s).filter (fun r => leNat (r.take 1) == 1)).map (fun r => leNat ((r.drop 2).take 2))).dedup

end Sys2Proof.Machine
end

