-- ==== Sys2Proof/Machine/Pages.lean ====
section
/-! DEFINITION. Reading and writing register pages (R9 to R11, R540 to R553): what each register reads as, the registers
that are a view of other state, latches, locks, clamps and refusals, PG_SEQ, forcing and counter clears. -/

namespace Sys2Proof.Machine

/-! ### Reading -/

/-- LC_STATUS.STATE (R527, R536). -/
def lcState (s : State) : Nat :=
  if s.fuses.voided then 4
  else if s.fuses.lcCount = 0 then 0
  else if s.fuses.lcCount = 1 then 1
  else if s.fuses.lcCount % 2 = 0 then 2
  else 3

/-- ROW_BADy (R484). -/
def fuseRow (s : State) (y : Nat) : BitVec 36 := smGet (fun _ => 0) s.fuses.c0.rowBad y

/-- WL_BADp (R484): 0xF for none. -/
def fuseWl (c : FuseCopy) (p : Nat) : BitVec 4 := smGet (fun _ => 15) c.wlBad p

/-- CRC-16 of `n` bits of a value, the most significant first: polynomial 0x1021, initial value 0xFFFF (R484). -/
def crc16 : Nat → Nat → BitVec 16 → BitVec 16
  | 0, _, c => c
  | n + 1, v, c => crc16 n v ((c <<< 1) ^^^ (if c.getLsbD 15 != v.testBit n then 0x1021#16 else 0#16))

/-- Word `w` of a fuse copy, with its width (R484): GRADE, DIE_ID, ROW_BAD, SPOOL_REP, WL_BAD. -/
def fuseWord (c : FuseCopy) (w : Nat) : Option (Nat × Nat) :=
  if w = 0 then some (8, c.grade.toNat)
  else if w = 1 then some (64, c.dieId.toNat)
  else if w < 34 then some (36, (smGet (fun _ => (0 : BitVec 36)) c.rowBad (w - 2)).toNat)
  else if w < 546 then (c.spoolRep[w - 34]?).map (fun e => (24, e.toNat))
  else some (4, (fuseWl c (w - 546)).toNat)

/-- The CRC-16 that a word of a copy should carry. -/
def fuseCrc (c : FuseCopy) (w : Nat) : BitVec 16 :=
  match fuseWord c w with
  | some x => crc16 x.1 x.2 0xFFFF#16
  | none => 0

/-- The CRC-16 of a word of a copy fails (R485): what the copy does not list is as the fuses of reset have it. -/
def fuseCrcBad (c : FuseCopy) (w : Nat) : Bool :=
  (fuseWord c w).isSome && smGet (fuseCrc FuseCopy.reset) c.crc w != fuseCrc c w

/-- The count of set bits among `n`. -/
def countBits (n : Nat) (f : Nat → Bool) : Nat := ((List.range n).filter f).length

/-- A physical tile counts as unusable now: a fuse or a valid soft-retire record names it, records written since the
last bring-up too (R17). -/
def rowBadNow (s : State) (y x : Nat) : Bool := (fuseRow s y).getLsbD x || (softRetired s).contains (y * 36 + x)

/-- Spares left in row `y` (R17, R505). -/
def spareLeft (s : State) (y : Nat) : Nat := s.rowSpares - countBits 36 (rowBadNow s y)

/-- PG_ID.INST (R543). -/
def pgInst (n : Nat) : Nat :=
  if 0x1000 ≤ n then (n - 0x1000) / 4
  else if 0x60 ≤ n then n - 0x60
  else if 0x20 ≤ n then n - 0x20
  else if 0x15 ≤ n ∧ n ≤ 0x18 then n - 0x15
  else if 0x0A ≤ n ∧ n ≤ 0x0D then n - 0x0A
  else 0

/-- PSTATE of a tile (R553): 0 ON, 1 RETENTION, 2 OFF. -/
def pstate (s : State) (t : Tile) : Nat :=
  if s.tileOff t then 2 else if rd s (tlPg t) tl_STATUS_SLEEP = 1 then 1 else 0

/-- A message that is not stamped by a tile (R255, R259). -/
def Msg.nonTile (m : Msg) : Bool := m.stamp.toNat / 2 ^ 30 != 0

/-- The message in a slot. -/
def slotMsg (ts : TileSt) (n : Nat) : Option Msg := (ts.slots.find? (fun x => x.1 == n)).map (·.2)

/-- The DMA and mailbox registers of a TL page (R199, R267). An empty slot reads its reset value (log entry 3). -/
def viewTl (s : State) (t : Tile) (off : Nat) : Option Nat :=
  let ts := s.tile t
  if off = 0x064 then some (ts.dma.length * 16 + b2n (ts.dma.any (·.active)))
  else if off = 0x100 then
    some (((List.range 4).map (fun n => match slotMsg ts n with
      | some m => 2 ^ n + b2n m.nonTile * 2 ^ (n + 4)
      | none => 0)).sum + b2n (ts.slots.any (fun x => x.2.nonTile)) * 2 ^ 8)
  else if 0x110 ≤ off ∧ off < 0x120 then
    some (match slotMsg ts ((off - 0x110) / 4) with | some m => m.stamp.toNat | none => 0)
  else if 0x140 ≤ off ∧ off < 0x240 then
    some (match slotMsg ts ((off - 0x140) / 0x40) with
      | some m => leNat ((m.data.drop ((off - 0x140) % 0x40)).take 4)
      | none => 0)
  else none

/-- MX_STATUS (R123): BUSY and the depth of the queue over the stored word. -/
def viewMx (s : State) (t : Tile) (off : Nat) : Option Nat :=
  if off = mx_STATUS_BUSY.off then
    let w := setBits (regW s (mxPg t) off) mx_STATUS_BUSY.hi mx_STATUS_BUSY.lo (b2n (s.tile t).mxBusy)
    some (setBits w mx_STATUS_QDEPTH.hi mx_STATUS_QDEPTH.lo (s.tile t).mxQ.length)
  else none

/-- VX_STATUS (R160): BUSY and the depth of the queue over the stored word. -/
def viewVx (s : State) (t : Tile) (off : Nat) : Option Nat :=
  if off = vx_STATUS_BUSY.off then
    let w := setBits (regW s (vxPg t) off) vx_STATUS_BUSY.hi vx_STATUS_BUSY.lo (b2n (s.tile t).vxBusy)
    some (setBits w vx_STATUS_QDEPTH.hi vx_STATUS_QDEPTH.lo (s.tile t).vxQ.length)
  else none

/-- SY_STATUS (R266). -/
def viewSy (s : State) (t : Tile) (off : Nat) : Option Nat :=
  let ts := s.tile t
  if off = 0x040 then
    some ((match ts.wait with
        | some w => if s.netReq.contains (t, rowSync) then 2 ^ 31 + w.ctr * 2 ^ 24 + w.n else 0
        | none => 0)
      + (match ts.tackWait with
        | some k => if s.netReq.contains (t, rowSync) then 2 ^ 30 + k.1.toNat * 2 ^ 20 else 0
        | none => 0))
  else none

/-- The fuse and map views of the FZ page (R505). -/
def viewFz (s : State) (off : Nat) : Option Nat :=
  let y := rd s fzPg fz_ROW_IDX
  let m := rd s fzPg fz_MAP_IDX
  let known := fun v => if rd s mgPg mg_PHASE < 2 then 0 else v
  match off with
  | 0x040 => some (s.fuses.c0.grade.toNat * 2 ^ 16 + s.ncols * 2 ^ 8 + 0x20)
  | 0x044 => some (s.fuses.c0.dieId.toNat % 2 ^ 32)
  | 0x048 => some (s.fuses.c0.dieId.toNat / 2 ^ 32)
  | 0x050 => some ((fuseRow s y).toNat % 2 ^ 32)
  | 0x054 => some ((fuseRow s y).toNat / 2 ^ 32)
  | 0x058 => some (known ((s.unusableRow y).toNat % 2 ^ 32))
  | 0x05C => some (known ((s.unusableRow y).toNat / 2 ^ 32))
  | 0x060 => some (known (spareLeft s y * 2 ^ 24 + countBits 36 (fun x => (softRetired s).contains (y * 36 + x)) * 2 ^ 16)
      + countBits 36 (fun x => (fuseRow s y).getLsbD x) * 2 ^ 8)
  | 0x068 => some (known (if m < s.ntiles then 2 ^ 31 + s.ptile m else 0))
  | 0x070 => some (fuseWl s.fuses.c0 (rd s fzPg fz_WL_IDX)).toNat
  | 0x074 => some s.fuses.c0.spoolRep.length
  | 0x078 => some (known ((repairRecs s).filter (fun r => leNat (r.take 1) == 1)).length)
  | _ => none

/-- The life-cycle view of the LC page (R536). -/
def viewLc (s : State) (off : Nat) : Option Nat :=
  if off = 0x040 then
    some (lcState s * 2 ^ 29 + s.fuses.lcCount * 2 ^ 24 + s.fuses.epoch * 2 ^ 16
      + bits (regW s lcPg 0x040) 15 13 * 2 ^ 13 + b2n s.sec.owner.isSome * 2 ^ 12)
  else if off = 0x048 then some (match s.sec.owner with | some o => o.counter | none => 0)
  else none

/-- An entry of the scale tracker (R370). -/
def nmGet (s : State) (e : Nat) : NmEnt := smGet (fun _ => NmEnt.reset) s.nm e

/-- Set an entry. -/
def nmPut (s : State) (e : Nat) (x : NmEnt) : State := { s with nm := smPut (fun _ => NmEnt.reset) s.nm e x }

/-- The flag word of an entry, as NM shows it at 0x060 (R397). -/
def nmFlags (e : NmEnt) : Nat :=
  e.hist * 2 ^ 16 + b2n e.pvalid * 2 ^ 15 + b2n e.cold * 2 ^ 14 + b2n e.nonfin * 2 ^ 13 + b2n e.drift * 2 ^ 12
    + e.d.toNat * 2 ^ 8 + e.hr.toNat

/-- The entry registers of the NM page (R397). -/
def viewNm (s : State) (off : Nat) : Option Nat :=
  let e := nmGet s (rd s nmPg nm_IDX)
  match off with
  | 0x058 => some e.amax.toNat
  | 0x05C => some e.pend.toNat
  | 0x060 => some (nmFlags e)
  | _ => none

/-- The selected tile of the IT page (R461). -/
def viewIt (s : State) (off : Nat) : Option Nat :=
  let x := smGet (fun _ => ItTile.reset) s.it (rd s itPg it_IDX)
  match off with
  | 0x050 => some (x.state * 2 ^ 30 + x.percent * 2 ^ 23 + min 0xFFFF ((rd s evPg ev_SEC - max x.passSec s.itClr) / 3600))
  | 0x054 => some x.passStep
  | _ => none

/-- ROLE of a port (R335). -/
def portRole (p : Nat) : Nat := if p < 28 then 0 else if p < 32 then 1 else if p < 48 then 2 else 3

/-- A port's state beyond its page. -/
def portSt (s : State) (p : Nat) : PortSt := smGet (fun _ => PortSt.reset) s.ports p

/-- Set it. -/
def setPort (s : State) (p : Nat) (x : PortSt) : State := { s with ports := smPut (fun _ => PortSt.reset) s.ports p x }

/-! ### Crossing FIFOs (R360, R362) -/

/-- The FIFO resynchronises: it reports full to its source (R362). -/
def fifoBusy (s : State) (row unit : Nat) : Bool := s.fifos.any (fun f => f.row == row && f.unit == unit)

/-- One side of a FIFO is reset: it holds its pointer at 0 and raises RST (R362 step 1). -/
def fifoReset (s : State) (row unit : Nat) : State :=
  if fifoBusy s row unit then s else { s with fifos := s.fifos ++ [{ row := row, unit := unit, rst := true, ack := false }] }

/-- The Ethernet side of the crossings of an Ethernet port is reset (R362). -/
def ethFifoReset (s : State) (n : Nat) : State :=
  fifoReset (fifoReset (fifoReset s 11 n) 12 n) 13 n

/-- The other side sees RST: its contents are discarded, its pointer is 0 and it raises ACK (step 2). -/
def fifoAck (f : Fifo) : Fifo := if f.rst then { f with ack := true } else f

/-- The side that was reset sees ACK and drops RST (step 3). -/
def fifoLeave (f : Fifo) : Fifo := if f.ack then { f with rst := false } else f

/-- The other side sees RST low and drops ACK (step 4). -/
def fifoDrop (f : Fifo) : Fifo := if f.rst then f else { f with ack := false }

/-- The FIFO is live: ACK is low again after RST. -/
def fifoLive (f : Fifo) : Bool := !f.rst && !f.ack

/-- The handshake of the FIFOs of a row that resynchronise, through its steps 2 to 4 (R362). -/
def fifoSync (s : State) (row : Nat) : State :=
  let fs := s.fifos.map (fun f => if f.row = row then fifoDrop (fifoLeave (fifoAck f)) else f)
  { s with fifos := fs.filter (fun f => !(f.row == row && fifoLive f)) }

/-- IEEE 802.3 frames pass an Ethernet port: it is enabled, its link is up, it is not sending local fault, and its crossings
do not resynchronise (R362, R534). -/
def ethUp (s : State) (p : BitVec 2) : Bool :=
  rd s (enPg p.toNat) en_ENABLE == 1 && rd s (enPg p.toNat) en_LINK_UP == 1 && rd s (enPg p.toNat) en_SENDING_LF == 0
    && !([11, 12, 13].any (fun r => fifoBusy s r p.toNat))

/-- The port views of an LK page (R335). -/
def viewLk (s : State) (p off : Nat) : Option Nat :=
  if off = 0x040 then some (bits (regW s (lkPg p) 0x040) 31 8 * 2 ^ 8 + portRole p * 2 ^ 6 + p)
  else if off = 0x080 then some (bits (regW s (lkPg p) 0x080) 27 16 * 2 ^ 16 + (portSt s p).replay.length)
  else none

/-- Hall time in whole nanoseconds and its fraction in units of 2^-16 ns (R340, R365). -/
def hallNs (s : State) : Nat := s.hallTime / 2 ^ 48 % 2 ^ 64
def hallFrac (s : State) : Nat := s.hallTime / 2 ^ 32 % 2 ^ 16

/-- The ease gate holds some tile: it has issued every issue cycle of the stitches begun (R213), or JOB_HOLD is set. -/
def gateShut (s : State) : Bool :=
  (rd s gsPg gs_JOB_HOLD == 1) ||
    s.tileList.any (fun t => (rd s (tlPg t) tl_STATUS_RUNNING == 1) && !s.hmode t
      && decide (s.nextStitch * s.stitchW ≤ (s.tile t).issued))

/-- The key of a register. -/
def regKey (n off : Nat) : Nat := n * 0x1000 + off

/-- A half that R550 holds or latched. -/
def heldW (s : State) (n off : Nat) : Nat := ((smGet (fun _ => none) s.loHeld (regKey n off)).getD 0).toNat

/-- Hold a half. -/
def holdW (s : State) (n off v : Nat) : State :=
  { s with loHeld := smPut (fun _ => none) s.loHeld (regKey n off) (some (BitVec.ofNat 32 v)) }

/-- The registers that a read of another register latches (R365, R457, R556). -/
def isLatched (b : Blk) (off : Nat) : Bool :=
  match b with
  | .tm => off == 0x04C || off == 0x050 || off == 0x074
  | .gs => off == 0x054
  | .pw => off == 0x04C
  | _ => false

/-- The registers of a page that are a view of other state; none for those that hold their own word. -/
def viewBlk (s : State) (n off : Nat) : Blk → Option Nat
  | .tl => viewTl s (BitVec.ofNat 11 ((n - 0x1000) / 4)) off
  | .mx => viewMx s (BitVec.ofNat 11 ((n - 0x1000) / 4)) off
  | .vx => viewVx s (BitVec.ofNat 11 ((n - 0x1000) / 4)) off
  | .sy => viewSy s (BitVec.ofNat 11 ((n - 0x1000) / 4)) off
  | .fz => viewFz s off
  | .lc => viewLc s off
  | .nm => viewNm s off
  | .it => viewIt s off
  | .lk => viewLk s (n - 0x20) off
  | .tm => if off = 0x048 then some (hallNs s % 2 ^ 32) else none
  | .gs => if off = 0x044 then
      some (b2n (!s.netReq.isEmpty) * 2 ^ 31 + b2n (gateShut s) * 2 ^ 30 + bits (regW s gsPg 0x044) 29 0)
    else none
  | .ev => if off = 0x080 then some (leNat ((slotBytes s (rd s evPg ev_SLOT)).take 4)) else none
  | .cx => if off = 0x04C then some (s.cx.length * 2 + b2n (s.cx.any (fun g => !g.got.isEmpty && !g.up))) else none
  | .en => if off = 0x044 then
      some (bits (regW s n 0x044) 31 9 * 2 ^ 9
        + (s.queues.filter (fun q => q.1 / 512 == n - 0x15 && decide (q.1 % 512 < 256) && q.2.isSome)).length)
    else none
  | _ => none

/-- The twin-keep registers exist in page 0x00A alone (R296). -/
def absent (n off : Nat) : Bool := decide (0x0B ≤ n) && decide (n ≤ 0x0D) && decide (0x080 ≤ off) && decide (off ≤ 0x088)

/-- What an aligned read of a register returns (R540, R543 and the register tables), without what the read does. -/
def regView (s : State) (n off : Nat) : Nat :=
  match pageBlk n with
  | none => 0
  | some b =>
    if absent n off then 0
    else if off = 0x000 then blkType b * 2 ^ 16 + pgInst n
    else if off = 0x004 then 0x0100
    else if off = 0x008 then
      regW s n 0x008 % 2 ^ 16 + (if b = .tl then pstate s (BitVec.ofNat 11 ((n - 0x1000) / 4)) * 2 ^ 16 else 0)
    else if off = 0x00C ∨ off = 0x018 then 0
    else if off = 0x01C then b2n (locked s n)
    else if isLatched b off then heldW s n off
    else (viewBlk s n off b).getD (regW s n off)

/-- The fields whose value only a sensor or the fabric's timing knows: a read gives a free value (log entry 11). -/
def sensorBits (b : Blk) (off : Nat) : Option (Nat × Nat) :=
  match b with
  | .pw => if off = 0x048 then some (31, 0) else if 0x080 ≤ off ∧ off < 0x0A0 then some (15, 0) else none
  | .nc => if 0x044 ≤ off ∧ off < 0x058 then some (31, 0) else none
  | .oe => if 0x044 ≤ off ∧ off < 0x068 then some (31, 0)
      else if 0x080 ≤ off ∧ off < 0x110 then some (15, 0) else none
  | _ => none

/-- The pages whose read-only fields are variant but for PG_ID and PG_VER (R407). -/
def plainRo (b : Blk) : Bool :=
  match b with
  | .mg | .pw | .th | .fz | .lc | .sc | .ev | .tw | .dl | .gs | .it | .en => true
  | _ => false

/-- The fields that are variant (R406, R407, R408; R543 for the header): two runs of one job may read them differently.
The fused configuration fields of FZ are those whose value its copies hold from manufacture: GRADE, LCOLS, ROWS, the die
identity, FUSED, WL_FUSED, SPOOL_REP and ROW_BAD. -/
def variantField (b : Blk) (f : Fld) : Bool :=
  let ro := f.ty == .ro
  if f.off = 0x008 ∨ f.off = 0x020 then true
  else if f.off = 0x010 then !(b == .tl || b == .mx || b == .vx || b == .sy)
  else if f.off < 0x008 ∧ plainRo b then false
  else match b with
    | .tl => f == tl_DMA_QDEPTH || f == tl_DMA_BUSY || (ro && decide (0x100 ≤ f.off))
    | .mx => f == mx_STATUS_QDEPTH || f == mx_STATUS_BASTE_OUT || f == mx_STATUS_BUSY || f == mx_BASTE_SENT
        || f == mx_BASTE_SKIP
    | .vx => f == vx_STATUS_QDEPTH || f == vx_STATUS_BUSY
    | .sy => f.off == sy_STATUS_WAITING.off || f == sy_TACK_PEND || f == sy_LOST_WAKES || f == sy_TIMEOUTS
    | .tk => f == tk_STRAY
    | .st => f == st_CE_CNT || f == st_UE_CNT
    | .lp => f == lp_DERATE || f == lp_REF_RATE || f == lp_CE_CNT || f == lp_UE_CNT || f == lp_REF_WAITS
    | .lk => f == lk_STATUS_STATE || f == lk_STATUS_PEER_FAULT || f == lk_STATUS_ROT || f == lk_STATUS_WL_BAD
        || f == lk_STATUS_CAL_ACTIVE || (decide (0x048 ≤ f.off) && decide (f.off ≤ 0x080))
    | .oe => ro
    | .cx => f == cx_OPEN || f == cx_BUSY || f == cx_STALE || f == cx_ABORTS
    | .tm => ro || f == tm_T0_LO || f == tm_T0_HI
    | .ck => f == ck_RX_LOCK || f == ck_REF_PPB || f == ck_RESYNC_CNT
    | .nm => f == nm_BUSY || f == nm_LATE_CNT
    | .bb => false
    | .nc => decide (0x044 ≤ f.off) && ro
    | .fz => (ro || f.ty == .w1c) && !(f == fz_GRADE || f == fz_LCOLS || f == fz_ROWS || f == fz_DIE_LO || f == fz_DIE_HI
        || f == fz_FUSED || f == fz_WL_FUSED || f == fz_SPOOL_REP || f == fz_ROW_BAD_LO || f == fz_ROW_BAD_HI)
    | .gs => ro || f.ty == .w1c || f == gs_ISSUE_LO || f == gs_ISSUE_HI
    | .mg | .pw | .th | .lc | .sc | .ev | .tw | .dl | .it | .en => ro || f.ty == .w1c

/-- What a read does beside returning its value (R365, R457, R472, R550, R556, R335): latches and read-to-clear. -/
def readFx (s : State) (n off : Nat) : State :=
  match pageBlk n with
  | some .tm =>
    if off = 0x048 then holdW (holdW s n 0x04C (hallNs s / 2 ^ 32)) n 0x050 (hallFrac s)
    else if off = 0x070 then holdW s n 0x074 (regW s n 0x074)
    else s
  | some .gs =>
    if off = 0x050 then holdW s n 0x054 (regW s n 0x054)
    else if off = 0x048 then wr s n gs_STALL_MAX 0
    else s
  | some .pw => if off = 0x040 then wr s n pw_PEAK_W 0
    else if off = 0x048 then holdW (freshSense s).2 n 0x04C ((freshSense s).1.toNat % 2 ^ 32)
    else s
  | some .ev => if off = 0x080 then latchRec s else s
  | some .lk => if off = 0x080 then wr s n lk_REPLAY_PEAK 0 else s
  | _ => s

/-- An aligned read of a register: its value and the state after it. -/
def pageRead (s : State) (n off : Nat) : Nat × State :=
  match (match pageBlk n with | some b => sensorBits b off | none => none) with
  | some (hi, lo) =>
    (setBits (regView s n off) hi lo (freshSense s).1.toNat, readFx (freshSense s).2 n off)
  | none => (regView s n off, readFx s n off)

/-! ### Writing -/

/-- Who writes a register (R541). -/
inductive Writer where
  | mgmt
  | host
  | tile
deriving DecidableEq, Repr

/-- The _LO offsets of the pairs that software writes (R550). -/
def loOffs : Blk → List Nat
  | .mg => [0x080]
  | .nm => [0x04C]
  | .bb => [0x040, 0x058]
  | .cx => [0x044]
  | .tw => [0x050]
  | .tm => [0x060, 0x068]
  | .gs => [0x058, 0x060]
  | .en => [0x048]
  | .mx => [0x044, 0x0A0]
  | .vx => [0x048, 0x058] ++ (List.range 8).map (fun k => 0x080 + 8 * k)
  | _ => []

/-- The fault bits a page defines (R544): reserved bits stay 0. -/
def faultBits (b : Blk) : Nat :=
  if b = .tk then 0xFFFF
  else ((blkFields b).filter (fun f => f.off == 0x010)).foldl (fun a f => a ||| 2 ^ f.lo) 0

/-- The fields of a register that the page has. -/
def pageFields (n off : Nat) : List Fld :=
  match pageBlk n with
  | none => []
  | some b => if absent n off then [] else fieldsAt b off

/-- A field that its chapter leaves writable under LOCK (R299, R399, R556). -/
def lockExempt (who : Writer) (n : Nat) (f : Fld) : Bool :=
  (n == pwPg && f == pw_CAP_W) || (n == lpPg 0 && f == lp_FREEZE) || (n == bbPg && f == bb_STEP && who == .mgmt)

/-- LOCK keeps a field from a write (R548). -/
def lockedField (s : State) (who : Writer) (n off : Nat) (f : Fld) : Bool :=
  locked s n && f.ty != .w1c && f.ty != .ro && (decide (0x040 ≤ off) || off == 0x00C || off == 0x014 || off == 0x018)
    && !lockExempt who n f

/-- A word with its writable fields stored and its W1C bits cleared (R9, R10). R126 has the handler restore VX_EVENT
through this page, and R160 types its bits W1C: that such a write clears the bits that it holds as 1 and sets none is the
model's choice (log entry 129). -/
def storeFields (old v : Nat) : List Fld → Nat
  | [] => old
  | f :: fs =>
    let old := match f.ty with
      | .rw => setBits old f.hi f.lo (bits v f.hi f.lo)
      | .rws => setBits old f.hi f.lo (bits v f.hi f.lo)
      | .w1c => setBits old f.hi f.lo (bits old f.hi f.lo &&& (bits v f.hi f.lo ^^^ (2 ^ (f.hi + 1 - f.lo) - 1)))
      | _ => old
    storeFields old v fs

/-- A value forced into a range. -/
def clampN (lo hi v : Nat) : Nat := min (max v lo) hi

/-- `v` with one field changed. -/
def onField (v : Nat) (f : Fld) (g : Nat → Nat) : Nat := setBits v f.hi f.lo (g (bits v f.hi f.lo))

/-- What a register stores for a written value: the clamps of the register tables. -/
def clampReg (b : Blk) (off v : Nat) : Nat :=
  match b with
  | .mx => if off = 0x040 then onField v mx_CFG_BASTE_N (clampN 6 14) else v
  | .st => if off = 0x040 then onField v st_SEXP (clampN 8 20) else v
  | .tm => if off = 0x040 then onField v tm_AVG (clampN 8 14) else v
  | .pw => if off = 0x044 then onField v pw_CAP_W (clampN 600 1250) else v
  | .dl => if off = 0x040 then onField v dl_WEXP (clampN 16 34) else v
  | .it =>
    if off = 0x040 then onField (onField v it_DEFER_H (max 24)) it_INTERVAL_H (max 1)
    else if off = 0x044 then onField v it_SLICE_MAX (clampN 256 4500)
    else v
  | _ => v

/-- Two ranges of GiB share a byte (R455). -/
def overlapGiB (a n b m : Nat) : Bool := decide (0 < n) && decide (0 < m) && decide (a < b + m) && decide (b < a + n)

/-- A rule of the page refuses the write (R299, R455, R559, R561). -/
def ruleRefuses (s : State) (b : Blk) (n off v : Nat) : Bool :=
  let tb := rd s (lpPg 0) lp_TK_BASE
  let tz := rd s (lpPg 0) lp_TK_SIZE
  let hb := rd s twPg tw_HOME_BASE
  let hz := rd s twPg tw_HOME_SIZE
  match b with
  | .th => off == 0x040 &&
      (decide (bits v 23 16 ≤ bits v 31 24) || decide (rd s thPg th_SHUT_C ≤ bits v 23 16))
  | .nc => off == 0x040 && decide (1152 ≤ bits v 10 0)
  | .lp =>
    if n = lpPg 0 ∧ off = 0x080 then decide (512 < bits v 8 0 + tz) || overlapGiB (bits v 8 0) tz hb hz
    else if n = lpPg 0 ∧ off = 0x084 then decide (512 < tb + bits v 9 0) || overlapGiB tb (bits v 9 0) hb hz
    else false
  | .tw =>
    if off = 0x044 then overlapGiB tb tz (bits v 8 0) hz
    else if off = 0x048 then overlapGiB tb tz hb (bits v 9 0)
    else false
  | .mg => off == 0x040 && ((bit v 30 && rd s mgPg mg_STANDBY_HELD == 0)
      || (bit v 31 && (decide (rd s mgPg mg_PHASE < 8) || s.image.isNone || s.xfer.isSome)))
  | .nm => off == 0x040 && decide (bits v 2 0 ≠ 0) && (rd s nmPg nm_BUSY == 1)
  | _ => false

/-- A register that the management core does not write now (R299, R365, R339, and the texts of the TK, NM and TW pages): it keeps its value, and REG_WRITE, which the management core performs, is refused. That the rule acts so is the
model's choice (log entry 139). -/
def mgmtHolds (s : State) (n off : Nat) : Bool :=
  (n == tmPg && (off == 0x040 || (decide (0x060 ≤ off) && decide (off ≤ 0x06C))) && programRuns s)
    || (n == cxPg && (off == 0x040 || off == 0x044 || off == 0x048) && !s.cx.isEmpty)
    || (n == lpPg 0 && (off == 0x080 || off == 0x084) && rd s (lpPg 0) lp_ENABLE == 1)
    || (n == twPg && (off == 0x044 || off == 0x048) && rd s twPg tw_ENABLE == 1)
    || (n == tkPg && decide (0x040 ≤ off) && decide (off ≤ 0x07C) && programRuns s)
    || (n == nmPg && decide (0x058 ≤ off) && decide (off ≤ 0x060) && programRuns s && s.stowReq.isNone)

/-- The word of an NM entry register written through (R397). -/
def nmStore (s : State) (off v : Nat) : State :=
  let i := rd s nmPg nm_IDX
  let e := nmGet s i
  match off with
  | 0x058 => nmPut s i { e with amax := BitVec.ofNat 32 v }
  | 0x05C => nmPut s i { e with pend := BitVec.ofNat 32 v }
  | _ => nmPut s i
      { e with hist := bits v 31 16, pvalid := bit v 15, cold := bit v 14, nonfin := bit v 13, drift := bit v 12,
               d := BitVec.ofNat 4 (bits v 11 8), hr := BitVec.ofNat 3 v }

/-- Store a register's word, or the pair that its _HI half completes (R550). -/
def storeReg (s : State) (b : Blk) (n off v : Nat) (fs : List Fld) : State :=
  if (loOffs b).contains off then holdW s n off v
  else if (loOffs b).contains (off - 4) ∧ 4 ≤ off then
    let s := match smGet (fun _ => none) s.loHeld (regKey n (off - 4)) with
      | some c => setW s n (off - 4) (storeFields (regW s n (off - 4)) c.toNat (pageFields n (off - 4)))
      | none => s
    setW { s with loHeld := smDel s.loHeld (regKey n (off - 4)) } n off (storeFields (regW s n off) v fs)
  else if b = .nm ∧ 0x058 ≤ off ∧ off ≤ 0x060 then nmStore s off v
  else if off = 0x010 then setW s n off (regW s n off &&& ((v &&& faultBits b) ^^^ (2 ^ 32 - 1)))
  else setW s n off (storeFields (regW s n off) v fs)

/-- A mask bit cleared while its PG_FAULT bit is set reports the bit at once (R545). -/
def unmask (s : State) (n old : Nat) : State :=
  forEach (List.range 32)
    (fun i s => if bit old i && !bit (regW s n 0x014) i && bit (regW s n 0x010) i then report s n i else s) s

/-- PG_FAULT_FORCE (R546): the bits are set and reported; the hardware's own response does not follow. FORCED marks a
report (R543), so a bit that the mask keeps from being reported leaves it: the model's choice (log entry 155). -/
def forceFaults (s : State) (n v : Nat) : State :=
  match pageBlk n with
  | none => s
  | some b =>
    forEach (List.range 32)
      (fun i s => if bit (v &&& faultBits b) i then
          let s := setW s n 0x010 (regW s n 0x010 ||| 2 ^ i)
          if bit (regW s n 0x014) i then s else report (wr s n pg_FORCED 1) n i
        else s) s

/-- PG_CTRL.CLR_CNT (R543): every saturating RO counter of the page; T_HOURS of every tile counts on from here, and the age
of a round (R431) keeps its own measure. -/
def clearCounters (s : State) (n : Nat) : State :=
  match pageBlk n with
  | none => s
  | some b =>
    forEach ((blkFields b).filter (fun f => f.cnt))
      (fun f s => forEach (List.range f.count) (fun i s => wri s n f i 0) s)
      (if b = .it then { s with itClr := rd s evPg ev_SEC } else s)

/-- The header's own actions on an accepted write (R545, R546, R543). -/
def headerAct (s : State) (n off v oldMask : Nat) : State :=
  if off = 0x010 then quietPage s n
  else if off = 0x014 then unmask s n oldMask
  else if off = 0x018 then forceFaults s n v
  else if off = 0x00C then (if bit v 0 then clearCounters s n else s)
  else s

/-- A write of a register (R540, R548 to R550): whether it was accepted, and the state after it; a write of a sync count is
a progress event (R263). What a WO bit of the block then does stands in Machine/Registers.lean. -/
def pageStore (who : Writer) (s : State) (n off v : Nat) : Bool × State :=
  match pageBlk n with
  | none => (true, s)
  | some b =>
    let fs := pageFields n off
    if fs.isEmpty ∧ ¬ (b = .tk ∧ off = 0x010) then (true, s)
    else if off = 0x01C ∧ 0x1000 ≤ n then (true, s)
    else if off = 0x01C ∧ who ≠ .mgmt then (false, wrej s n)
    else
      let open_ := fs.filter (fun f => !lockedField s who n off f)
      if open_.all (fun f => f.ty == .ro) && fs.any (fun f => f.ty != .ro) then (false, wrej s n)
      else if ruleRefuses s b n off v then (false, wrej s n)
      else
        let s' := storeReg s b n off (clampReg b off v) open_
        let s' := if open_.length < fs.length then wrej s' n else s'
        let s' := if b = .sy ∧ 0x100 ≤ off ∧ off < 0x1C0 then progress s' else s'
        (true, headerAct (countWrite s' n) n off v (regW s n 0x014))

end Sys2Proof.Machine
end

