-- ==== Sys2Proof/Machine/Wire.lean ====
section
/-! DEFINITION. What crosses a fibre (R300 to R305, R307, R343): packet headers and cells as bytes, the frame control
block, the frame with its check sequence, the scrambler, the Reed-Solomon code of a position, and the nine wavelengths. -/

namespace Sys2Proof.Machine

/-! ### Packets and cells -/

/-- The number of a class, as a cell header has it (R305). -/
def clsCode : LinkClass → Nat
  | .sch => 0
  | .lse => 1
  | .rcv => 2
  | .mgt => 3
  | .tim => 4
  | .res5 => 5
  | .res6 => 6
  | .null => 7

/-- The class that a cell header names. -/
def clsOf : Nat → LinkClass
  | 0 => .sch
  | 1 => .lse
  | 2 => .rcv
  | 3 => .mgt
  | 4 => .tim
  | 5 => .res5
  | 6 => .res6
  | _ => .null

/-- The number that `n` bytes from offset `off` spell. -/
def fieldAt (b : List Byte) (off n : Nat) : Nat := leNat ((b.drop off).take n)

/-- The 16 bytes of a packet header (R307). -/
def hdrBytes (h : PktHdr) : List Byte :=
  leBytes 1 h.type ++ leBytes 1 h.flags ++ leBytes 2 h.len ++ leBytes 1 h.origin ++ [0] ++ leBytes 2 h.psn ++ leBytes 8 h.addr

/-- The header that opens the bytes of a packet. -/
def hdrOf (b : List Byte) : PktHdr :=
  { type := fieldAt b 0 1, flags := fieldAt b 1 1, len := fieldAt b 2 2, origin := fieldAt b 4 1, psn := fieldAt b 6 2,
    addr := fieldAt b 8 8 }

/-- Cells of a packet with `len` data bytes: 16 header bytes come first (R307). -/
def cellsOf (len : Nat) : Nat := (16 + len + 63) / 64

/-- The 64 bytes of payload `i` of a packet (R302, R307). -/
def payload (hdr : PktHdr) (data : List Byte) (i : Nat) : List Byte := padTo 64 ((hdrBytes hdr ++ data).drop (64 * i))

/-- The cells of a packet; SEQ is assigned when a cell is sent (R305). Each cell of a queue knows its packet. -/
def mkCells (c : LinkClass) (hdr : PktHdr) (data : List Byte) : List Cell :=
  (List.range (cellsOf data.length)).map (fun i =>
    { cls := c, head := i == 0, tail := i + 1 == cellsOf data.length, seq := 0, data := payload hdr data i,
      pkt := some (hdr, data) })

/-- A NULL cell (R305): no packet, SEQ 0. -/
def nullCell : Cell := { cls := .null, head := false, tail := false, seq := 0, data := List.replicate 64 0, pkt := none }

/-- A cell as a frame carries it: its header and its payload alone. -/
def wireCell (c : Cell) : Cell := { c with pkt := none }

/-- The 68 bytes of a cell (R302, R305). -/
def cellBytes (c : Cell) : List Byte :=
  leBytes 4 (clsCode c.cls * 2 ^ 29 + b2n c.head * 2 ^ 28 + b2n c.tail * 2 ^ 27 + c.seq % 2 ^ 16) ++ padTo 64 c.data

/-- The cell that 68 bytes hold. -/
def cellOf (b : List Byte) : Cell :=
  let h := fieldAt b 0 4
  { cls := clsOf (bits h 31 29), head := bit h 28, tail := bit h 27, seq := bits h 15 0, data := (b.drop 4).take 64,
    pkt := none }

/-! ### The frame control block -/

/-- An FCB of zero fill. -/
def Fcb.zero : Fcb :=
  { frameNo := 0, rot := 0, rotNext := 0, nakValid := false, idleFault := false, lull := false, portRetire := false,
    ack := 0, nak := 0, credit := [0, 0, 0, 0, 0], txFrame := 0, rxFrame := 0, tstate := 0, hops := 0, txStamp := 0,
    rxStamp := 0 }

/-- The MARK bytes (R304). -/
def markBytes : List Byte := (List.range 8).map (fun j => BitVec.ofNat 8 (0xB8 + j))

/-- The 32 bytes of TIME (R343). -/
def timeBytes (f : Fcb) : List Byte :=
  leBytes 2 f.txFrame ++ leBytes 2 f.rxFrame ++ leBytes 1 (f.tstate % 8) ++ leBytes 1 f.hops ++ leBytes 2 0
    ++ leBytes 8 f.txStamp ++ leBytes 8 f.rxStamp ++ leBytes 8 0

/-- The 96 bytes of an FCB (R304). -/
def fcbBytes (f : Fcb) : List Byte :=
  markBytes ++ leBytes 2 f.frameNo ++ leBytes 1 (f.rot % 16 + 16 * (f.rotNext % 16))
    ++ leBytes 1 (b2n f.nakValid + 2 * b2n f.idleFault + 4 * b2n f.lull + 8 * b2n f.portRetire)
    ++ leBytes 2 f.ack ++ leBytes 2 f.nak ++ (List.range 5).flatMap (fun c => leBytes 2 (f.credit.getD c 0))
    ++ List.replicate 6 0 ++ timeBytes f ++ List.replicate 32 0

/-- The FCB that 96 bytes hold. -/
def fcbOf (b : List Byte) : Fcb :=
  let fl := fieldAt b 0x0B 1
  { frameNo := fieldAt b 0x08 2, rot := fieldAt b 0x0A 1 % 16, rotNext := fieldAt b 0x0A 1 / 16, nakValid := bit fl 0,
    idleFault := bit fl 1, lull := bit fl 2, portRetire := bit fl 3, ack := fieldAt b 0x0C 2, nak := fieldAt b 0x0E 2,
    credit := (List.range 5).map (fun c => fieldAt b (0x10 + 2 * c) 2), txFrame := fieldAt b 0x20 2,
    rxFrame := fieldAt b 0x22 2, tstate := fieldAt b 0x24 1 % 8, hops := fieldAt b 0x25 1, txStamp := fieldAt b 0x28 8,
    rxStamp := fieldAt b 0x30 8 }

/-- The 12,000 bytes of a frame (R302): the FCB, 175 cells, those that are not given NULL, and the FCS. -/
def frameBytes (f : Fcb) (cells : List Cell) : List Byte :=
  let body := fcbBytes f ++ ((cells ++ List.replicate 175 nullCell).take 175).flatMap cellBytes
  body ++ leBytes 4 (crc32 body)

/-- The FCS of a frame holds (R302, R303). -/
def fcsHolds (b : List Byte) : Bool := fieldAt b 11996 4 == crc32 (b.take 11996)

/-- The cells of a frame (R302). -/
def frameCells (b : List Byte) : List Cell := (List.range 175).map (fun i => cellOf ((b.drop (96 + 68 * i)).take 68))

/-! ### Positions and the scrambler -/

/-- The bytes of position `j`: every eighth (R302). -/
def laneOf (b : List Byte) (j : Nat) : List Byte := (List.range 1500).map (fun i => b.getD (8 * i + j) 0)

/-- The frame whose positions are `ls` (R302). -/
def gather (ls : List (List Byte)) : List Byte :=
  (List.range 1500).flatMap (fun i => (List.range 8).map (fun j => (ls.getD j []).getD i 0))

/-- One bit of the PRBS-31 of x^31 + x^28 + 1, and the state after it (R302). -/
def prbsBit (r : BitVec 31) : Bool × BitVec 31 :=
  let b := r.getLsbD 30 ^^ r.getLsbD 27
  (b, (r <<< 1) ||| (if b then 1#31 else 0#31))

/-- Eight bits of it, the first most significant. -/
def prbsByte : Nat → BitVec 31 → Byte → Byte × BitVec 31
  | 0, r, acc => (acc, r)
  | n + 1, r, acc =>
    let p := prbsBit r
    prbsByte n p.2 ((acc <<< 1) ||| (if p.1 then 1#8 else 0#8))

/-- Bytes under the scrambler: additive, so the same both ways (R302). -/
def scrambleFrom : BitVec 31 → List Byte → List Byte
  | _, [] => []
  | r, b :: bs =>
    let p := prbsByte 8 r 0
    (b ^^^ p.1) :: scrambleFrom p.2 bs

/-- A position's bytes scrambled: the MARK byte, its first, is not. The state in which the generator restarts at each
frame the manual does not give: a free value of each position (log entry 146). -/
def scramble (j : Nat) : List Byte → List Byte
  | [] => []
  | b :: bs => b :: scrambleFrom (Config.prbsStart j) bs

/-! ### RS(1024, 1000) over GF(2^12) -/

/-- An element of GF(2^12) under x^12 + x^6 + x^4 + x + 1 (R303). -/
abbrev Gf := BitVec 12

/-- α times an element. -/
def gfAlpha (a : Gf) : Gf := if a.getLsbD 11 then (a <<< 1) ^^^ 0x053#12 else a <<< 1

/-- The product, by the bits of the first factor from the most significant down. -/
def gfMul (a b : Gf) : Gf :=
  (List.range 12).foldl (fun acc i => gfAlpha acc ^^^ (if a.getLsbD (11 - i) then b else 0)) 0

/-- α to the power `n`. -/
def gfPow : Nat → Gf
  | 0 => 1
  | n + 1 => gfAlpha (gfPow n)

/-- The inverse: the power 2^12 - 2, by repeated squaring. -/
def gfInv (a : Gf) : Gf :=
  ((List.range 11).foldl (fun (x : Gf × Gf) _ => let q := gfMul x.1 x.1; (q, gfMul q x.2)) (a, 1)).2

/-- A polynomial by its coefficients, the highest first, at a point. -/
def gfEval (p : List Gf) (x : Gf) : Gf := p.foldl (fun acc c => gfMul acc x ^^^ c) 0

/-- The polynomial times (x + r), the highest coefficient first. -/
def timesRoot (r : Gf) (p : List Gf) : List Gf :=
  List.zipWith (· ^^^ ·) (p ++ [0]) (0 :: p.map (gfMul r))

/-- The generator, with roots α^0 to α^23 (R303), the highest coefficient first. -/
def rsGen : List Gf := (List.range 24).foldl (fun p i => timesRoot (gfPow i) p) [1]

/-- One step of the division by the generator. -/
def rsStep (g : List Gf) (reg : List Gf) (c : Gf) : List Gf :=
  let f := reg.headD 0 ^^^ c
  List.zipWith (· ^^^ ·) (reg.drop 1 ++ [0]) (g.map (gfMul f))

/-- The 24 parity symbols of data symbols (R303), the first symbol the highest coefficient. -/
def rsParity (data : List Gf) : List Gf := data.foldl (rsStep (rsGen.drop 1)) (List.replicate 24 0)

/-- Bytes as 12-bit symbols, most significant bit first (R303). -/
def symsOf : List Byte → List Gf
  | a :: b :: c :: rest =>
    let v := a.toNat * 2 ^ 16 + b.toNat * 2 ^ 8 + c.toNat
    BitVec.ofNat 12 (v / 2 ^ 12) :: BitVec.ofNat 12 v :: symsOf rest
  | _ => []

/-- Symbols as bytes. -/
def symBytes : List Gf → List Byte
  | x :: y :: rest =>
    let v := x.toNat * 2 ^ 12 + y.toNat
    BitVec.ofNat 8 (v / 2 ^ 16) :: BitVec.ofNat 8 (v / 2 ^ 8) :: BitVec.ofNat 8 v :: symBytes rest
  | _ => []

/-- The 1,536 bytes of the codeword over 1,500 bytes (R303): the parity follows the data. -/
def rsEncode (data : List Byte) : List Byte := data ++ symBytes (rsParity (symsOf data))

/-- The syndromes of a received word. -/
def syndromes (r : List Gf) : List Gf := (List.range 24).map (fun i => gfEval r (gfPow i))

/-- The state of the search for the error locator: the locator and the last one before a change of length, both with the
lowest coefficient first, the length, the steps since that change and its discrepancy. -/
structure Locator where
  c : List Gf
  b : List Gf
  l : Nat
  m : Nat
  d : Gf
deriving DecidableEq, Repr

/-- p + k x^m q, the lowest coefficient first, to 25 coefficients. -/
def addShift (p q : List Gf) (m : Nat) (k : Gf) : List Gf :=
  (List.range 25).map (fun i => p.getD i 0 ^^^ (if i < m then 0 else gfMul k (q.getD (i - m) 0)))

/-- One step of the search, for syndrome `n` (Berlekamp and Massey). -/
def locatorStep (s : List Gf) (x : Locator) (n : Nat) : Locator :=
  let d := (List.range (x.l + 1)).foldl (fun acc i => if n < i then acc else acc ^^^ gfMul (x.c.getD i 0) (s.getD (n - i) 0)) 0
  if d = 0 then { x with m := x.m + 1 }
  else
    let c := addShift x.c x.b x.m (gfMul d (gfInv x.d))
    if 2 * x.l ≤ n then { c := c, b := x.c, l := n + 1 - x.l, m := 1, d := d } else { x with c := c, m := x.m + 1 }

/-- The error locator of the syndromes. -/
def locator (s : List Gf) : Locator :=
  (List.range 24).foldl (locatorStep s) { c := [1], b := [1], l := 0, m := 1, d := 1 }

/-- A polynomial by its coefficients, the lowest first, at a point. -/
def gfEvalLow (p : List Gf) (x : Gf) : Gf := gfEval p.reverse x

/-- The value of the error at a place whose locator is `x` (Forney). -/
def errValue (s c : List Gf) (x : Gf) : Gf :=
  let xi := gfInv x
  let omega := (List.range 24).map (fun k => (List.range (k + 1)).foldl (fun acc i => acc ^^^ gfMul (c.getD i 0) (s.getD (k - i) 0)) 0)
  let deriv := (List.range 12).foldl (fun acc i => acc ^^^ gfMul (c.getD (2 * i + 1) 0) (gfPow2 xi i)) 0
  gfMul x (gfMul (gfEvalLow omega xi) (gfInv deriv))
where
  /-- x to the power 2 i. -/
  gfPow2 (x : Gf) : Nat → Gf
    | 0 => 1
    | i + 1 => gfMul (gfMul x x) (gfPow2 x i)

/-- The places of the errors, from the highest coefficient on, with the locator of each. -/
def errPlaces (c : List Gf) : Nat → List (Nat × Gf)
  | 0 => []
  | n + 1 =>
    let rest := errPlaces c n
    if gfEvalLow c (gfInv (gfPow n)) = 0 then (1023 - n, gfPow n) :: rest else rest

/-- The decoder (R303): the codeword within 12 symbols of the received one, and how many it corrected; none where there is
no such codeword. -/
def rsDecode (r : List Gf) : Option (List Gf × Nat) :=
  let s := syndromes r
  if s.all (· == 0) then some (r, 0)
  else
    let x := locator s
    let es := errPlaces x.c 1024
    let fixed := es.foldl (fun w e => w.set e.1 (w.getD e.1 0 ^^^ errValue s x.c e.2)) r
    if 12 < x.l ∨ es.length ≠ x.l ∨ ¬ (syndromes fixed).all (· == 0) then none else some (fixed, x.l)

/-! ### Wavelengths -/

/-- The level of a bit pair, the more significant bit first (R300). -/
def levelOf (hi lo : Bool) : Level :=
  match hi, lo with
  | false, false => .m3
  | false, true => .m1
  | true, true => .p1
  | true, false => .p3

/-- The bit pair of a level. -/
def levelBits : Level → Nat
  | .m3 => 0
  | .m1 => 1
  | .p1 => 3
  | .p3 => 2

/-- The four levels of a byte, its most significant pair first. -/
def byteLevels (b : Byte) : List Level :=
  (List.range 4).map (fun i => levelOf (b.getLsbD (7 - 2 * i)) (b.getLsbD (6 - 2 * i)))

/-- The bytes that levels spell. -/
def levelBytes : List Level → List Byte
  | a :: b :: c :: d :: rest =>
    BitVec.ofNat 8 (levelBits a * 64 + levelBits b * 16 + levelBits c * 4 + levelBits d) :: levelBytes rest
  | _ => []

/-- The wavelength that carries position `j` under ROT (R301). -/
def wlOf (rot j : Nat) : Nat := if j < rot then j else j + 1

/-- What a position sends for a frame: scrambled, coded, as levels. R302 and R303 give no order of the two: that the 1,500
bytes are scrambled first and the parity goes out unscrambled is the model's choice (log entry 146). -/
def laneLevels (b : List Byte) (j : Nat) : List Level := (rsEncode (scramble j (laneOf b j))).flatMap byteLevels

/-- The nine wavelengths of a port in one frame (R300 to R304): the positions under ROT, and the training pattern on the
idle wavelength. -/
def frameLight (f : Fcb) (cells : List Cell) : List (List Level) :=
  let b := frameBytes f cells
  (List.range 9).map (fun w =>
    if w = f.rot % 16 then Config.trainingPattern else laneLevels b (if w < f.rot % 16 then w else w - 1))

/-- IDLE-FAULT (R321): W0 alone is lit, with the codeword of an FCB and zero fill. That this codeword is not scrambled is
the model's choice (log entry 146). -/
def idleLight : List (List Level) :=
  (rsEncode (padTo 1500 (fcbBytes { Fcb.zero with idleFault := true }))).flatMap byteLevels :: List.replicate 8 []

/-- Nine wavelengths that carry training frames (R300, R320). -/
def trainLight (fused : Option Nat) : List (List Level) :=
  (List.range 9).map (fun w => if fused = some w then [] else Config.trainingPattern)

/-- A position as the receiver decodes it: its bytes and the symbols corrected, or none. -/
def readLane (levels : List Level) (j : Nat) : Option (List Byte × Nat) :=
  let b := levelBytes levels
  if b.length ≠ 1536 then none
  else (rsDecode (symsOf b)).map (fun r => (scramble j ((symBytes r.1).take 1500), r.2))

/-- The FCB of IDLE-FAULT, where a receiver hears W0 alone (R321). -/
def readIdle (light : List (List Level)) : Option (Fcb × Nat) :=
  let b := levelBytes (light.getD 0 [])
  if b.length ≠ 1536 ∨ ¬ (light.drop 1).all (·.isEmpty) then none
  else match rsDecode (symsOf b) with
    | some r =>
      let f := fcbOf (symBytes r.1)
      if f.idleFault then some (f, r.2) else none
    | none => none

/-- A frame as it is decoded from the light of nine wavelengths under ROT (R300 to R305). -/
def readLight (rot : Nat) (light : List (List Level)) (phase : BitVec 16) : Frame :=
  match readIdle light with
  | some x => { corrected := x.2, badPos := [], fcsOk := true, fcb := x.1, cells := [], phase := phase }
  | none =>
    let ls := (List.range 8).map (fun j => readLane (light.getD (wlOf rot j) []) j)
    let b := gather (ls.map (fun l => match l with | some x => x.1 | none => []))
    { corrected := ls.foldl (fun n l => match l with | some x => n + x.2 | none => n) 0,
      badPos := (List.range 8).filter (fun j => (ls.getD j none).isNone), fcsOk := fcsHolds b, fcb := fcbOf b,
      cells := frameCells b, phase := phase }

/-- What a port hears, decoded. -/
def hear (rot : Nat) : Heard → Frame
  | .frame f => f
  | .light l phase => readLight rot l phase

end Sys2Proof.Machine
end

