-- ==== Sys2Proof/Machine/Packets.lean ====
section
/-! DEFINITION. Packets of the link layer (R305, R307, R309, R313, R285): building a packet, the port it leaves by, and
the packets in which messages to other modules travel. A message that stays on the chip stands in `net`. -/

namespace Sys2Proof.Machine

/-- Packet types (R307). -/
def tyStream : Nat := 0x01
def tyCredit : Nat := 0x02
def tyLseRead : Nat := 0x03
def tyLseWrite : Nat := 0x04
def tyLseResp : Nat := 0x05
def tySignal : Nat := 0x06
def tyMailbox : Nat := 0x07
def tyCxData : Nat := 0x08
def tyCxCtrl : Nat := 0x09
def tyHold : Nat := 0x0A
def tyTime : Nat := 0x0B
def tyRcv : Nat := 0x0C
def tyMgt : Nat := 0x0D

/-- The classes that carry a type (R307). R307's table gives SIGNAL the class SCH alone, where R239 and R517 send it in
the class of a DMA descriptor, in MGT or in RCV: that a receiver takes it in each of these is the model's choice (log
entry 125). -/
def typeClass (ty : Nat) (c : LinkClass) : Bool :=
  match c with
  | .sch => ty == tyStream || ty == tyCredit || ty == tySignal || ty == tyMailbox || ty == tyCxData || ty == tyCxCtrl
  | .lse => ty == tyLseRead || ty == tyLseWrite || ty == tyLseResp || ty == tySignal
  | .rcv => ty == tyRcv || ty == tyMailbox || ty == tySignal
  | .mgt => ty == tyMgt || ty == tyMailbox || ty == tySignal
  | .tim => ty == tyHold || ty == tyTime
  | _ => false

/-- A calibration ends, done or given up (R317). -/
def calEnd (s : State) (p : Nat) : State :=
  wr (setPort s p { portSt s p with cal := none, rotStep := none }) (lkPg p) lk_STATUS_CAL_ACTIVE 0

/-- STATE of a port (R320). -/
def portState (s : State) (p : Nat) : Nat := rd s (lkPg p) lk_STATUS_STATE
def stOff : Nat := 0
def stTrain : Nat := 1
def stActive : Nat := 2
def stDown : Nat := 3
def stFailsafe : Nat := 4
def stLull : Nat := 5

/-- A port carries a class (R25, R320): every class when ACTIVE, TIM alone when FOREIGN, RCV and TIM in LULL. -/
def carries (s : State) (p : Nat) (c : LinkClass) : Bool :=
  (portState s p == stActive && (c == .tim || rd s (lkPg p) lk_CFG_FOREIGN == 0))
    || (portState s p == stLull && (c == .rcv || c == .tim))

/-- The port that carries the routes of port `p`: its takeover port after a failover, and so on (R318). -/
def routePort (s : State) : Nat → Nat → Nat
  | 0, p => p
  | n + 1, p =>
    if rd s (lkPg p) lk_STATUS_TAKEOVER_VALID = 1 ∧ ¬ (portSt s p).failover then
      routePort s n (rd s (lkPg p) lk_STATUS_TAKEOVER)
    else p

/-- A port of the job (R25, R216, R503). -/
def jobPort (s : State) (p : Nat) : Bool := rd s (lkPg p) lk_CFG_ENABLE == 1 && rd s (lkPg p) lk_CFG_FOREIGN == 0

/-- The tile of this module that waits for an answer to a packet. -/
def waitingTile (s : State) (f : TileSt → Bool) : Option Tile :=
  (s.tiles.find? (fun x => f x.2)).map (fun x => BitVec.ofNat 11 x.1)

/-- The first member of a list that `p` accepts, changed by `f`. -/
def mapFirst {α : Type} (p : α → Bool) (f : α → α) : List α → List α
  | [] => []
  | a :: as => if p a then f a :: as else a :: mapFirst p f as

/-- The stream that a transfer sends to, if its destination is one (R183, R323). -/
def DmaEnt.stream (e : DmaEnt) : Option Nat :=
  if bits (leNat ((e.bytes.drop 0x20).take 1)) 6 4 = 4 then some (leNat ((e.bytes.drop 8).take 8) % 4096) else none

/-- An active transfer whose requests to other modules carry a tag. -/
def DmaEnt.tagged (e : DmaEnt) (tag : Nat) : Bool := e.active && e.tag % 65536 == tag

/-- An active transfer keeps the first response other than OK that one of its packets received (R184). -/
def dmaNote (s : State) (t : Tile) (p : DmaEnt → Bool) (rsp : Nat) : State :=
  s.modTile t (fun ts =>
    { ts with dma := mapFirst p (fun e => { e with rsp := if e.rsp = 0 then rsp else e.rsp }) ts.dma })

/-- A request to another module has its response: its LSE credit returns (R286). -/
def lseReturn (s : State) (q : Nat) (src : Party) (tag : Nat) : State :=
  { s with lseOut := s.lseOut.eraseP (fun x => x.peer == q && x.src == src && x.tag == tag % 65536) }

/-- An LSE request failed (R232): the loose access receives ERR_FAILED, or the DMA transfer keeps it. -/
def failLse (s : State) (a tag : Nat) : State :=
  let self := fun t => Party.tile (BitVec.ofNat 3 s.module) t
  match waitingTile s (fun ts => ts.loose.any (fun l => l.tag % 65536 == tag && l.addr.toNat == a)) with
  | some t => send s (.lseRsp (self t) tag 5 [])
  | none =>
    match waitingTile s (fun ts => ts.dma.any (·.tagged tag)) with
    | some t => lseReturn (dmaNote s t (·.tagged tag) 5) (bits a 47 45) (self t) tag
    | none => s

/-- A packet is reported failed to its sender (R184, R185, R232, R319): ERR_FAILED; a signal or a message that no port
can carry gets ERR_UNMAPPED, and ERR_FAILED where the path was lost after the packet had been injected. -/
def failPkt (s : State) (ty addr : Nat) (data : List Byte) (lost : Bool) : State :=
  if ty = tyLseRead ∨ ty = tyLseWrite then failLse s (addr % 2 ^ 48) (addr / 2 ^ 48)
  else if ty = tyStream then
    match waitingTile s (fun ts => ts.dma.any (fun e => e.active && e.stream == some (addr % 4096))) with
    | some t => dmaNote s t (fun e => e.active && e.stream == some (addr % 4096)) 5
    | none => s
  else if ty = tySignal then
    match waitingTile s (fun ts => ts.sigs.any (fun x => x.word.toNat == addr)) with
    | some t => send s (.signalRsp t (BitVec.ofNat 64 addr) (if lost then 5 else 2))
    | none => s
  else if ty = tyMailbox ∧ leNat (data.take 4) / 2 ^ 30 = 0 then
    send s (.mboxRsp (BitVec.ofNat 11 (leNat (data.take 4))) (BitVec.ofNat 64 addr) (if lost then 4 else 3))
  else s

/-- A packet takes the next PSN of (ORIGIN, class) of a port and joins its queue (R307, R313). -/
def queuePkt (s : State) (p : Nat) (c : LinkClass) (ty flags addr : Nat) (data : List Byte) : State :=
  let x := portSt s p
  let n := smGet (fun _ => 0) x.psn (clsCode c)
  let hdr : PktHdr := { type := ty, flags := flags, len := data.length, origin := p, psn := n, addr := addr }
  let psn := smPut (fun _ => 0) x.psn (clsCode c) ((n + 1) % 65536)
  setPort s p { x with psn := psn, queue := x.queue ++ mkCells c hdr data }

/-- Send a packet by a port: it waits while the port's failover runs (R318), joins the queue of the port that carries
the route, or is reported failed when that port does not carry its class (R319). -/
def sendPkt (s : State) (p : Nat) (c : LinkClass) (ty flags addr : Nat) (data : List Byte) : State :=
  let q := routePort s 64 p
  let x := portSt s q
  if x.failover then
    let w := x.waiting ++ [(c, ty, flags, addr, data)]
    setPort s q { x with waiting := w }
  else if carries s q c then queuePkt s q c ty flags addr data
  else failPkt s ty addr data false

/-- The port to module `q` of the bolt for address `a` (R22, R23, R285). -/
def boltPort (s : State) (q a : Nat) : Nat :=
  let j := (q + 15 - s.module) % 8
  if q = s.module ^^^ 1 then (if bits a 8 6 < 4 then 4 * j + bits a 8 6 else 28 + bits a 8 6 - 4)
  else 4 * j + bits a 7 6

/-- The SIZE field of an LSE packet (R307). -/
def sizeFlag (n : Nat) : Nat := if n = 4 then 0 else if n = 8 then 4 else 8

/-- The module of a party. -/
def partyModule (s : State) : Party → Nat
  | .tile m _ => m.toNat
  | _ => s.module

/-- A party is a tile of this module that is OFF: its router discards what comes to it (R434 step 3). -/
def partyOff (s : State) (p : Party) : Bool :=
  match p with
  | .tile m t => m.toNat == s.module && (s.tile t).off
  | _ => false

/-- The class of a signal that leaves the module (R239, R517); that of a DMA SIG is its descriptor's CLASS. -/
def signalClass : Sender → LinkClass
  | .host _ => .mgt
  | .mgmt => .mgt
  | _ => .sch

/-- A sync signal goes to its target: on the chip, or by the port of its module (R239). -/
def postSignal (s : State) (c : LinkClass) (src : Sender) (w : W64) : State :=
  if bits w.toNat 30 28 = s.module then send s (.signal src w)
  else sendPkt s (boltPort s (bits w.toNat 30 28) 0) c tySignal 0 w.toNat []

/-- An LSE request goes to another module (R285, R286): with a credit of its peer by its port, else it waits. One that a
running failover holds back is marked 64 above the port that failed. -/
def postLse (s : State) (src : Party) (a ty flags tag : Nat) (data : List Byte) (m : NetMsg) : State :=
  let p := boltPort s (modOf a) a
  let q := routePort s 64 p
  let r : LseReq := { peer := modOf a, port := if (portSt s q).failover then 64 + q else q, src := src, tag := tag % 65536 }
  if 256 ≤ (s.lseOut.filter (fun x => x.peer == modOf a)).length then { s with lseWait := s.lseWait ++ [m] }
  else sendPkt { s with lseOut := s.lseOut ++ [r] } p .lse ty flags (a + tag % 65536 * 2 ^ 48) data

/-- A message goes to its target; to another module by the port of its target (R239, R256), where the address that picks
among the ports of a group is 0 for a message without one. -/
def post (s : State) (m : NetMsg) : State :=
  match m with
  | .lseRead src a size tag =>
    if modOf a.toNat = s.module then send s m else postLse s src a.toNat tyLseRead (sizeFlag size) tag [] m
  | .lseWrite src a data tag =>
    if modOf a.toNat = s.module then send s m else postLse s src a.toNat tyLseWrite (sizeFlag data.length) tag data m
  | .lseRsp dst tag rsp data =>
    if partyModule s dst = s.module then (if partyOff s dst then s else send s m)
    else sendPkt s (boltPort s (partyModule s dst) 0) .lse tyLseResp 0 (rsp + tag % 65536 * 2 ^ 48) data
  | .signal src w => postSignal s (signalClass src) src w
  | .mbox stamp w data rcv =>
    if bits w.toNat 30 28 = s.module then send s m
    else sendPkt s (boltPort s (bits w.toNat 30 28) 0)
      (if rcv then .rcv else if stamp.toNat / 2 ^ 30 = 0 then .sch else .mgt) tyMailbox 0 w.toNat (leBytes 4 stamp.toNat ++ data)
  | m => send s m

/-- The requests that wait for LSE credits go, oldest first, as far as credits allow (R286). -/
def lsePump (s : State) : State := forEach s.lseWait (fun m s => post s m) { s with lseWait := [] }

/-- A packet of a class other than TIM that a FOREIGN port receives is discarded, counted and logged (R25). -/
def foreignDrop (s : State) (p : Nat) (c : LinkClass) : State :=
  logReq (raiseF (inc s (lkPg p) lk_FOREIGN_DROP 1) (lkPg p) lk_F_FOREIGN) 2 0x0501 (lkPg p) (b1 p ++ b1 (clsCode c))

/-- What a packet of a class does where it arrives by a port (R25). -/
def unlessForeign (s : State) (p : Nat) (c : LinkClass) (k : State) : State :=
  if rd s (lkPg p) lk_CFG_FOREIGN = 1 ∧ c ≠ .tim then foreignDrop s p c else k

/-- The port of the first packet in flight that `p` accepts, and the state without the packet. -/
def takePort (s : State) (p : Nat → PktHdr → List Byte → Bool) : Option Nat × State :=
  let r := takeMsg s (fun m => match m with | .pkt q h d => p q h d | _ => false)
  (match r.1 with | some (.pkt q _ _) => some q | _ => none, r.2)

/-- A port is in a state that carries sequenced cells (R320). -/
def portUp (s : State) (p : Nat) : Bool := portState s p == stActive || portState s p == stLull

/-- What a packet of a class does that arrives by a port: one that the port has received already (`got`), or one that comes
now, which only a port in a state that carries sequenced cells hears (R25, R320). -/
def whenHeard (got : Bool × State) (p : Nat) (c : LinkClass) (k : State → State) : State :=
  if got.1 || portUp got.2 p then unlessForeign got.2 p c (k got.2) else got.2

/-- The data of a recovery message (R245, R442, R450). R307 leaves it to the management core: this coding is the model's
(log entry 126). -/
def rcvBytes : RcvMsg → List Byte
  | .jobHold => b1 0
  | .lost m t => b1 1 ++ b1 m.toNat ++ b2 (match t with | some t => t.toNat | none => 0xFFFF)
  | .regionRead off len => b1 2 ++ leBytes 8 off ++ b4 len
  | .regionWrite off data => b1 3 ++ leBytes 8 off ++ data
  | .regionData off rsp data => b1 5 ++ leBytes 8 off ++ b1 rsp ++ data
  | .regionAck off rsp => b1 6 ++ leBytes 8 off ++ b1 rsp
  | .homePart bolt module off data => b1 7 ++ b1 bolt.toNat ++ b1 module.toNat ++ leBytes 8 off ++ data
  | .other data => b1 4 ++ data

/-- A recovery message leaves by a port (R307). -/
def sendRcv (s : State) (p : Nat) (m : RcvMsg) : State := sendPkt s p .rcv tyRcv 0 0 (rcvBytes m)

/-- A LOST notice of module `m` goes to this chip's tiles and to the management core of every other module of the job in
the bolt (R245). -/
def sendLost (s : State) (m : Nat) (x : Option Tile) : State :=
  let peers := (List.range 8).filter (fun q => q != s.module && q != m && jobPort s (boltPort s q 0))
  forEach peers (fun q s => sendRcv s (boltPort s q 0) (.lost (BitVec.ofNat 3 m) x))
    (send s (.lost (BitVec.ofNat 3 m) x))

/-- A CX_CTRL packet (R307). -/
def cxCtrlPkt (s : State) (p gid attempt kind hem : Nat) : State :=
  sendPkt s p .sch tyCxCtrl 0 (gid + attempt % 8 * 2 ^ 24 + kind * 2 ^ 28 + hem * 2 ^ 32) []

/-- The state without the first packet in flight that `p` accepts, and whether there was one. -/
def takePkt (s : State) (p : Nat → PktHdr → List Byte → Bool) : Bool × State :=
  let r := takeMsg s (fun m => match m with | .pkt q h d => p q h d | _ => false)
  (r.1.isSome, r.2)

end Sys2Proof.Machine
end

