-- ==== Sys2Proof/Machine/Region.lean ====
section
/-! DEFINITION. The home region and the twin-keep region (R289 to R294, R437), the manifest in force (R501, R503) and
the health of the twin (R441). -/

namespace Sys2Proof.Machine

/-! ### The manifest in force -/

/-- A field of the manifest in force. -/
def manField (s : State) (o n : Nat) : Nat :=
  match s.manifest with
  | some m => leNat ((m.drop o).take n)
  | none => 0

/-- JOB_ID (R501): 0 without a manifest. -/
def jobId (s : State) : Nat := manField s 0x10 8

/-- Bolt entries and module entries. -/
def manBolts (s : State) : Nat := manField s 0x1C 2
def manMods (s : State) : Nat := manField s 0x1E 2

/-- The offset of bolt entry `i` and of module entry `i`. -/
def boltOff (i : Nat) : Nat := 0x100 + 16 * i
def modOff (s : State) (i : Nat) : Nat := 0x100 + 16 * manBolts s + 32 * i

/-- The module's own entry, found by DIE_ID (R502). -/
def ownEntry (s : State) : Option Nat :=
  (List.range (manMods s)).find? (fun i => manField s (modOff s i) 8 == s.fuses.c0.dieId.toNat)

/-- The module's position as R353 lays it out: rack [31:24], bolt [23:21], module [20:18]. -/
def ownId (s : State) : Nat :=
  match ownEntry s with
  | some i => manField s (modOff s i + 8) 1 * 2 ^ 24 + manField s (modOff s i + 9) 1 % 8 * 2 ^ 21
      + manField s (modOff s i + 10) 1 % 8 * 2 ^ 18
  | none => s.module * 2 ^ 18

/-! ### Regions -/

/-- The base of the twin-keep region that the module holds, and its size in bytes (R289). -/
def keepBase (s : State) : Nat := rd s (lpPg 0) lp_TK_BASE * 2 ^ 30
def keepSize (s : State) : Nat := rd s (lpPg 0) lp_TK_SIZE * 2 ^ 30

/-- The base of the home region (R437). -/
def homeBase (s : State) : Nat := rd s twPg tw_HOME_BASE * 2 ^ 30

/-- The ASCII bytes JTTWKEEP. -/
def keepMagic : Nat := 0x5045454B5754544A

/-- The address of commit record `i` and of section table `i` of a region at `b` (R289). -/
def recAddr (b i : Nat) : Nat := b + 0x80 * i
def tableAddr (b i : Nat) : Nat := b + 0x1000 + 0x80000 * i

/-- STEP, NSEC and TABLE of a commit record (R290). -/
def recStep (s : State) (b i : Nat) : Nat := memNat s.lp (recAddr b i + 0x10) 8
def recNsec (s : State) (b i : Nat) : Nat := memNat s.lp (recAddr b i + 0x18) 4
def recTable (s : State) (b i : Nat) : Nat := memNat s.lp (recAddr b i + 0x1C) 1

/-- The sum of the fifteen words that REC_CHECK covers. -/
def recCheck (bs : List Byte) : Nat :=
  ((List.range 15).map (fun i => leNat ((bs.drop (8 * i)).take 8))).sum % 2 ^ 64

/-- A commit record is valid (R292); one that cannot be read, or whose table cannot, is not (R280, R443). -/
def recValid (s : State) (b i : Nat) : Bool :=
  let r := memRead s.lp (recAddr b i) 0x80
  !lpIsBad s (recAddr b i) 0x80
    && !lpIsBad s (tableAddr b (recTable s b i % 2)) (64 * min (recNsec s b i) 8192) && leNat (r.take 8) == keepMagic && leNat (r.drop 0x78) == recCheck r && leNat ((r.drop 8).take 8) == jobId s
    && (r.drop 0x38).take 64 == digestBytes (memRead s.lp (tableAddr b (recTable s b i % 2)) (64 * min (recNsec s b i) 8192))

/-- The current commit of a region: its record (R292). -/
def currentRec (s : State) (b : Nat) : Option Nat :=
  match recValid s b 0, recValid s b 1 with
  | true, true => if recStep s b 0 < recStep s b 1 then some 1 else some 0
  | true, false => some 0
  | false, true => some 1
  | false, false => none

/-- The twin is healthy (R441, R572): TWIN_PRESENT reads low, its G7 ports ACTIVE without PEER_FAULT, its last commit into the region the job commit or
the step after it, and FREEZE 0. -/
def twinHealthy (s : State) : Bool :=
  !s.pins.twinPresent &&
  (List.range 4).all (fun i => rd s (lkPg (28 + i)) lk_STATUS_STATE == 2 && rd s (lkPg (28 + i)) lk_STATUS_PEER_FAULT == 0)
    && rd s (lpPg 0) lp_FREEZE == 0 && decide (0 < keepSize s)
    && (match currentRec s (keepBase s) with
      | some i => recStep s (keepBase s) i == s.jobCommit || recStep s (keepBase s) i == s.jobCommit + 1
      | none => false)

/-- PARTNER_OK follows the health of the twin; its fall sets PARTNER_LOST (R454, R455). -/
def updatePartner (s : State) : State :=
  let ok := twinHealthy s
  let s' := if rd s twPg tw_PARTNER_OK = 1 ∧ ¬ ok then raiseF s twPg tw_F_PARTNER_LOST else s
  wr s' twPg tw_PARTNER_OK (b2n ok)

end Sys2Proof.Machine
end

