-- ==== Sys2Proof/Machine/Contain.lean ====
section
/-! DEFINITION. Containment: LOST notices (R244, R245), broken tack lines (R251), the collective table and aborts (R328,
R333), host completions in bulk (R520), the fence (R434, R20) and fail-safe (R447, R448). -/

namespace Sys2Proof.Machine

/-! ### LOST -/

/-- An owner word names the lost party (R244); `x` absent stands for the whole module. -/
def ownMatches (w m : Nat) (x : Option Tile) : Bool :=
  bit w 31 &&
    (match bits w 30 29 with
      | 0 => bits w 26 24 == m && (match x with | none => true | some t => bits w 10 0 == t.toNat)
      | 1 => bits w 26 24 == m
      | 2 => true
      | _ => false)

/-- Every SY block sets LOST on the counters whose owner word matches (R245); that of a fenced tile is frozen (R247). -/
def markLost (s : State) (m : Nat) (x : Option Tile) : State :=
  { s with regs := s.regs.map (fun c =>
      if decide (0x1000 ≤ c.1 / 0x1000) && (c.1 / 0x1000 % 4 == 3) && decide (0x300 ≤ c.1 % 0x1000)
          && decide (c.1 % 0x1000 < 0x3C0) && rd s (c.1 / 0x1000 - 3) tl_STATUS_FENCED == 0 && ownMatches c.2.toNat m x
      then (c.1, c.2 ||| 0x00800000#32) else c) }

/-! ### Tack lines -/

/-- Every PEND bit of line `k` is cleared (R248, R251), a progress event where one was set (R263). -/
def clearPend (s : State) (k : Nat) : State :=
  let ts := tilesWhere s 3 0x044 (fun w => bit w (16 + k))
  forEach ts (fun t s => wr s (syPg t) sy_TACK_PEND (setBits (rd s (syPg t) sy_TACK_PEND) k k 0))
    (if ts.isEmpty then s else progress s)

/-- The line becomes broken (R251): BROKEN is set, its PEND bits clear, and every tile that waits on it takes the SYNC
cause; a tile in its handler takes it on return. -/
def breakLine (s : State) (k : Nat) : State :=
  let waiting := (listedTiles s).filter (fun t =>
    ((s.tile t).tackWait.map (·.1) == some (BitVec.ofNat 4 k)) && tackPend s t k && !s.hmode t)
  let s := clearPend (raiseBit s tkPg k) k
  let s := { s with tackGot := smDrop s.tackGot (fun x => x / 256 == k), tackSent := s.tackSent.filter (· != k) }
  forEach waiting
    (fun t s => tackCause (unrequest (s.modTile t (fun ts => { ts with tackWait := none })) t rowSync) t k) s

/-- Every line in which a tile that is fenced, reset or OFF participates becomes broken (R251). -/
def breakTileLines (s : State) (t : Tile) : State :=
  forEach (List.range 16) (fun k s => if bit (rd s (syPg t) sy_TACK_PART) k then breakLine s k else s) s

/-! ### Collectives -/

/-- Bytes of module memory (R284), without what the read itself may find. -/
def modRead (s : State) (a n : Nat) : List Byte :=
  match decodeAddr s a with
  | .lp a => memRead s.lp a n
  | .spool t o => spRead s (s.ptile t) o n
  | _ => List.replicate n 0

/-- A collective descriptor (R328). -/
structure CxDesc where
  gid : Nat
  op : Nat
  ring : Bool
  lay : Nat
  root : Bool
  parent : Option Nat
  children : List Nat
  members : Nat
  rank : Nat
  nextG : Option Nat
  prevG : Option Nat
  localParts : Nat
  sigCtr : Nat
  words : Nat
  bufOff : Nat
  result : Nat
  list : Nat
  bad : Bool
deriving DecidableEq, Repr

/-- A port group with its valid bit. -/
def optGroup (b : Nat) : Option Nat := if bit b 7 then some (b % 16) else none

/-- The descriptor that 64 bytes spell; `bad` on a reserved OP or a nonzero reserved field (R338). -/
def parseDesc (bs : List Byte) : CxDesc :=
  let f := fun o n => leNat ((bs.drop o).take n)
  { gid := f 0 3, op := f 3 1, ring := bit (f 4 1) 0, lay := b2n (bit (f 4 1) 1), root := bit (f 4 1) 2,
    parent := optGroup (f 5 1), children := (List.range 16).filter (fun g => bit (f 6 2) g), members := f 8 2,
    rank := f 0xA 2, nextG := optGroup (f 0xC 1), prevG := optGroup (f 0xD 1), localParts := f 0xE 1,
    sigCtr := f 0xF 1 % 64, words := f 0x10 4, bufOff := f 0x14 4, result := f 0x18 8, list := f 0x20 8,
    bad := decide (8 < f 3 1) || decide (bits (f 4 1) 7 3 ≠ 0) || decide (bits (f 5 1) 6 4 ≠ 0)
      || decide (bits (f 0xF 1) 7 6 ≠ 0) || decide (bits (f 0xC 1) 6 4 ≠ 0) || decide (bits (f 0xD 1) 6 4 ≠ 0)
      || decide (f 0x28 24 ≠ 0) }

/-- The table's address (R339). -/
def descBase (s : State) : Nat := rd s cxPg cx_DESC_BASE_LO * 64 + rd s cxPg cx_DESC_BASE_HI * 2 ^ 32

/-- Descriptor `i` of the table. -/
def descAt (s : State) (i : Nat) : CxDesc := parseDesc (modRead s (descBase s + 64 * i) 64)

/-- The tiles that a partition list names (R151): n, then n logical tiles. -/
def parseList (s : State) (bs : List Byte) : List Tile :=
  ((List.range (min (leNat (bs.take 2)) 64)).map (fun i => leNat ((bs.drop (2 + 2 * i)).take 2))).filter (· < s.ntiles)
    |>.map (BitVec.ofNat 11)

/-- The descriptor of an open collective. -/
def CxGroup.d (g : CxGroup) : CxDesc := { parseDesc g.bytes with gid := g.gid }

/-- The decision of a group goes to the MXEs of the listed tiles (R331 step 4). -/
def sendDecision (s : State) (ts : List Tile) (gid : Nat) (k : DecKind) (hem attempt : Nat) : State :=
  forEach ts (fun t s => send s (.decision t (BitVec.ofNat 24 gid) k (BitVec.ofNat 16 hem) (BitVec.ofNat 3 attempt))) s

/-- The edges of a collective: its parent and its children. -/
def descEdges (d : CxDesc) : List CxSrc :=
  (match d.parent with | some _ => [CxSrc.parent] | none => []) ++ d.children.map (fun g => .child (BitVec.ofNat 4 g))

/-- The port group of an edge of a collective. -/
def edgeGroup (d : CxDesc) : CxSrc → Option Nat
  | .parent => d.parent
  | .child g => some g.toNat
  | .ring => d.nextG
  | .localTile _ => none

/-- A CX_CTRL packet goes to an edge, by the lowest port of its group. -/
def ctrlEdge (s : State) (d : CxDesc) (e : CxSrc) (attempt kind hem : Nat) : State :=
  match edgeGroup d e with
  | some g => cxCtrlPkt s (4 * g) d.gid attempt kind hem
  | none => s

/-- The last faulting collective (R339). -/
def cxLast (s : State) (gid op : Nat) : State := wr (wr s cxPg cx_LAST_OP op) cxPg cx_LAST_GROUP gid

/-- A collective is aborted (R333): exhausted to its tiles, ABORT to its edges, the group freed, the record logged.
`from_` is the edge that the abort came by. -/
def abortDesc (s : State) (d : CxDesc) (ts : List Tile) (hem attempt cause : Nat) (from_ : Option CxSrc) : State :=
  let s := sendDecision s ts d.gid .exhausted hem attempt
  let s := forEach ((descEdges d).filter (fun e => some e != from_)) (fun e s => ctrlEdge s d e attempt 6 hem) s
  let s := { s with cx := s.cx.filter (fun g => g.gid != d.gid) }
  let s := cxLast (inc (raiseF s cxPg cx_F_ABORT) cxPg cx_ABORTS 1) d.gid d.op
  logReq s 3 0x0106 cxPg (leBytes 3 d.gid ++ b1 d.op ++ b1 cause)

/-- An open collective is aborted. -/
def abortGroup (s : State) (g : CxGroup) (cause : Nat) (from_ : Option CxSrc) : State :=
  abortDesc s g.d g.tiles (g.hem.getD 0) g.attempt cause from_

/-- Every open collective that satisfies `p` is aborted. -/
def abortWhere (s : State) (p : CxGroup → Bool) (cause : Nat) : State :=
  forEach (s.cx.filter p) (fun g s => abortGroup s g cause none) s

/-- A LOST(m, all) notice breaks the bolt-scope lines whose mask names the module (R253). -/
def breakLinesOf (s : State) (m : Nat) : State :=
  forEach (List.range 16)
    (fun k s => if rdi s tkPg tk_LINE_SCOPE k = 1 ∧ bit (rdi s tkPg tk_LINE_MODULES k) m then breakLine s k else s) s

/-! ### Host queues in bulk -/

/-- A queue's key: port and queue, 256 for the management queue (R510). -/
def qKey (port q : Nat) : Nat := port * 512 + q

/-- A queue. -/
def queueGet (s : State) (k : Nat) : Option HostQ := smGet (fun _ => none) s.queues k

/-- Set a queue. -/
def queuePut (s : State) (k : Nat) (q : Option HostQ) : State := { s with queues := smPut (fun _ => none) s.queues k q }

/-- The QPN of a queue (R510). -/
def qpnOf (q : Nat) : Nat := if q = 256 then 0x10 else 0x100 + q

/-- A queue pair. -/
def qpGet (s : State) (port qpn : Nat) : Qp := smGet (fun _ => { st := .idle, retries := 0, rnr := 0, rate := 0 }) s.qps (port * 0x1000000 + qpn)

/-- Set a queue pair. -/
def qpPut (s : State) (port qpn : Nat) (x : Qp) : State :=
  { s with qps := smPut (fun _ => { st := .idle, retries := 0, rnr := 0, rate := 0 }) s.qps (port * 0x1000000 + qpn) x }

/-- Entry `i` of a queue's ring (R512). -/
def ringEntry (s : State) (q : HostQ) (i : Nat) : List Byte := memRead s.lp (q.ring + 64 * (i % 2 ^ q.n)) 64

/-- The completion of an entry (R516, R518). -/
def cplOf (e : List Byte) (status detail : Nat) : Cpl :=
  { tag := leNat ((e.drop 4).take 4), status := status, seq := leNat ((e.drop 0x38).take 4), detail := detail,
    notify := bit (leNat ((e.drop 1).take 1)) 1, hold := .no, waited := false }

/-- Entries that the host has announced and the device has not fetched. -/
def unstarted (q : HostQ) : Nat := (q.tail + 2 ^ 32 - q.head) % 2 ^ 32

/-- Every unstarted command of a queue completes with a status (R510, R513, R520). -/
def flushQueue (s : State) (k status detail : Nat) : State :=
  match queueGet s k with
  | none => s
  | some q =>
    let cs := (List.range (unstarted q)).map (fun i => cplOf (ringEntry s q (q.head + i)) status detail)
    queuePut s k (some { q with head := q.tail, cpls := q.cpls ++ cs })

/-- Fail-safe completes every data-queue command on every port whose QP is connected (R520). -/
def flushData (s : State) : State :=
  forEach (s.queues.map (·.1))
    (fun k s => if k % 512 < 256 ∧ (qpGet s (k / 512) (qpnOf (k % 512))).st = .ready then flushQueue s k 0x0D 0 else s) s

/-! ### The fence -/

/-- A fault abandons a stow in progress (R414). -/
def abortStow (s : State) : State :=
  match s.stowReq with
  | some r => logReq { s with stowReq := none, stowTold := [] } 3 0x0808 mgPg (leBytes 8 r.k)
  | none => s

/-- Every accumulator of a tile goes to IDLE and drops a latched decision (R105). -/
def idleAccs (s : State) (t : Tile) : State :=
  forEach (List.range 4) (fun n s => clearDec (setAccState s t n accIdle) t n) s

/-- The tile's core and engines lose what they had in progress (R434 steps 2 and 3). -/
def TileSt.dropWork (ts : TileSt) : TileSt :=
  { ts with causes := [], loose := [], sigs := [], sends := [], dma := [], wait := none, tackWait := none,
            realign := none, closeWait := none, bay := none, rung := false, mxQ := [], vxQ := [], mxBusy := false,
            vxBusy := false, held := none }

/-- A physical tile that failed in service (R20): a soft-retire record while its row has a spare, else NO_SPARE, and the
next bring-up finds the tile failed. `seq` is the SEQ of the record that caused it (R488). -/
def softRetire (s : State) (t : Tile) (seq : Nat) : State :=
  let p := s.ptile t.toNat
  if (softRetired s).contains p then s
  else if 0 < spareLeft s (p / 36) then repairWrite s 1 p 0 seq
  else
    let l := if s.failed.contains p then s.failed else s.failed ++ [p]
    logReq { s with failed := l } 3 0x000C (tlPg t) (b1 (p / 36) ++ b1 (p % 36))

/-- An answer on its way to a tile. -/
def answersTo (s : State) (t : Tile) (m : NetMsg) : Bool :=
  match m with
  | .lseRsp dst _ _ _ => dst == .tile (BitVec.ofNat 3 s.module) t
  | .signalRsp u _ _ => u == t
  | .mboxRsp u _ _ => u == t
  | _ => false

/-- The management core fences a tile (R434, R245, R251, R333, R20), a fault that abandons a stow (R414): answers to it are
discarded at the bypassed router. No rule says what HMODE and RUN of a fenced tile read: that they keep their values is
the model's choice (log entry 119). -/
def fenceTile (s : State) (t : Tile) : State :=
  if rd s (tlPg t) tl_STATUS_FENCED = 1 then s
  else
    let p := tlPg t
    let seq := nextSeqOf s
    let s := abortStow s
    let s := wr (wr (wr s p tl_STATUS_FENCED 1) p tl_STATUS_RUNNING 0) p tl_STATUS_SLEEP 0
    let s := idleAccs (s.modTile t (fun ts => { ts.dropWork with off := true })) t
    let s := unrequestAll { s with net := s.net.filter (fun m => !answersTo s t m) } t
    let s := markLost s s.module (some t)
    let s := breakTileLines (sendLost s s.module (some t)) t
    let s := abortWhere s (fun g => g.tiles.contains t) 0
    let s := fifoReset (fifoReset s 0 t.toNat) 1 t.toNat
    softRetire s t seq

/-- A double trap (R196): the tile stops, releases its hold and raises a TILE fault, and the management core fences it
(R423). The rule is silent on HMODE: that it clears, as a c.halt in handler mode clears it (R195), is the model's choice
(log entry 119). -/
def doubleTrap (s : State) (t : Tile) (c : Cause) : State :=
  let s := wr (wr (wr s (tlPg t) tl_STATUS_DOUBLE 1) (tlPg t) tl_STATUS_RUNNING 0) (tlPg t) tl_STATUS_HMODE 0
  let s := unrequestAll (s.modTile t (fun ts => { ts.unheld with causes := [] })) t
  fenceTile (logReq (raiseF s (tlPg t) tl_F_DOUBLE) 3 0x0004 (tlPg t) (b1 c.code ++ b1 0 ++ b2 (rd s (tlPg t) tl_TRAP_PC))) t

/-- Trap entry (R189 to R196): blocked while the core waits in mx.close, while it sleeps, and until the engine queues hold
nothing and every earlier loose access has its response; with no cause due nothing happens. -/
def takeTrap (s : State) (t : Tile) : State :=
  let ts := s.tile t
  let hm := s.hmode t
  if rd s (tlPg t) tl_STATUS_RUNNING = 0 ∨ ¬ causeDue ts hm then s
  else match firstCause (ts.causes.filter (fun c => !hm || c.inHandler)) with
    | none => s
    | some c =>
      if c.kind ≠ .precise ∧ ts.closeWait.isSome then s
      else if hm ∨ rd s (tlPg t) tl_CTRL_TRAP_EN = 0 then doubleTrap s t c
      else if ¬ ts.loose.isEmpty ∨ ¬ enginesDrained ts then s
      else enterTrap s t c

/-! ### Fail-safe -/

/-- Tile issue is halted on every tile (R448); each is OFF, so that the lines they take part in break (R251). No rule says
what HMODE and RUN of a halted tile read: they keep their values (log entry 119). -/
def haltAll (s : State) : State :=
  let s := forEach (tilesWhere s 0 0x044 (fun w => bit w 0 || bit w 4))
    (fun t s => wr (wr s (tlPg t) tl_STATUS_RUNNING 0) (tlPg t) tl_STATUS_SLEEP 0) s
  let s := forEach (listedTiles s) (fun t s => s.modTile t TileSt.dropWork) s
  forEach (tilesWhere s 3 0x044 (fun w => decide (w % 2 ^ 16 ≠ 0))) (fun t s => breakTileLines s t) { s with netReq := [] }

/-- The twin-keep region is served after fail-safe (R283); without REFCLK_100 it is not (R359). -/
def keepServed (s : State) : Bool :=
  (rd s (lpPg 0) lp_ENABLE == 1) && (rd s (lpPg 0) lp_SERVE == 1) && (rd s ckPg ck_AON_INTERNAL == 0)

/-- Every port enters FAILSAFE (R320, R448): a running calibration ends (R335), and the health of the twin follows
(R441). -/
def portsFailSafe (s : State) : State :=
  let s := forEach ((List.range 64).filter (fun p => (portSt s p).cal.isSome)) (fun p s => calEnd s p) s
  updatePartner (forEach (List.range 64) (fun p s => wr s (lkPg p) lk_STATUS_STATE 4) s)

/-- Fail-safe (R448), in the order of its table; `lull` says whether the trigger permits lull mode (R447). It abandons a stow
in progress (R414). -/
def driveFailSafe (s : State) (lull : Bool) : State :=
  if s.failSafe.isSome then { s with failSafe := some (lull && s.failSafe.getD true) }
  else
    let s := { s with pins := { s.pins with faultN := false, smbAlertN := false }, failSafe := some lull }
    let s := flushData (portsFailSafe (haltAll (abortStow s)))
    let s := forEach (List.range 4) (fun n s => wr s (enPg n) en_SENDING_LF 1) s
    if keepServed s then s else forEach (List.range 4) (fun g s => wr s (lpPg g) lp_SELF_REFRESH 1) s

end Sys2Proof.Machine
end

