-- ==== Sys2Proof/Machine/Clock.lean ====
section
/-! DEFINITION. The choice of time parents and the time states (R349 to R353). -/

namespace Sys2Proof.Machine

/-- Time states (R351). -/
def tsFree : Nat := 0
def tsAcquire : Nat := 1
def tsLocked : Nat := 2
def tsHoldover : Nat := 3
def tsPtp : Nat := 4

/-- The offer that a port carries (R350): the last ANNOUNCE of an ACTIVE or LULL port, from a sender that is LOCKED or
the active root, whose HOPS is 0. An offer of a root that is the module itself is its own announcement come back. -/
def liveOffer (s : State) (p : Nat) : Option Announce :=
  match smGet (fun _ => none) s.offers p with
  | some a =>
    if (portState s p = stActive ∨ portState s p = stLull) ∧ a.rootId ≠ ownId s ∧ (a.tstate = tsLocked ∨ a.hops = 0)
    then some a else none
  | none => none

/-- Every such offer, by port. -/
def allOffers (s : State) : List (Nat × Announce) :=
  (List.range 64).filterMap (fun p => (liveOffer s p).map (fun a => (p, a)))

/-- The port is a candidate (R350): its asymmetry is VALID. -/
def isCandidate (s : State) (o : Nat × Announce) : Bool := rdi s tmPg tm_VALID o.1 == 1

/-- The order of R350 on offers: (PRIORITY, ROOT_ID), HOPS, port. -/
def offerLt (x y : Nat × Announce) : Bool :=
  let k := fun (o : Nat × Announce) => ((o.2.priority * 2 ^ 32 + o.2.rootId) * 2 ^ 8 + o.2.hops) * 2 ^ 8 + o.1
  decide (k x < k y)

/-- The least of a list of offers. -/
def bestOffer : List (Nat × Announce) → Option (Nat × Announce)
  | [] => none
  | o :: os => match bestOffer os with
    | none => some o
    | some b => if offerLt b o then some b else some o

/-- The module is the active root (R349, R350): root-capable, and its own (PRIORITY, ROOT_ID) lower than every offer. -/
def ownRoot (s : State) : Bool :=
  rd s tmPg tm_ROOT_EN == 1
    && (allOffers s).all (fun o => decide (rd s tmPg tm_PRIORITY * 2 ^ 32 + ownId s < o.2.priority * 2 ^ 32 + o.2.rootId))

/-- A root or a parent is in force. -/
def hasRoot (s : State) : Bool := rd s tmPg tm_PARENT_VALID == 1 || rd s tmPg tm_ACTIVE_ROOT == 1

/-- The active root is known to be `id`; a change from the last one known is recorded (R351). -/
def setRoot (s : State) (id : Nat) : State :=
  let old := rd s tmPg tm_ROOT_ID
  let known := s.rooted
  let s := { s with rooted := true }
  let s := if known ∧ old ≠ id then logReq (raiseF s tmPg tm_F_ROOT_CHANGE) 1 0x0304 tmPg (b4 id) else s
  wr s tmPg tm_ROOT_ID id

/-- LOCKED drops (R351, R364): cause 0 offset, 1 parent. -/
def dropLock (s : State) (cause : Nat) : State :=
  if rd s tmPg tm_LOCKED = 1 then
    logReq (raiseF (wr s tmPg tm_LOCKED 0) tmPg tm_F_LOCK_LOST) 2 0x0305 tmPg (b1 cause)
  else s

/-- An empty filter (R345). -/
def Filt.empty : Filt := { frames := 0, span := none }

/-- A sample enters the filter (R345). -/
def feed (s : State) (v : Int) : State :=
  { s with filt := { s.filt with span := match s.filt.span with
      | some (lo, hi) => some (min lo v, max hi v)
      | none => some (v, v) } }

/-- Hall time between ticks, in units of 2^-16 ns (R341): `phase` is the part of a tick that has passed. -/
def stampNow (s : State) (phase : BitVec 16) : Nat := (s.hallTime + s.rate * phase.toNat / 2 ^ 16) / 2 ^ 32 % 2 ^ 80

/-- A new time source: ACQUIRE (R351), with an empty filter. -/
def acquire (s : State) : State :=
  wr (dropLock { s with lockRun := 0, ptpSlave := false, filt := .empty } 1) tmPg tm_TSTATE tsAcquire

/-- Every module chooses its parent, or is the active root, or has neither (R350, R351). -/
def reparent (s : State) : State :=
  let was := if rd s tmPg tm_PARENT_VALID = 1 then some (rd s tmPg tm_PARENT_PORT) else none
  let cs := (allOffers s).filter (isCandidate s)
  let lost := match was with
    | some p => !(cs.any (fun o => o.1 == p))
    | none => false
  let s := if lost then raiseF s tmPg tm_F_PARENT_LOST else s
  if ownRoot s then
    (if rd s tmPg tm_ACTIVE_ROOT = 1 then s
    else
      let s := wr (wr (setRoot s (ownId s)) tmPg tm_ACTIVE_ROOT 1) tmPg tm_PARENT_VALID 0
      acquire (wr s tmPg tm_HOPS 0))
  else match bestOffer cs with
    | some (p, a) =>
      let s := wr (setRoot s a.rootId) tmPg tm_HOPS (min (a.hops + 1) 63)
      let s := if 24 < a.hops + 1 then raiseF s tmPg tm_F_DEPTH else s
      if was = some p then s
      else acquire (wr (wr (wr s tmPg tm_ACTIVE_ROOT 0) tmPg tm_PARENT_PORT p) tmPg tm_PARENT_VALID 1)
    | none =>
      if hasRoot s then
        wr (wr (wr (wr s tmPg tm_ACTIVE_ROOT 0) tmPg tm_PARENT_VALID 0) tmPg tm_HOPS 63) tmPg tm_TSTATE tsHoldover
      else s

end Sys2Proof.Machine
end

