-- ==== Sys2Proof/Machine/Memory.lean ====
section
/-! DEFINITION. Spools, LPDDR5X and loose traffic (chapter "Spools, LPDDR5X and the Bolt Address Space"): error
reports, corrections and repair, the endpoints that serve reads and writes, responses, scrub and refresh. -/

namespace Sys2Proof.Machine

/-! ### Spool errors -/

/-- Bank of a spool offset (R269). -/
def spBank (o : Nat) : Nat := bits o 10 6
/-- Bank row of a spool offset (R269). -/
def spBrow (o : Nat) : Nat := bits o 22 15
/-- ERR_LINE of a spool offset (R296). -/
def spLine (o : Nat) : Nat := spBrow o * 16 + bits o 14 11

/-- Ports of R271 and the scrub, as ST_ERR_PORT and the record number them (R296). -/
def portLocal : Nat := 0
def portNoc : Nat := 1
def portMaint : Nat := 2
def portScrub : Nat := 3

/-- The capture of the last spool error (R296). -/
def spoolErr (s : State) (p o port type synd : Nat) : State :=
  let s := wr (wr (wr s stPg st_ERR_TYPE type) stPg st_ERR_PORT port) stPg st_ERR_PTILE p
  let s := wr (wr s stPg st_ERR_BANK (spBank o)) stPg st_ERR_LINE (spLine o)
  wr (wr s stPg st_ERR_SYND synd) stPg st_ERR_WORD (bits o 5 3)

/-- The syndrome of an error at a spool word: given by the scrub, else a free value, the same on every run (R12). -/
def syndOf (s : State) (w : Nat) (synd : Option (BitVec 8)) : Nat :=
  (synd.getD (Config.eccSynd w (rd s stPg st_CE_CNT))).toNat

/-- An uncorrectable read of a spool (R274): the MEM record, the counter and the captured place. -/
def spoolUe (s : State) (p o port : Nat) (synd : Option (BitVec 8)) : State :=
  let s := spoolErr s p o port 2 (syndOf s (p * 0x100000 + o / 8) synd)
  logReq (inc (raiseF s stPg st_F_UE) stPg st_UE_CNT 1) 3 0x0201 stPg
    (b2 p ++ b1 (spBank o) ++ b2 (spLine o) ++ b1 port)

/-- A corrected spool error (R273, R276): counted; at ST_CE_LIMIT of its bank row, a repair record and a MEM record. -/
def spoolCorrect (s : State) (p o port : Nat) (synd : Option (BitVec 8)) : State :=
  let s := inc (spoolErr s p o port 1 (syndOf s (p * 0x100000 + o / 8) synd)) stPg st_CE_CNT 1
  let k := (p * 32 + spBank o) * 256 + spBrow o
  let n := smGet (fun _ => 0) s.spoolCe k + 1
  let s := { s with spoolCe := smPut (fun _ => 0) s.spoolCe k n }
  if n = rd s stPg st_CE_LIMIT then
    let s := repairWrite s 2 p (spBank o * 256 + spBrow o) (nextSeqOf s + 1)
    let s := inc (raiseF s stPg st_F_CE_LIMIT) stPg st_REPAIR_PEND 1
    logReq s 1 0x0202 stPg (b2 p ++ b1 (spBank o) ++ b1 (spBrow o))
  else s

/-- The offset of the first word of an access that holds an uncorrectable error. -/
def firstBad (s : State) (p o n : Nat) : Nat :=
  match (spWords p o n).find? (fun w => s.spoolBad.contains w) with
  | some w => (w - p * 0x100000) * 8
  | none => o

/-- The words with a correctable error that `n` bytes at `o` touch. -/
def spWeakIn (s : State) (p o n : Nat) : List Nat :=
  s.spoolWeak.filter (fun w => decide (p * 0x100000 + o / 8 ≤ w) && decide (w < p * 0x100000 + (o + n + 7) / 8))

/-- Words with a correctable error are corrected and written back, one by one (R273). -/
def spoolFixes (p port : Nat) (synd : Option (BitVec 8)) : List Nat → State → State
  | [], s => s
  | w :: ws, s =>
    spoolFixes p port synd ws
      (spoolCorrect { s with spoolWeak := s.spoolWeak.erase w } p ((w - p * 0x100000) * 8) port synd)

/-- What a read of `n` bytes at offset `o` of physical tile `p` finds (R273, R274): whether the data is good, and the
state with the error counted and recorded. -/
def spoolCheck (s : State) (p o n : Nat) (e : Ecc) (port : Nat) (synd : Option (BitVec 8)) : Bool × State :=
  if spIsBad s p o n then (false, spoolUe s p (firstBad s p o n) port synd)
  else
    let s := spoolFixes p port synd (spWeakIn s p o n) s
    match e with
    | .ok => (true, s)
    | .corrected => (true, spoolCorrect s p o port synd)
    | .uncorrectable =>
      (false, spoolUe { s with spoolBad := s.spoolBad ++ [p * 0x100000 + o / 8] } p o port synd)

/-- A read through the local port (R274): an uncorrectable word fences the tile. -/
def spoolLocal (s : State) (t : Tile) (o n : Nat) (e : Ecc) : Bool × State :=
  let r := spoolCheck s (s.ptile t.toNat) o n e portLocal none
  if r.1 then r else (false, fenceTile r.2 t)

/-! ### LPDDR5X errors -/

/-- The channel of an address (R278). -/
def lpChan (a : Nat) : Nat := bits a 13 8 ^^^ bits a 19 14

/-- The LP page of an address (R278). -/
def lpPgOf (a : Nat) : Nat := lpPg (lpChan a / 16)

/-- The capture of the last LPDDR5X error (R298). -/
def lpErr (s : State) (a type : Nat) : State :=
  let n := lpPgOf a
  let s := wr (wr s n lp_ERR_ADDR_LO (a / 64)) n lp_ERR_ADDR_HI (a / 2 ^ 32)
  wr (wr s n lp_ERR_TYPE type) n lp_ERR_CHAN (lpChan a)

/-- An uncorrectable line (R280). -/
def lpUe (s : State) (a : Nat) : State :=
  let n := lpPgOf a
  logReq (inc (raiseF (lpErr s a 2) n lp_F_UE) n lp_UE_CNT 1) 3 0x0204 n (leBytes 5 a ++ b1 (lpChan a))

/-- A corrected line (R280, R282): the corrected symbol and the row address that the placement of R278 keeps to itself
are free values, the same on every run (R12). -/
def lpCorrect (s : State) (a : Nat) : State :=
  let n := lpPgOf a
  let sym := Config.eccSymbol (a / 64) (rd s n lp_CE_CNT) % 18
  let s := wr (inc (lpErr s a 1) n lp_CE_CNT 1) n lp_ERR_SYMBOL sym
  let c := smGet (fun _ => 0) s.lpCe (a / 64) + 1
  let s := { s with lpCe := smPut (fun _ => 0) s.lpCe (a / 64) c }
  if c = rd s n lp_CE_LIMIT then
    let s := repairWrite s 3 (lpChan a) (Config.lpRow (a / 64)).toNat (nextSeqOf s + 1)
    logReq (raiseF s n lp_F_CE_LIMIT) 1 0x0205 n (leBytes 5 a ++ b1 sym)
  else s

/-- Lines with a correctable error are corrected and written back, one by one (R280). -/
def lpFixes : List Nat → State → State
  | [], s => s
  | l :: ls, s => lpFixes ls (lpCorrect { s with lpWeak := s.lpWeak.erase l } (l * 64))

/-- What a read of `n` bytes at LPDDR5X address `a` finds (R279, R280). -/
def lpCheck (s : State) (a n : Nat) (e : Ecc) : Bool × State :=
  if lpIsBad s a n then (false, lpUe s (lpBadAt s a n))
  else
    let s := lpFixes (s.lpWeak.filter (lpTouch a n)) s
    match e with
    | .ok => (true, s)
    | .corrected => (true, lpCorrect s a)
    | .uncorrectable => (false, lpUe { s with lpBad := s.lpBad ++ [a / 64] } a)

/-! ### Endpoints -/

/-- Response codes (R177). -/
def rOK : Nat := 0
def rOff : Nat := 1
def rUnmapped : Nat := 2
def rDenied : Nat := 3
def rUe : Nat := 4
def rFailed : Nat := 5
def rDescBad : Nat := 6

/-- The twin's module number (R23). -/
def State.twin (s : State) : Nat := s.module ^^^ 1

/-- An LPDDR5X access of `n` bytes touches the twin-keep region (R289). -/
def inKeep (s : State) (a n : Nat) : Bool :=
  let b := rd s (lpPg 0) lp_TK_BASE * 2 ^ 30
  let z := rd s (lpPg 0) lp_TK_SIZE * 2 ^ 30
  decide (0 < z) && decide (a < b + z) && decide (b < a + n)

/-- R294 refuses an access to the region: only the twin, by its port of arrival, and the own management core may read or
write it, and FREEZE refuses the twin's writes, as lull mode does (R450). -/
def keepDenies (s : State) (src : Party) (write : Bool) : Bool :=
  match src with
  | .mgmt => false
  | .host _ => true
  | .tile m _ => decide (m.toNat ≠ s.twin) || (write && (rd s (lpPg 0) lp_FREEZE == 1 || s.lull))

/-- LPDDR5X is not served after fail-safe, the twin-keep region apart (R283). -/
def lpSilent (s : State) (a n : Nat) : Bool := s.failSafe.isSome && !(keepServed s && inKeep s a n)

/-- The tile of a tile page. -/
def pageTile (n : Nat) : Tile := BitVec.ofNat 11 ((n - 0x1000) / 4)

/-- A page that only the management core reaches while its tile is OFF (R552). -/
def pageOff (s : State) (n : Nat) : Bool := decide (0x1000 ≤ n) && s.tileOff (pageTile n)

/-- A spool access by `src` goes through the maintenance port (R277), or is refused because the tile is OFF. -/
def spoolPort (s : State) (src : Party) (t : Nat) : Option Nat :=
  if s.tileOff (BitVec.ofNat 11 t) then (if src = .mgmt then some portMaint else none) else some portNoc

/-- A NoC read that finds an uncorrectable word fences the tile; one through the maintenance port does not (R274). -/
def fenceBy (s : State) (port t : Nat) : State := if port = portNoc then fenceTile s (BitVec.ofNat 11 t) else s

/-- A read of `size` bytes at a module address served by this module: response, data and state (R177, R274, R277, R280,
R284, R294, R552). -/
def serveRead (s : State) (src : Party) (a size : Nat) (e : Ecc) : Nat × List Byte × State :=
  match decodeAddr s a with
  | .unmapped => (rUnmapped, [], s)
  | .page n off =>
    if pageOff s n then (rOff, [], s)
    else if size ≠ 4 then (rUnmapped, [], s)
    else (rOK, leBytes 4 (if off % 4 = 0 then (pageRead s n off).1 else 0),
          if off % 4 = 0 then (pageRead s n off).2 else s)
  | .lp a =>
    if inKeep s a size ∧ keepDenies s src false then (rDenied, [], s)
    else
      let r := lpCheck s a size e
      if r.1 then (rOK, memRead s.lp a size, r.2) else (rUe, [], r.2)
  | .spool t o =>
    match spoolPort s src t with
    | none => (rOff, [], s)
    | some port =>
      let r := spoolCheck s (s.ptile t) o size e port none
      if r.1 then (rOK, spRead s (s.ptile t) o size, r.2) else (rUe, [], fenceBy r.2 port t)

/-- The parts of a write of `n` bytes at `a` to memory whose unit of protection is `u` bytes: what opens inside a unit,
the whole units, and what ends inside one. -/
def pieces (u a n : Nat) : List (Nat × Nat) :=
  let h := min n ((u - a % u) % u)
  let m := (n - h) / u * u
  [(a, h), (a + h, m), (a + h + m, n - h - m)].filter (fun x => x.2 != 0)

/-- The parts of a write are performed one by one: the first response other than OK, and the state. `e` is what the first
read of a unit that is merged finds. -/
def putPieces (u : Nat) (put : State → Nat → List Byte → Ecc → Nat × State) (a : Nat) (bs : List Byte) :
    List (Nat × Nat) → Ecc → State → Nat × State
  | [], _, s => (rOK, s)
  | (o, n) :: ps, e, s =>
    let r := put s o ((bs.drop (o - a)).take n) e
    let q := putPieces u put a bs ps (if n % u = 0 then e else .ok) r.2
    (if r.1 = rOK then q.1 else r.1, q.2)

/-- Whole lines are written; a write within one line reads, merges and rewrites it, and is not performed where that read
finds the line uncorrectable (R280). -/
def lpPut (s : State) (a : Nat) (bs : List Byte) (e : Ecc) : Nat × State :=
  if bs.length % 64 = 0 then (rOK, lpWrite s a bs)
  else
    let r := lpCheck s a bs.length e
    if r.1 then (rOK, lpWrite r.2 a bs) else (rUe, r.2)

/-- A write to LPDDR5X (R280). -/
def lpStore (s : State) (a : Nat) (bs : List Byte) (e : Ecc) : Nat × State :=
  putPieces 64 lpPut a bs (pieces 64 a bs.length) e s

/-- A read of LPDDR5X (R280): its bytes, or `none` where a line is uncorrectable. -/
def lpLoad (s : State) (a n : Nat) : Option (List Byte) × State :=
  let r := lpCheck s a n .ok
  (if r.1 then some (memRead s.lp a n) else none, r.2)

/-- Whole words of the spool of tile `t` are written; a write within one word reads, merges and rewrites it, and is not
performed where that read finds the word uncorrectable, which acts by the port (R270, R274). -/
def spPut (port t : Nat) (s : State) (o : Nat) (bs : List Byte) (e : Ecc) : Nat × State :=
  let p := s.ptile t
  if bs.length % 8 = 0 then (rOK, spWrite s p o bs)
  else
    let r := spoolCheck s p o bs.length e port none
    if r.1 then (rOK, spWrite r.2 p o bs) else (rUe, fenceBy r.2 port t)

/-- A write to the spool of tile `t` through a port (R270). -/
def spStore (port t : Nat) (s : State) (o : Nat) (bs : List Byte) (e : Ecc) : Nat × State :=
  putPieces 8 (spPut port t) o bs (pieces 8 o bs.length) e s

/-- A write of bytes at a module address served by this module: response and state (R177, R270, R280, R284, R294). -/
def serveWrite (s : State) (src : Party) (a : Nat) (bs : List Byte) (e : Ecc) : Nat × State :=
  match decodeAddr s a with
  | .unmapped => (rUnmapped, s)
  | .page n _ => (if pageOff s n then rOff else rDenied, s)
  | .lp a =>
    if inKeep s a bs.length ∧ keepDenies s src true then (rDenied, s)
    else lpStore s a bs e
  | .spool t o =>
    match spoolPort s src t with
    | none => (rOff, s)
    | some port => spStore port t s o bs e

/-- What answers nothing after fail-safe: LPDDR5X in self-refresh (R283), and everything else but the spools, which the
management core reaches through the maintenance port while their tiles are OFF (R277). -/
def unserved (s : State) (src : Party) (a n : Nat) : Bool :=
  match decodeAddr s a with
  | .lp a => lpSilent s a n
  | .spool _ _ => s.failSafe.isSome && src != .mgmt
  | _ => s.failSafe.isSome

/-- A request in flight from a source to a line; of another module's tile the packet tells the module alone (R307). -/
def lseTo (s : State) (src : Party) (line : Nat) (m : NetMsg) : Bool :=
  match m with
  | .lseRead p a _ _ => p == src && a.toNat / 64 == line
  | .lseWrite p a _ _ => p == src && a.toNat / 64 == line
  | .pkt q h _ =>
    (h.type == tyLseRead || h.type == tyLseWrite) && h.addr % 2 ^ 48 / 64 == line && partyModule s src != s.module
      && rd s (lkPg q) lk_PEER_MODULE == partyModule s src
  | _ => false

/-- A packet in flight with a type and an ADDR. -/
def isPkt (ty addr : Nat) (m : NetMsg) : Bool :=
  match m with
  | .pkt _ h _ => h.type == ty && h.addr == addr
  | _ => false

/-- The requests of one source to one line are performed in the order in which they were sent (R287): this one is the
oldest in flight, or none is. -/
def lseTurn (s : State) (src : Party) (a : Nat) (this : NetMsg → Bool) : Bool :=
  match s.net.find? (lseTo s src (a / 64)) with
  | some m => this m
  | none => true

/-- A read request as the network holds it. -/
def isRead (src : Party) (addr : BitVec 48) (size tag : Nat) (m : NetMsg) : Bool :=
  m == .lseRead src addr size tag || isPkt tyLseRead (addr.toNat + tag % 65536 * 2 ^ 48) m

/-- A write request as the network holds it. -/
def isWrite (src : Party) (addr : BitVec 48) (data : List Byte) (tag : Nat) (m : NetMsg) : Bool :=
  m == .lseWrite src addr data tag || isPkt tyLseWrite (addr.toNat + tag % 65536 * 2 ^ 48) m

/-- The crossing to the spool of the addressed tile reports full to its source while it resynchronises (R362): the
request waits. -/
def crossingFull (s : State) (a : Nat) : Bool :=
  match decodeAddr s (locOf a) with
  | .spool t _ => fifoBusy s 0 t || fifoBusy s 1 t
  | _ => false

/-- The request of a party of this module, or of another by a port that carries job traffic (R25). -/
def unlessForeignParty (s : State) (src : Party) (a : Nat) (k : State) : State :=
  if partyModule s src = s.module then k else unlessForeign s (boltPort s (partyModule s src) a) .lse k

/-- LSE_READ (R287): a request addressed to this module is answered. -/
def execLseRead (src : Party) (addr : BitVec 48) (size tag : Nat) (e : Ecc) (s : State) : Out :=
  let s' := dropMsg s (isRead src addr size tag)
  done s <|
    if modOf addr.toNat ≠ s.module ∨ lseTurn s src addr.toNat (isRead src addr size tag) = false
        ∨ crossingFull s addr.toNat then s
    else unlessForeignParty s' src addr.toNat <|
    if unserved s src (locOf addr.toNat) size then s'
    else
      let r := serveRead (progress s') src (locOf addr.toNat) size e
      post r.2.2 (.lseRsp src tag r.1 r.2.1)

/-- LSE_WRITE (R288): a write addressed to this module is performed or refused; lull mode refuses every one (R450). -/
def execLseWrite (src : Party) (addr : BitVec 48) (data : List Byte) (tag : Nat) (e : Ecc) (s : State) : Out :=
  let s' := dropMsg s (isWrite src addr data tag)
  done s <|
    if modOf addr.toNat ≠ s.module ∨ lseTurn s src addr.toNat (isWrite src addr data tag) = false
        ∨ crossingFull s addr.toNat then s
    else unlessForeignParty s' src addr.toNat <|
    if s.lull then post s' (.lseRsp src tag rDenied [])
    else if unserved s src (locOf addr.toNat) data.length then s'
    else
      let r := serveWrite (progress s') src (locOf addr.toNat) data e
      let s' := match decodeAddr s (locOf addr.toNat) with
        | .lp a => if inKeep s a data.length then updatePartner r.2 else r.2
        | _ => r.2
      post s' (.lseRsp src tag r.1 [])

/-- The deferred BUS cause of a loose access (R177, R188). -/
def busCause (s : State) (t : Tile) (l : Loose) (rsp : Nat) : State :=
  raiseCause s t
    { code := cBus, src := 0, kind := .deferred, pc := l.pc,
      info := BitVec.ofNat 64 (l.addr.toNat + rsp * 2 ^ 48), ord := l.ord, inHandler := l.inHandler }

/-- A response reaches the loose access that waits for it (R176, R177). -/
def looseDone (s : State) (t : Tile) (l : Loose) (rsp : Nat) (data : List Byte) : State :=
  let s := s.modTile t (fun ts =>
    let ts := { ts with loose := ts.loose.erase l }
    match l.kind with
    | .load gD bank => ts.writeG bank gD (if rsp = rOK then BitVec.ofNat 64 (leNat (data.take l.size)) else 0)
    | _ => ts)
  if rsp = rOK then s else busCause s t l rsp

/-- The response to a request of a tile: the one in flight on the chip or in a packet, else the one that arrives. -/
def takeRsp (s : State) (t : Tile) (tag rsp : Nat) (data : List Byte) : Nat × List Byte × State :=
  match takeMsg s (fun m => match m with
      | .lseRsp dst g _ _ => dst == .tile (BitVec.ofNat 3 s.module) t && g == tag
      | .pkt _ h _ => h.type == tyLseResp && h.addr / 2 ^ 48 == tag % 65536
      | _ => false) with
  | (some (.lseRsp _ _ r d), s) => (r, d, s)
  | (some (.pkt _ h d), s) => (h.addr % 256, d, s)
  | (_, s) => (rsp, data, s)

/-- The request's LSE credit returns, and requests that waited go (R286). -/
def rspCredit (s : State) (t : Tile) (a tag : Nat) : State :=
  if modOf a = s.module then s else lsePump (lseReturn s (modOf a) (.tile (BitVec.ofNat 3 s.module) t) tag)

/-- LSE_RESP (R177): a loose access receives its response; a line of a DMA transfer hands a failure to its transfer
(R184); one that nothing waits for any more is discarded (R434). -/
def execLseResp (t : Tile) (tag : Nat) (rsp : BitVec 8) (data : List Byte) (s : State) : Out :=
  onTile s t <| done s <|
    match (s.tile t).loose.find? (fun l => l.tag == tag) with
    | some l =>
      let r := takeRsp s t tag rsp.toNat data
      looseDone (rspCredit (progress r.2.2) t l.addr.toNat tag) t l r.1 r.2.1
    | none =>
      match s.lseOut.find? (fun x => x.src == .tile (BitVec.ofNat 3 s.module) t && x.tag == tag % 65536) with
      | some x =>
        let r := takeRsp s t tag rsp.toNat data
        rspCredit (dmaNote (progress r.2.2) t (·.tagged (tag % 65536)) r.1) t (x.peer * 2 ^ 45) tag
      | none => (takeRsp s t tag rsp.toNat data).2.2

/-! ### Scrub and refresh -/

/-- A spool is powered (R16, R275, R277): that of a tile of the map. -/
def spoolPowered (s : State) (p : Nat) : Bool := (s.ltile p).isSome

/-- SCRUB (R275): one line of a bank is read and corrected through the maintenance port; an uncorrectable word fences the
tile (R274). -/
def execScrub (ptile off : Nat) (e : Ecc) (synd : BitVec 8) (s : State) : Out :=
  if 1152 ≤ ptile ∨ 0x500000 ≤ off then .fault .noSuchUnit
  else done s <|
    if rd s stPg st_SCRUB_EN = 0 ∨ ¬ spoolPowered s ptile then s
    else
      let r := spoolCheck s ptile (off / 64 * 64) 64 .ok portScrub (some synd)
      let r := if r.1 then spoolCheck s ptile off 8 e portScrub (some synd) else r
      if r.1 then r.2
      else match s.ltile ptile with
        | some t => fenceTile r.2 (BitVec.ofNat 11 t)
        | none => r.2

/-- REFRESH (R281): a package's refresh-rate code, whether the doubled rate is in force, and the requests that waited. -/
def execRefresh (pkg : BitVec 4) (rate : BitVec 8) (doubled : Bool) (waits : Nat) (s : State) : Out :=
  done s <|
    let n := lpPg (pkg.toNat / 4)
    let k := pkg.toNat % 4
    let s := wr s n lp_REF_RATE (setBits (rd s n lp_REF_RATE) (8 * k + 7) (8 * k) rate.toNat)
    let s := inc (wr s n lp_DERATE (b2n doubled)) n lp_REF_WAITS waits
    if doubled then raiseF s n lp_F_HOT else s

end Sys2Proof.Machine
end

