-- ==== Sys2Proof/Machine/Operands.lean ====
section
/-! DEFINITION. The words of the tile instructions, field by field (R119, R157, R167), as TL_TRAP_INFO records them
(R188), and the checks common to every instruction: the issue check, the fetch, the guard and the reserved fields. -/

namespace Sys2Proof

/-- A field at bit `lo`. -/
def fl {w : Nat} (v : BitVec w) (lo : Nat) : Nat := v.toNat * 2 ^ lo

/-- A major opcode (R169). -/
def mj (n : Nat) : Nat := n * 2 ^ 26

/-- Scalar arithmetic, major 0x01, with its FN (R171). -/
def ROp.enc (o : ROp) (fn : Nat) : Nat := mj 1 + fl o.gD 21 + fl o.gA 16 + fl o.gB 11 + fl o.pG 8 + fn
/-- The R format (R167). -/
def RfOp.enc (o : RfOp) (maj : Nat) : Nat := mj maj + fl o.gD 21 + fl o.gA 16 + fl o.gB 11 + fl o.pG 8 + fl o.fn 0
/-- The I format (R167). -/
def IOp.enc (o : IOp) (maj : Nat) : Nat := mj maj + fl o.gD 21 + fl o.gA 16 + fl o.pG 13 + fl o.imm 0
/-- The U format (R167). -/
def UOp.enc (o : UOp) (maj : Nat) : Nat := mj maj + fl o.gD 21 + fl o.pos 19 + fl o.pG 16 + fl o.imm 0
/-- c.cmp (R172). -/
def CmpOp.enc (o : CmpOp) : Nat := mj 0x0A + fl o.rsv 24 + fl o.pD 21 + fl o.gA 16 + fl o.gB 11 + fl o.pG 8 + fl o.fn 0
/-- c.cmpi (R173). -/
def CmpiOp.enc (o : CmpiOp) : Nat := mj 0x07 + fl o.rsv 24 + fl o.pD 21 + fl o.gA 16 + fl o.pG 13 + fl o.imm 0
/-- Predicate logic (R173). -/
def PredOp.enc (o : PredOp) (fn : Nat) : Nat :=
  mj 0x0B + fl o.rsv1 24 + fl o.pD 21 + fl o.rsv2 19 + fl o.pA 16 + fl o.rsv3 14 + fl o.pB 11 + fl o.pG 8 + fn
/-- c.trap (R169). -/
def TrapOp.enc (o : TrapOp) : Nat := mj 0x24 + fl o.rsv 16 + fl o.pG 13 + fl o.imm 0
/-- The P format (R167). -/
def POp.enc (o : POp) (maj : Nat) : Nat :=
  mj maj + fl o.gD 21 + fl o.gA 16 + fl o.pG 13 + fl o.rsv 12 + fl o.sel 10 + fl o.word 0
/-- sy.sigi (R185). -/
def SigiOp.enc (o : SigiOp) : Nat := mj 0x35 + fl o.ctr 20 + fl o.rsv 16 + fl o.pG 13 + fl o.n 0
/-- sy.tack (R185). -/
def TackOp.enc (o : TackOp) (op : Nat) : Nat :=
  mj 0x37 + fl o.k 22 + op * 2 ^ 20 + fl o.b 19 + fl o.rsv1 16 + fl o.pG 13 + fl o.rsv2 0
/-- The MXE class (R119). -/
def mxw (minor : Nat) : Nat := mj 0x30 + minor * 2 ^ 22
/-- mx.open. -/
def OpenOp.enc (o : OpenOp) : Nat :=
  mxw 0 + fl o.aD 20 + fl o.layout 19 + fl o.hsrc 17 + fl o.h 13 + fl o.gS 8 + fl o.gT 3 + fl o.scope 2 + fl o.rsv 0
/-- mx.mma. -/
def MmaOp.enc (o : MmaOp) : Nat :=
  mxw 1 + fl o.aD 20 + fl o.tA 17 + fl o.tB 14 + fl o.ta 13 + fl o.tb 12 + fl o.fa 9 + fl o.fb 6 + fl o.kbm1 2 + fl o.rsv 0
/-- mx.close. -/
def CloseOp.enc (o : CloseOp) : Nat := mxw 2 + fl o.aD 20 + fl o.gD 15 + fl o.rsv 0
/-- mx.st. -/
def MxStOp.enc (o : MxStOp) : Nat := mxw 3 + fl o.aD 20 + fl o.gA 15 + fl o.gC 10 + fl o.gD 5 + fl o.rsv 0
/-- mx.la. -/
def MxLaOp.enc (o : MxLaOp) : Nat := mxw 4 + fl o.aD 20 + fl o.gA 15 + fl o.gC 10 + fl o.rsv 0
/-- mx.lt. -/
def LtOp.enc (o : LtOp) : Nat :=
  mxw 5 + fl o.tD 19 + fl o.fmt 15 + fl o.bdir 14 + fl o.t 13 + fl o.gA 8 + fl o.gP 3 + fl o.rsv 0
/-- mx.stt. -/
def SttOp.enc (o : SttOp) : Nat :=
  mxw 6 + fl o.tS 19 + fl o.fmt 15 + fl o.bdir 14 + fl o.rsv1 13 + fl o.gA 8 + fl o.gP 3 + fl o.rsv2 0
/-- mx.tag. -/
def TagOp.enc (o : TagOp) : Nat := mxw 7 + fl o.tD 19 + fl o.fmt 15 + fl o.bdir 14 + fl o.rsv 0
/-- mx.drop. -/
def DropOp.enc (o : DropOp) : Nat := mxw 8 + fl o.aD 20 + fl o.rsv 0
/-- The VXE class (R157). -/
def vxw (minor : Nat) : Nat := mj 0x31 + minor * 2 ^ 20
/-- Two floating sources. -/
def VfOp.enc (o : VfOp) (m : Nat) : Nat :=
  vxw m + fl o.vD 16 + fl o.vA 12 + fl o.vB 8 + fl o.f 4 + fl o.rm 1 + fl o.sat 0
/-- One floating source. -/
def VuOp.enc (o : VuOp) (m : Nat) : Nat :=
  vxw m + fl o.vD 16 + fl o.vA 12 + fl o.rsv 8 + fl o.f 4 + fl o.rm 1 + fl o.sat 0
/-- Integer and logical. -/
def ViOp.enc (o : ViOp) (m : Nat) : Nat := vxw m + fl o.vD 16 + fl o.vA 12 + fl o.vB 8 + fl o.f 4 + fl o.rsv 0
/-- vx.cmp. -/
def VcmpOp.enc (o : VcmpOp) : Nat :=
  vxw 0x16 + fl o.vD 16 + fl o.vA 12 + fl o.vB 8 + fl o.f 4 + fl o.cc 1 + fl o.rsv 0
/-- vx.sel. -/
def VselOp.enc (o : VselOp) : Nat := vxw 0x17 + fl o.vD 16 + fl o.vA 12 + fl o.vB 8 + fl o.vC 4 + fl o.rsv 0
/-- vx.cvt.pP: the part is in the minor opcode. -/
def VcvtOp.enc (o : VcvtOp) : Nat :=
  vxw (if o.p.toNat < 4 then 0x18 + o.p.toNat else 0x28 + o.p.toNat)
    + fl o.vD 16 + fl o.vS 12 + fl o.fs 8 + fl o.fd 4 + fl o.rm 1 + fl o.sat 0
/-- vx.cut. -/
def VcutOp.enc (o : VcutOp) : Nat :=
  vxw 0x1C + fl o.tD 17 + fl o.gC 12 + fl o.fs 8 + fl o.fd 5 + fl o.bdir 4 + fl o.rm 1 + fl o.sat 0
/-- vx.uncut. -/
def VuncutOp.enc (o : VuncutOp) : Nat :=
  vxw 0x1D + fl o.tS 17 + fl o.gC 12 + fl o.fd 8 + fl o.rsv 4 + fl o.rm 1 + fl o.sat 0
/-- vx.ld and vx.st. -/
def VldOp.enc (o : VldOp) (m : Nat) : Nat := vxw m + fl o.v 16 + fl o.gA 11 + fl o.rsv 0
/-- vx.ldt, vx.ldc, vx.wrt and vx.wrc. -/
def VtOp.enc (o : VtOp) (m : Nat) : Nat := vxw m + fl o.v 16 + fl o.t 13 + fl o.gR 8 + fl o.rsv 0
/-- vx.bcast. -/
def VbcastOp.enc (o : VbcastOp) : Nat := vxw 0x26 + fl o.vD 16 + fl o.gS 11 + fl o.f 7 + fl o.rsv 0
/-- vx.bob. -/
def VbobOp.enc (o : VbobOp) : Nat := vxw 0x27 + fl o.vD 16 + fl o.gR 11 + fl o.gE 6 + fl o.rsv 0
/-- vx.vred. -/
def VvredOp.enc (o : VvredOp) : Nat :=
  vxw 0x28 + fl o.uD 17 + fl o.vS 13 + fl o.op 10 + fl o.f 6 + fl o.acc 5 + fl o.rm 2 + fl o.rsv 0
/-- vx.tred. -/
def VtredOp.enc (o : VtredOp) : Nat :=
  vxw 0x29 + fl o.vD 16 + fl o.tS 13 + fl o.dir 12 + fl o.op 9 + fl o.rm 6 + fl o.rsv 0
/-- vx.tamax. -/
def VtamaxOp.enc (o : VtamaxOp) : Nat := vxw 0x2A + fl o.uD 17 + fl o.tS 14 + fl o.acc 13 + fl o.rsv 0
/-- vx.rdiff. -/
def VrdiffOp.enc (o : VrdiffOp) : Nat :=
  vxw 0x2B + fl o.uD 17 + fl o.vA 13 + fl o.vB 9 + fl o.f 5 + fl o.acc 4 + fl o.rsv 0
/-- vx.gacc. -/
def VgaccOp.enc (o : VgaccOp) : Nat :=
  vxw 0x30 + fl o.aD 18 + fl o.vS 14 + fl o.f 10 + fl o.m 9 + fl o.gC 4 + fl o.rsv 0
/-- vx.gtacc. -/
def VgtaccOp.enc (o : VgtaccOp) : Nat := vxw 0x31 + fl o.aD 18 + fl o.tS 15 + fl o.dir 14 + fl o.gC 9 + fl o.rsv 0
/-- vx.gdot. -/
def VgdotOp.enc (o : VgdotOp) : Nat :=
  vxw 0x32 + fl o.aD 18 + fl o.vA 14 + fl o.vB 10 + fl o.w 9 + fl o.gC 4 + fl o.rsv 0
/-- vx.grd. -/
def VgrdOp.enc (o : VgrdOp) : Nat := vxw 0x33 + fl o.vD 16 + fl o.aS 14 + fl o.gC 9 + fl o.rsv 0
/-- vx.gcvt. -/
def VgcvtOp.enc (o : VgcvtOp) : Nat :=
  vxw 0x34 + fl o.vD 16 + fl o.aS 14 + fl o.gC 9 + fl o.fd 5 + fl o.rm 2 + fl o.sat 1 + fl o.rsv 0
/-- vx.gcomb. -/
def VgcombOp.enc (o : VgcombOp) : Nat := vxw 0x35 + fl o.aD 18 + fl o.gA 13 + fl o.rsv 0
/-- vx.gdec. -/
def VgdecOp.enc (o : VgdecOp) : Nat := vxw 0x36 + fl o.aD 18 + fl o.gL 13 + fl o.uD 10 + fl o.rsv 0
/-- vx.evt. -/
def VevtOp.enc (o : VevtOp) : Nat := vxw 0x38 + fl o.uD 17 + fl o.rsv 0
/-- vx.pick. -/
def VpickOp.enc (o : VpickOp) : Nat := vxw 0x39 + fl o.uD 17 + fl o.vS 13 + fl o.gI 8 + fl o.f 4 + fl o.rsv 0
/-- vx.uset. -/
def VusetOp.enc (o : VusetOp) : Nat := vxw 0x3A + fl o.uD 17 + fl o.gS 12 + fl o.rsv 0
/-- vx.srctx. -/
def VsrctxOp.enc (o : VsrctxOp) : Nat := vxw 0x3B + fl o.gR 15 + fl o.gE 10 + fl o.rsv 0
/-- vx.trk. -/
def VtrkOp.enc (o : VtrkOp) : Nat := vxw 0x3C + fl o.uS 17 + fl o.gE 12 + fl o.f 8 + fl o.rsv 0

end Sys2Proof

namespace Sys2Proof.Machine

/-- A 32-bit instruction word, zero-extended (R188). -/
def iw (n : Nat) : W64 := BitVec.ofNat 64 n

/-- An operand is not ready (R165, R176, R208): the loose-load row where a loose load will write it, else the operand
scoreboard's. -/
def awaitRegs (s : State) (t : Tile) (rs : List (BitVec 5)) : State :=
  let loose := (s.tile t).loose.any (fun l => match l.kind with | .load gD _ => rs.contains gD | _ => false)
  withhold s t (if loose then rowLoose else rowOperand) (.regs (s.hmode t) rs)

/-- What every control-core instruction does before its own effect: it issues only when the issue check lets it (a
withheld instruction changes nothing); a register that waits for a response raises the stall (R176); an index above
0x3FFF raises IADDR (R162); a guard that is 0 leaves the issue cycle alone (R165, R168); a nonzero reserved field raises
ILLEGAL (R170). -/
def coreOp (s : State) (t : Tile) (rs : List (BitVec 5)) (guard : Bool) (illegal : Bool) (word : Nat)
    (body : State → State) : Out :=
  onTile s t <| done s <|
    if ¬ canIssue s t then s
    else if guard && rs.any (regBusy (s.tile t) (s.hmode t)) then awaitRegs s t rs
    else if 0x4000 ≤ (s.tile t).pc.toNat then precise s t cIaddr (BitVec.ofNat 64 (s.tile t).pc.toNat)
    else if ¬ guard then advance s t
    else if illegal then precise s t cIllegal (iw word)
    else body s

/-- The guard predicate of a tile (R168). -/
def State.p (s : State) (t : Tile) (i : BitVec 3) : Bool := (s.tile t).readP i

/-- The summary register that an instruction of the VXE queue still writes (R155). -/
def summaryDest (i : Queued) : Option Nat :=
  match i with
  | .op (.vxVred _ o _) => some o.uD.toNat
  | .op (.vxTamax _ o) => some o.uD.toNat
  | .op (.vxRdiff _ o _) => some o.uD.toNat
  | .op (.vxEvt _ o) => some o.uD.toNat
  | .op (.vxPick _ o) => some o.uD.toNat
  | .op (.vxUset _ o) => some o.uD.toNat
  | .op (.vxGdec _ o _) => some o.uD.toNat
  | _ => none

/-- A vx instruction that writes summary register `u` waits in the queue (R155). -/
def summaryQueued (ts : TileSt) (u : Nat) : Bool := ts.vxQ.any (fun q => summaryDest q.ins == some u)

/-- The tile registers that an engine instruction names, with the mark of those whose cells, scales or tag it writes. -/
def tregUses (i : Instr) : List (Nat × Bool) :=
  match i with
  | .mxMma _ o _ => [(o.tA.toNat, false), (o.tB.toNat, false)]
  | .mxLt _ o _ => [(o.tD.toNat, true)]
  | .mxStt _ o _ => [(o.tS.toNat, false)]
  | .mxTag _ o => [(o.tD.toNat, true)]
  | .vxCut _ o _ => [(o.tD.toNat, true)]
  | .vxUncut _ o _ => [(o.tS.toNat, false)]
  | .vxLdt _ o => [(o.t.toNat, false)]
  | .vxLdc _ o => [(o.t.toNat, false)]
  | .vxWrt _ o => [(o.t.toNat, true)]
  | .vxWrc _ o => [(o.t.toNat, true)]
  | .vxTred _ o _ => [(o.tS.toNat, false)]
  | .vxTamax _ o => [(o.tS.toNat, false)]
  | .vxGtacc _ o _ => [(o.tS.toNat, false)]
  | _ => []

/-- The tile registers of a queued instruction. -/
def queuedTregs (i : Queued) : List (Nat × Bool) :=
  match i with
  | .op i => tregUses i
  | .reserved _ => []

/-- The tile register that a transfer reads and the one that it writes (R183: a TREG address names the register in bits
[18:16]). -/
def dmaTregs (e : DmaEnt) : List (Nat × Bool) :=
  let f := fun o n => leNat ((e.bytes.drop o).take n)
  (if bits (f 0x20 1) 2 0 = 2 then [(bits (f 0 8) 18 16, false)] else [])
    ++ (if bits (f 0x20 1) 6 4 = 2 then [(bits (f 8 8) 18 16, true)] else [])

/-- Two lists of tile registers have one in common that one of them writes. -/
def tregClash (xs ys : List (Nat × Bool)) : Bool := xs.any (fun x => ys.any (fun y => x.1 == y.1 && (x.2 || y.2)))

/-- A transfer issued before the instruction has an access to one of its tile registers to make, and one of the two
writes (R95). -/
def dmaClash (ts : TileSt) (us : List (Nat × Bool)) : Bool := ts.dma.any (fun e => tregClash (dmaTregs e) us)

/-- An engine begins an instruction (R123, R160). -/
def TileSt.begin_ (ts : TileSt) (e : Engine) : TileSt :=
  match e with
  | .mx => { ts with mxBusy := true }
  | .vx => { ts with vxBusy := true }

/-- An instruction joins an engine's queue (R100, R127). -/
def TileSt.enqueue (ts : TileSt) (e : Engine) (q : QEnt) : TileSt :=
  match e with
  | .mx => { ts with mxQ := ts.mxQ ++ [q] }
  | .vx => { ts with vxQ := ts.vxQ ++ [q] }

/-- An engine instruction joins its engine (R100, R127): it waits for room in the queue of four; with both engines idle the
engine acts at once, on the state after issue; else it waits in the queue with the operands that it read. -/
def enginePut (s : State) (t : Tile) (e : Engine) (i : Queued) (rs : List (BitVec 5)) (body : State → Nat → State) : State :=
  let ts := s.tile t
  if 4 ≤ (ts.queueOf e).length then withhold s t rowEngine (.full e)
  else if enginesIdle ts then body ((advance s t).modTile t (fun ts => ts.begin_ e)) ts.pc.toNat
  else
    let q : QEnt := { ins := i, pc := ts.pc.toNat, ord := ts.ord + 1, inHandler := s.hmode t,
                      vals := rs.map (fun r => (r, s.g t r)) }
    (advance s t).modTile t (fun ts => ts.enqueue e q)

/-- A reserved minor opcode at its engine: the deferred ILLEGAL of that engine (R120, R122, R157, R159, R188). -/
def reservedMinor (s : State) (t : Tile) (e : Engine) (pc : Nat) (w : W32) : State :=
  deferred s t cIllegal (match e with | .mx => 1 | .vx => 2) pc (w.setWidth 64)

/-- What every engine instruction does before its own effect (R95, R100, R127, R165, R168: no guard): the control core
issues it once its operands are ready, no earlier DMA transfer has its tile registers to reach, and the engine's queue
of four has room. With both engines idle the engine acts at once, on the state after issue; else the instruction waits
in the queue with the operands that it read. `pc` is the instruction's index. -/
def engineOp (s : State) (t : Tile) (e : Engine) (i : Instr) (rs : List (BitVec 5)) (body : State → Nat → State) : Out :=
  onTile s t <| done s <|
    let ts := s.tile t
    if ¬ canIssue s t then s
    else if rs.any (regBusy ts (s.hmode t)) then awaitRegs s t rs
    else if 0x4000 ≤ ts.pc.toNat then precise s t cIaddr (BitVec.ofNat 64 ts.pc.toNat)
    else if dmaClash ts (tregUses i) then withhold s t rowOperand (.tregs (tregUses i))
    else enginePut s t e (.op i) rs body

/-- A read of a summary register waits for the vx instructions before it that write the register (R155). -/
def afterSummary (s : State) (t : Tile) (u : Nat) (f : State → State) : State :=
  if summaryQueued (s.tile t) u then withhold s t rowOperand (.summary u) else f s

/-- A core instruction whose access must follow those of the engines in issue order (R95, R178). -/
def afterEngines (s : State) (t : Tile) (f : State → State) : State :=
  if enginesDrained (s.tile t) then f s else withhold s t rowOperand .engines

end Sys2Proof.Machine
end

