-- ==== Sys2Proof/Machine/Scalar.lean ====
section
/-! DEFINITION. The scalar instructions of the control core (R171 to R173): arithmetic and logic, immediates, moves,
comparison and predicate logic. -/

namespace Sys2Proof.Machine

/-- A scalar instruction of major 0x01 (R171): gD receives a function of gA and gB. -/
def rOp (t : Tile) (o : ROp) (fn : Nat) (f : W64 → W64 → W64) (s : State) : Out :=
  coreOp s t [o.gD, o.gA, o.gB] (s.p t o.pG) false (o.enc fn)
    (fun s => (advance s t).setG t o.gD (f (s.g t o.gA) (s.g t o.gB)))

/-- A scalar instruction of major 0x01 with one source: gB is not used, and what it holds is ignored: the model's choice
(log entry 15). -/
def rOp1 (t : Tile) (o : ROp) (fn : Nat) (f : W64 → W64) (s : State) : Out :=
  coreOp s t [o.gD, o.gA] (s.p t o.pG) false (o.enc fn)
    (fun s => (advance s t).setG t o.gD (f (s.g t o.gA)))

/-- sext(IMM13) (R167). -/
def imm13 (i : BitVec 13) : W64 := i.signExtend 64

/-- A scalar instruction with an immediate (R171): gD receives a function of gA and sext(IMM13). -/
def iOp (t : Tile) (o : IOp) (maj : Nat) (f : W64 → W64 → W64) (s : State) : Out :=
  coreOp s t [o.gD, o.gA] (s.p t o.pG) false (o.enc maj)
    (fun s => (advance s t).setG t o.gD (f (s.g t o.gA) (imm13 o.imm)))

/-- The high half of a product (R171). -/
def mulHi (a b : Int) : W64 := BitVec.ofInt 64 (a * b / 2 ^ 64)

/-- Leading zeros (R171). -/
def clz64 (a : W64) : Nat := if a = 0 then 64 else 63 - Nat.log2 a.toNat

/-- Count of ones (R171). -/
def popc64 (a : W64) : Nat := (List.range 64).foldl (fun n i => n + b2n (a.getLsbD i)) 0

/-- c.shi (R171): the kind in IMM13[7:6], the amount in IMM13[5:0]. -/
def shiVal (imm : Nat) (a : W64) : W64 :=
  match bits imm 7 6 with
  | 0 => a <<< bits imm 5 0
  | 1 => a >>> bits imm 5 0
  | 2 => a.sshiftRight (bits imm 5 0)
  | _ => a.rotateRight (bits imm 5 0)

/-- c.add (R171). -/
def execCAdd (t : Tile) (o : ROp) (s : State) : Out := rOp t o 0x00 (fun a b => a + b) s
/-- c.sub (R171). -/
def execCSub (t : Tile) (o : ROp) (s : State) : Out := rOp t o 0x01 (fun a b => a - b) s
/-- c.and (R171). -/
def execCAnd (t : Tile) (o : ROp) (s : State) : Out := rOp t o 0x02 (fun a b => a &&& b) s
/-- c.or (R171). -/
def execCOr (t : Tile) (o : ROp) (s : State) : Out := rOp t o 0x03 (fun a b => a ||| b) s
/-- c.xor (R171). -/
def execCXor (t : Tile) (o : ROp) (s : State) : Out := rOp t o 0x04 (fun a b => a ^^^ b) s
/-- c.shl (R171). -/
def execCShl (t : Tile) (o : ROp) (s : State) : Out := rOp t o 0x05 (fun a b => a <<< (b.toNat % 64)) s
/-- c.shr (R171). -/
def execCShr (t : Tile) (o : ROp) (s : State) : Out := rOp t o 0x06 (fun a b => a >>> (b.toNat % 64)) s
/-- c.sar (R171). -/
def execCSar (t : Tile) (o : ROp) (s : State) : Out := rOp t o 0x07 (fun a b => a.sshiftRight (b.toNat % 64)) s
/-- c.mul: the low half of the product (R171). -/
def execCMul (t : Tile) (o : ROp) (s : State) : Out := rOp t o 0x08 (fun a b => a * b) s
/-- c.mulhu (R171). -/
def execCMulhu (t : Tile) (o : ROp) (s : State) : Out := rOp t o 0x09 (fun a b => mulHi a.toNat b.toNat) s
/-- c.mulh (R171). -/
def execCMulh (t : Tile) (o : ROp) (s : State) : Out := rOp t o 0x0A (fun a b => mulHi a.toInt b.toInt) s
/-- c.divu: all ones for a divisor of 0 (R171). -/
def execCDivu (t : Tile) (o : ROp) (s : State) : Out := rOp t o 0x0B (fun a b => if b = 0 then BitVec.allOnes 64 else a / b) s
/-- c.remu: gA for a divisor of 0 (R171). -/
def execCRemu (t : Tile) (o : ROp) (s : State) : Out := rOp t o 0x0C (fun a b => if b = 0 then a else a % b) s
/-- c.min (R171). -/
def execCMin (t : Tile) (o : ROp) (s : State) : Out := rOp t o 0x0D (fun a b => if b.slt a then b else a) s
/-- c.max (R171). -/
def execCMax (t : Tile) (o : ROp) (s : State) : Out := rOp t o 0x0E (fun a b => if a.slt b then b else a) s
/-- c.minu (R171). -/
def execCMinu (t : Tile) (o : ROp) (s : State) : Out := rOp t o 0x0F (fun a b => if b.ult a then b else a) s
/-- c.maxu (R171). -/
def execCMaxu (t : Tile) (o : ROp) (s : State) : Out := rOp t o 0x10 (fun a b => if a.ult b then b else a) s
/-- c.sel (R171): pG selects and does not guard. -/
def execCSel (t : Tile) (o : ROp) (s : State) : Out :=
  coreOp s t [o.gD, o.gA, o.gB] true false (o.enc 0x11)
    (fun s => (advance s t).setG t o.gD (if s.p t o.pG then s.g t o.gA else s.g t o.gB))
/-- c.sextb (R171). -/
def execCSextb (t : Tile) (o : ROp) (s : State) : Out := rOp1 t o 0x12 (fun a => (a.setWidth 8).signExtend 64) s
/-- c.sexth (R171). -/
def execCSexth (t : Tile) (o : ROp) (s : State) : Out := rOp1 t o 0x13 (fun a => (a.setWidth 16).signExtend 64) s
/-- c.sextw (R171). -/
def execCSextw (t : Tile) (o : ROp) (s : State) : Out := rOp1 t o 0x14 (fun a => (a.setWidth 32).signExtend 64) s
/-- c.clz (R171). -/
def execCClz (t : Tile) (o : ROp) (s : State) : Out := rOp1 t o 0x15 (fun a => BitVec.ofNat 64 (clz64 a)) s
/-- c.popc (R171). -/
def execCPopc (t : Tile) (o : ROp) (s : State) : Out := rOp1 t o 0x16 (fun a => BitVec.ofNat 64 (popc64 a)) s
/-- c.addi (R171). -/
def execCAddi (t : Tile) (o : IOp) (s : State) : Out := iOp t o 0x02 (fun a b => a + b) s
/-- c.andi (R171). -/
def execCAndi (t : Tile) (o : IOp) (s : State) : Out := iOp t o 0x03 (fun a b => a &&& b) s
/-- c.ori (R171). -/
def execCOri (t : Tile) (o : IOp) (s : State) : Out := iOp t o 0x04 (fun a b => a ||| b) s
/-- c.xori (R171). -/
def execCXori (t : Tile) (o : IOp) (s : State) : Out := iOp t o 0x05 (fun a b => a ^^^ b) s
/-- c.shi (R171): IMM13[12:8] is reserved. -/
def execCShi (t : Tile) (o : IOp) (s : State) : Out :=
  coreOp s t [o.gD, o.gA] (s.p t o.pG) (bits o.imm.toNat 12 8 != 0) (o.enc 6)
    (fun s => (advance s t).setG t o.gD (shiVal o.imm.toNat (s.g t o.gA)))
/-- c.movz (R171). -/
def execCMovz (t : Tile) (o : UOp) (s : State) : Out :=
  coreOp s t [o.gD] (s.p t o.pG) false (o.enc 8)
    (fun s => (advance s t).setG t o.gD (o.imm.setWidth 64 <<< (16 * o.pos.toNat)))
/-- c.movk (R171). -/
def execCMovk (t : Tile) (o : UOp) (s : State) : Out :=
  coreOp s t [o.gD] (s.p t o.pG) false (o.enc 9)
    (fun s => (advance s t).setG t o.gD
      (BitVec.ofNat 64 (setBits (s.g t o.gD).toNat (16 * o.pos.toNat + 15) (16 * o.pos.toNat) o.imm.toNat)))
/-- c.getu (R171, R155): the summary register that the low three bits of the gA field name, once the last earlier vx
instruction that writes it has; a gA field of 8 or more and a nonzero FN raise ILLEGAL, and the gB field is ignored: the
model's choice (log entry 15). -/
def execCGetu (t : Tile) (o : RfOp) (s : State) : Out :=
  coreOp s t [o.gD] (s.p t o.pG) (8 ≤ o.gA.toNat || o.fn != 0) (o.enc 0x2C) (fun s => afterSummary s t (o.gA.toNat % 8) (fun s =>
    (advance s t).setG t o.gD (BitVec.ofNat 64 (readU s t (o.gA.toNat % 8)))))
/-- c.cmp (R172). -/
def execCCmp (t : Tile) (o : CmpOp) (s : State) : Out :=
  coreOp s t [o.gA, o.gB] (s.p t o.pG) (o.rsv != 0 || (cmpCond o.fn 0 0).isNone) o.enc
    (fun s => (advance s t).modTile t
      (fun ts => ts.writeP o.pD ((cmpCond o.fn (s.g t o.gA) (s.g t o.gB)).getD false)))
/-- c.cmpi (R173): CC in IMM13[12:10], the operand in IMM13[9:0]. -/
def execCCmpi (t : Tile) (o : CmpiOp) (s : State) : Out :=
  let cc := bits o.imm.toNat 12 10
  coreOp s t [o.gA] (s.p t o.pG) (o.rsv != 0 || (intCond cc 0 0).isNone) o.enc
    (fun s => (advance s t).modTile t
      (fun ts => ts.writeP o.pD ((intCond cc (s.g t o.gA) ((o.imm.setWidth 10).signExtend 64)).getD false)))
/-- Predicate logic (R173). -/
def predOp (t : Tile) (o : PredOp) (fn : Nat) (f : Bool → Bool → Bool) (s : State) : Out :=
  coreOp s t [] (s.p t o.pG) (o.rsv1 != 0 || o.rsv2 != 0 || o.rsv3 != 0) (o.enc fn)
    (fun s => (advance s t).modTile t (fun ts => ts.writeP o.pD (f (s.p t o.pA) (s.p t o.pB))))
/-- AND (R173). -/
def execPredicateAnd (t : Tile) (o : PredOp) (s : State) : Out := predOp t o 0 (fun a b => a && b) s
/-- OR (R173). -/
def execPredicateOr (t : Tile) (o : PredOp) (s : State) : Out := predOp t o 1 (fun a b => a || b) s
/-- XOR (R173). -/
def execPredicateXor (t : Tile) (o : PredOp) (s : State) : Out := predOp t o 2 (fun a b => a != b) s
/-- ANDN: pA and not pB (R173). -/
def execPredicateAndn (t : Tile) (o : PredOp) (s : State) : Out := predOp t o 3 (fun a b => a && !b) s
/-- NOT of pA (R173). -/
def execPredicateNot (t : Tile) (o : PredOp) (s : State) : Out := predOp t o 4 (fun a _ => !a) s

end Sys2Proof.Machine
end

