-- ==== Sys2Proof/Machine/CoreMem.lean ====
section
/-! DEFINITION. The control core's memory accesses, branches, traps by instruction, page accesses and variant sources
(R163, R164, R174 to R180, R187, R194, R195). -/

namespace Sys2Proof.Machine

/-! ### The data store -/

/-- An uncorrectable error in the instruction store (0) or the data store (1) (R164): the record, the bit, and the fence;
the access has no effect. -/
def storeUe (s : State) (t : Tile) (store word : Nat) : State :=
  fenceTile (logReq (raiseF s (tlPg t) tl_F_STORE_UE) 3 0x0003 (tlPg t) (b1 store ++ b1 0 ++ b2 word)) t

/-- What an instruction that reads the data store from word `word` on finds there (R164): a corrected error withholds it
for the correction (R208), an uncorrectable one fences the tile. -/
def dsEcc (s : State) (t : Tile) (e : Ecc) (word : Nat) (f : State → State) : State :=
  match e with
  | .ok => f s
  | .corrected => withhold s t rowEcc .passing
  | .uncorrectable => storeUe s t 1 word

/-- A data-store access of `w` bytes (R163, R175): DADDR before a misaligned access or one beyond the store. -/
def dsOp (t : Tile) (o : IOp) (maj w : Nat) (ecc : Ecc) (f : Nat → State → State) (s : State) : Out :=
  coreOp s t [o.gD, o.gA] (s.p t o.pG) false (o.enc maj) fun s =>
    let a := s.g t o.gA + imm13 o.imm
    if a.toNat % w ≠ 0 ∨ 0x10000 < a.toNat + w then precise s t cDaddr a
    else dsEcc s t ecc (a.toNat / 8) (f a.toNat)

/-- Load (R175): zero-extended. -/
def dsLoad (t : Tile) (o : IOp) (maj w : Nat) (ecc : Ecc) (s : State) : Out :=
  dsOp t o maj w ecc (fun a s => (advance s t).setG t o.gD (BitVec.ofNat 64 (leNat (dsRead (s.tile t) a w)))) s

/-- Store (R175): the low bytes of gS. -/
def dsStore (t : Tile) (o : IOp) (maj w : Nat) (ecc : Ecc) (s : State) : Out :=
  dsOp t o maj w ecc
    (fun a s => (advance s t).modTile t (fun ts => dsWrite ts a (leBytes w (s.g t o.gD).toNat))) s

/-- c.ldb (R175). -/
def execCLdb (t : Tile) (o : IOp) (ecc : Ecc) (s : State) : Out := dsLoad t o 0x10 1 ecc s
/-- c.ldh (R175). -/
def execCLdh (t : Tile) (o : IOp) (ecc : Ecc) (s : State) : Out := dsLoad t o 0x11 2 ecc s
/-- c.ldw (R175). -/
def execCLdw (t : Tile) (o : IOp) (ecc : Ecc) (s : State) : Out := dsLoad t o 0x12 4 ecc s
/-- c.ldd (R175). -/
def execCLdd (t : Tile) (o : IOp) (ecc : Ecc) (s : State) : Out := dsLoad t o 0x13 8 ecc s
/-- c.stb (R175). -/
def execCStb (t : Tile) (o : IOp) (ecc : Ecc) (s : State) : Out := dsStore t o 0x14 1 ecc s
/-- c.sth (R175). -/
def execCSth (t : Tile) (o : IOp) (ecc : Ecc) (s : State) : Out := dsStore t o 0x15 2 ecc s
/-- c.stw (R175). -/
def execCStw (t : Tile) (o : IOp) (ecc : Ecc) (s : State) : Out := dsStore t o 0x16 4 ecc s
/-- c.std (R175). -/
def execCStd (t : Tile) (o : IOp) (ecc : Ecc) (s : State) : Out := dsStore t o 0x17 8 ecc s

/-! ### Loose accesses -/

/-- The stamp of a tile of this module as a party (R255). -/
def selfParty (s : State) (t : Tile) : Party := .tile (BitVec.ofNat 3 s.module) t

/-- A loose access (R176, R286): sixteen outstanding withhold the next; a misaligned address raises DADDR. -/
def looseOp (t : Tile) (o : IOp) (maj w : Nat) (kind : State → LooseKind) (msg : State → BitVec 48 → Nat → NetMsg)
    (s : State) : Out :=
  coreOp s t [o.gD, o.gA] (s.p t o.pG) false (o.enc maj) fun s =>
    let a : BitVec 48 := (s.g t o.gA + imm13 o.imm).setWidth 48
    if 16 ≤ (s.tile t).loose.length then withhold s t rowLoose .looseFull
    else if a.toNat % w ≠ 0 then precise s t cDaddr (a.setWidth 64)
    else
      let pc := (s.tile t).pc.toNat
      let tag := (s.tile t).tagNo
      let m := msg s a tag
      let k := kind s
      let hm := s.hmode t
      post ((advance s t).modTile t (fun ts =>
        { ts with tagNo := tag + 1,
                  loose := ts.loose ++ [{ tag := tag, kind := k, addr := a, size := w, pc := pc, ord := ts.ord,
                                          inHandler := hm }] })) m

/-- A loose load. -/
def looseLoad (t : Tile) (o : IOp) (maj w : Nat) (s : State) : Out :=
  looseOp t o maj w (fun s => .load o.gD (s.hmode t && decide (28 ≤ o.gD.toNat)))
    (fun s a tag => .lseRead (selfParty s t) a w tag) s

/-- A loose store: posted. -/
def looseStore (t : Tile) (o : IOp) (maj w : Nat) (s : State) : Out :=
  looseOp t o maj w (fun _ => .store)
    (fun s a tag => .lseWrite (selfParty s t) a (leBytes w (s.g t o.gD).toNat) tag) s

/-- c.lld (R176). -/
def execCLld (t : Tile) (o : IOp) (s : State) : Out := looseLoad t o 0x18 8 s
/-- c.lst (R176). -/
def execCLst (t : Tile) (o : IOp) (s : State) : Out := looseStore t o 0x19 8 s
/-- c.lldw (R176). -/
def execCLldw (t : Tile) (o : IOp) (s : State) : Out := looseLoad t o 0x1A 4 s
/-- c.lstw (R176). -/
def execCLstw (t : Tile) (o : IOp) (s : State) : Out := looseStore t o 0x1B 4 s

/-- A vx.trk that has issued waits in the queue: for a c.lfence it is a loose store already (R371). -/
def trkQueued (ts : TileSt) : Bool := ts.vxQ.any (fun q => match q.ins with | .op (.vxTrk _ _) => true | _ => false)

/-- Every earlier loose store of the tile has its response (R176, R371). -/
def storesDone (ts : TileSt) : Bool := ts.loose.all (fun l => l.kind != .store && l.kind != .trk) && !trkQueued ts

/-- c.lfence (R176, R208). -/
def execCLfence (t : Tile) (o : RfOp) (s : State) : Out :=
  coreOp s t [] (s.p t o.pG) (o.fn != 0) (o.enc 0x1C) fun s =>
    if storesDone (s.tile t) then advance s t else withhold s t rowDma .lfence

/-! ### Branches -/

/-- A taken branch (R162, R174): a target outside the store raises IADDR at the branch. -/
def branchTo (s : State) (t : Tile) (target : Int) (f : State → State) : State :=
  if 0 ≤ target ∧ target ≤ 0x3FFF then f (jump s t target.toNat)
  else precise s t cIaddr (BitVec.ofInt 64 target)

/-- c.br (R174). -/
def execCBr (t : Tile) (o : BrOp) (s : State) : Out :=
  coreOp s t [] true false 0 fun s =>
    if s.p t o.pG != (o.n == 1) then branchTo s t (((s.tile t).pc.toNat : Int) + o.off.toInt) id else advance s t

/-- c.jal (R174). -/
def execCJal (t : Tile) (o : JOp) (s : State) : Out :=
  coreOp s t [o.gD] true false 0 fun s =>
    let pc := (s.tile t).pc.toNat
    branchTo s t ((pc : Int) + o.off.toInt) (fun s => s.setG t o.gD (BitVec.ofNat 64 (pc + 1)))

/-- c.jr (R174). -/
def execCJr (t : Tile) (o : RfOp) (s : State) : Out :=
  coreOp s t [o.gA] (s.p t o.pG) (o.fn != 0) (o.enc 0x22) fun s =>
    if (s.g t o.gA).toNat ≤ 0x3FFF then jump s t (s.g t o.gA).toNat else precise s t cIaddr (s.g t o.gA)

/-- c.tret (R195): PRIV outside handler mode. -/
def execCTret (t : Tile) (o : RfOp) (s : State) : Out :=
  coreOp s t [] (s.p t o.pG) (o.fn != 0) (o.enc 0x23) fun s =>
    if s.hmode t then trapReturn s t else precise s t cPriv (iw (o.enc 0x23))

/-- c.trap (R169): the precise SOFT cause. -/
def execCTrap (t : Tile) (o : TrapOp) (s : State) : Out :=
  coreOp s t [] (s.p t o.pG) (o.rsv != 0) o.enc fun s => precise s t cSoft (o.imm.setWidth 64)

/-- c.halt (R166, R195): issue stops and the halt notice goes to the management core. -/
def execCHalt (t : Tile) (o : RfOp) (s : State) : Out :=
  coreOp s t [] (s.p t o.pG) (o.fn != 0) (o.enc 0x25) fun s => send (haltTile (countIssue s t) t) (.halted t)

/-- c.sleep (R187, R194): retention at the end of the issue cycle; PRIV in handler mode. -/
def execCSleep (t : Tile) (o : RfOp) (s : State) : Out :=
  coreOp s t [] (s.p t o.pG) (o.fn != 0) (o.enc 0x26) fun s =>
    if s.hmode t then precise s t cPriv (iw (o.enc 0x26))
    else
      let s := wr (wr (advance s t) (tlPg t) tl_STATUS_RUNNING 0) (tlPg t) tl_STATUS_SLEEP 1
      unrequestAll (s.modTile t (fun ts => { ts with rung := false })) t

/-! ### Pages -/

/-- The page that SEL names (R178). -/
def selPg (t : Tile) (sel : BitVec 2) : Nat := tlPg t + sel.toNat

/-- The register offset of a page access (R178). -/
def pgOff (s : State) (t : Tile) (o : POp) : Nat := (4 * o.word.toNat + (s.g t o.gA).toNat) % 4096

/-- pg.rd (R178): an offset that is no register reads 0. -/
def execPgRd (t : Tile) (o : POp) (s : State) : Out :=
  coreOp s t [o.gD, o.gA] (s.p t o.pG) (o.rsv != 0) (o.enc 0x28) fun s => afterEngines s t fun s =>
    let off := pgOff s t o
    let r := if off % 4 = 0 then pageRead s (selPg t o.sel) off else (0, s)
    (advance r.2 t).setG t o.gD (BitVec.ofNat 64 r.1)

/-- An offset lies in a range. -/
def inRange (off lo hi : Nat) : Bool := decide (lo ≤ off) && decide (off ≤ hi)

/-- What a tile writes of its own pages (R179). -/
def pgWrOk (hm : Bool) (sel : BitVec 2) (off : Nat) : Bool :=
  (off % 4 == 0) &&
  ((sel == 0 && inRange off 0x070 0x07C) || (sel == 2 && inRange off 0x048 0x05C)
    || (hm && ((off == 0x010) || (sel == 0 && (off == 0x04C || off == 0x05C)) || (sel == 1 && inRange off 0x050 0x09C)
      || (sel == 2 && (off == 0x044 || inRange off 0x060 0x06C || inRange off 0x080 0x0BC))
      || (sel == 3 && (off == 0x044 || inRange off 0x100 0x1BC || inRange off 0x200 0x2BC || inRange off 0x300 0x3BC)))))

/-- pg.wr (R178, R179): any other write raises PRIV and writes nothing. -/
def execPgWr (t : Tile) (o : POp) (s : State) : Out :=
  coreOp s t [o.gD, o.gA] (s.p t o.pG) (o.rsv != 0) (o.enc 0x29) fun s => afterEngines s t fun s =>
    let off := pgOff s t o
    if pgWrOk (s.hmode t) o.sel off then
      advance (pageStore .tile s (selPg t o.sel) off ((s.g t o.gD).toNat % 2 ^ 32)).2 t
    else precise s t cPriv (iw (o.enc 0x29))

/-! ### Variant sources -/

/-- The next word of the entropy source (R180, R532): 0 after the source has failed.
A word that is delivered has passed the health tests. -/
def drawEntropy (s : State) : W64 × State :=
  if rd s scPg sc_ENT_FAILED = 1 then (0, s) else (Config.entropy s.entIdx, wr { s with entIdx := s.entIdx + 1, entFails := 0 } scPg sc_ENT_OK 1)

/-- c.rdv (R180). -/
def execCRdv (t : Tile) (o : IOp) (s : State) : Out :=
  let sel := bits o.imm.toNat 2 0
  coreOp s t [o.gD] (s.p t o.pG) (bits o.imm.toNat 12 3 != 0 || sel == 7) (o.enc 0x2D) fun s =>
    let put := fun (s : State) (v : W64) => (advance s t).setG t o.gD v
    match sel with
    | 0 => put (s.modTile t (fun ts =>
        { ts with rdv := some (BitVec.ofNat 17 (hallFrac s + rd s tmPg tm_LOCKED * 2 ^ 16)) })) (BitVec.ofNat 64 (hallNs s))
    | 1 => match (s.tile t).rdv with
      | some v => put (s.modTile t (fun ts => { ts with rdv := none })) (v.setWidth 64)
      | none => put (freshSense s).2 (((freshSense s).1.setWidth 17).setWidth 64)
    | 2 => put s (BitVec.ofNat 64 s.cycles)
    | 3 => put s (BitVec.ofNat 64 s.stallCycles)
    | 4 => put s (BitVec.ofNat 64 (rd64 s thPg th_THROT_CYC_LO th_THROT_CYC_HI))
    | 5 => put (drawEntropy s).2 (drawEntropy s).1
    | _ => put s (BitVec.ofNat 64 (rd64 s tmPg tm_STITCH_LO tm_STITCH_HI))

end Sys2Proof.Machine
end

