-- ==== Sys2Proof/Machine/Dma.lean ====
section
/-! DEFINITION. The DMA engine (R182 to R184, R323): the queue, the descriptor and its checks, the transfer line by line,
and the sender of a stream. -/

namespace Sys2Proof.Machine

/-! ### Sync target words (R185) -/

/-- A reserved bit of a target word is set. -/
def wordRsv (w : Nat) : Bool := decide (bits w 15 6 ≠ 0) || bit w 27 || decide (bits w 63 48 ≠ 0)
/-- CTR. -/
def wordCtr (w : Nat) : Nat := bits w 5 0
/-- TILE. -/
def wordTile (w : Nat) : Nat := bits w 26 16
/-- MODULE. -/
def wordModule (w : Nat) : Nat := bits w 30 28
/-- DEST: 1 for the management core. -/
def wordDest (w : Nat) : Bool := bit w 31
/-- COUNT. -/
def wordCount (w : Nat) : Nat := bits w 47 32
/-- The requirements of a sync signal. -/
def sigWordOk (w : Nat) : Bool :=
  !wordRsv w && !wordDest w && decide (wordCtr w ≤ 47) && decide (1 ≤ wordCount w)

/-! ### The descriptor (R183) -/

/-- A DMA descriptor. -/
structure DmaDesc where
  src : Nat
  dst : Nat
  rowBytes : Nat
  rows : Nat
  srcPitch : Nat
  dstPitch : Nat
  srcSp : Nat
  dstSp : Nat
  flags : Nat
  spaces : Nat
  sig : Nat
  loc : Nat
  rsv : Bool
deriving DecidableEq, Repr

/-- The descriptor that 64 bytes spell. -/
def parseDma (bs : List Byte) : DmaDesc :=
  let f := fun o n => leNat ((bs.drop o).take n)
  { src := f 0x00 8, dst := f 0x08 8, rowBytes := f 0x10 4, rows := f 0x14 4, srcPitch := f 0x18 4, dstPitch := f 0x1C 4,
    spaces := f 0x20 1, srcSp := bits (f 0x20 1) 2 0, dstSp := bits (f 0x20 1) 6 4, flags := f 0x21 1,
    sig := f 0x24 8, loc := f 0x2C 1, rsv := decide (f 0x22 2 ≠ 0) || decide (f 0x2D 19 ≠ 0) }

/-- SIG_EN. -/
def DmaDesc.sigEn (d : DmaDesc) : Bool := bit d.flags 1
/-- LOC_EN. -/
def DmaDesc.locEn (d : DmaDesc) : Bool := bit d.flags 2

/-- An address breaks the field or the alignment of its space. -/
def addrBad (sp a : Nat) : Bool :=
  if sp = 0 then decide (a % 64 ≠ 0) || decide (2 ^ 48 ≤ a)
  else if sp = 2 then decide (a % 64 ≠ 0) || decide (2 ^ 19 ≤ a) || bit a 15
  else if sp = 4 then decide (a / 4096 % 64 ≠ 0) || decide (2 ^ 32 ≤ a)
  else decide (a % 64 ≠ 0) || decide (2 ^ 32 ≤ a)

/-- The rows touch a byte beyond the space. -/
def rangeBad (sp a rows pitch rowBytes : Nat) : Bool :=
  let last := fun x => x + (rows - 1) * pitch + rowBytes
  if sp = 1 then decide (0x500000 < last a)
  else if sp = 3 then decide (0x10000 < last a)
  else if sp = 2 then decide (0x4400 < last (a % 2 ^ 15))
  else false

/-- The checks of R183. -/
def DmaDesc.fails (d : DmaDesc) : Bool :=
  d.rsv || bit d.spaces 3 || bit d.spaces 7 || decide (bits d.flags 7 3 ≠ 0)
    || decide (4 ≤ d.srcSp) || decide (5 ≤ d.dstSp) || (d.dstSp == 4 && d.sigEn)
    || decide (d.rowBytes < 64) || decide (0x100000 < d.rowBytes) || decide (d.rows < 1) || decide (0x10000 < d.rows)
    || decide (d.rowBytes % 64 ≠ 0) || decide (d.srcPitch % 64 ≠ 0) || decide (d.dstPitch % 64 ≠ 0)
    || addrBad d.srcSp d.src || addrBad d.dstSp d.dst
    || rangeBad d.srcSp d.src d.rows d.srcPitch d.rowBytes || rangeBad d.dstSp d.dst d.rows d.dstPitch d.rowBytes
    || (d.sigEn && !sigWordOk d.sig) || (d.locEn && decide (47 < d.loc))

/-! ### The queue -/

/-- dm.go (R182): the descriptor is read at issue; a misaligned or absent address raises DADDR (R163). -/
def execDmGo (t : Tile) (o : RfOp) (e : Ecc) (s : State) : Out :=
  coreOp s t [o.gA] (s.p t o.pG) (o.fn != 0) (o.enc 0x32) fun s =>
    let a := s.g t o.gA
    if 8 ≤ (s.tile t).dma.length then withhold s t rowDma .dmaFull
    else if a.toNat % 64 ≠ 0 ∨ 0x10000 ≤ a.toNat then precise s t cDaddr a
    else dsEcc s t e (a.toNat / 8) fun s =>
      let pc := (s.tile t).pc.toNat
      (advance s t).modTile t (fun ts =>
        { ts with tagNo := ts.tagNo + 1,
                  dma := ts.dma ++ [{ desc := a.toNat, pc := pc, ord := ts.ord, bytes := dsRead ts a.toNat 64,
                                      active := false, sent := 0, tag := ts.tagNo, rsp := 0,
                                      read := false, told := false }] })

/-- dm.fence (R182). -/
def execDmFence (t : Tile) (o : RfOp) (s : State) : Out :=
  coreOp s t [] (s.p t o.pG) (o.fn != 0) (o.enc 0x33) fun s =>
    if (s.tile t).dma.isEmpty then advance s t else withhold s t rowDma .dmFence

/-- A transfer fails (R184): the deferred DMA cause, TL_DMA_ERR, and every unstarted transfer behind it discarded. -/
def dmaFail (s : State) (t : Tile) (e : DmaEnt) (rsp : Nat) : State :=
  let s := s.modTile t (fun ts => { ts with dma := ts.dma.filter (fun x => x.active && x.ord != e.ord) })
  let s := wr (wr s (tlPg t) tl_DMA_RESP rsp) (tlPg t) tl_DMA_DESC e.desc
  raiseCause s t
    { code := cDma, src := 3, kind := .deferred, pc := e.pc, info := BitVec.ofNat 64 (e.desc + rsp * 2 ^ 16), ord := e.ord,
      inHandler := s.hmode t }

/-! ### Tile registers as memory (R183) -/

/-- 64 bytes of a tile register at a TREG address. -/
def tregRead (ts : TileSt) (a : Nat) : List Byte :=
  let m := bits a 18 16
  let o := a % 2 ^ 15
  if o < 0x4000 then
    (List.range 16).flatMap (fun i => leBytes 4 (smGet (fun _ => 0) ts.treg (4096 * m + o / 4 + i)).toNat)
  else (List.range 64).map (fun i => smGet (fun _ => 0) ts.scl (1024 * m + (o - 0x4000) + i))

/-- Store 64 bytes to a tile register; the tag stays (R94). -/
def tregWrite (ts : TileSt) (a : Nat) (bs : List Byte) : TileSt :=
  let m := bits a 18 16
  let o := a % 2 ^ 15
  if o < 0x4000 then
    let cs := putList putCell (fun i => 4096 * m + o / 4 + i) ts.treg
      ((List.range 16).map (fun i => leNat ((bs.drop (4 * i)).take 4)))
    { ts with treg := cs }
  else
    let ss := putList putScl (fun i => 1024 * m + (o - 0x4000) + i) ts.scl (bs.map (·.toNat))
    { ts with scl := ss }

/-! ### Moving lines -/

/-- A read of the data store by the DMA engine (R164): a corrected error raises the ECC row for its cycle (R208), an
uncorrectable one fences the tile. -/
def dmaStoreRead (s : State) (t : Tile) (a : Nat) (e : Ecc) : Nat × List Byte × State :=
  match e with
  | .ok => (rOK, dsRead (s.tile t) a 64, s)
  | .corrected => (rOK, dsRead (s.tile t) a 64, request s t rowEcc)
  | .uncorrectable => (rUe, [], storeUe s t 1 (a / 8))

/-- A line of the source: response, bytes and state (R164, R183, R274). `remote` holds what another module returned, and
`e` what the read finds. -/
def dmaRead (s : State) (t : Tile) (sp a : Nat) (remote : List Byte) (e : Ecc) : Nat × List Byte × State :=
  if sp = 0 then
    (if modOf a = s.module then serveRead s (selfParty s t) (locOf a) 64 e else (rOK, padTo 64 remote, s))
  else if sp = 1 then
    let r := spoolLocal s t a 64 e
    (if r.1 then rOK else rUe, spRead s (s.ptile t.toNat) a 64, r.2)
  else if sp = 2 then (rOK, tregRead (s.tile t) a, s)
  else dmaStoreRead s t a e

/-- A line of the destination: response and state; a landed line is progress (R263). A line for another module is
requested under the transfer's tag (R285): R307 gives a write the class LSE alone, whatever the descriptor's CLASS. -/
def dmaWrite (s : State) (t : Tile) (tag sp a : Nat) (bs : List Byte) : Nat × State :=
  let s := if sp = 0 ∧ modOf a ≠ s.module then s else progress s
  if sp = 0 then
    (if modOf a = s.module then serveWrite s (selfParty s t) (locOf a) bs .ok
     else (rOK, post s (.lseWrite (selfParty s t) (BitVec.ofNat 48 a) bs tag)))
  else if sp = 1 then (rOK, spWrite s (s.ptile t.toNat) a bs)
  else if sp = 2 then (rOK, s.modTile t (fun ts => tregWrite ts a bs))
  else (rOK, s.modTile t (fun ts => dsWrite ts a bs))

/-- The lines of a transfer: source address, destination address and number. -/
def DmaDesc.lines (d : DmaDesc) : List (Nat × Nat × Nat) :=
  (List.range d.rows).flatMap (fun r => (List.range (d.rowBytes / 64)).map (fun l =>
    (d.src + r * d.srcPitch + 64 * l, d.dst + r * d.dstPitch + 64 * l, r * (d.rowBytes / 64) + l)))

/-- The lines are moved until one gets a response other than OK (R184): the response, whether every source byte has been
read, and the state; `e` is what the first read finds beside the errors that the state holds. -/
def dmaMove (t : Tile) (d : DmaDesc) (tag : Nat) (remote : List Byte) :
    List (Nat × Nat × Nat) → Ecc → State → Nat × Bool × State
  | [], _, s => (rOK, true, s)
  | (a, b, i) :: ls, e, s =>
    let r := dmaRead s t d.srcSp a ((remote.drop (64 * i)).take 64) e
    if r.1 ≠ rOK then (r.1, false, r.2.2)
    else
      let w := dmaWrite r.2.2 t tag d.dstSp b r.2.1
      if w.1 ≠ rOK then (w.1, ls.isEmpty, w.2) else dmaMove t d tag remote ls .ok w.2

/-- The source, or the destination, lies in another module (R285). -/
def DmaDesc.srcFar (s : State) (d : DmaDesc) : Bool := d.srcSp == 0 && modOf d.src != s.module
def DmaDesc.dstFar (s : State) (d : DmaDesc) : Bool := d.dstSp == 0 && modOf d.dst != s.module

/-- The lines of a source in another module are requested (R285, R286). -/
def dmaAsk (s : State) (t : Tile) (e : DmaEnt) (d : DmaDesc) : State :=
  forEach d.lines (fun l s => post s (.lseRead (selfParty s t) (BitVec.ofNat 48 l.1) 64 e.tag)) s

/-- The transfer's requests have their responses: their LSE credits return, and requests that waited go (R286). -/
def dmaCredits (s : State) (t : Tile) (e : DmaEnt) : State :=
  let src := selfParty s t
  lsePump { s with lseOut := s.lseOut.filter (fun x => !(x.src == src && x.tag == e.tag % 65536)),
                   lseWait := s.lseWait.filter (fun m => match m with
                     | .lseRead p _ _ g => !(p == src && g == e.tag)
                     | .lseWrite p _ _ g => !(p == src && g == e.tag)
                     | _ => true) }

/-- An active transfer changes. -/
def dmaSet (s : State) (t : Tile) (e e' : DmaEnt) : State :=
  s.modTile t (fun ts => { ts with dma := ts.dma.map (fun x => if x = e then e' else x) })

/-! ### Streams at the sender (R322, R323) -/

/-- An entry of the stream table. -/
def streamAt (s : State) (k : Nat) : StreamEnt := smGet (fun _ => StreamEnt.none_) s.streams k

/-- The packets of a transfer to a stream: source offset within the transfer's lines, window offset and length. R323 gives
them at most 4 KiB and a port by chunk. The model's choices (log entry 162): a packet ends with its 4 KiB chunk of the window
whatever the CREDITS of the stream, so that a stream with fewer credits than a packet's cells never sends it, and with its
row, so that rows shorter than a chunk put several packets into one, of which a KIND CXU stream counts the second as DUP. -/
def DmaDesc.packets (d : DmaDesc) : List (Nat × Nat × Nat) :=
  (List.range d.rows).flatMap (fun r =>
    let o := d.dst / 4096 + r * d.dstPitch
    let first := o / 4096
    let last := (o + d.rowBytes - 1) / 4096
    (List.range (last + 1 - first)).map (fun i =>
      let a := max o ((first + i) * 4096)
      let b := min (o + d.rowBytes) ((first + i + 1) * 4096)
      (d.src + r * d.srcPitch + (a - o), a, b - a)))

/-- Read a packet's bytes line by line: response, bytes and state. -/
def dmaGather (t : Tile) (d : DmaDesc) (remote : List Byte) : List Nat → Ecc → State → Nat × List Byte × State
  | [], _, s => (rOK, [], s)
  | a :: as, e, s =>
    let r := dmaRead s t d.srcSp a (remote.drop (a - d.src)) e
    if r.1 ≠ rOK then (r.1, [], r.2.2)
    else
      let q := dmaGather t d remote as .ok r.2.2
      (q.1, r.2.1 ++ q.2.1, q.2.2)

/-- Stream cells in use by this sender. -/
def streamUsed (s : State) (k : Nat) : Nat := smGet (fun _ => 0) s.streamUse k

/-- One packet leaves for its stream (R323): to the port of its chunk, or to the own CXU for a KIND CXU stream (R329). -/
def sendStream (s : State) (t : Tile) (k off : Nat) (data : List Byte) (last : Bool) : State :=
  let e := streamAt s k
  if e.kind = 2 then
    send s (.cxData (.localTile t) (BitVec.ofNat 24 (descAt s e.desc).gid) (off / 4096) data)
  else
    let s := { s with streamUse := smPut (fun _ => 0) s.streamUse k (streamUsed s k + cellsOf data.length) }
    sendPkt s (4 * e.group + off / 4096 % 4) .sch tyStream (b2n last) (k + off * 4096) data

/-- Packets leave, in order, while the stream has credits (R323): response, packets sent, state. -/
def dmaStream (t : Tile) (d : DmaDesc) (remote : List Byte) :
    List (Nat × Nat × Nat) → Nat → Ecc → State → Nat × Nat × State
  | [], n, _, s => (rOK, n, s)
  | (a, o, len) :: ps, n, ecc, s =>
    let k := d.dst % 4096
    let e := streamAt s k
    if e.kind ≠ 2 ∧ (e.size < o + len) then (rUnmapped, n, s)
    else if e.kind ≠ 2 ∧ e.credits < streamUsed s k + cellsOf len then (rOK, n, s)
    else
      let r := dmaGather t d remote ((List.range (len / 64)).map (fun i => a + 64 * i)) ecc s
      if r.1 ≠ rOK then (r.1, n, r.2.2)
      else dmaStream t d remote ps (n + 1) .ok (sendStream r.2.2 t k o r.2.1 ps.isEmpty)

/-- LOC_CTR of the oldest transfer is signalled by 1 once every source byte has been read (R183, R239); those behind it
follow in queue order (R184). -/
def dmaLocal (s : State) (t : Tile) : State :=
  match (s.tile t).dma with
  | e :: es =>
    if e.read ∧ ¬ e.told then
      let s := s.modTile t (fun ts => { ts with dma := { e with told := true } :: es })
      let d := parseDma e.bytes
      if d.locEn then sySignal s t d.loc 1 (some e.pc) else s
    else s
  | [] => s

/-- Every source byte of a transfer has been read, or not yet (R183). -/
def dmaSeen (s : State) (t : Tile) (e : DmaEnt) (all : Bool) : State :=
  if all then
    dmaLocal (s.modTile t (fun ts =>
      { ts with dma := ts.dma.map (fun x => if x.ord = e.ord then { x with read := true } else x) })) t
  else s

/-- An active transfer to a stream sends what its credits allow. -/
def pushStream (s : State) (t : Tile) (e : DmaEnt) (remote : List Byte) (ecc : Ecc) : State :=
  let d := parseDma e.bytes
  let r := dmaStream t d remote (d.packets.drop e.sent) e.sent ecc s
  if (r.2.2.tile t).off then r.2.2
  else if r.1 ≠ rOK then dmaFail r.2.2 t e r.1
  else
    let s := r.2.2.modTile t (fun ts => { ts with dma := ts.dma.map (fun x => if x.ord = e.ord then { x with sent := r.2.1 } else x) })
    dmaSeen s t e (r.2.1 == d.packets.length)

/-! ### Start and completion -/

/-- The first descriptor that has not started. -/
def nextDma (ts : TileSt) : Option DmaEnt := ts.dma.find? (fun e => !e.active)

/-- An engine instruction or a transfer that issued before the transfer has an access to one of its tile registers to make,
and one of the two writes (R95). -/
def engineClash (ts : TileSt) (e : DmaEnt) : Bool :=
  (ts.mxQ ++ ts.vxQ).any (fun q => decide (q.ord < e.ord) && tregClash (queuedTregs q.ins) (dmaTregs e))
    || ts.dma.any (fun x => x.active && decide (x.ord < e.ord) && tregClash (dmaTregs x) (dmaTregs e))

/-- The lines of a transfer move (R184): into another module they go out as requests, and the transfer waits for their
responses. -/
def dmaRun (s : State) (t : Tile) (e : DmaEnt) (remote : List Byte) (ecc : Ecc) : Nat × State :=
  let r := dmaMove t (parseDma e.bytes) e.tag remote (parseDma e.bytes).lines ecc s
  (r.1, if (r.2.2.tile t).off then r.2.2 else dmaSeen r.2.2 t e (r.2.1 || (parseDma e.bytes).srcFar s))

/-- A started transfer begins to move: a stream sends what its credits allow, a far source is asked for, and lines for
another module go out. -/
def dmaBegin (s : State) (t : Tile) (e : DmaEnt) (ecc : Ecc) : State :=
  let d := parseDma e.bytes
  if d.srcFar s then dmaAsk s t e d
  else if d.dstSp = 4 then (if d.srcSp ≠ 0 then pushStream s t e [] ecc else s)
  else if d.dstFar s then
    let r := dmaRun (dmaSet s t e { e with sent := 1 }) t { e with sent := 1 } [] ecc
    if (r.2.tile t).off then r.2 else if r.1 ≠ rOK then dmaFail r.2 t e r.1 else r.2
  else s

/-- DMA_TRANSFER_START (R183, R184): at most two are active, and engine instructions and transfers before it reach its tile
registers first (R95); a stall of the chip freezes the DMA issue stage (R26, R193, R206); a descriptor that fails its checks fails with DESC_BAD. -/
def execDmaTransferStart (t : Tile) (ecc : Ecc) (s : State) : Out :=
  onTile s t <| done s <|
    match nextDma (s.tile t) with
    | none => s
    | some e =>
      if 2 ≤ ((s.tile t).dma.filter (·.active)).length ∨ s.tileOff t ∨ ¬ enginesRun s t
          ∨ engineClash (s.tile t) e then s
      else if (parseDma e.bytes).fails then dmaFail s t e rDescBad
      else dmaBegin (dmaSet s t e { e with active := true }) t { e with active := true } ecc

/-- The SIG signal of a completed transfer (R183, R239), in the descriptor's CLASS, and its entry freed: LOC_CTR of the one
behind it may follow (R184). -/
def dmaSignals (s : State) (t : Tile) (e : DmaEnt) : State :=
  let d := parseDma e.bytes
  let s := (progress s).modTile t (fun ts => { ts with dma := ts.dma.filter (fun x => x.ord != e.ord) })
  let s := if d.sigEn then
      let w : SigWait := { word := BitVec.ofNat 64 d.sig, pc := e.pc, ord := e.ord, dma := some e.desc }
      postSignal (s.modTile t (fun ts => { ts with sigs := ts.sigs ++ [w] })) (if bit d.flags 0 then .lse else .sch)
        (.dma (BitVec.ofNat 3 s.module) t (BitVec.ofNat 16 e.desc)) (BitVec.ofNat 64 d.sig)
    else s
  dmaLocal s t

/-- A transfer that another module answered with a failure: how many lines had landed is a free value (R184, R287). -/
def dmaPartial (s : State) (t : Tile) (e : DmaEnt) (remote : List Byte) (ecc : Ecc) : State :=
  let d := parseDma e.bytes
  if e.sent = 1 ∨ d.dstFar s then s
  else
    let n := (freshFree s).1.toNat % (d.lines.length + 1)
    (dmaMove t d e.tag remote (d.lines.take n) ecc (freshFree s).2).2.2

/-- The end of a transfer whose packets met no failure. -/
def dmaEnd (s : State) (t : Tile) (e : DmaEnt) (remote : List Byte) (ecc : Ecc) : State :=
  let d := parseDma e.bytes
  if d.dstSp = 4 then
    let s := pushStream s t e remote ecc
    match (s.tile t).dma.find? (fun x => x.ord == e.ord) with
    | some e' =>
      if e'.rsp ≠ 0 then dmaFail s t e' e'.rsp
      else if e'.sent = d.packets.length then dmaSignals s t e' else s
    | none => s
  else if e.sent = 1 then dmaSignals s t e
  else
    let r := dmaRun (dmaSet s t e { e with sent := 1 }) t { e with sent := 1 } remote ecc
    if (r.2.tile t).off then r.2
    else if r.1 ≠ rOK then dmaFail r.2 t e r.1
    else if d.dstFar s then r.2
    else dmaSignals r.2 t e

/-- DMA_TRANSFER_COMPLETE (R184): the oldest active transfer ends. `rsp` is the worst response that came from outside the
module, `remote` what its source lines outside the module held, `ecc` what the first line read on the chip finds. With
both ends in other modules it comes once for the source and once for the destination, whose responses the signals follow
(R287). -/
def execDmaTransferComplete (t : Tile) (rsp : BitVec 8) (remote : List Byte) (ecc : Ecc) (s : State) : Out :=
  onTile s t <| done s <|
    match (s.tile t).dma.find? (·.active) with
    | none => s
    | some e =>
      let s := dmaCredits s t e
      let bad := if e.rsp ≠ 0 then e.rsp else rsp.toNat
      if bad = 0 then dmaEnd s t e remote ecc
      else
        let s := if (parseDma e.bytes).dstSp = 4 then s else dmaPartial s t e remote ecc
        if (s.tile t).off then s else dmaFail s t e bad

end Sys2Proof.Machine
end

