-- ==== Sys2Proof/Machine/Sync.lean ====
section
/-! DEFINITION. Sync counters, realign barriers, tack lines and mailboxes (R185 to R187, R225 to R230, R236 to R262):
the instructions, the signals and messages that arrive, and their responses. -/

namespace Sys2Proof.Machine

/-! ### Signals -/

/-- The precise SYNC cause INDEX (R185, R265) with its information. -/
def indexCause (s : State) (t : Tile) (w : Nat) : State :=
  precise (raiseF s (syPg t) sy_F_INDEX) t cSync (BitVec.ofNat 64 (w % 2 ^ 48))

/-- sy.sig (R185, R239). -/
def execSySig (t : Tile) (o : RfOp) (s : State) : Out :=
  coreOp s t [o.gA] (s.p t o.pG) (o.gD != 0 || o.gB != 0 || o.fn != 0) (o.enc 0x34) fun s =>
    let w := s.g t o.gA
    if ¬ sigWordOk w.toNat then indexCause s t w.toNat
    else
      let pc := (s.tile t).pc.toNat
      let s := (advance s t).modTile t (fun ts =>
        { ts with sigs := ts.sigs ++ [{ word := w, pc := pc, ord := ts.ord, dma := none }] })
      post s (.signal (.tile (BitVec.ofNat 3 s.module) t) w)

/-- sy.sigi (R185): a counter above 47 raises the SYNC cause INDEX. -/
def execSySigi (t : Tile) (o : SigiOp) (s : State) : Out :=
  coreOp s t [] (s.p t o.pG) (o.rsv != 0 || o.n == 0) o.enc fun s =>
    if 47 < o.ctr.toNat then indexCause s t o.ctr.toNat
    else sySignal (advance s t) t o.ctr.toNat o.n.toNat (some (s.tile t).pc.toNat)

/-- SIGNAL (R237, R239): the response goes back to a sending tile of this module. -/
def deliverSignal (s : State) (w : Nat) : Nat × State :=
  let t : Tile := BitVec.ofNat 11 (wordTile w)
  if wordDest w ∨ s.ntiles ≤ wordTile w ∨ 47 < wordCtr w then (rUnmapped, s)
  else if s.tileOff t then (rOff, s)
  else (rOK, sySignal s t (wordCtr w) (wordCount w) none)

/-- The response to a tile, of this module or of another; the router of a fenced tile discards it (R434). -/
def replyTile (s : State) (m : Nat) (t : Tile) (w : W64) (rsp : Nat) : State :=
  if m = s.module then (if (s.tile t).off then s else send s (.signalRsp t w rsp)) else send s (.remoteRsp m (some t) (some w) rsp)

/-- The response to a signal of a tile or of its DMA (R239). -/
def signalReply (s : State) (src : Sender) (w : W64) (rsp : Nat) : State :=
  match src with
  | .tile m t => replyTile s m.toNat t w rsp
  | .dma m t _ => replyTile s m.toNat t w rsp
  | _ => s

/-- A signal or a message in flight from a tile to the target of a word (R240); the sender of one that came from another
module is known by the module of its port. -/
def fromTo (s : State) (m : Nat) (u : Tile) (w : Nat) (q : NetMsg) : Bool :=
  match q with
  | .signal (.tile m' u') w' => m'.toNat == m && u' == u && bits w'.toNat 31 16 == bits w 31 16
  | .mbox st w' _ _ => st.toNat == m * 2 ^ 27 + u.toNat && bits w'.toNat 31 16 == bits w 31 16
  | .pkt p h _ =>
    m != s.module && (h.type == tySignal || h.type == tyMailbox) && rd s (lkPg p) lk_PEER_MODULE == m
      && bits h.addr 31 16 == bits w 31 16
  | _ => false

/-- Signals and messages of one tile to another are delivered in the order of sending (R240): this one is the oldest in
flight, or none is. -/
def routeTurn (s : State) (m : Nat) (u : Tile) (w : Nat) (this : NetMsg → Bool) : Bool :=
  match s.net.find? (fromTo s m u w) with
  | some q => this q
  | none => true

/-- A signal as the network holds it. -/
def isSignal (src : Sender) (word : W64) (m : NetMsg) : Bool := m == .signal src word || isPkt tySignal word.toNat m

/-- The turn of a signal (R240): that of a tile's sy.sig among the tile's messages to its target. -/
def signalTurn (s : State) (src : Sender) (word : W64) : Bool :=
  match src with
  | .tile m u => routeTurn s m.toNat u word.toNat (isSignal src word)
  | _ => true

/-- The module of a sender: that of a tile or its DMA, else the own one. -/
def senderModule (s : State) : Sender → Nat
  | .tile m _ => m.toNat
  | .dma m _ _ => m.toNat
  | _ => s.module

/-- What comes from a module of the bolt is discarded where the port from it faces another job (R25). -/
def unlessForeignFrom (s : State) (m : Nat) (c : LinkClass) (k : State) : State :=
  if m = s.module then k else unlessForeign s (boltPort s m 0) c k

/-- SIGNAL (R237 to R240, R25). -/
def execSignal (src : Sender) (word : BitVec 64) (s : State) : Out :=
  done s <|
    if wordModule word.toNat ≠ s.module ∨ signalTurn s src word = false then s
    else
      let s := dropMsg s (isSignal src word)
      unlessForeignFrom s (senderModule s src) .sch <|
        let r := deliverSignal (progress s) word.toNat
        signalReply r.2 src word r.1

/-- SIGNAL_RESPONSE (R239): a response other than OK raises the deferred BUS cause of the sy.sig, or the DMA cause of the
descriptor (R184). -/
def execSignalResponse (t : Tile) (word : BitVec 64) (rsp : BitVec 8) (s : State) : Out :=
  onTile s t <| done s <|
    match (s.tile t).sigs.find? (fun x => x.word == word) with
    | none => s
    | some x =>
      let q := takeMsg s (fun m => match m with | .signalRsp u w _ => u == t && w == word | _ => false)
      let r := match q.1 with | some (.signalRsp _ _ r) => r | _ => rsp.toNat
      let s := (progress q.2).modTile t (fun ts => { ts with sigs := ts.sigs.erase x })
      if r = rOK then s
      else match x.dma with
        | some d => dmaFail s t { desc := d, pc := x.pc, ord := x.ord, bytes := [], active := false, sent := 0,
                                   tag := 0, rsp := 0, read := true, told := true } r
        | none => raiseCause s t
          { code := cBus, src := 0, kind := .deferred, pc := x.pc,
            info := BitVec.ofNat 64 (word.toNat % 2 ^ 48 + r * 2 ^ 48 + 2 ^ 56), ord := x.ord, inHandler := s.hmode t }

/-! ### Waits -/

/-- LOST of a counter (R245). -/
def syLost (s : State) (t : Tile) (c : Nat) : Bool := rdi s (syPg t) sy_OWN_LOST c == 1

/-- T CCLK cycles have passed since the wait's first check that failed (R241); T = 0 is no timeout. -/
def waitExpired (s : State) (w : SyWait) : Bool := decide (0 < w.timeout) && decide (w.since + w.timeout ≤ s.cycles)

/-- A sy.wait issues with a status (R241). What the program does on OWNER_LOST is its own: that a failure path counts as a
TILE fault of the tile (R443) reaches the model only as the FENCE that the management core then makes (log entry 157). -/
def waitIssue (s : State) (t : Tile) (gD : BitVec 5) (st : Nat) : State :=
  let s := s.modTile t (fun ts => { ts with wait := none })
  let s := (advance (unrequest s t rowSync) t).setG t gD (BitVec.ofNat 64 st)
  if st = 2 then inc s (syPg t) sy_LOST_WAKES 1 else if st = 1 then inc s (syPg t) sy_TIMEOUTS 1 else s

/-- The first two decisions of R241: issue with OK or OWNER_LOST, or neither. -/
def waitCheck (s : State) (t : Tile) (w : SyWait) : Option State :=
  if w.n ≤ syCount s t w.ctr then some (sySubtract (waitIssue s t w.gD 0) t w.ctr w.n)
  else if syLost s t w.ctr then some (waitIssue s t w.gD 2)
  else none

/-- sy.wait (R185, R194, R241). Which cause a handler's sy.wait raises that breaks another condition too R581 does not say,
since its groups give PRIV no place: that PRIV comes after a reserved field and before every check of an operand, here and
for sy.tack and sy.realign, is the model's choice (log entry 159). -/
def execSyWait (t : Tile) (o : RfOp) (s : State) : Out :=
  coreOp s t [o.gD, o.gA, o.gB] (s.p t o.pG) (bits o.fn.toNat 7 6 != 0) (o.enc 0x36) fun s =>
    let a := (s.g t o.gA).toNat
    let b := (s.g t o.gB).toNat
    let c := bits o.fn.toNat 5 0
    if s.hmode t then precise s t cPriv (iw (o.enc 0x36))
    else if 47 < c then indexCause s t c
    else if 2 ^ 16 ≤ a ∨ 2 ^ 48 ≤ b then precise s t cIllegal (iw (o.enc 0x36))
    else
      let w : SyWait := { ctr := c, n := a, timeout := b, gD := o.gD, since := s.cycles }
      match waitCheck s t w with
      | some s' => s'
      | none => request (s.modTile t (fun ts => { ts with wait := some w })) t rowSync

/-- The withheld sy.wait issues: the first two decisions come before TIMEOUT (R241). -/
def waitGo (s : State) (t : Tile) (w : SyWait) : State :=
  (waitCheck s t w).getD (if waitExpired s w then waitIssue s t w.gD 1 else s)

/-- A withheld instruction's condition has cleared: its request is dropped, and it issues once no other request stands
(R207). -/
def release (s : State) (t : Tile) (f : State → State) : State :=
  let s := unrequest s t rowSync
  if chipIssues s ∧ s.hmode t = false then f s else s

/-- SY_WAIT_TIMEOUT (R241): the check that finds T cycles passed. -/
def execSyWaitTimeout (t : Tile) (s : State) : Out :=
  onTile s t <| done s <|
    match (s.tile t).wait with
    | none => s
    | some w => if waitExpired s w then release s t (fun s => waitGo s t w) else s

/-! ### Tack lines -/

/-- PART of a tile for a line (R248). -/
def tackPart (s : State) (t : Tile) (k : Nat) : Bool := bit (rd s (syPg t) sy_TACK_PART) k

/-- The participants of a line. -/
def tackTiles (s : State) (k : Nat) : List Tile := tilesWhere s 3 0x044 (fun w => bit w k)

/-- The chip-level condition (R248). -/
def tackAll (s : State) (k : Nat) : Bool := !(tackTiles s k).isEmpty && (tackTiles s k).all (fun t => tackPend s t k)

/-- SCOPE of a line: true for BOLT. -/
def lineBolt (s : State) (k : Nat) : Bool := rdi s tkPg tk_LINE_SCOPE k == 1

/-- The other modules of a line's mask. -/
def linePeers (s : State) (k : Nat) : List Nat :=
  (List.range 8).filter (fun m => bit (rdi s tkPg tk_LINE_MODULES k) m && m != s.module)

/-- The line is broken (R251, R268). -/
def lineBroken (s : State) (k : Nat) : Bool := bit (regW s tkPg pg_FAULT.off) k

/-- GROUP_ID of a TACK packet: the manual gives CX_CTRL kind 5 no place for k and GEN (R252, R307), and this one is the
model's (log entry 128). -/
def tackId (k gen : Nat) : Nat := k + 16 * gen

/-- The CXU announces the chip-level condition of a bolt-scope line once, to each other module of its mask over the bolt
mesh (R252). -/
def tackAnnounce (s : State) (k : Nat) : State :=
  if lineBolt s k ∧ tackAll s k ∧ ¬ s.tackSent.contains k then
    forEach (linePeers s k) (fun m s => cxCtrlPkt s (boltPort s m 0) (tackId k (rdi s tkPg tk_LINE_GEN k)) 0 5 0)
      { s with tackSent := s.tackSent ++ [k] }
  else s

/-- PEND of a tile is set. -/
def setPend (s : State) (t : Tile) (k : Nat) : State :=
  tackAnnounce (progress (wr s (syPg t) sy_TACK_PEND (setBits (rd s (syPg t) sy_TACK_PEND) k k 1))) k

/-- What every sy.tack checks first (R194, R249, R251); `arrive` says whether the form sets PEND. -/
def tackOp (t : Tile) (o : TackOp) (op : Nat) (arrive : Bool) (body : Nat → State → State) (s : State) : Out :=
  let k := o.k.toNat
  coreOp s t [] (s.p t o.pG) (o.rsv1 != 0 || o.rsv2 != 0) (o.enc op) fun s =>
    if s.hmode t then precise s t cPriv (iw (o.enc op))
    else if lineBroken s k || !tackPart s t k || (o.b == 1) != lineBolt s k || (arrive && tackPend s t k) then
      tackCause s t k
    else body k s

/-- sy.tack ARRIVE (R249). -/
def execSyTackArrive (t : Tile) (o : TackOp) (s : State) : Out :=
  tackOp t o 0 true (fun k s => setPend (advance s t) t k) s

/-- sy.tack WAIT (R249). -/
def execSyTackWait (t : Tile) (o : TackOp) (s : State) : Out :=
  tackOp t o 1 false (fun k s =>
    if tackPend s t k then
      request (s.modTile t (fun ts => { ts with tackWait := some (BitVec.ofNat 4 k, true) })) t rowSync
    else advance s t) s

/-- sy.tack ARRIVE and WAIT (R249): the next instruction is withheld. -/
def execSyTackArriveWait (t : Tile) (o : TackOp) (s : State) : Out :=
  tackOp t o 2 true (fun k s =>
    let s := setPend (advance s t) t k
    request (s.modTile t (fun ts => { ts with tackWait := some (BitVec.ofNat 4 k, false) })) t rowSync) s

/-- Every module of the mask has announced the current GEN (R252). -/
def tackPeersIn (s : State) (k : Nat) : Bool :=
  (linePeers s k).all (fun m => (smGet (fun _ => 0) s.tackGot (k * 256 + rdi s tkPg tk_LINE_GEN k) : BitVec 8).getLsbD m)

/-- The condition of line `k` holds (R248, R252). -/
def lineReady (s : State) (k : Nat) : Bool :=
  !lineBroken s k && tackAll s k && (!lineBolt s k || tackPeersIn s k)

/-- Line `k` completes (R248, R252). -/
def completeLine (s : State) (k : Nat) : State :=
  let g := rdi s tkPg tk_LINE_GEN k
  let s := wri (clearPend (progress s) k) tkPg tk_LINE_GEN k (g + 1)
  { s with tackGot := smDrop s.tackGot (· == k * 256 + g), tackSent := s.tackSent.filter (· != k) }

/-- TACK (R252, R253): one from outside the mask is discarded and counted. -/
def execTack (module : BitVec 3) (k : BitVec 4) (gen : BitVec 8) (s : State) : Out :=
  done s <|
    let k := k.toNat
    let m := module.toNat
    let got := takePkt s (fun q h _ => h.type == tyCxCtrl && h.addr % 2 ^ 24 == tackId k gen.toNat
      && bits h.addr 31 28 == 5 && rd s (lkPg q) lk_PEER_MODULE == m)
    whenHeard got (routePort s 64 (boltPort s m 0)) .sch fun s =>
    let s := progress s
    if lineBolt s k ∧ (linePeers s k).contains m then
      let key := k * 256 + gen.toNat
      let got : BitVec 8 := smGet (fun _ => 0) s.tackGot key ||| BitVec.ofNat 8 (2 ^ m)
      { s with tackGot := smPut (fun _ => 0) s.tackGot key got }
    else logReq (inc s tkPg tk_STRAY 1) 2 0x0008 tkPg (b1 k ++ b1 m)

/-- The peer module of a port group of the bolt mesh or the twin group (R22, R23). -/
def groupPeer (s : State) (g : Nat) : Option Nat :=
  if g < 7 then some ((s.module + g + 1) % 8) else if g = 7 then some (s.module ^^^ 1) else none

/-- An open collective has a member in a module of the bolt: one of its edges or ring links leads there. -/
def cxHasModule (s : State) (m : Nat) (g : CxGroup) : Bool :=
  let d := g.d
  (d.children ++ d.parent.toList ++ d.nextG.toList ++ d.prevG.toList).any (fun x => groupPeer s x == some m)

/-- LOST_NOTICE (R245, R253, R333). -/
def execLostNotice (module : BitVec 3) (x : Option Tile) (s : State) : Out :=
  done s <|
    let m := module.toNat
    let s := progress (dropMsg s (fun q => q == .lost module x))
    let s := markLost s m x
    match x with
    | some _ => s
    | none => abortWhere (breakLinesOf s m) (cxHasModule s m) 0

/-! ### Realign barriers -/

/-- An entry of a baseline table (R227): CTR, BASE, PROD, CONS. -/
structure RaEnt where
  ctr : Nat
  base : Nat
  prod : Nat
  cons : Nat
  rsv : Bool
deriving DecidableEq, Repr

/-- The entries of a table. -/
def raEntries (ts : TileSt) (a : Nat) : List RaEnt :=
  (List.range (bits (memNat ts.dstore a 1) 5 0)).map (fun i =>
    let b := a + 8 + 8 * i
    { ctr := bits (memNat ts.dstore b 1) 5 0, base := memNat ts.dstore (b + 2) 2, prod := memNat ts.dstore (b + 4) 2,
      cons := memNat ts.dstore (b + 6) 2, rsv := decide (bits (memNat ts.dstore b 2) 15 6 ≠ 0) })

/-- A table that raises ILLEGAL (R227). -/
def raBad (ts : TileSt) (a : Nat) : Bool :=
  let n := bits (memNat ts.dstore a 1) 5 0
  let es := raEntries ts a
  decide (memNat ts.dstore a 8 ≠ n) || decide (n < 1) || decide (48 < n) || es.any (fun e => e.rsv || decide (47 < e.ctr))
    || !decide (es.map (·.ctr)).Nodup

/-- PROD_CNT has reached PROD for every listed counter (R228). -/
def raReady (s : State) (t : Tile) (es : List RaEnt) : Bool :=
  es.all (fun e => decide (e.prod ≤ rdi s (syPg t) sy_PC_PROD_CNT e.ctr))

/-- The first mismatch: CTR, RA_WHICH, expected and actual (R228, R229). -/
def raMismatch (s : State) (t : Tile) : List RaEnt → Option (Nat × Nat × Nat × Nat)
  | [] => none
  | e :: es =>
    let p := rdi s (syPg t) sy_PC_PROD_CNT e.ctr
    let c := rdi s (syPg t) sy_PC_CONS_CNT e.ctr
    let n := syCount s t e.ctr
    if p ≠ e.prod then some (e.ctr, 0, e.prod, p)
    else if c ≠ e.cons then some (e.ctr, 1, e.cons, c)
    else if n ≠ e.base then some (e.ctr, 2, e.base, n)
    else raMismatch s t es

/-- The tile halts at the barrier (R229, R580), and the management core fences it (R423, R443). -/
def raHalt (s : State) (t : Tile) (x : Nat × Nat × Nat × Nat) : State :=
  let p := syPg t
  let s := wr (wr (wr (wr s p sy_RA_EXPECTED x.2.2.1) p sy_RA_ACTUAL x.2.2.2) p sy_RA_WHICH x.2.1) p sy_RA_CTR x.1
  let s := unrequestAll ((wr s (tlPg t) tl_STATUS_RUNNING 0).modTile t (fun ts => { ts with causes := [] })) t
  fenceTile (logReq (raiseF s p sy_F_REALIGN) 3 0x0005 p
    (b2 t.toNat ++ b1 x.1 ++ b1 x.2.1 ++ b2 x.2.2.1 ++ b2 x.2.2.2)) t

/-- The comparison of R228 and what follows it. -/
def raAct (s : State) (t : Tile) (a : Nat) : State :=
  let es := raEntries (s.tile t) a
  let s := unrequest (s.modTile t (fun ts => { ts with realign := none })) t rowSync
  match raMismatch s t es with
  | some x => raHalt s t x
  | none =>
    let s := forEach es (fun e s =>
      wri (wri (wri s (syPg t) sy_CNT_COUNT e.ctr e.base) (syPg t) sy_PC_PROD_CNT e.ctr 0) (syPg t) sy_PC_CONS_CNT e.ctr 0)
      (advance s t)
    wr s (syPg t) sy_ISSUE 0

/-- sy.realign (R194, R227, R228). -/
def execSyRealign (t : Tile) (o : RfOp) (ecc : Ecc) (s : State) : Out :=
  coreOp s t [o.gA] (s.p t o.pG) (o.gD != 0 || o.gB != 0 || o.fn != 0) (o.enc 0x38) fun s =>
    let a := (s.g t o.gA).toNat
    if s.hmode t then precise s t cPriv (iw (o.enc 0x38))
    else if a % 8 ≠ 0 ∨ 0x10000 ≤ a then precise s t cDaddr (s.g t o.gA)
    else if 0x10000 < a + 8 + 8 * min 48 (bits (memNat (s.tile t).dstore a 1) 5 0) then precise s t cDaddr 0x10000
    else dsEcc s t ecc (a / 8) fun s =>
      if raBad (s.tile t) a then precise s t cIllegal (iw (o.enc 0x38))
      else if raReady s t (raEntries (s.tile t) a) then raAct s t a
      else request (s.modTile t (fun ts => { ts with realign := some (a, s.cycles) })) t rowSync

/-- 65,536 CCLK cycles of a realign wait have passed (R228). -/
def raExpired (s : State) (x : Nat × Nat) : Bool := decide (x.2 + 65536 ≤ s.cycles)

/-- REALIGN_TIMEOUT (R228): the comparison runs. -/
def execRealignTimeout (t : Tile) (s : State) : Out :=
  onTile s t <| done s <| match (s.tile t).realign with
    | some x => if raExpired s x then release s t (fun s => raAct s t x.1) else s
    | none => s

/-- REALIGN_OVERDUE (R225). -/
def execRealignOverdue (t : Tile) (s : State) : Out :=
  onTile s t <| done s <|
    let n := rd s (syPg t) sy_ISSUE
    if 2 ^ 21 ≤ n then logReq s 2 0x0006 (syPg t) (b2 t.toNat ++ b4 n) else s

/-! ### Mailboxes -/

/-- mb.send (R185, R256). -/
def execMbSend (t : Tile) (o : RfOp) (ecc : Ecc) (s : State) : Out :=
  coreOp s t [o.gD, o.gA, o.gB] (s.p t o.pG) (o.fn != 0) (o.enc 0x3A) fun s =>
    let w := s.g t o.gA
    let b := s.g t o.gB
    if wordRsv w.toNat then indexCause s t w.toNat
    else if b.toNat % 64 ≠ 0 ∨ 0x10000 ≤ b.toNat then precise s t cDaddr b
    else dsEcc s t ecc (b.toNat / 8) fun s =>
      let hm := s.hmode t
      let data := dsRead (s.tile t) b.toNat 64
      let s := (advance s t).modTile t (fun ts => { ts with sends := ts.sends ++ [(w, o.gD, hm)] })
      post s (.mbox (tileStamp s t) w data false)

/-- The message that mb.recv takes (R186, R258). -/
def recvMsg (ts : TileSt) (hm : Bool) : Option (Nat × Msg) := ts.slots.find? (fun x => hm || !x.2.nonTile)

/-- A message leaves its slot; with no message of KIND 1 or 2 left, the MSG cause is no longer pending (R258, R259). -/
def TileSt.takeSlot (ts : TileSt) (x : Nat × Msg) : TileSt :=
  let rest := ts.slots.erase x
  { ts with slots := rest,
            causes := if rest.any (fun y => y.2.nonTile) then ts.causes else ts.causes.filter (fun c => c.code != cMsg) }

/-- mb.recv (R258): pD stands in FN[2:0]. -/
def execMbRecv (t : Tile) (o : RfOp) (s : State) : Out :=
  coreOp s t [o.gD, o.gA] (s.p t o.pG) (o.gB != 0 || bits o.fn.toNat 7 3 != 0) (o.enc 0x3B) fun s =>
    let a := s.g t o.gA
    let pD := BitVec.ofNat 3 o.fn.toNat
    if a.toNat % 64 ≠ 0 ∨ 0x10000 ≤ a.toNat then precise s t cDaddr a
    else match recvMsg (s.tile t) (s.hmode t) with
      | some x =>
        ((advance s t).modTile t (fun ts =>
          (dsWrite (ts.takeSlot x) a.toNat (padTo 64 x.2.data)).writeP pD true)).setG t o.gD
            (x.2.stamp.setWidth 64)
      | none => ((advance s t).modTile t (fun ts => ts.writeP pD false)).setG t o.gD 0

/-- Status codes of mb.send (R185). -/
def mbOk : Nat := 0
def mbFull : Nat := 1
def mbOff : Nat := 2
def mbUnmapped : Nat := 3

/-- The lowest free slot. -/
def freeSlot (ts : TileSt) : Option Nat := (List.range 4).find? (fun n => (slotMsg ts n).isNone)

/-- The doorbell (R260). -/
def ring (s : State) (t : Tile) : State :=
  if rd s (tlPg t) tl_STATUS_SLEEP = 1 then s.modTile t (fun ts => { ts with rung := true }) else s

/-- A message reaches a tile's mailbox (R254, R260, R261). -/
def deliverTile (s : State) (t : Tile) (m : Msg) : Nat × State :=
  let ts := s.tile t
  if s.tileOff t then (mbOff, s)
  else if ¬ m.nonTile ∧ 3 ≤ (ts.slots.filter (fun x => !x.2.nonTile)).length then (mbFull, inc s (tlPg t) tl_MB_FULL_CNT 1)
  else match freeSlot ts with
    | none => (mbFull, inc s (tlPg t) tl_MB_FULL_CNT 1)
    | some n => (mbOk, ring ((progress s).modTile t (fun ts => { ts with slots := ts.slots ++ [(n, m)] })) t)

/-- The NUM record of a reporter's message (R383, R384), SOURCE the TL page of the reporter (R582); what the message
reports is Config.fmtReport of its bytes (log entry 115). -/
def logFmtReport (s : State) (t : Tile) (data : List Byte) : State :=
  match Config.fmtReport data with
  | none => s
  | some (k, layer, old, new, step) =>
    let l := b2 layer.toNat
    let e := b4 step.toNat
    match k with
    | 0 => logReq s 1 0x0406 (tlPg t) (l ++ [old, new] ++ e)
    | 1 => logReq s 0 0x0407 (tlPg t) (l ++ [new, 0] ++ e)
    | 2 => logReq s 3 0x0408 (tlPg t) (l ++ [0, 0] ++ e)
    | 3 => logReq s 3 0x0409 (tlPg t) (l ++ [0, 0] ++ e)

/-- A message reaches the management core (R262). -/
def deliverMgmt (s : State) (m : Msg) (rcv : Bool) : Nat × State :=
  let s := progress s
  if rcv then (if s.mgmtRcv.length < 8 then (mbOk, { s with mgmtRcv := s.mgmtRcv ++ [m] }) else (mbFull, s))
  else if s.mgmtBox.length < 56 then (mbOk, { s with mgmtBox := s.mgmtBox ++ [m] })
  else (mbFull, s)

/-- A message of a tile that is in the handler of the STOW cause reports its stow (R410); what it holds the manual does not
say, so that any message does is the model's choice (log entry 165). -/
def stowReport (s : State) (t : Tile) : State :=
  if s.stowReq.isSome ∧ s.hmode t ∧ rd s (tlPg t) tl_CAUSE = cStow ∧ ¬ s.stowTold.contains t then
    { s with stowTold := s.stowTold ++ [t] }
  else s

/-- The management core reads a message: one of a tile of this module may be a report of R383 or of R410. -/
def readMsg (s : State) (m : Msg) : State :=
  if m.stamp.toNat / 2 ^ 30 = 0 ∧ bits m.stamp.toNat 29 27 = s.module ∧ ¬ s.ntiles ≤ m.stamp.toNat % 2048
    then logFmtReport (stowReport s (BitVec.ofNat 11 m.stamp.toNat)) (BitVec.ofNat 11 m.stamp.toNat) m.data else s

/-- The management core takes a message: RCV messages first, and the others in order of arrival (R262). -/
def takeMgmt (s : State) : State :=
  match s.mgmtRcv with
  | _ :: ms => { s with mgmtRcv := ms }
  | [] =>
    match s.mgmtBox with
    | m :: ms => readMsg { s with mgmtBox := ms } m
    | [] => s

/-- A message reaches its target word. -/
def deliverMsg (s : State) (w : Nat) (m : Msg) (rcv : Bool) : Nat × State :=
  if wordDest w then deliverMgmt s m rcv
  else if s.ntiles ≤ wordTile w then (mbUnmapped, s)
  else deliverTile s (BitVec.ofNat 11 (wordTile w)) m

/-- The stamp as it arrives: MODULE is that of the port of arrival, or the own one of a message from the chip (R255). -/
def stampAt (s : State) (port : Option (BitVec 6)) (stamp : W32) : W32 :=
  BitVec.ofNat 32 (setBits stamp.toNat 29 27
    (match port with | some p => rd s (lkPg p.toNat) lk_PEER_MODULE | none => s.module))

/-- The response to a message goes to its sender (R254, R256, R261): the tile that waits for its status, or another
party. -/
def mailReply (s : State) (stamp : Nat) (word : W64) (status : Nat) : State :=
  let m := bits stamp 29 27
  let t : Tile := BitVec.ofNat 11 stamp
  if stamp / 2 ^ 30 = 0 then
    (if m = s.module then (if (s.tile t).off then s else send s (.mboxRsp t word status)) else send s (.remoteRsp m (some t) (some word) status))
  else if stamp / 2 ^ 30 = 1 then send s (.remoteRsp m none (some word) status)
  else s

/-- A message as the network holds it. -/
def isMail (stamp : W32) (word : W64) (data : List Byte) (rcv : Bool) (m : NetMsg) : Bool :=
  m == .mbox stamp word data rcv || isPkt tyMailbox word.toNat m

/-- The turn of a message (R240): that of a tile's among the tile's signals and messages to its target. -/
def mailTurn (s : State) (port : Option (BitVec 6)) (stamp : W32) (word : W64) (data : List Byte) (rcv : Bool) : Bool :=
  let st := (stampAt s port stamp).toNat
  st / 2 ^ 30 != 0 ||
    routeTurn s (bits st 29 27) (BitVec.ofNat 11 st) word.toNat (isMail stamp word data rcv)

/-- The class in which a message travels (R256). -/
def mailClass (stamp : W32) (rcv : Bool) : LinkClass :=
  if rcv then .rcv else if stamp.toNat / 2 ^ 30 = 0 then .sch else .mgt

/-- MAILBOX (R240, R254 to R262): `port` is the port by which the message reaches this module, none for one from the
chip. -/
def execMailbox (port : Option (BitVec 6)) (stamp : W32) (word : BitVec 64) (data : List Byte) (rcv : Bool) (s : State) : Out :=
  done s <|
    if wordModule word.toNat ≠ s.module ∨ mailTurn s port stamp word data rcv = false then s
    else
      let st := stampAt s port stamp
      let s := progress (dropMsg s (isMail stamp word data rcv))
      let go := fun s =>
        let r := deliverMsg s word.toNat { stamp := st, data := data } rcv
        mailReply r.2 st.toNat word r.1
      match port with
      | some p => unlessForeign s p.toNat (mailClass stamp rcv) (go s)
      | none => go s

/-- MAILBOX_RESPONSE (R256): the oldest mb.send of the tile to the target without a status receives it, since messages of
one tile to one target are delivered in order (R240). -/
def execMailboxResponse (t : Tile) (word : BitVec 64) (status : BitVec 3) (s : State) : Out :=
  onTile s t <| done s <|
    match (s.tile t).sends.find? (fun x => x.1 == word) with
    | none => s
    | some x =>
      let q := takeMsg s (fun m => match m with | .mboxRsp u w _ => u == t && w == word | _ => false)
      let r := match q.1 with | some (.mboxRsp _ _ r) => r | _ => status.toNat
      (progress q.2).modTile t (fun ts =>
        ({ ts with sends := ts.sends.erase x }).writeG x.2.2 x.2.1 (BitVec.ofNat 64 r))

/-- WAKE (R260, R267): a management write of MB_DOORBELL. -/
def execWake (t : Tile) (s : State) : Out := onTile s t <| done s <| actWrite s (tlPg t) (fun s => ring s t)

/-- TILE_WAKE (R191, R260): the tile issues from the next program stitch on, in lockstep with the chip; causes that
waited stop issue at once. -/
def execTileWake (t : Tile) (s : State) : Out :=
  onTile s t <| done s <|
    if rd s (tlPg t) tl_STATUS_SLEEP = 0 ∨ ¬ (s.tile t).rung ∨ s.tileOff t then s
    else
      let s := wr (wr s (tlPg t) tl_STATUS_SLEEP 0) (tlPg t) tl_STATUS_RUNNING 1
      let s := s.modTile t (fun ts => { ts with rung := false, issued := s.nextStitch * s.stitchW })
      if (s.tile t).causes.isEmpty then s else request s t rowTrap

end Sys2Proof.Machine
end

