-- ==== Sys2Proof/Machine/Matrix.lean ====
section
/-! DEFINITION. The matrix engine (chapter "Matrix Engine"): groups, the multiply with its residue check and baste
sample, loads and stores, decisions and the partner's check. -/

namespace Sys2Proof.Machine

/-- A deferred cause of the MXE for the instruction at index `pc` (R120, R122, R188). -/
def mxTrap (s : State) (t : Tile) (code pc word : Nat) : State := deferred s t code 1 pc (iw word)

/-- A residue mismatch of an engine (R114, R156): the bit, the capture, the record, and the fence. -/
def residueFault (s : State) (t : Tile) (page : Nat) (f code pcf : Fld) (pc : Nat) : State :=
  let s := wr (wr (raiseF s page f) page code f.lo) page pcf pc
  fenceTile (logReq s 3 0x0001 page (b2 page ++ b2 pc)) t

/-- A residue mismatch of the MXE (R114). -/
def mxResidue (s : State) (t : Tile) (pc : Nat) : State := residueFault s t (mxPg t) mx_F_RESIDUE mx_ERR_CODE mx_ERR_PC pc

/-- The residue check detects a disturbance that is no multiple of 7 (R425). -/
def upsetSeen (u : Upset) : Bool := u.err % 7 != 0

/-- Word `i` of a list with a disturbance that the residue misses: its VALUE or its TALLY comes out larger. -/
def disturb (lay : Nat) (u : Option Upset) (i w : Nat) : Nat :=
  match u with
  | some u =>
    if u.idx ≠ i then w
    else if u.tally then gMk lay ((gTally lay w + u.err) % (gBad lay + 1)) (gVal lay w)
    else gMk lay (gTally lay w) ((gVal lay w + u.err) % 2 ^ gValW lay)
  | none => w

/-- The check of a list of `n` words detects the disturbance. -/
def upsetCaught (u : Option Upset) (n : Nat) : Bool :=
  match u with
  | some u => decide (u.idx < n) && upsetSeen u
  | none => false

/-! ### Groups -/

/-- A 16-bit hem, sign-extended (R107). -/
def hemWord (h : Nat) : W64 := BitVec.ofInt 64 (hemInt h)

/-- GRID_RAISE (R73), logged on page `src`. -/
def logRaise (s : State) (src gid hem attempt : Nat) : State :=
  logReq s 1 0x0401 src (leBytes 3 gid ++ b2 hem ++ b1 attempt)

/-- GRID_EXHAUSTED (R72), logged on page `src`. -/
def logExhausted (s : State) (src gid hem : Nat) : State := logReq s 3 0x0402 src (leBytes 3 gid ++ b2 hem)

/-- A tracker estimate at an open (R75, R106): its exponent, and the record of a non-finite or cold one. -/
def trackExp (s : State) (t : Tile) (e : Nat) : Int × State :=
  let x := nmGet s e
  match decVal 6 x.amax.toNat with
  | .nan => (129, logReq s 2 0x0404 (mxPg t) (b2 e))
  | .inf _ => (129, logReq s 2 0x0404 (mxPg t) (b2 e))
  | _ => if x.cold then (129, logReq s 2 0x0404 (mxPg t) (b2 e)) else (amaxExp x.amax.toNat, s)

/-- The HEM of an open (R106). -/
def openHem (s : State) (t : Tile) (hsrc lay : Nat) (h : Int) (g : Nat) : Nat × State :=
  if hsrc = 0 then (g % 65536, s)
  else if hsrc = 1 then
    let a := trackExp s t (bits g 11 0)
    let b := trackExp a.2 t (bits g 23 12)
    (encInt 16 (hemStart a.1 b.1 (bits g 48 24) h lay), b.2)
  else (encInt 16 (hemStart (signed 16 g) (signed 16 (bits g 31 16)) (bits g 56 32) h lay), s)

/-- mx.open (R105, R106). -/
def runMxOpen (t : Tile) (o : OpenOp) (s : State) (pc : Nat) : State :=
  let n := o.aD.toNat
  if o.rsv ≠ 0 ∨ o.hsrc = 3 then mxTrap s t cIllegal pc o.enc
  else if accState s t n = accOpen ∨ accState s t n = accClosing then mxTrap s t cState pc o.enc
  else
    let r := openHem s t o.hsrc.toNat o.layout.toNat o.h.toInt (s.g t o.gS).toNat
    let p := mxPg t
    let s := (clearDec r.2 t n).modTile t (fun ts => ts.zeroAcc n)
    let s := wri (wri (setAccState s t n accOpen) p mx_ACC_CTL_LAYOUT n o.layout.toNat) p mx_ACC_CTL_SCOPE n o.scope.toNat
    let s := wri (setAccHem (setAccAttempt s t n 0) t n r.1) p mx_ACC_GRP_GROUP_ID n (s.g t o.gT).toNat
    wri s p mx_ACC_RESTART n (pc + 1)

/-- The issue of `runMxOpen`. -/
def execMxOpen (t : Tile) (o : OpenOp) (s : State) : Out :=
  engineOp s t .mx (.mxOpen t o) [o.gS, o.gT] (runMxOpen t o)

/-- mx.drop (R105). -/
def runMxDrop (t : Tile) (o : DropOp) (s : State) (pc : Nat) : State :=
  if o.rsv ≠ 0 then mxTrap s t cIllegal pc o.enc
  else clearDec (setAccState s t o.aD.toNat accIdle) t o.aD.toNat

/-- The issue of `runMxDrop`. -/
def execMxDrop (t : Tile) (o : DropOp) (s : State) : Out :=
  engineOp s t .mx (.mxDrop t o) [] (runMxDrop t o)

/-- The NUM cause of a close (R107, R108, R188). -/
def numCause (s : State) (t : Tile) (n pc : Nat) : State := deferred s t cNum 1 pc (BitVec.ofNat 64 (accGroup s t n))

/-- Control continues at the restart address (R107, R108). -/
def toRestart (s : State) (t : Tile) (n : Nat) : State :=
  let r := rdi s (mxPg t) mx_ACC_RESTART n
  s.modTile t (fun ts => { ts with pc := BitVec.ofNat 15 r })

/-- The words of a group return to zero for a repetition under a raised hem (R72). -/
def raiseAcc (s : State) (t : Tile) (n hem attempt : Nat) : State :=
  (setAccAttempt (setAccHem s t n hem) t n attempt).modTile t (fun ts => ts.zeroAcc n)

/-- A group overflows as a read-out finds it: a disturbance that the residue misses counts as it reads (R113). -/
def overRead (s : State) (t : Tile) (n : Nat) (u : Option Upset) : Bool :=
  match u with
  | none => accOver s t n
  | some u => accOver (s.modTile t (fun ts =>
      if u.idx < 4096 then ts.writeAcc n u.idx (disturb (accLay s t n) (some u) u.idx (ts.readAcc n u.idx)) else ts)) t n

/-- mx.close with SCOPE LOCAL (R107, R113). -/
def closeLocal (s : State) (t : Tile) (n : Nat) (gD : BitVec 5) (u : Option Upset) (pc : Nat) : State :=
  let hem := accHem s t n
  let r := gridDecide (overRead s t n u) hem (accAttempt s t n)
  match r.1 with
  | .done => (setAccState s t n accDone).setG t gD (hemWord hem)
  | .raise => toRestart (logRaise (raiseAcc s t n r.2.1 r.2.2) (mxPg t) (accGroup s t n) hem r.2.2) t n
  | .exhausted =>
    let s := (setAccState (accInvalidate s t n) t n accDone).setG t gD (hemWord hem)
    numCause (logExhausted s (mxPg t) (accGroup s t n) hem) t n pc

/-- The ATTEMPT that RAISE leaves (R72, R108): the decision's own where it carries the new one, as in the example of R85;
the next where it carries the one it decided, as R105 matches it (log entry 29). -/
def raiseAttempt (acc dec : Nat) : Nat := if dec = acc then acc + 1 else dec

/-- A decision resolves a close with SCOPE PART (R108). -/
def closePart (s : State) (t : Tile) (n : Nat) (gD : BitVec 5) (kind hem attempt pc : Nat) : State :=
  let s := clearDec s t n
  if kind = 1 then (setAccState s t n accDone).setG t gD (hemWord (accHem s t n))
  else if kind = 2 then
    toRestart (setAccState (raiseAcc s t n hem (raiseAttempt (accAttempt s t n) attempt)) t n accOpen) t n
  else numCause ((setAccState (accInvalidate s t n) t n accDone).setG t gD (hemWord hem)) t n pc

/-- mx.close (R105, R107 to R109). -/
def runMxClose (t : Tile) (o : CloseOp) (u : Option Upset) (s : State) (pc : Nat) : State :=
  let n := o.aD.toNat
  let st := accState s t n
  if o.rsv ≠ 0 then mxTrap s t cIllegal pc o.enc
  else if accScope s t n = 0 then
    (if st ≠ accOpen then mxTrap s t cState pc o.enc
    else if upsetCaught u 4096 then mxResidue s t pc
    else closeLocal s t n o.gD u pc)
  else if st = accIdle ∨ st = accDone then mxTrap s t cState pc o.enc
  else
    let s := setAccState s t n accClosing
    if accDecKind s t n ≠ 0 then
      closePart s t n o.gD (accDecKind s t n) (smGet (fun _ => 0) (s.tile t).decHem n : BitVec 16).toNat
        (rdi s (mxPg t) mx_ACC_GRP_DEC_ATTEMPT n) pc
    else request (s.modTile t (fun ts => { ts with closeWait := some (o.aD, o.gD) })) t rowClose

/-- The issue of `runMxClose`. -/
def execMxClose (t : Tile) (o : CloseOp) (u : Option Upset) (s : State) : Out :=
  engineOp s t .mx (.mxClose t o u) [o.gD] (runMxClose t o u)

/-- A decision names the accumulator's present attempt (R105): it carries that ATTEMPT, or as a RAISE the one after it
(log entry 29). -/
def sameAttempt (acc kind dec : Nat) : Bool := dec == acc || (kind == 2 && dec == acc + 1)

/-- A decision reaches accumulator `n` of a tile (R105). One that finds the accumulator CLOSING while no mx.close waits
(STATE was written) is latched for the next mx.close, which takes it: the model's choice (log entry 120). -/
def decideAcc (s : State) (t : Tile) (n : Nat) (kind hem attempt : Nat) : State :=
  let st := accState s t n
  if ¬ sameAttempt (accAttempt s t n) kind attempt ∨ st = accIdle ∨ st = accDone then inc s (mxPg t) mx_DEC_DROP 1
  else match (s.tile t).closeWait with
    | some (a, gD) =>
      if a.toNat = n then
        let s := unrequest (s.modTile t (fun ts => { ts with closeWait := none })) t rowClose
        closePart s t n gD kind hem attempt ((s.tile t).pc.toNat - 1)
      else latch s
    | none => latch s
where
  /-- The decision is latched. -/
  latch (s : State) : State :=
    let s := wri (wri s (mxPg t) mx_ACC_GRP_DEC_KIND n kind) (mxPg t) mx_ACC_GRP_DEC_ATTEMPT n attempt
    s.modTile t (fun ts => { ts with decHem := smPut (fun _ => 0) ts.decHem n (BitVec.ofNat 16 hem) })

/-- The accumulators that a decision names (R148): SCOPE PART and its GROUP_ID. -/
def decAccs (s : State) (t : Tile) (gid : Nat) : List Nat :=
  (List.range 4).filter (fun n => accScope s t n == 1 && accGroup s t n == gid)

/-- A decision reaches a tile (R105). -/
def decideTile (s : State) (t : Tile) (gid kind hem attempt : Nat) : State :=
  if (decAccs s t gid).isEmpty then inc s (mxPg t) mx_DEC_DROP 1
  else forEach (decAccs s t gid) (fun n s => decideAcc s t n kind hem attempt) s

/-- DECISION (R105, R108): a tile that is OFF answers nothing (R18). -/
def execDecision (t : Tile) (gid : BitVec 24) (kind : DecKind) (hem : BitVec 16) (attempt : BitVec 3) (s : State) : Out :=
  onTile s t <| done s <|
    let s := dropMsg s (fun m => m == .decision t gid kind hem attempt)
    if s.tileOff t then s else decideTile s t gid.toNat (decCode kind) hem.toNat attempt.toNat

/-! ### The multiply -/

/-- One term (R67, R68, R96). -/
def mmaTerm (lay : Nat) (hem : Int) (a b : Src) : Nat :=
  match a, b with
  | .val x, .val y => gridTerm lay hem (match mulVal x y with | .val v => v | _ => .nan)
  | _, _ => gInvalid lay

/-- A tile register on its own. -/
def TileSt.reg (ts : TileSt) (m f bdir : Nat) : TReg :=
  { cells := (ts.treg.filter (fun c => c.1 / 4096 == m)).map (fun c => (c.1 % 4096, c.2)),
    scl := (ts.scl.filter (fun c => c.1 / 1024 == m)).map (fun c => (c.1 % 1024, c.2)), fmt := f, bdir := bdir }

/-- A tile register with its tag. -/
def tileReg (s : State) (t : Tile) (m : Nat) : TReg := (s.tile t).reg m (tagFmt s t m) (tagBdir s t m)

/-- Element k of K-vector i of a register as a source. -/
def TReg.src (r : TReg) (i k : Nat) : Src := kAny r.cells r.scl 0 r.fmt r.bdir i k

/-- The contribution c of element (m, n) (R96). -/
def mmaElem (lay : Nat) (hem : Int) (a b : TReg) (kb m n : Nat) : Nat :=
  (List.range (32 * kb)).foldl (fun c k => gridAdd lay c (mmaTerm lay hem (a.src m k) (b.src n k))) 0

/-- Every contribution, in the order of the accumulator's words. -/
def mmaWords (lay : Nat) (hem : Int) (a b : TReg) (kb : Nat) : List Nat :=
  (List.range 4096).map (fun i => mmaElem lay hem a b kb (i / 64) (i % 64))

/-- The digest of a list of contributions (R116). -/
def mmaDigest (lay : Nat) (ws : List Nat) : Nat :=
  (ws.zipIdx).foldl (fun d x =>
    let v := gVal lay x.1
    let w := if lay = 0 then (v % 2 ^ 64) ^^^ (v / 2 ^ 64 * 2 ^ 32 + gTally lay x.1) else gTally lay x.1 * 2 ^ 48 + v
    (d + (2 * x.2 + 1) * w) % 2 ^ 64) 0

/-- The baste partner (R116). -/
def partner (s : State) (t : Tile) : Tile :=
  BitVec.ofNat 11 (t.toNat / s.ncols * s.ncols + ((t.toNat % s.ncols) ^^^ 1))

/-- The MMA with sequence number `q` is selected (R115). -/
def basteSelected (s : State) (t : Tile) (q : Nat) : Bool :=
  rd s (mxPg t) mx_CFG_BASTE_EN == 1 &&
    ((bobbin (BitVec.ofNat 64 (rd64 s (mxPg t) mx_BASTE_KEY_LO mx_BASTE_KEY_HI)) 0xFFFFFFFF#32 0
      (BitVec.ofNat 64 (t.toNat * 2 ^ 48 + q % 2 ^ 48))).toNat % 2 ^ rd s (mxPg t) mx_CFG_BASTE_N == 0)

/-- The sample of a selected MMA goes to the partner, or the selection is skipped (R116 to R118). -/
def basteSend (s : State) (t : Tile) (q pc : Nat) (a b : TReg) (kb lay : Nat) (hem : Int) (ws : List Nat) : State :=
  if ¬ basteSelected s t q then s
  else if rd s (mxPg t) mx_STATUS_BASTE_OUT = 1 ∨ s.tileOff (partner s t) then inc s (mxPg t) mx_BASTE_SKIP 1
  else
    let x : Sample := { origin := t, seq := q, pc := pc, a := a, b := b, kb := kb, hem := hem, layout := lay, digest := mmaDigest lay ws }
    let s := (inc s (mxPg t) mx_BASTE_SENT 1).modTile (partner s t) (fun ts => { ts with bay := some x })
    wr s (mxPg t) mx_STATUS_BASTE_OUT 1

/-- A stow skips the tile's outstanding sample (R118, R410). -/
def skipSample (s : State) (t : Tile) : State :=
  if rd s (mxPg t) mx_STATUS_BASTE_OUT = 0 then s
  else
    let s := s.modTile (partner s t) (fun ts => { ts with bay := ts.bay.filter (fun x => x.origin != t) })
    inc (wr s (mxPg t) mx_STATUS_BASTE_OUT 0) (mxPg t) mx_BASTE_SKIP 1

/-- The container class of a J-format (R98). -/
def contClass (f : Nat) : Nat := if f = 0 then 0 else if f = 4 then 2 else 1

/-- The tags and fields of an mx.mma agree (R97, R98, R119). -/
def mmaFmtOk (s : State) (t : Tile) (o : MmaOp) : Bool :=
  let a := o.tA.toNat
  let b := o.tB.toNat
  decide (o.fa.toNat ≤ 4) && decide (o.fb.toNat ≤ 4) && o.fa.toNat == tagFmt s t a && o.fb.toNat == tagFmt s t b
    && o.ta.toNat == tagBdir s t a && o.tb.toNat == tagBdir s t b
    && decide (o.kbm1.toNat + 1 ≤ kBlocks o.fa.toNat) && decide (o.kbm1.toNat + 1 ≤ kBlocks o.fb.toNat)
    && contClass o.fa.toNat == contClass o.fb.toNat

/-- MX_SEQ (R115): a 64-bit count; an MMA's sequence number is the count before it. -/
def nextSeq (s : State) (t : Tile) : Nat × State :=
  let q := rd64 s (mxPg t) mx_SEQ_LO mx_SEQ_HI
  (q, wr64 s (mxPg t) mx_SEQ_LO mx_SEQ_HI ((q + 1) % 2 ^ 64))

/-- The MMA's own effect (R96, R113, R115). -/
def mmaRun (s : State) (t : Tile) (o : MmaOp) (u : Option Upset) (pc : Nat) : State :=
  let n := o.aD.toNat
  let lay := accLay s t n
  let hem := hemInt (accHem s t n)
  let a := tileReg s t o.tA.toNat
  let b := tileReg s t o.tB.toNat
  let kb := o.kbm1.toNat + 1
  let q := nextSeq s t
  if upsetCaught u 4096 then mxResidue q.2 t pc
  else
    let ws := ((mmaWords lay hem a b kb).zipIdx).map (fun x => disturb lay u x.2 x.1)
    let s := basteSend q.2 t q.1 pc a b kb lay hem ws
    let s := s.modTile t (fun ts => (ws.zipIdx).foldl (fun ts x => accAdd ts lay n x.2 x.1) ts)
    if ws.any (fun w => gTally lay w == gBad lay) then wr s (mxPg t) mx_STATUS_INV_SEEN 1 else s

/-- mx.mma (R96 to R98, R105, R581). -/
def runMxMma (t : Tile) (o : MmaOp) (u : Option Upset) (s : State) (pc : Nat) : State :=
  if o.rsv ≠ 0 then mxTrap s t cIllegal pc o.enc
  else if ¬ mmaFmtOk s t o then mxTrap s t cFmt pc o.enc
  else if accState s t o.aD.toNat ≠ accOpen then mxTrap s t cState pc o.enc
  else mmaRun s t o u pc

/-- The issue of `runMxMma`. -/
def execMxMma (t : Tile) (o : MmaOp) (u : Option Upset) (s : State) : Out :=
  engineOp s t .mx (.mxMma t o u) [] (runMxMma t o u)

/-- BASTE_CHECK (R117): tile `t` recomputes the sample in its bay; `err` disturbs its digest. -/
def execBasteCheck (t : Tile) (err : BitVec 64) (s : State) : Out :=
  onTile s t <| done s <|
    match (s.tile t).bay with
    | none => s
    | some x =>
      let d := (mmaDigest x.layout (mmaWords x.layout x.hem x.a x.b x.kb) + err.toNat) % 2 ^ 64
      let s := wr (s.modTile t (fun ts => { ts with bay := none })) (mxPg x.origin) mx_STATUS_BASTE_OUT 0
      if d = x.digest then s
      else
        let s := forEach [x.origin, t] (fun t s =>
          let p := mxPg t
          let s := wr (raiseF s p mx_F_BASTE_MISMATCH) p mx_ERR_CODE mx_F_BASTE_MISMATCH.lo
          let s := if t = x.origin then wr s p mx_ERR_PC x.pc else s
          let s := wr64 (wr64 s p mx_DIG_LOCAL_LO mx_DIG_LOCAL_HI x.digest) p mx_DIG_REMOTE_LO mx_DIG_REMOTE_HI d
          wr s p mx_DIG_SEQ x.seq) s
        logReq s 3 0x0002 (mxPg t) (b2 x.origin.toNat ++ b2 t.toNat ++ b4 x.seq)

/-! ### Loads and stores -/

/-- Element and scale bases and pitches of mx.lt and mx.stt (R101). -/
structure LtAddr where
  eb : Nat
  ep : Nat
  sb : Nat
  sp : Nat
deriving DecidableEq, Repr

/-- From gA and gP. -/
def ltAddr (a p : W64) : LtAddr :=
  { eb := a.toNat % 2 ^ 32, sb := a.toNat / 2 ^ 32, ep := p.toNat % 2 ^ 32, sp := p.toNat / 2 ^ 32 }

/-- Every byte is in the spool and every base and pitch aligned (R103). -/
def ltAddrOk (x : LtAddr) (rows rowBytes nb : Nat) : Bool :=
  decide (x.eb % 64 = 0) && decide (x.ep % 64 = 0) && decide (x.eb + (rows - 1) * x.ep + rowBytes ≤ 0x500000)
    && (nb == 0 || (decide (x.sb % 16 = 0) && decide (x.sp % 16 = 0) && decide (x.sb + 63 * x.sp + nb ≤ 0x500000)))

/-- Blocks per K-vector that have scale bytes. -/
def sclBlocks (f : Nat) : Nat := if isJ f then kBlocks f else 0

/-- 64-bit formats exist only with BDIR = ROW (R92). -/
def badDir (f bdir : Nat) : Bool := fmtW f == 64 && bdir == 1

/-- Local reads of several places; a bad one fences the tile (R274). -/
def localReads (s : State) (t : Tile) (e : Ecc) : List (Nat × Nat) → Bool × State
  | [] => (true, s)
  | (o, n) :: xs =>
    let r := spoolLocal s t o n e
    if r.1 then localReads r.2 t .ok xs else r

/-- The tile register that mx.lt builds (R92, R93, R101). -/
def ltFill (s : State) (t : Tile) (o : LtOp) (x : LtAddr) (ts : TileSt) : TileSt :=
  let f := o.fmt.toNat
  let m := o.tD.toNat
  let p := s.ptile t.toNat
  let nb := sclBlocks f
  let row := fun r n => unpackBytes f n (spRead s p (x.eb + r * x.ep) (n * fmtW f / 8))
  let vec := fun i =>
    if o.t = 0 then row i (kLen f) else (List.range (kLen f)).map (fun k => (row k 64).getD i 0)
  (List.range 64).foldl (fun ts i =>
    setKScl (setKVec ts m f o.bdir.toNat i (vec i)) m i
      ((spRead s p (x.sb + i * x.sp) nb).map (·.toNat))) ts

/-- mx.lt (R92, R101, R103). R101 calls T = 1 with a J-format, a 64-bit format or BDIR = COL not legal and names no cause:
ILLEGAL, before the FMT check of R92, is the model's choice (log entry 121). -/
def runMxLt (t : Tile) (o : LtOp) (e : Ecc) (s : State) (pc : Nat) : State :=
  let f := o.fmt.toNat
  let x := ltAddr (s.g t o.gA) (s.g t o.gP)
  let rows := if o.t = 0 then 64 else kLen f
  let len := (if o.t = 0 then kLen f else 64) * fmtW f / 8
  let nb := sclBlocks f
  if o.rsv ≠ 0 ∨ (o.t = 1 ∧ (32 < fmtW f ∨ isJ f ∨ o.bdir = 1)) then mxTrap s t cIllegal pc o.enc
  else if badDir f o.bdir.toNat then mxTrap s t cFmt pc o.enc
  else if ¬ ltAddrOk x rows len nb then mxTrap s t cAddr pc o.enc
  else
    let r := localReads s t e ((List.range rows).map (fun r => (x.eb + r * x.ep, len))
      ++ (if nb = 0 then [] else (List.range 64).map (fun i => (x.sb + i * x.sp, nb))))
    if r.1 then setTag (r.2.modTile t (ltFill r.2 t o x)) t o.tD.toNat f o.bdir.toNat else r.2

/-- The issue of `runMxLt`. -/
def execMxLt (t : Tile) (o : LtOp) (e : Ecc) (s : State) : Out :=
  engineOp s t .mx (.mxLt t o e) [o.gA, o.gP] (runMxLt t o e)

/-- A store through the local port (R270, R274): a word written in part that is bad is not written and fences the tile. -/
def localWrite (s : State) (t : Tile) (o : Nat) (bs : List Byte) (e : Ecc) : State :=
  let p := s.ptile t.toNat
  let edge := (spWords p o bs.length).filter (fun w =>
    !(decide (p * 0x800000 + o ≤ w * 8) && decide (w * 8 + 8 ≤ p * 0x800000 + o + bs.length)))
  match edge with
  | [] => spWrite s p o bs
  | w :: _ =>
    let bad := (edge.find? (fun x => s.spoolBad.contains x)).getD w
    let r := spoolLocal s t ((bad - p * 0x100000) * 8) 8 e
    if r.1 then spWrite r.2 p o bs else r.2

/-- Stores in order, until the tile is fenced; `e` is what the first read of a word written in part finds. -/
def localWrites (s : State) (t : Tile) (e : Ecc) : List (Nat × List Byte) → State
  | [] => s
  | (o, bs) :: xs =>
    if (s.tile t).off then s
    else localWrites (localWrite s t o bs e) t (if bs.length % 8 = 0 ∧ o % 8 = 0 then e else .ok) xs

/-- mx.stt (R92, R102, R103). -/
def runMxStt (t : Tile) (o : SttOp) (e : Ecc) (s : State) (pc : Nat) : State :=
  let f := o.fmt.toNat
  let m := o.tS.toNat
  let bd := o.bdir.toNat
  let x := ltAddr (s.g t o.gA) (s.g t o.gP)
  let len := kLen f * fmtW f / 8
  let nb := sclBlocks f
  if o.rsv1 ≠ 0 ∨ o.rsv2 ≠ 0 then mxTrap s t cIllegal pc o.enc
  else if badDir f bd ∨ tagFmt s t m ≠ f ∨ tagBdir s t m ≠ bd then mxTrap s t cFmt pc o.enc
  else if ¬ ltAddrOk x 64 len nb then mxTrap s t cAddr pc o.enc
  else
    let ts := s.tile t
    localWrites s t e ((List.range 64).flatMap (fun i =>
      (x.eb + i * x.ep, packBytes f ((List.range (kLen f)).map (kElem ts.treg m f bd i))) ::
        (if nb = 0 then [] else [(x.sb + i * x.sp, (List.range nb).map (fun b => BitVec.ofNat 8 (kScl ts.scl m i b)))])))

/-- The issue of `runMxStt`. -/
def execMxStt (t : Tile) (o : SttOp) (e : Ecc) (s : State) : Out :=
  engineOp s t .mx (.mxStt t o e) [o.gA, o.gP] (runMxStt t o e)

/-- mx.tag (R92, R121). -/
def runMxTag (t : Tile) (o : TagOp) (s : State) (pc : Nat) : State :=
  if o.rsv ≠ 0 then mxTrap s t cIllegal pc o.enc
  else if badDir o.fmt.toNat o.bdir.toNat then mxTrap s t cFmt pc o.enc
  else setTag s t o.tD.toNat o.fmt.toNat o.bdir.toNat

/-- The issue of `runMxTag`. -/
def execMxTag (t : Tile) (o : TagOp) (s : State) : Out :=
  engineOp s t .mx (.mxTag t o) [] (runMxTag t o)

/-- The rows that gC names (R110): the first and the count, or none where they are illegal. -/
def accRows (g : W64) : Option (Nat × Nat) :=
  let f := bits g.toNat 5 0
  let c := bits g.toNat 12 6
  if c = 0 ∨ 63 < f + c - 1 then none else some (f, c)

/-- A raw image of `c` rows at offset `a` is aligned and inside the spool (R103, R110). -/
def rawOk (a c lay : Nat) : Bool := decide (a % 64 = 0) && decide (a + c * 64 * gBytes lay ≤ 0x500000)

/-- mx.st (R110). -/
def runMxSt (t : Tile) (o : MxStOp) (u : Option Upset) (s : State) (pc : Nat) : State :=
  let n := o.aD.toNat
  let lay := accLay s t n
  let a := (s.g t o.gA).toNat
  if o.rsv ≠ 0 then mxTrap s t cIllegal pc o.enc
  else match accRows (s.g t o.gC) with
    | none => mxTrap s t cIllegal pc o.enc
    | some (f, c) =>
      if ¬ rawOk a c lay then mxTrap s t cAddr pc o.enc
      else if upsetCaught u (64 * c) then mxResidue s t pc
      else
        let ts := s.tile t
        let bs := (List.range (64 * c)).flatMap (fun i =>
          leBytes (gBytes lay) (disturb lay u i (ts.readAcc n (64 * f + i))))
        (spWrite s (s.ptile t.toNat) a bs).setG t o.gD (hemWord (accHem s t n))

/-- The issue of `runMxSt`. -/
def execMxSt (t : Tile) (o : MxStOp) (u : Option Upset) (s : State) : Out :=
  engineOp s t .mx (.mxSt t o u) [o.gA, o.gC, o.gD] (runMxSt t o u)

/-- mx.la (R112): legal in the trap handler alone. -/
def runMxLa (t : Tile) (o : MxLaOp) (e : Ecc) (s : State) (pc : Nat) : State :=
  let hm := s.hmode t
  let n := o.aD.toNat
  let lay := accLay s t n
  let a := (s.g t o.gA).toNat
  if o.rsv ≠ 0 ∨ ¬ hm then mxTrap s t cIllegal pc o.enc
  else match accRows (s.g t o.gC) with
    | none => mxTrap s t cIllegal pc o.enc
    | some (f, c) =>
      if ¬ rawOk a c lay then mxTrap s t cAddr pc o.enc
      else
        let r := spoolLocal s t a (64 * c * gBytes lay) e
        if ¬ r.1 then r.2
        else r.2.modTile t (fun ts => (List.range (64 * c)).foldl (fun ts i =>
          ts.writeAcc n (64 * f + i) (memNat r.2.spool (spKey (r.2.ptile t.toNat) (a + i * gBytes lay)) (gBytes lay))) ts)

/-- The issue of `runMxLa`. -/
def execMxLa (t : Tile) (o : MxLaOp) (e : Ecc) (s : State) : Out :=
  engineOp s t .mx (.mxLa t o e) [o.gA, o.gC] (runMxLa t o e)

end Sys2Proof.Machine
end

