-- ==== Sys2Proof/Machine/Vector.lean ====
section
/-! DEFINITION. The vector engine (chapter "Vector Engine and Scalar Summaries"): arithmetic, data movement,
conversions, reductions, grid mode, partials, exact maxima and the summary registers. -/

namespace Sys2Proof.Machine

/-! ### Traps, events and residues -/

/-- A deferred cause of the VXE for the instruction at index `pc` (R157, R159, R188). -/
def vxTrap (s : State) (t : Tile) (code pc word : Nat) : State := deferred s t code 2 pc (iw word)

/-- A residue mismatch of the VXE (R156). -/
def vxResidue (s : State) (t : Tile) (pc : Nat) : State := residueFault s t (vxPg t) vx_F_RESIDUE vx_ERR_CODE vx_ERR_PC pc

/-- A vx instruction at the engine: the scalar registers it reads at issue, and its effect at its index. -/
structure VxIns where
  rs : List (BitVec 5)
  run : State → Nat → State

/-- A vx instruction whose word is legal, with legal format codes (R157, R581 group 1). -/
def vxOp (t : Tile) (rs : List (BitVec 5)) (word : Nat) (illegal badFmt : Bool) (body : State → Nat → State) : VxIns :=
  { rs := rs,
    run := fun s pc =>
      if illegal then vxTrap s t cIllegal pc word
      else if badFmt then vxTrap s t cFmt pc word
      else body s pc }

/-- The issue of a vx instruction (R127). -/
def issueVx (s : State) (t : Tile) (i : Instr) (x : VxIns) : Out := engineOp s t .vx i x.rs x.run

/-- RM of an arithmetic instruction: RNE, RTZ, RUP or RDN (R129). -/
def badRm (rm : BitVec 3) : Bool := decide (3 < rm.toNat)

/-- RM of a conversion instruction: SR8 as well (R42, R129). -/
def badRmCvt (rm : BitVec 3) : Bool := decide (4 < rm.toNat)

/-- Not a floating arithmetic format (R128). -/
def badF (f : BitVec 4) : Bool := f != 6 && f != 7

/-- Not an integer arithmetic format (R128). -/
def badI (f : BitVec 4) : Bool := f != 10 && f != 11 && f != 14 && f != 15

/-- A J-format code where none is accepted (R128). -/
def badJ (f : BitVec 4) : Bool := isJ f.toNat

/-- Any result of a list raised SAT. -/
def anySat (cs : List Cv) : Bool := cs.any (·.sat)

/-- Any result of a list raised INVALID. -/
def anyInv (cs : List Cv) : Bool := cs.any (·.inv)

/-- Vector register of a tile. -/
def State.v (s : State) (t : Tile) (i : BitVec 4) : BitVec 4096 := (s.tile t).readV i

/-- Write a vector register of a tile. -/
def State.setV (s : State) (t : Tile) (i : BitVec 4) (x : BitVec 4096) : State := s.modTile t (fun ts => ts.writeV i x)

/-- Results with their events into a vector register (R124, R133). -/
def putCvs (s : State) (t : Tile) (vD : BitVec 4) (f : Nat) (cs : List Cv) : State :=
  raiseEvents (s.setV t vD (vPack f (cs.map (·.bits)))) t (anySat cs) (anyInv cs)

/-- A disturbance of a result that the residue misses. -/
def disturbCv (f : Nat) (u : Option Upset) (cs : List Cv) : List Cv :=
  match u with
  | some u => (cs.zipIdx).map (fun x => if x.2 = u.idx then { x.1 with bits := (x.1.bits + u.err) % 2 ^ fmtW f } else x.1)
  | none => cs

/-! ### Floating arithmetic -/

/-- Two sources and the destination, element by element (R129 to R131, R156). -/
def vfOp (t : Tile) (o : VfOp) (m : Nat) (u : Option Upset) (op : Val → Val → Val → Res) : VxIns :=
  vxOp t [] (o.enc m) (badRm o.rm) (badF o.f) fun s pc =>
    let f := o.f.toNat
    if upsetCaught u (vCount f) then vxResidue s t pc
    else
      let a := vElems (s.v t o.vA) f
      let b := vElems (s.v t o.vB) f
      let d := vElems (s.v t o.vD) f
      let cs := (a.zip (b.zip d)).map (fun x =>
        finish f (op (decVal f x.1) (decVal f x.2.1) (decVal f x.2.2)) o.rm.toNat (o.sat == 1))
      putCvs s t o.vD f (disturbCv f u cs)

/-- vx.add (R129, R130). -/
def insVxAdd (t : Tile) (o : VfOp) (u : Option Upset) : VxIns :=
  vfOp t o 0x00 u (fun a b _ => addVal o.rm.toNat a b)

/-- Its issue. -/
def execVxAdd (t : Tile) (o : VfOp) (u : Option Upset) (s : State) : Out := issueVx s t (.vxAdd t o u) (insVxAdd t o u)
/-- vx.sub (R129, R130). -/
def insVxSub (t : Tile) (o : VfOp) (u : Option Upset) : VxIns :=
  vfOp t o 0x01 u (fun a b _ => addVal o.rm.toNat a (negVal b))

/-- Its issue. -/
def execVxSub (t : Tile) (o : VfOp) (u : Option Upset) (s : State) : Out := issueVx s t (.vxSub t o u) (insVxSub t o u)
/-- vx.mul (R129, R130). -/
def insVxMul (t : Tile) (o : VfOp) (u : Option Upset) : VxIns := vfOp t o 0x02 u (fun a b _ => mulVal a b)

/-- Its issue. -/
def execVxMul (t : Tile) (o : VfOp) (u : Option Upset) (s : State) : Out := issueVx s t (.vxMul t o u) (insVxMul t o u)
/-- vx.div (R129 to R131). -/
def insVxDiv (t : Tile) (o : VfOp) (u : Option Upset) : VxIns := vfOp t o 0x03 u (fun a b _ => divVal a b)

/-- Its issue. -/
def execVxDiv (t : Tile) (o : VfOp) (u : Option Upset) (s : State) : Out := issueVx s t (.vxDiv t o u) (insVxDiv t o u)
/-- vx.fma: a * b + d, rounded once (R129, R130). -/
def insVxFma (t : Tile) (o : VfOp) (u : Option Upset) : VxIns :=
  vfOp t o 0x04 u (fun a b d => fmaVal o.rm.toNat a b d)

/-- Its issue. -/
def execVxFma (t : Tile) (o : VfOp) (u : Option Upset) (s : State) : Out := issueVx s t (.vxFma t o u) (insVxFma t o u)
/-- vx.min (R130). -/
def insVxMin (t : Tile) (o : VfOp) : VxIns := vfOp t o 0x05 none (fun a b _ => .val (minVal a b))

/-- Its issue. -/
def execVxMin (t : Tile) (o : VfOp) (s : State) : Out := issueVx s t (.vxMin t o) (insVxMin t o)
/-- vx.max (R130). -/
def insVxMax (t : Tile) (o : VfOp) : VxIns := vfOp t o 0x06 none (fun a b _ => .val (maxVal a b))

/-- Its issue. -/
def execVxMax (t : Tile) (o : VfOp) (s : State) : Out := issueVx s t (.vxMax t o) (insVxMax t o)

/-- One source, element by element (R129, R130, R156). -/
def vuOp (t : Tile) (o : VuOp) (m : Nat) (u : Option Upset) (op : Nat → Nat → Nat → Bool → Cv) : VxIns :=
  vxOp t [] (o.enc m) (badRm o.rm || o.rsv != 0) (badF o.f) fun s pc =>
    let f := o.f.toNat
    if upsetCaught u (vCount f) then vxResidue s t pc
    else putCvs s t o.vD f (disturbCv f u ((vElems (s.v t o.vA) f).map (fun a => op f a o.rm.toNat (o.sat == 1))))

/-- vx.sqrt (R129, R130). -/
def insVxSqrt (t : Tile) (o : VuOp) (u : Option Upset) : VxIns := vuOp t o 0x07 u (fun f a rm sat => sqrtOp f (decVal f a) rm sat)

/-- Its issue. -/
def execVxSqrt (t : Tile) (o : VuOp) (u : Option Upset) (s : State) : Out := issueVx s t (.vxSqrt t o u) (insVxSqrt t o u)
/-- vx.rcp (R129, R130). -/
def insVxRcp (t : Tile) (o : VuOp) (u : Option Upset) : VxIns := vuOp t o 0x08 u (fun f a rm sat => rcpOp f (decVal f a) rm sat)

/-- Its issue. -/
def execVxRcp (t : Tile) (o : VuOp) (u : Option Upset) (s : State) : Out := issueVx s t (.vxRcp t o u) (insVxRcp t o u)
/-- vx.rsqrt (R129, R130). -/
def insVxRsqrt (t : Tile) (o : VuOp) (u : Option Upset) : VxIns := vuOp t o 0x09 u (fun f a rm sat => rsqrtOp f (decVal f a) rm sat)

/-- Its issue. -/
def execVxRsqrt (t : Tile) (o : VuOp) (u : Option Upset) (s : State) : Out := issueVx s t (.vxRsqrt t o u) (insVxRsqrt t o u)
/-- vx.exp2 (R129, R130). -/
def insVxExp2 (t : Tile) (o : VuOp) (u : Option Upset) : VxIns := vuOp t o 0x0A u (fun f a rm sat => exp2Op f (decVal f a) rm sat)

/-- Its issue. -/
def execVxExp2 (t : Tile) (o : VuOp) (u : Option Upset) (s : State) : Out := issueVx s t (.vxExp2 t o u) (insVxExp2 t o u)
/-- vx.log2 (R129, R130). -/
def insVxLog2 (t : Tile) (o : VuOp) (u : Option Upset) : VxIns := vuOp t o 0x0B u (fun f a rm sat => log2Op f (decVal f a) rm sat)

/-- Its issue. -/
def execVxLog2 (t : Tile) (o : VuOp) (u : Option Upset) (s : State) : Out := issueVx s t (.vxLog2 t o u) (insVxLog2 t o u)

/-- A NaN becomes canonical; every other encoding takes `op` (R158). -/
def signOp (op : Nat → Nat → Nat) (f a : Nat) : Cv := cvOk (if decVal f a = .nan then canonNaN f else op f a)

/-- vx.abs: the sign bit cleared (R158). -/
def insVxAbs (t : Tile) (o : VuOp) : VxIns :=
  vuOp t o 0x0C none (fun f a _ _ => signOp (fun f a => a % 2 ^ (fmtW f - 1)) f a)

/-- Its issue. -/
def execVxAbs (t : Tile) (o : VuOp) (s : State) : Out := issueVx s t (.vxAbs t o) (insVxAbs t o)
/-- vx.neg: the sign bit inverted (R158). -/
def insVxNeg (t : Tile) (o : VuOp) : VxIns :=
  vuOp t o 0x0D none (fun f a _ _ => signOp (fun f a => (a + 2 ^ (fmtW f - 1)) % 2 ^ fmtW f) f a)

/-- Its issue. -/
def execVxNeg (t : Tile) (o : VuOp) (s : State) : Out := issueVx s t (.vxNeg t o) (insVxNeg t o)

/-! ### Integers, comparison and selection -/

/-- A disturbance of an integer result that the residue misses. -/
def disturbWords (f : Nat) (u : Option Upset) (xs : List Nat) : List Nat :=
  match u with
  | some u => (xs.zipIdx).map (fun x => if x.2 = u.idx then (x.1 + u.err) % 2 ^ fmtW f else x.1)
  | none => xs

/-- Integer and logical operations, modulo 2^w (R132, R156). -/
def viOp (t : Tile) (o : ViOp) (m : Nat) (u : Option Upset) (op : Nat → Nat → Nat → Nat) : VxIns :=
  vxOp t [] (o.enc m) (o.rsv != 0) (badI o.f) fun s pc =>
    let f := o.f.toNat
    if upsetCaught u (vCount f) then vxResidue s t pc
    else s.setV t o.vD (vPack f (disturbWords f u
      (((vElems (s.v t o.vA) f).zip (vElems (s.v t o.vB) f)).map (fun x => op f x.1 x.2 % 2 ^ fmtW f))))

/-- vx.iadd (R132). -/
def insVxIadd (t : Tile) (o : ViOp) (u : Option Upset) : VxIns := viOp t o 0x0E u (fun _ a b => a + b)

/-- Its issue. -/
def execVxIadd (t : Tile) (o : ViOp) (u : Option Upset) (s : State) : Out := issueVx s t (.vxIadd t o u) (insVxIadd t o u)
/-- vx.isub (R132). -/
def insVxIsub (t : Tile) (o : ViOp) (u : Option Upset) : VxIns := viOp t o 0x0F u (fun f a b => a + 2 ^ fmtW f - b)

/-- Its issue. -/
def execVxIsub (t : Tile) (o : ViOp) (u : Option Upset) (s : State) : Out := issueVx s t (.vxIsub t o u) (insVxIsub t o u)
/-- vx.imul (R132). -/
def insVxImul (t : Tile) (o : ViOp) (u : Option Upset) : VxIns := viOp t o 0x10 u (fun _ a b => a * b)

/-- Its issue. -/
def execVxImul (t : Tile) (o : ViOp) (u : Option Upset) (s : State) : Out := issueVx s t (.vxImul t o u) (insVxImul t o u)
/-- vx.and (R132). -/
def insVxAnd (t : Tile) (o : ViOp) : VxIns := viOp t o 0x11 none (fun _ a b => a &&& b)

/-- Its issue. -/
def execVxAnd (t : Tile) (o : ViOp) (s : State) : Out := issueVx s t (.vxAnd t o) (insVxAnd t o)
/-- vx.or (R132). -/
def insVxOr (t : Tile) (o : ViOp) : VxIns := viOp t o 0x12 none (fun _ a b => a ||| b)

/-- Its issue. -/
def execVxOr (t : Tile) (o : ViOp) (s : State) : Out := issueVx s t (.vxOr t o) (insVxOr t o)
/-- vx.xor (R132). -/
def insVxXor (t : Tile) (o : ViOp) : VxIns := viOp t o 0x13 none (fun _ a b => a ^^^ b)

/-- Its issue. -/
def execVxXor (t : Tile) (o : ViOp) (s : State) : Out := issueVx s t (.vxXor t o) (insVxXor t o)
/-- vx.shl: by the low log2(w) bits (R132). -/
def insVxShl (t : Tile) (o : ViOp) : VxIns := viOp t o 0x14 none (fun f a b => a * 2 ^ (b % fmtW f))

/-- Its issue. -/
def execVxShl (t : Tile) (o : ViOp) (s : State) : Out := issueVx s t (.vxShl t o) (insVxShl t o)
/-- vx.shr: logical for unsigned formats, arithmetic for signed ones (R132). -/
def insVxShr (t : Tile) (o : ViOp) : VxIns :=
  viOp t o 0x15 none (fun f a b =>
    if isSigned f then encInt (fmtW f) (signed (fmtW f) a / (2 ^ (b % fmtW f) : Nat)) else a / 2 ^ (b % fmtW f))

/-- Its issue. -/
def execVxShr (t : Tile) (o : ViOp) (s : State) : Out := issueVx s t (.vxShr t o) (insVxShr t o)

/-- A condition of vx.cmp (R132, R157). -/
def vCond (cc : Nat) (a b : Val) : Bool :=
  match cc with
  | 0 => fEq a b
  | 1 => fLt a b
  | 2 => fLe a b
  | _ => unordered a b

/-- vx.cmp (R132). -/
def insVxCmp (t : Tile) (o : VcmpOp) : VxIns :=
  vxOp t [] o.enc (decide (3 < o.cc.toNat) || o.rsv != 0) (badF o.f && badI o.f) fun s _ =>
    let f := o.f.toNat
    s.setV t o.vD (vPack f (((vElems (s.v t o.vA) f).zip (vElems (s.v t o.vB) f)).map (fun x =>
      if vCond o.cc.toNat (decVal f x.1) (decVal f x.2) then 2 ^ fmtW f - 1 else 0)))

/-- Its issue. -/
def execVxCmp (t : Tile) (o : VcmpOp) (s : State) : Out := issueVx s t (.vxCmp t o) (insVxCmp t o)

/-- The 128 lanes of a register (R124). -/
def lanes (x : BitVec 4096) : List Nat := vElems x 6

/-- vx.sel (R132). -/
def insVxSel (t : Tile) (o : VselOp) : VxIns :=
  vxOp t [] o.enc (o.rsv != 0) false fun s _ =>
    s.setV t o.vD (vPack 6 (((lanes (s.v t o.vA)).zip ((lanes (s.v t o.vB)).zip (lanes (s.v t o.vC)))).map (fun x =>
      if x.2.2 ≠ 0 then x.1 else x.2.1)))

/-- Its issue. -/
def execVxSel (t : Tile) (o : VselOp) (s : State) : Out := issueVx s t (.vxSel t o) (insVxSel t o)

/-! ### Moving data -/

/-- `n` bytes at spool offset `a` lie below 5 MiB, at a multiple of 64 B (R134). -/
def spoolOk64 (a n : Nat) : Bool := decide (a % 64 = 0) && decide (a + n ≤ 0x500000)

/-- vx.ld (R134). -/
def insVxLd (t : Tile) (o : VldOp) (e : Ecc) : VxIns :=
  vxOp t [o.gA] (o.enc 0x20) (o.rsv != 0) false fun s pc =>
    let a := (s.g t o.gA).toNat
    if ¬ spoolOk64 a 512 then vxTrap s t cAddr pc (o.enc 0x20)
    else
      let r := spoolLocal s t a 512 e
      if r.1 then r.2.setV t o.v (BitVec.ofNat 4096 (leNat (spRead r.2 (r.2.ptile t.toNat) a 512))) else r.2

/-- Its issue. -/
def execVxLd (t : Tile) (o : VldOp) (e : Ecc) (s : State) : Out := issueVx s t (.vxLd t o e) (insVxLd t o e)

/-- vx.st (R134). -/
def insVxSt (t : Tile) (o : VldOp) : VxIns :=
  vxOp t [o.gA] (o.enc 0x21) (o.rsv != 0) false fun s pc =>
    let a := (s.g t o.gA).toNat
    if ¬ spoolOk64 a 512 then vxTrap s t cAddr pc (o.enc 0x21)
    else localWrite s t a (leBytes 512 (s.v t o.v).toNat) .ok

/-- Its issue. -/
def execVxSt (t : Tile) (o : VldOp) (s : State) : Out := issueVx s t (.vxSt t o) (insVxSt t o)

/-- The cell of lane l of vx.ldt and vx.wrt: rows 2r and 2r + 1 (R135). -/
def rowCell (m r l : Nat) : Nat := cellKey m (2 * r + l / 64) (l % 64)

/-- The cell of lane l of vx.ldc and vx.wrc: columns 2c and 2c + 1 (R135). -/
def colCell (m c l : Nat) : Nat := cellKey m (l % 64) (2 * c + l / 64)

/-- Cells into lanes (R135). -/
def ldCells (t : Tile) (o : VtOp) (m : Nat) (cell : Nat → Nat → Nat → Nat) : VxIns :=
  vxOp t [o.gR] (o.enc m) (o.rsv != 0) false fun s _ =>
    let r := bits (s.g t o.gR).toNat 4 0
    s.setV t o.v (vPack 6 ((List.range 128).map (fun l =>
      (smGet (fun _ => 0) (s.tile t).treg (cell o.t.toNat r l) : W32).toNat)))

/-- Lanes into cells (R135). -/
def stCells (t : Tile) (o : VtOp) (m : Nat) (cell : Nat → Nat → Nat → Nat) : VxIns :=
  vxOp t [o.gR] (o.enc m) (o.rsv != 0) false fun s _ =>
    let r := bits (s.g t o.gR).toNat 4 0
    s.modTile t (fun ts => { ts with treg := putList putCell (cell o.t.toNat r) ts.treg (lanes (ts.readV o.v)) })

/-- vx.ldt (R135). -/
def insVxLdt (t : Tile) (o : VtOp) : VxIns := ldCells t o 0x22 rowCell

/-- Its issue. -/
def execVxLdt (t : Tile) (o : VtOp) (s : State) : Out := issueVx s t (.vxLdt t o) (insVxLdt t o)
/-- vx.ldc (R135). -/
def insVxLdc (t : Tile) (o : VtOp) : VxIns := ldCells t o 0x23 colCell

/-- Its issue. -/
def execVxLdc (t : Tile) (o : VtOp) (s : State) : Out := issueVx s t (.vxLdc t o) (insVxLdc t o)
/-- vx.wrt (R135). -/
def insVxWrt (t : Tile) (o : VtOp) : VxIns := stCells t o 0x24 rowCell

/-- Its issue. -/
def execVxWrt (t : Tile) (o : VtOp) (s : State) : Out := issueVx s t (.vxWrt t o) (insVxWrt t o)
/-- vx.wrc (R135). -/
def insVxWrc (t : Tile) (o : VtOp) : VxIns := stCells t o 0x25 colCell

/-- Its issue. -/
def execVxWrc (t : Tile) (o : VtOp) (s : State) : Out := issueVx s t (.vxWrc t o) (insVxWrc t o)

/-- vx.bcast (R136). -/
def insVxBcast (t : Tile) (o : VbcastOp) : VxIns :=
  vxOp t [o.gS] o.enc (o.rsv != 0) (badJ o.f) fun s _ =>
    s.setV t o.vD (vPack o.f.toNat (List.replicate (vCount o.f.toNat) (s.g t o.gS).toNat))

/-- Its issue. -/
def execVxBcast (t : Tile) (o : VbcastOp) (s : State) : Out := issueVx s t (.vxBcast t o) (insVxBcast t o)

/-- VX_SEED (R160). -/
def vxSeed (s : State) (t : Tile) : W64 := BitVec.ofNat 64 (rd64 s (vxPg t) vx_SEED_LO vx_SEED_HI)

/-- The 32 values of bobbin from one counter on, as the vector register vx.bob writes (R59). -/
def bobVec (seed : W64) (stream step : W32) (ctr : W64) : BitVec 4096 :=
  BitVec.ofNat 4096 (packCells.leCat 128
    ((List.range 32).map (fun j => (bobbin seed stream step (ctr + BitVec.ofNat 64 j)).toNat)))

/-- vx.bob (R136): lane 4j receives the low word of the j-th result. -/
def insVxBob (t : Tile) (o : VbobOp) : VxIns :=
  vxOp t [o.gR, o.gE] o.enc (o.rsv != 0) false fun s _ =>
    let r := s.g t o.gR
    let e := s.g t o.gE
    s.setV t o.vD (bobVec (vxSeed s t) (r.extractLsb' 0 32) (r.extractLsb' 32 32) e)

/-- Its issue. -/
def execVxBob (t : Tile) (o : VbobOp) (s : State) : Out := issueVx s t (.vxBob t o) (insVxBob t o)

/-! ### Conversions -/

/-- The random byte of an element, drawn under SR8 alone (R46, R47). -/
def srDraw (s : State) (t : Tile) (rm : Nat) (stream step : W32) (e : Nat) : Nat :=
  if rm = rmSR8 then srByte (vxSeed s t) stream step (BitVec.ofNat 64 e) else 0

/-- The random byte of element j of a register conversion (R138). -/
def srCtx (s : State) (t : Tile) (rm j : Nat) : Nat :=
  let p := vxPg t
  srDraw s t rm (BitVec.ofNat 32 (rd s p vx_SR_STREAM)) (BitVec.ofNat 32 (rd s p vx_SR_STEP))
    (rd64 s p vx_SR_BASE_LO vx_SR_BASE_HI + j)

/-- vx.cvt.pP (R137, R138): the register with more elements is indexed from element P * N. -/
def insVxCvt (t : Tile) (o : VcvtOp) : VxIns :=
  let fs := o.fs.toNat
  let fd := o.fd.toNat
  let w := max (fmtW fs) (fmtW fd)
  let part := o.p.toNat
  vxOp t [] o.enc (badRmCvt o.rm || decide (w ≤ part * min (fmtW fs) (fmtW fd))) (badJ o.fs || badJ o.fd) fun s _ =>
    let n := 4096 / w
    let src := vElems (s.v t o.vS) fs
    let dst := vElems (s.v t o.vD) fd
    let so := if fmtW fs < fmtW fd then part * n else 0
    let d0 := if fmtW fd < fmtW fs then part * n else 0
    let cs := (List.range n).map (fun i =>
      cvtElem fs fd (src.getD (so + i) 0) o.rm.toNat (o.sat == 1) (srCtx s t o.rm.toNat (part * n + i)))
    raiseEvents (s.setV t o.vD (vPack fd (dst.take d0 ++ cs.map (·.bits) ++ dst.drop (d0 + n)))) t (anySat cs) (anyInv cs)

/-- Its issue. -/
def execVxCvt (t : Tile) (o : VcvtOp) (s : State) : Out := issueVx s t (.vxCvt t o) (insVxCvt t o)

/-- vx.srctx (R138). -/
def insVxSrctx (t : Tile) (o : VsrctxOp) : VxIns :=
  vxOp t [o.gR, o.gE] o.enc (o.rsv != 0) false fun s _ =>
    let p := vxPg t
    let r := (s.g t o.gR).toNat
    wr64 (wr (wr s p vx_SR_STREAM r) p vx_SR_STEP (r / 2 ^ 32)) p vx_SR_BASE_LO vx_SR_BASE_HI (s.g t o.gE).toNat

/-- Its issue. -/
def execVxSrctx (t : Tile) (o : VsrctxOp) (s : State) : Out := issueVx s t (.vxSrctx t o) (insVxSrctx t o)

/-- A cut descriptor (R139). -/
structure CutDesc where
  base : Nat
  pitch : Nat
  sbase : Nat
  spitch : Nat
  stream : W32
  step : W32
  ebase : Nat
  si : Nat
  sk : Nat
  given : Option Nat
deriving DecidableEq, Repr

/-- The 64 bytes of a cut descriptor (R139); none where a reserved byte is nonzero. R139 gives ILLEGAL for a reserved byte
alone: that a nonzero reserved bit [7:1] of SSRC, at byte 0x28, raises it too is the model's choice (log entry 161). -/
def cutDesc (bs : List Byte) : Option CutDesc :=
  let n := fun o w => leNat ((bs.drop o).take w)
  if 1 < n 0x28 1 ∨ n 0x2A 22 ≠ 0 then none
  else some { base := n 0 4, pitch := n 4 4, sbase := n 8 4, spitch := n 12 4, stream := BitVec.ofNat 32 (n 16 4),
              step := BitVec.ofNat 32 (n 20 4), ebase := n 24 8, si := n 32 4, sk := n 36 4,
              given := if n 0x28 1 = 1 then some (n 0x29 1) else none }

/-- The 64 rows of `len` bytes, and of `nb` scale bytes where there are any, lie below 5 MiB with aligned pitches
(R134, R139). -/
def cutOk (d : CutDesc) (len nb : Nat) : Bool :=
  decide (d.pitch % 64 = 0) && decide (d.base + 63 * d.pitch + len ≤ 0x500000)
    && (nb == 0 || (decide (d.spitch % 16 = 0) && decide (d.sbase + 63 * d.spitch + nb ≤ 0x500000)))

/-- The random byte of element (i, k) (R47, R139). -/
def cutRand (s : State) (t : Tile) (rm : Nat) (d : CutDesc) (i k : Nat) : Nat :=
  srDraw s t rm d.stream d.step (d.ebase + i * d.si + k * d.sk)

/-- The descriptor of vx.cut or vx.uncut is read and checked, and `body` acts on it (R139, R581 group 4). R139 gives no
order between a nonzero reserved byte and a bad PITCH, SPITCH or extent: that ILLEGAL comes before ADDR is the model's
choice (log entry 122). -/
def withDesc (s : State) (t : Tile) (gC : BitVec 5) (e : Ecc) (pc word : Nat) (body : State → CutDesc → State) : State :=
  let a := (s.g t gC).toNat
  if ¬ spoolOk64 a 64 then vxTrap s t cAddr pc word
  else
    let r := spoolLocal s t a 64 e
    if ¬ r.1 then r.2
    else match cutDesc (spRead r.2 (r.2.ptile t.toNat) a 64) with
      | none => vxTrap r.2 t cIllegal pc word
      | some d => body r.2 d

/-- The rows of a cut in the spool, with their scale bytes. -/
def cutSpans (d : CutDesc) (len nb : Nat) : List (Nat × Nat) :=
  (List.range 64).flatMap (fun i =>
    (d.base + i * d.pitch, len) :: (if nb = 0 then [] else [(d.sbase + i * d.spitch, nb)]))

/-- Element sources of a row of the spool (R33, R36, R37, R140). -/
def rowSrc (s : State) (p : Nat) (d : CutDesc) (fs n i : Nat) : List Src :=
  let es := unpackBytes fs n (spRead s p (d.base + i * d.pitch) (n * fmtW fs / 8))
  let sc := (spRead s p (d.sbase + i * d.spitch) (n / 32)).map (·.toNat)
  (es.zipIdx).map (fun x =>
    if isJ fs then
      (if sc.getD (x.2 / 32) 0 = 0xFF then .invalid else .val (scaleVal (decJ fs x.1) ((sc.getD (x.2 / 32) 0 : Nat) - 127)))
    else .val (decVal fs x.1))

/-- The blocks of a row (R49, R50, R140). -/
def rowBlocks (s : State) (t : Tile) (d : CutDesc) (fd rm : Nat) (sat : Bool) (i : Nat) (xs : List Src) : List Block :=
  (List.range (xs.length / 32)).map (fun b =>
    cvtBlock fd ((xs.drop (32 * b)).take 32) d.given rm sat
      ((List.range 32).map (fun k => cutRand s t rm d i (32 * b + k))))

/-- vx.cut (R139, R140). -/
def insVxCut (t : Tile) (o : VcutOp) (e : Ecc) : VxIns :=
  vxOp t [o.gC] o.enc (badRmCvt o.rm) (decide (4 < o.fd.toNat)) fun s pc =>
    withDesc s t o.gC .ok pc o.enc fun s d =>
      let fs := o.fs.toNat
      let fd := o.fd.toNat
      let m := o.tD.toNat
      let n := kLen fd
      let nb := if isJ fs then n / 32 else 0
      if ¬ cutOk d (n * fmtW fs / 8) nb then vxTrap s t cAddr pc o.enc
      else
        let r := localReads s t e (cutSpans d (n * fmtW fs / 8) nb)
        if ¬ r.1 then r.2
        else
          let s := r.2
          let rows := (List.range 64).map (fun i =>
            rowBlocks s t d fd o.rm.toNat (o.sat == 1) i (rowSrc s (s.ptile t.toNat) d fs n i))
          let s := s.modTile t (fun ts => (rows.zipIdx).foldl (fun ts x =>
            setKScl (setKVec ts m fd o.bdir.toNat x.2 (x.1.flatMap (·.codes))) m x.2 (x.1.map (·.scale))) ts)
          raiseEvents (setTag s t m fd o.bdir.toNat) t (rows.any (fun r => r.any (·.sat))) (rows.any (fun r => r.any (·.inv)))

/-- Its issue. -/
def execVxCut (t : Tile) (o : VcutOp) (e : Ecc) (s : State) : Out := issueVx s t (.vxCut t o e) (insVxCut t o e)

/-- The value a source converts from outside the J-formats: an element of an invalid block converts as a NaN (R55). -/
def srcVal : Src → Val
  | .val v => v
  | .invalid => .nan

/-- A row of vx.uncut: its bytes, its scale bytes and its events (R141). -/
def uncutRow (s : State) (t : Tile) (d : CutDesc) (fd rm : Nat) (sat : Bool) (i : Nat) (xs : List Src) :
    List Byte × List Byte × Bool × Bool :=
  if isJ fd then
    let bs := rowBlocks s t d fd rm sat i xs
    (packBytes fd (bs.flatMap (·.codes)), bs.map (fun b => BitVec.ofNat 8 b.scale), bs.any (·.sat), bs.any (·.inv))
  else
    let cs := (xs.zipIdx).map (fun x => cvtVal fd (srcVal x.1) rm sat (cutRand s t rm d i x.2))
    (packBytes fd (cs.map (·.bits)), [], anySat cs, anyInv cs)

/-- vx.uncut (R139, R141). -/
def insVxUncut (t : Tile) (o : VuncutOp) (e : Ecc) : VxIns :=
  vxOp t [o.gC] o.enc (badRmCvt o.rm || o.rsv != 0) false fun s pc =>
    let m := o.tS.toNat
    let r := tileReg s t m
    if ¬ isJ r.fmt then vxTrap s t cFmt pc o.enc
    else withDesc s t o.gC .ok pc o.enc fun s d =>
      let fd := o.fd.toNat
      let n := kLen r.fmt
      if ¬ cutOk d (n * fmtW fd / 8) (if isJ fd then n / 32 else 0) then vxTrap s t cAddr pc o.enc
      else
        let rows := (List.range 64).map (fun i =>
          uncutRow s t d fd o.rm.toNat (o.sat == 1) i ((List.range n).map (r.src i)))
        let s := localWrites s t e ((rows.zipIdx).flatMap (fun x =>
          (d.base + x.2 * d.pitch, x.1.1) :: (if isJ fd then [(d.sbase + x.2 * d.spitch, x.1.2.1)] else [])))
        raiseEvents s t (rows.any (fun x => x.2.2.1)) (rows.any (fun x => x.2.2.2))

/-- Its issue. -/
def execVxUncut (t : Tile) (o : VuncutOp) (e : Ecc) (s : State) : Out := issueVx s t (.vxUncut t o e) (insVxUncut t o e)

/-! ### Reductions -/

/-- One operation of a tree in format f (R142). -/
def redOp (op f rm a b : Nat) : Cv :=
  let x := decVal f a
  let y := decVal f b
  match op with
  | 0 => finish f (addVal rm x y) rm false
  | 1 => finish f (addVal rm x y) rm false
  | 2 => finish f (.val (maxVal x y)) rm false
  | 3 => finish f (.val (minVal x y)) rm false
  | _ => finish f (.val (maxVal (absVal x) (absVal y))) rm false

/-- One level of the tree (R142): the results, and whether one of them raised INVALID. -/
def treeLevel (op f rm : Nat) : List Nat → List Nat × Bool
  | a :: b :: xs =>
    let c := redOp op f rm a b
    let r := treeLevel op f rm xs
    (c.bits :: r.1, c.inv || r.2)
  | xs => (xs, false)

/-- The tree of 2^n elements (R142). -/
def tree (op f rm : Nat) : Nat → List Nat → Nat × Bool
  | 0, xs => (xs.headD 0, false)
  | n + 1, xs =>
    let l := treeLevel op f rm xs
    let r := tree op f rm n l.1
    (r.1, l.2 || r.2)

/-- One level of a tree whose operation `k`, counted from `base`, comes out `err` too large (R156). -/
def treeLevelUp (op f rm k err : Nat) : Nat → List Nat → List Nat × Bool
  | base, a :: b :: xs =>
    let c := redOp op f rm a b
    let r := treeLevelUp op f rm k err (base + 1) xs
    ((if base = k then (c.bits + err) % 2 ^ fmtW f else c.bits) :: r.1, c.inv || r.2)
  | _, xs => (xs, false)

/-- The tree of 2^n elements with a disturbance that the residue misses (R156). -/
def treeUp (op f rm k err : Nat) : Nat → Nat → List Nat → Nat × Bool
  | _, 0, xs => (xs.headD 0, false)
  | base, n + 1, xs =>
    let l := treeLevelUp op f rm k err base xs
    let r := treeUp op f rm k err (base + xs.length / 2) n l.1
    (r.1, l.2 || r.2)

/-- The tree, with the disturbance of its adders. -/
def treeOf (op f rm : Nat) (u : Option Upset) (n : Nat) (xs : List Nat) : Nat × Bool :=
  match u with
  | none => tree op f rm n xs
  | some u => if op < 2 then treeUp op f rm u.idx u.err 0 n xs else tree op f rm n xs

/-- The adders' check detects a disturbance of one of `n` additions; maxima and minima have none (R142, R156). -/
def sumCaught (op : Nat) (u : Option Upset) (n : Nat) : Bool := decide (op < 2) && upsetCaught u n

/-- The result format of a reduction (R142, R143). -/
def redFmt (op f : Nat) : Nat := if op = 1 then 7 else f

/-- Inputs widened exactly under SUMW (R142). -/
def redIn (op f x : Nat) : Nat := if op = 1 then (cvtElem f 7 x rmRNE false 0).bits else x

/-- vx.vred (R142, R143, R155). -/
def insVxVred (t : Tile) (o : VvredOp) (u : Option Upset) : VxIns :=
  vxOp t [] o.enc (badRm o.rm || decide (4 < o.op.toNat) || o.rsv != 0) (badF o.f) fun s pc =>
    let op := o.op.toNat
    let f := o.f.toNat
    let g := redFmt op f
    let r := treeOf op g o.rm.toNat u (if f = 6 then 7 else 6) ((vElems (s.v t o.vS) f).map (redIn op f))
    if sumCaught op u (vCount f) then vxResidue s t pc
    else
    let c := if o.acc = 1 then redOp op g o.rm.toNat (readU s t o.uD.toNat % 2 ^ fmtW g) r.1 else cvOk r.1
    raiseEvents (writeU s t o.uD.toNat c.bits) t false (r.2 || c.inv)

/-- Its issue. -/
def execVxVred (t : Tile) (o : VvredOp) (u : Option Upset) (s : State) : Out := issueVx s t (.vxVred t o u) (insVxVred t o u)

/-- The 64 cells of row or column r of a tile register. -/
def lineCells (ts : TileSt) (m dir r : Nat) : List Nat :=
  (List.range 64).map (fun c => (smGet (fun _ => 0) ts.treg (if dir = 0 then cellKey m r c else cellKey m c r) : W32).toNat)

/-- The share of row `r` in a disturbance of the 63 additions of each of 64 rows. -/
def rowUpset (u : Option Upset) (r : Nat) : Option Upset :=
  match u with
  | some u => if u.idx / 63 = r then some { u with idx := u.idx % 63 } else none
  | none => none

/-- vx.tred (R142, R143, R156). -/
def insVxTred (t : Tile) (o : VtredOp) (u : Option Upset) : VxIns :=
  vxOp t [] o.enc (badRm o.rm || decide (4 < o.op.toNat) || o.rsv != 0) false fun s pc =>
    let op := o.op.toNat
    let m := o.tS.toNat
    if tagFmt s t m ≠ 6 then vxTrap s t cFmt pc o.enc
    else if sumCaught op u 4032 then vxResidue s t pc
    else
      let g := redFmt op 6
      let rs := (List.range 64).map (fun r =>
        treeOf op g o.rm.toNat (rowUpset u r) 6 ((lineCells (s.tile t) m o.dir.toNat r).map (redIn op 6)))
      let keep := if g = 7 then [] else (lanes (s.v t o.vD)).drop 64
      raiseEvents (s.setV t o.vD (vPack g (rs.map (·.1) ++ keep))) t false (rs.any (·.2))

/-- Its issue. -/
def execVxTred (t : Tile) (o : VtredOp) (u : Option Upset) (s : State) : Out := issueVx s t (.vxTred t o u) (insVxTred t o u)

/-! ### Grid mode -/

/-- Grid terms added to accumulator words, the terms in order (R145, R156): `ws` are (word, term). -/
def gridAdds (s : State) (t : Tile) (n : Nat) (u : Option Upset) (pc word : Nat) (ws : List (Nat × Nat)) : State :=
  let lay := accLay s t n
  if ws.any (fun x => decide (4095 < x.1)) then vxTrap s t cIllegal pc word
  else if accState s t n ≠ accOpen then vxTrap s t cState pc word
  else if upsetCaught u ws.length then vxResidue s t pc
  else s.modTile t (fun ts => (ws.zipIdx).foldl (fun ts x => accAdd ts lay n x.1.1 (disturb lay u x.2 x.1.2)) ts)

/-- The term of a value at an accumulator's HEM and LAYOUT (R68). -/
def accTerm (s : State) (t : Tile) (n : Nat) (v : Val) : Nat := gridTerm (accLay s t n) (hemInt (accHem s t n)) v

/-- gC[11:0] of a grid instruction. -/
def wordIdx (s : State) (t : Tile) (gC : BitVec 5) : Nat := bits (s.g t gC).toNat 11 0

/-- vx.gacc (R145). -/
def insVxGacc (t : Tile) (o : VgaccOp) (u : Option Upset) : VxIns :=
  vxOp t [o.gC] o.enc (o.rsv != 0) (badF o.f) fun s pc =>
    let n := o.aD.toNat
    let w := wordIdx s t o.gC
    gridAdds s t n u pc o.enc (((vElems (s.v t o.vS) o.f.toNat).zipIdx).map (fun x =>
      ((if o.m = 0 then w + x.2 else w), accTerm s t n (decVal o.f.toNat x.1))))

/-- Its issue. -/
def execVxGacc (t : Tile) (o : VgaccOp) (u : Option Upset) (s : State) : Out := issueVx s t (.vxGacc t o u) (insVxGacc t o u)

/-- vx.gtacc (R145). -/
def insVxGtacc (t : Tile) (o : VgtaccOp) (u : Option Upset) : VxIns :=
  vxOp t [o.gC] o.enc (o.rsv != 0) false fun s pc =>
    let n := o.aD.toNat
    let w := wordIdx s t o.gC
    let m := o.tS.toNat
    if tagFmt s t m ≠ 6 then vxTrap s t cFmt pc o.enc
    else gridAdds s t n u pc o.enc ((List.range 64).flatMap (fun r =>
      (lineCells (s.tile t) m o.dir.toNat r).map (fun c => (w + r, accTerm s t n (decVal 6 c)))))

/-- Its issue. -/
def execVxGtacc (t : Tile) (o : VgtaccOp) (u : Option Upset) (s : State) : Out := issueVx s t (.vxGtacc t o u) (insVxGtacc t o u)

/-- vx.gdot (R145): the exact products. -/
def insVxGdot (t : Tile) (o : VgdotOp) (u : Option Upset) : VxIns :=
  vxOp t [o.gC] o.enc (o.rsv != 0) false fun s pc =>
    let n := o.aD.toNat
    let w := wordIdx s t o.gC
    let f := if o.w = 0 then 6 else 7
    gridAdds s t n u pc o.enc (((vElems (s.v t o.vA) f).zip (vElems (s.v t o.vB) f)).map (fun x =>
      (w, accTerm s t n (match mulVal (decVal f x.1) (decVal f x.2) with
        | .val v => v
        | _ => .nan))))

/-- Its issue. -/
def execVxGdot (t : Tile) (o : VgdotOp) (u : Option Upset) (s : State) : Out := issueVx s t (.vxGdot t o u) (insVxGdot t o u)

/-- vx.grd (R113, R147): raw words, in every state, their residues checked. -/
def insVxGrd (t : Tile) (o : VgrdOp) (u : Option Upset) : VxIns :=
  vxOp t [o.gC] o.enc (o.rsv != 0) false fun s pc =>
    let n := o.aS.toNat
    let w := wordIdx s t o.gC
    let lay := accLay s t n
    let k := if lay = 0 then 32 else 64
    if 4095 < w + k - 1 then vxTrap s t cIllegal pc o.enc
    else if upsetCaught u k then vxResidue s t pc
    else s.setV t o.vD (BitVec.ofNat 4096
      (packCells.leCat (8 * gBytes lay) ((List.range k).map (fun j => disturb lay u j ((s.tile t).readAcc n (w + j))))))

/-- Its issue. -/
def execVxGrd (t : Tile) (o : VgrdOp) (u : Option Upset) (s : State) : Out := issueVx s t (.vxGrd t o u) (insVxGrd t o u)

/-- vx.gcvt (R87, R113, R147). -/
def insVxGcvt (t : Tile) (o : VgcvtOp) (u : Option Upset) : VxIns :=
  vxOp t [o.gC] o.enc (badRmCvt o.rm || o.rsv != 0) (badJ o.fd) fun s pc =>
    let n := o.aS.toNat
    let fd := o.fd.toNat
    let w := wordIdx s t o.gC
    let lay := accLay s t n
    if 4095 < w + vCount fd - 1 then vxTrap s t cIllegal pc o.enc
    else if upsetCaught u (vCount fd) then vxResidue s t pc
    else
      putCvs s t o.vD fd ((List.range (vCount fd)).map (fun j =>
        let v := gridValue lay (hemInt (accHem s t n)) (disturb lay u j ((s.tile t).readAcc n (w + j)))
        cvtVal fd (v.getD .nan) o.rm.toNat (o.sat == 1) (srCtx s t o.rm.toNat j)))

/-- Its issue. -/
def execVxGcvt (t : Tile) (o : VgcvtOp) (u : Option Upset) (s : State) : Out := issueVx s t (.vxGcvt t o u) (insVxGcvt t o u)

/-! ### Partials and decisions on one chip -/

/-- The header of a partial packet (R149). -/
structure PartialHdr where
  gid : Nat
  attempt : Nat
  lay : Nat
  hem : Nat
  first : Nat
  count : Nat
  clean : Bool
deriving DecidableEq, Repr

/-- The 64 header bytes (R149); `clean` says that every reserved bit is 0. -/
def partialHdr (bs : List Byte) : PartialHdr :=
  let n := fun o w => leNat ((bs.drop o).take w)
  { gid := n 0 3, attempt := bits (n 3 1) 2 0, lay := bits (n 3 1) 3 3, hem := n 4 2, first := bits (n 6 2) 11 0,
    count := bits (n 8 2) 12 0,
    clean := bits (n 3 1) 7 4 == 0 && bits (n 6 2) 15 12 == 0 && bits (n 8 2) 15 13 == 0 && n 10 54 == 0 }

/-- The first row of R150: the packet belongs to the accumulator's group. -/
def partialFits (s : State) (t : Tile) (n : Nat) (h : PartialHdr) : Bool :=
  accState s t n == accOpen && accScope s t n == 0 && h.gid == accGroup s t n && h.lay == accLay s t n
    && h.count != 0 && decide (h.first + h.count ≤ 4096) && h.clean

/-- vx.gcomb (R150). The table of R150 has no row for a packet whose bytes run past 5 MiB: that the header's extent is
checked before the table and the body's after all its rows, both as ADDR, is the model's choice (log entry 41). -/
def insVxGcomb (t : Tile) (o : VgcombOp) (u : Option Upset) (e : Ecc) : VxIns :=
  vxOp t [o.gA] o.enc (o.rsv != 0) false fun s pc =>
    let n := o.aD.toNat
    let a := (s.g t o.gA).toNat
    if 0x500000 < a + 64 then vxTrap s t cAddr pc o.enc
    else
      let r := spoolLocal s t a 64 .ok
      let s := r.2
      let h := partialHdr (spRead s (s.ptile t.toNat) a 64)
      let lay := accLay s t n
      if ¬ r.1 then s
      else if ¬ partialFits s t n h then vxTrap s t cState pc o.enc
      else if h.attempt < accAttempt s t n then inc s (vxPg t) vx_STALE 1
      else if accAttempt s t n < h.attempt then vxTrap s t cState pc o.enc
      else if h.hem ≠ accHem s t n then
        logReq (accInvalidate s t n) 3 0x0403 (vxPg t) (leBytes 3 h.gid ++ b2 (accHem s t n) ++ b2 h.hem)
      else if 0x500000 < a + 64 + h.count * gBytes lay then vxTrap s t cAddr pc o.enc
      else
        let r := spoolLocal s t (a + 64) (h.count * gBytes lay) e
        let s := r.2
        if ¬ r.1 then s
        else if upsetCaught u h.count then vxResidue s t pc
        else
          let word := fun i => memNat s.spool (spKey (s.ptile t.toNat) (a + 64 + i * gBytes lay)) (gBytes lay)
          let s := s.modTile t (fun ts => (List.range h.count).foldl (fun ts i =>
            accAdd ts lay n (h.first + i) (disturb lay u i (word i))) ts)
          inci s (vxPg t) vx_ACC_PCNT n 1

/-- Its issue. -/
def execVxGcomb (t : Tile) (o : VgcombOp) (u : Option Upset) (e : Ecc) (s : State) : Out := issueVx s t (.vxGcomb t o u e) (insVxGcomb t o u e)

/-- The decision applied to the combine accumulator (R151 step 4). -/
def gdecApply (s : State) (t : Tile) (n : Nat) (r : DecKind × Nat × Nat) : State :=
  match r.1 with
  | .done => setAccState s t n accDone
  | .raise => logRaise (raiseAcc s t n r.2.1 r.2.2) (mxPg t) (accGroup s t n) (accHem s t n) r.2.2
  | .exhausted => logExhausted (setAccState (accInvalidate s t n) t n accDone) (mxPg t) (accGroup s t n) (accHem s t n)

/-- The u-register that vx.gdec leaves (R151 step 5). -/
def gdecU (kind : DecKind) (attempt hem : Nat) : Nat := decCode kind + attempt * 2 ^ 16 + hem * 2 ^ 32

/-- vx.gdec (R151). The rule names no cause for a bad list address: ADDR where it is no multiple of 64 B or where the 130
bytes of the longest list pass 5 MiB, whatever n is, and unused entries that are not 0 are ignored; both are the model's
choice (log entry 123). -/
def insVxGdec (t : Tile) (o : VgdecOp) (e : Ecc) : VxIns :=
  vxOp t [o.gL] o.enc (o.rsv != 0) false fun s pc =>
    let n := o.aD.toNat
    let a := (s.g t o.gL).toNat
    if ¬ spoolOk64 a 130 then vxTrap s t cAddr pc o.enc
    else
      let r := spoolLocal s t a 130 e
      let s := r.2
      let p := s.ptile t.toNat
      let k := memNat s.spool (spKey p a) 2
      if ¬ r.1 then s
      else if k = 0 ∨ 64 < k ∨ rdi s (vxPg t) vx_ACC_PCNT n ≠ k ∨ accState s t n ≠ accOpen ∨ accScope s t n ≠ 0 then
        vxTrap s t cState pc o.enc
      else
        let d := gridDecide (accOver s t n) (accHem s t n) (accAttempt s t n)
        let gid := BitVec.ofNat 24 (accGroup s t n)
        let att := BitVec.ofNat 3 (accAttempt s t n)
        let tiles := (List.range k).map (fun i => memNat s.spool (spKey p (a + 2 + 2 * i)) 2)
        let s := forEach (tiles.filter (fun x => x < s.ntiles))
          (fun x s => send s (.decision (BitVec.ofNat 11 x) gid d.1 (BitVec.ofNat 16 d.2.1) att)) s
        let s := wri (gdecApply s t n d) (vxPg t) vx_ACC_PCNT n 0
        writeU s t o.uD.toNat (gdecU d.1 d.2.2 d.2.1)

/-- Its issue. -/
def execVxGdec (t : Tile) (o : VgdecOp) (e : Ecc) (s : State) : Out := issueVx s t (.vxGdec t o e) (insVxGdec t o e)

/-! ### Exact maxima, drift and the tracker -/

/-- vx.tamax (R152). -/
def insVxTamax (t : Tile) (o : VtamaxOp) : VxIns :=
  vxOp t [] o.enc (o.rsv != 0) false fun s _ =>
    let r := tileReg s t o.tS.toNat
    let vs := (List.range 64).flatMap (fun i => (List.range (kLen r.fmt)).map (fun k => absVal (srcVal (r.src i k))))
    let m := vs.foldl maxVal (.zero false)
    let m := decVal 7 (cvtVal 7 m rmRUP false 0).bits
    let m := if o.acc = 1 then maxVal m (decVal 7 (readU s t o.uD.toNat)) else m
    raiseEvents (writeU s t o.uD.toNat (cvtVal 7 m rmRUP false 0).bits) t false (vs.contains .nan)

/-- Its issue. -/
def execVxTamax (t : Tile) (o : VtamaxOp) (s : State) : Out := issueVx s t (.vxTamax t o) (insVxTamax t o)

/-- One element of vx.rdiff (R154), its difference `err` too large. -/
def rdiffElem (err : Nat) (a b : Val) : Val :=
  match a, b with
  | .nan, _ => .inf false
  | _, .nan => .inf false
  | .inf x, .inf y => if x = y then .zero false else .inf false
  | .inf _, _ => .inf false
  | _, .inf _ => .inf false
  | .zero _, .zero _ => .zero false
  | .fin _ _ _, .zero _ => .inf false
  | a, b =>
    let (i, d) := valRat a
    let (j, e) := valRat b
    ofRat false ((i * e - j * d).natAbs + err : Nat) (d * j.natAbs)

/-- The disturbance of element `i`. -/
def errAt (u : Option Upset) (i : Nat) : Nat := match u with | some u => if u.idx = i then u.err else 0 | none => 0

/-- vx.rdiff (R154, R156). -/
def insVxRdiff (t : Tile) (o : VrdiffOp) (u : Option Upset) : VxIns :=
  vxOp t [] o.enc (o.rsv != 0) (badF o.f) fun s pc =>
    let f := o.f.toNat
    let vs := (((vElems (s.v t o.vA) f).zip (vElems (s.v t o.vB) f)).zipIdx).map (fun x =>
      rdiffElem (errAt u x.2) (decVal f x.1.1) (decVal f x.1.2))
    if upsetCaught u (vCount f) then vxResidue s t pc
    else
    let m := decVal 6 (cvtVal 6 (vs.foldl maxVal (.zero false)) rmRUP false 0).bits
    let m := if o.acc = 1 then maxVal m (decVal 6 (readU s t o.uD.toNat)) else m
    writeU s t o.uD.toNat (cvtVal 6 m rmRUP false 0).bits

/-- Its issue. -/
def execVxRdiff (t : Tile) (o : VrdiffOp) (u : Option Upset) (s : State) : Out := issueVx s t (.vxRdiff t o u) (insVxRdiff t o u)

/-- vx.trk (R153, R371): a posted write to the module's NM block, which counts as a loose store. -/
def insVxTrk (t : Tile) (o : VtrkOp) : VxIns :=
  vxOp t [o.gE] o.enc (o.rsv != 0) (badJ o.f) fun s pc =>
    let v := absVal (decVal o.f.toNat (readU s t o.uS.toNat))
    let x := BitVec.ofNat 32 (cvtVal 6 v rmRUP false 0).bits
    let e := BitVec.ofNat 12 (s.g t o.gE).toNat
    let ts := s.tile t
    let s := send s (.observation t ts.tagNo e x)
    s.modTile t (fun ts => { ts with
      tagNo := ts.tagNo + 1,
      loose := ts.loose ++ [{ tag := ts.tagNo, kind := .trk, addr := e.zeroExtend 48, size := 4, pc := pc, ord := ts.ord,
                              inHandler := s.hmode t }] })

/-- Its issue. -/
def execVxTrk (t : Tile) (o : VtrkOp) (s : State) : Out := issueVx s t (.vxTrk t o) (insVxTrk t o)

/-! ### Summary registers -/

/-- vx.evt (R133, R155). -/
def insVxEvt (t : Tile) (o : VevtOp) : VxIns :=
  vxOp t [] o.enc (o.rsv != 0) false fun s _ =>
    let p := vxPg t
    let s := writeU s t o.uD.toNat (rd s p vx_EVENT_SAT + 2 * rd s p vx_EVENT_INVALID)
    wr (wr s p vx_EVENT_SAT 0) p vx_EVENT_INVALID 0

/-- Its issue. -/
def execVxEvt (t : Tile) (o : VevtOp) (s : State) : Out := issueVx s t (.vxEvt t o) (insVxEvt t o)

/-- vx.pick (R155). -/
def insVxPick (t : Tile) (o : VpickOp) : VxIns :=
  vxOp t [o.gI] o.enc (o.rsv != 0) (badJ o.f) fun s pc =>
    let i := bits (s.g t o.gI).toNat 8 0
    if vCount o.f.toNat ≤ i then vxTrap s t cIllegal pc o.enc
    else writeU s t o.uD.toNat (vElem (s.v t o.vS) o.f.toNat i)

/-- Its issue. -/
def execVxPick (t : Tile) (o : VpickOp) (s : State) : Out := issueVx s t (.vxPick t o) (insVxPick t o)

/-- vx.uset (R155). -/
def insVxUset (t : Tile) (o : VusetOp) : VxIns :=
  vxOp t [o.gS] o.enc (o.rsv != 0) false fun s _ => writeU s t o.uD.toNat (s.g t o.gS).toNat

/-- Its issue. -/
def execVxUset (t : Tile) (o : VusetOp) (s : State) : Out := issueVx s t (.vxUset t o) (insVxUset t o)

end Sys2Proof.Machine
end

