-- ==== Sys2Proof/Machine/Schedule.lean ====
section
/-! DEFINITION. The schedule (chapters "Control Core" and "The Schedule Contract with Billia"): trap entry, program
starts, the global stall, stitches, HOLD and rest stitches, and the doldrums detector. -/

namespace Sys2Proof.Machine

/-! ### Traps and program starts -/

/-- The instruction word at the index of a tile (R162). -/
def fetchWord (ts : TileSt) : W32 := smGet (fun _ => 0) ts.imem ts.pc.toNat

/-- A word that spells no instruction at the index of a tile that can issue. One of an engine's class issues, and the engine
finds it (R120, R157). Of the others, the all-zero word among them, each raises ILLEGAL (R169, R170), but one of a
format whose guard p[pG] is 0: it has no effect (R168). -/
def noInstruction (s : State) (t : Tile) (w : W32) : State :=
  let maj := bits w.toNat 31 26
  let skip := fun (lo : Nat) => !s.p t (BitVec.ofNat 3 (w.toNat / 2 ^ lo))
  if maj = 0x30 then enginePut s t .mx (.reserved w) [] (fun s pc => reservedMinor s t .mx pc w)
  else if maj = 0x31 then enginePut s t .vx (.reserved w) [] (fun s pc => reservedMinor s t .vx pc w)
  else if ((maj = 0x01 ∨ maj = 0x0B) ∧ skip 8) ∨ (maj = 0x37 ∧ skip 13) then advance s t
  else precise s t cIllegal (w.setWidth 64)

/-- The fetch at the pre-issue check of a tile that can issue: an uncorrectable word of the instruction store fences the
tile and one under correction withholds the instruction (R164, R208). -/
def fetchCheck (s : State) (t : Tile) (e : Ecc) : State :=
  let ts := s.tile t
  if ¬ canIssue s t ∨ 0x4000 ≤ ts.pc.toNat then s
  else match e with
    | .uncorrectable => storeUe s t 0 (ts.pc.toNat / 2)
    | .corrected => withhold s t rowEcc .passing
    | .ok => if (decodeWord t (fetchWord ts)).isNone then noInstruction s t (fetchWord ts) else s

/-- TRAP_ENTRY (R189 to R196), after the fetch of the next instruction, which may raise a cause of its own (log entry
113). -/
def execTrapEntry (t : Tile) (e : Ecc) (s : State) : Out := onTile s t <| done s (takeTrap (fetchCheck s t e) t)

/-- FENCE (R434). -/
def execFence (t : Tile) (s : State) : Out := onTile s t <| done s (fenceTile s t)

/-- The sync state of a tile at a program start (R236, R246): counts and LOST bits cleared. R236 and R166 do not name the PEND
bits of SY_TACK: that a start clears them too is the model's choice (log entry 160). -/
def clearSync (s : State) (t : Tile) : State :=
  let s := forEach (List.range 48)
    (fun c s => wri (wri (wri (wri s (syPg t) sy_CNT_COUNT c 0) (syPg t) sy_PC_PROD_CNT c 0) (syPg t) sy_PC_CONS_CNT c 0)
      (syPg t) sy_OWN_LOST c 0) (progress s)
  wr (wr s (syPg t) sy_ISSUE 0) (syPg t) sy_TACK_PEND 0

/-- What a program start does once for the module (R213, R247, R261, R457): the issue count and the stitch base return to
0, and what fenced tiles still held is reclaimed. -/
def beginProgram (s : State) : State :=
  let s := wr64 (wr64 s gsPg gs_ISSUE_LO gs_ISSUE_HI 0) gsPg gs_KBASE_LO gs_KBASE_HI 0
  forEach (tilesWhere s 0 0x044 (fun w => bit w 1))
    (fun t s => (wr (clearSync s t) (syPg t) sy_TACK_PART 0).modTile t (fun ts => { ts with slots := [] }))
    { s with nextStitch := 0, stitchStall := 0 }

/-- A tile starts at index 0 (R166, R236, R580), at the program stitch that the module has reached; a tile that is OFF
does not. No rule says when the read-only bit DOUBLE clears: that a program start clears it is the model's choice (log
entry 119). -/
def startTile (s : State) (t : Tile) : State :=
  let p := tlPg t
  let s := wr s p tl_CTRL_RUN 1
  if s.tileOff t then s
  else
    let s := clearSync (unrequestAll s t) t
    let s := wr (wr (wr s p tl_STATUS_RUNNING 1) p tl_STATUS_SLEEP 0) p tl_STATUS_HALTED 0
    let s := wr (wr s p tl_STATUS_HMODE 0) p tl_STATUS_DOUBLE 0
    s.modTile t (fun ts =>
      { ts with pc := 0, g := [], p := 1, causes := [], wait := none, tackWait := none, realign := none,
                closeWait := none, issued := s.nextStitch * s.stitchW, ord := 0, rung := false, mxQ := [], vxQ := [],
                mxBusy := false, vxBusy := false, held := none })

/-- RUN of one tile (R166): the first start begins the module's program. -/
def runTile (s : State) (t : Tile) : State := startTile (if programRuns s then s else beginProgram s) t

/-- PROGRAM_START (R166). -/
def execProgramStart (t : Tile) (s : State) : Out :=
  onTile s t <| done s (actWrite s (tlPg t) (fun s => runTile s t))

/-! ### The global stall -/

/-- GLOBAL_STALL (R206, R208): a running tile raises the request of a row. -/
def execGlobalStall (t : Tile) (row : BitVec 4) (s : State) : Out :=
  onTile s t <| done s <|
    if row.toNat ≤ rowTrap ∧ rd s (tlPg t) tl_STATUS_RUNNING = 1 then request s t row.toNat else s

/-- The rows of a withheld instruction that comes again, and checks again, when the chip resumes (R207, R208). -/
def passingRow (row : Nat) : Bool := decide (row ≤ rowDma) || row == rowEntropy || row == rowThermal

/-- The condition of a withheld instruction has cleared (R207). -/
def holdOver (s : State) (t : Tile) (h : Hold) : Bool :=
  let ts := s.tile t
  match h with
  | .regs hm rs => !rs.any (regBusy ts hm)
  | .looseFull => decide (ts.loose.length < 16)
  | .lfence => storesDone ts
  | .dmaFull => decide (ts.dma.length < 8)
  | .dmFence => ts.dma.isEmpty
  | .full e => decide ((ts.queueOf e).length < 4)
  | .engines => enginesDrained ts
  | .summary u => !summaryQueued ts u
  | .tregs us => !dmaClash ts us
  | .passing => true

/-- The sync row of a tile has cleared (R207, R228, R241, R249). -/
def syncOver (s : State) (t : Tile) : Bool :=
  let ts := s.tile t
  match ts.wait, ts.realign, ts.tackWait with
  | some w, _, _ => decide (w.n ≤ syCount s t w.ctr) || syLost s t w.ctr || waitExpired s w
  | none, some x, _ => raReady s t (raEntries ts x.1) || raExpired s x
  | none, none, some k => !tackPend s t k.1.toNat
  | none, none, none => true

/-- The condition of a request has cleared (R207, R208). -/
def rowOver (s : State) (r : Tile × Nat) : Bool :=
  if passingRow r.2 then
    (match (s.tile r.1).held with
      | some h => h.1 != r.2 || holdOver s r.1 h.2
      | none => true)
  else if r.2 = rowSync then syncOver s r.1
  else if r.2 = rowClose then (s.tile r.1).closeWait.isNone
  else !s.hmode r.1 && (s.tile r.1).causes.isEmpty

/-- A withheld sy.wait, sy.tack WAIT or sy.realign issues (R207, R228, R241, R249). -/
def resumeTile (s : State) (t : Tile) : State :=
  let ts := s.tile t
  if s.hmode t then s
  else match ts.wait, ts.realign, ts.tackWait with
    | some w, _, _ => waitGo s t w
    | none, some x, _ => raAct s t x.1
    | none, none, some k =>
      let s := s.modTile t (fun ts => { ts with tackWait := none })
      if k.2 then advance s t else s
    | none, none, none => s

/-- STALL_RESUME (R207): the requests whose condition has cleared are dropped, and once none remains every withheld
instruction issues. -/
def execStallResume (s : State) : Out :=
  done s <|
    let s := { s with netReq := s.netReq.filter (fun r => !rowOver s r) }
    if chipIssues s then forEach (listedTiles s) (fun t s => resumeTile s t) s else s

/-! ### Stitches -/

/-- The current hall stitch (R356, R365). -/
def hallStitch (s : State) : Nat := rd64 s tmPg tm_STITCH_LO tm_STITCH_HI

/-- The next boundary's index. -/
def nextHall (s : State) : Nat := if s.begun then hallStitch s + 1 else 0

/-- B(h) in units of 2^-16 ns (R211). -/
def boundaryOf (t0 h : Nat) : Nat := t0 * 2 ^ 16 + h * 262144 * 2 ^ 16 / 9

/-- Twice the hall time of the present cycle, in units of 2^-48 ns: two cycles per hall-time tick (R340, R358), and
`hallTime` is that of the even one. -/
def hallTwice (s : State) : Nat := 2 * s.hallTime + s.cycles % 2 * s.rate

/-- The first CCLK cycle at or after a hall time in units of 2^-16 ns (R356, R358). -/
def cycleAt (s : State) (b : Nat) : Nat := s.cycles + (2 * (b * 2 ^ 32) - hallTwice s + s.rate - 1) / s.rate

/-- PASS_BOUNDARY (R356). -/
def execPassBoundary (s : State) : Out :=
  done s <| match s.t0 with
    | none => s
    | some t0 => { s with passed := some (cycleAt s (boundaryOf t0 (nextHall s))) }

/-- Q (R214, R457). -/
def restCount (s : State) : Nat := rd64 s gsPg gs_REST_LO gs_REST_HI

/-- KB (R213). -/
def stitchBase (s : State) : Nat := rd64 s gsPg gs_KBASE_LO gs_KBASE_HI

/-- I (R214). -/
def issueCount (s : State) : Nat := rd64 s gsPg gs_ISSUE_LO gs_ISSUE_HI

/-- The deficit D at a boundary (R214). -/
def deficit (s : State) (h : Nat) : Int :=
  ((h : Int) - restCount s) - ((issueCount s / s.stitchW : Nat) - (stitchBase s : Int))

/-- P: rest stitches agreed and not yet run (R215). -/
def restsAhead (s : State) : Nat := (s.rests.map (·.2)).sum

/-- HOLD goes out on every job port but one (R215, R216, R220). -/
def floodHold (s : State) (h n : Nat) (but : Option Nat) : State :=
  forEach ((List.range 64).filter (fun p => jobPort s p && some p != but))
    (fun p s => sendPkt s p .tim tyHold 0 (h % 2 ^ 32 + n * 2 ^ 32) []) s

/-- N(h) becomes at least n (R217): the missing rest stitches begin at hall index h + 2, or at the next boundary where
that one has passed (R219). -/
def agreeRest (s : State) (h n : Nat) : State :=
  let old := smGet (fun _ => 0) s.holdN h
  if n ≤ old then s
  else { s with holdN := smPut (fun _ => 0) s.holdN h n, rests := s.rests ++ [(max (h + 2) (nextHall s), n - old)] }

/-- What a boundary records of the stitch that ends (R456, R457). -/
def closeStitch (s : State) : State :=
  let st := s.stitchStall
  let s := if rd s gsPg gs_EASE < st then raiseF s gsPg gs_F_OVERRUN else s
  let s := if rd s gsPg gs_STALL_MAX < st then wr s gsPg gs_STALL_MAX (min st gs_STALL_MAX.max) else s
  { s with stitchStall := 0, throtLast := s.throtNow, throtNow := 0 }

/-- The largest n that the module has forwarded or taken for a hall index (R216, R217). -/
def holdKnown (s : State) (h : Nat) : Nat := max (smGet (fun _ => 0) s.holdFwd h) (smGet (fun _ => 0) s.holdN h)

/-- The module forwards HOLD(h, n) and keeps the largest n that it has forwarded for h (R216). -/
def keepHold (s : State) (h n : Nat) : State :=
  { s with holdFwd := smPut (fun _ => 0) s.holdFwd h (max n (smGet (fun _ => 0) s.holdFwd h)) }

/-- The entries of the indices from h - 1 to h + 3 stay (R216). -/
def pruneHolds (s : State) (h : Nat) : State :=
  { s with holdFwd := smDrop s.holdFwd (fun i => decide (i + 1 < h) || decide (h + 3 < i)) }

/-- A chip that is behind sends HOLD(h, n) (R215). -/
def sendHold (s : State) (h n : Nat) : State :=
  let s := inc (raiseF s gsPg gs_F_HOLD_SENT) gsPg gs_HOLDS 1
  floodHold (keepHold (agreeRest s h n) h n) h n none

/-- The boundary cycle passed to GS has come (R356). -/
def boundaryCome (s : State) : Bool := match s.passed with | some c => decide (c ≤ s.cycles) | none => false

/-- STITCH_BOUNDARY (R214, R215, R356): the stitch begins once the boundary cycle that was passed has come. -/
def execStitchBoundary (s : State) : Out :=
  done s <|
    if s.t0.isNone ∨ boundaryCome s = false then s
    else
      let h := nextHall s
      let s := pruneHolds (closeStitch (wr64 s tmPg tm_STITCH_LO tm_STITCH_HI h)) h
      let s := { s with begun := true, resting := false, passed := none }
      let d := if programRuns s then deficit s h else 0
      let s := wr (wr s gsPg gs_BEHIND (b2n (decide (1 ≤ d)))) gsPg gs_DEFICIT (min d.toNat 15)
      let n := min (d - restsAhead s) 15
      if 1 ≤ n then sendHold s h n.toNat else s

/-- An agreed rest stitch is due and has not begun. -/
def restDue (s : State) : Bool := !s.resting && s.begun && s.rests.any (fun r => decide (r.1 ≤ hallStitch s))

/-- The first due rest stitch is taken from the list. -/
def takeRest (h : Nat) : List (Nat × Nat) → List (Nat × Nat)
  | [] => []
  | r :: rs => if r.1 ≤ h then (if r.2 ≤ 1 then rs else (r.1, r.2 - 1) :: rs) else r :: takeRest h rs

/-- REST_STITCH (R217). -/
def execRestStitch (s : State) : Out :=
  done s <|
    if ¬ restDue s then s
    else wr64 { s with resting := true, rests := takeRest (hallStitch s) s.rests } gsPg gs_REST_LO gs_REST_HI (restCount s + 1)

/-- Every running tile has issued the program stitches begun so far (R213). -/
def stitchesDone (s : State) : Bool :=
  s.tileList.all (fun t => rd s (tlPg t) tl_STATUS_RUNNING == 0 || decide (s.nextStitch * s.stitchW ≤ (s.tile t).issued))

/-- Program stitch `nextStitch` may start (R213): it is due, and the one before it is complete. -/
def stitchDue (s : State) : Bool :=
  s.begun && programRuns s && stitchesDone s && rd s gsPg gs_JOB_HOLD == 0
    && decide (s.nextStitch + restCount s + b2n (restDue s) ≤ hallStitch s + stitchBase s)

/-- The asynchronous causes of a tile at the start of program stitch `k` (R118, R188, R221, R259, R410). -/
def asyncCauses (s : State) (t : Tile) (k : Nat) : State :=
  let ts := s.tile t
  let add := fun (s : State) (code : Nat) (info : Nat) =>
    raiseCause s t { code := code, src := 5, kind := .async, pc := ts.pc.toNat, info := BitVec.ofNat 64 info,
                     ord := ts.ord, inHandler := false }
  let s := match s.stowReq with
    | some r => if r.k = k then add (skipSample s t) cStow (k % 2 ^ 48) else s
    | none => s
  match ts.slots.find? (fun x => x.2.nonTile) with
  | some x => if ts.causes.any (fun c => c.code == cMsg) then s else add s cMsg x.2.stamp.toNat
  | none => s

/-- PROGRAM_STITCH_START (R213, R221). -/
def execProgramStitchStart (s : State) : Out :=
  done s <|
    if ¬ stitchDue s then s
    else
      let k := s.nextStitch
      forEach (s.tileList.filter (fun t => s.hasProgram t)) (fun t s => asyncCauses s t k) { s with nextStitch := k + 1 }

/-- The whole hall index that the 32 bits of a HOLD name: the one nearest to the current index (R215). -/
def holdIndex (s : State) (h : Nat) : Nat :=
  let c := hallStitch s
  let d := (h + 2 ^ 32 - c % 2 ^ 32) % 2 ^ 32
  if d < 2 ^ 31 then c + d else c + d - 2 ^ 32

/-- HOLD (R216, R217, R219, R220): a later copy whose n is not larger is discarded, and so is one for an index beyond the
entries that the module keeps; what it has agreed for an index that has left them still counts (log entry 130). -/
def execHold (port : BitVec 6) (h : BitVec 32) (n : BitVec 4) (s : State) : Out :=
  done s <|
    let p := port.toNat
    let s := (takePkt s (fun q hd _ => q == p && hd.type == tyHold && hd.addr % 2 ^ 36 == h.toNat + n.toNat * 2 ^ 32)).2
    let i := holdIndex s h.toNat
    if rd s (lkPg p) lk_CFG_FOREIGN = 1 ∨ n.toNat ≤ holdKnown s i ∨ hallStitch s + 3 < i then s
    else
      let late := s.begun && decide (i + 2 ≤ hallStitch s) && decide (smGet (fun _ => 0) s.holdN i < n.toNat)
      let s := agreeRest (keepHold s i n.toNat) i n.toNat
      let s := floodHold s h.toNat n.toNat (some p)
      if late then logReq (raiseF s tmPg tm_F_HOLD_LATE) 2 0x0302 tmPg (b4 h.toNat ++ b1 n.toNat) else s

/-- Link calibration may run (R221): no program runs, or the ease gate is shut and the chip is not behind. -/
def calWindow (s : State) : Bool := !programRuns s || (gateShut s && rd s gsPg gs_BEHIND == 0)

/-! ### The doldrums detector -/

/-- The rows of R208 for which some tile requests a stall. -/
def stallRows (s : State) : Nat := (List.range 11).foldl (fun a r => a + b2n (s.netReq.any (fun q => q.2 == r)) * 2 ^ r) 0

/-- The tiles that request a stall, lowest first. -/
def stallTiles (s : State) : List Tile := s.tileList.filter (fun t => s.netReq.any (fun q => q.1 == t))

/-- The window of the detector (R263). -/
def dlWindow (s : State) : Nat := 2 ^ rd s dlPg dl_WEXP

/-- DOLDRUMS (R263, R264): the counter has reached the window; the capture, the record and the report, once per
episode. -/
def execDoldrums (s : State) : Out :=
  done s <|
    match stallTiles s with
    | [] => s
    | t :: ts =>
      if s.dlFired ∨ rd s dlPg dl_ENABLE = 0 ∨ s.dlCount < dlWindow s then s
      else
        let row := ((List.range 11).find? (fun r => s.netReq.contains (t, r))).getD 0
        let pc := (s.tile t).pc.toNat
        let s := wr (wr { s with dlFired := true } dlPg dl_STALL_SRC (stallRows s)) dlPg dl_REQ_TILES (ts.length + 1)
        let s := wr (wr (wr s dlPg dl_SRC row) dlPg dl_PC pc) dlPg dl_TILE t.toNat
        let s := raiseF (inc s dlPg dl_EPISODES 1) dlPg dl_F_DOLDRUMS
        logReq s 2 0x0009 dlPg (b2 (stallRows s) ++ b2 t.toNat ++ b2 pc)

end Sys2Proof.Machine
end

