-- ==== Sys2Proof/Machine/Links.lean ====
section
/-! DEFINITION. Zynten ports (R300 to R323): frames in both directions, replay and tries, wavelengths and rotation,
failover and path loss, the states of a port, streams at the receiver, and the packets of the management core. -/

namespace Sys2Proof.Machine

/-! ### Holding the job -/

/-- A recovery packet of the management core leaves by every job port but one (R442). -/
def floodRcv (s : State) (m : RcvMsg) (but : Option Nat) : State :=
  forEach ((List.range 64).filter (fun p => jobPort s p && carries s p .rcv && some p != but)) (fun p s => sendRcv s p m) s

/-- A fault of this code can be contained (R436): a tile fault needs a row spare for every failed tile, or else, like a
home region that cannot be read, the twin's region (R443). R436 does not say which faults can: this is the model's choice
(log entry 167). -/
def containable (s : State) (code : Nat) : Bool :=
  if code / 256 = 0 then s.failed.isEmpty || twinHealthy s
  else if code = 0x0208 then twinHealthy s
  else true

/-- The job is held (R442 step 1) for a fault of code `code`; 0 for a fault of another module. A fault raised while a
recovery runs is logged and restarts it; where one of the two cannot be contained the job stays held (R436). -/
def holdJob (s : State) (code : Nat) (but : Option Nat) : State :=
  match s.recovery with
  | some r =>
    if code = 0 then s
    else
      let s := { s with recovery := some { code := r.code, drained := false, second := some code, again := r.again,
                                              stuck := r.stuck || !(containable s r.code && containable s code) } }
      logReq s 3 0x080A mgPg (b2 r.code ++ b2 code)
  | none =>
    let s := { s with recovery := some { code := code, drained := false, second := none, again := false, stuck := false } }
    floodRcv (wr (abortStow s) gsPg gs_JOB_HOLD 1) .jobHold but

/-! ### Ports down -/

/-- The peer of a port as training learned it: PEER_RACK, PEER_BOLT and PEER_MODULE (R335). -/
def peerId (s : State) (p : Nat) : Nat := regW s (lkPg p) 0x048 / 2 ^ 18

/-- STATE of a port changes; the health of the twin follows (R441). -/
def setState (s : State) (p st : Nat) : State := updatePartner (wr s (lkPg p) lk_STATUS_STATE st)

/-- The lowest-numbered other ACTIVE port to the same peer (R318). -/
def takeoverOf (s : State) (p : Nat) : Option Nat :=
  (List.range 64).find? (fun q => q != p && portState s q == stActive && peerId s q == peerId s p)

/-- The packets of a list of cells, each once, in order. -/
def cellPkts : List Cell → List (LinkClass × PktHdr × List Byte)
  | [] => []
  | c :: cs =>
    match c.pkt with
    | some (h, d) => (c.cls, h, d) :: (cellPkts cs).filter (fun x => x != (c.cls, h, d))
    | none => cellPkts cs

/-- The cells at the front of a queue that continue a packet already begun, and the rest. -/
def splitLead : List Cell → List LinkClass → List Cell × List Cell
  | [], _ => ([], [])
  | c :: cs, heads =>
    if c.head || heads.contains c.cls then
      let r := splitLead cs (c.cls :: heads)
      (r.1, c :: r.2)
    else
      let r := splitLead cs heads
      (c :: r.1, r.2)

/-- The packets of P that have not been acknowledged, those in its replay buffer marked RESENT (R318 step 2). -/
def heldPkts (x : PortSt) : List (LinkClass × PktHdr × List Byte) :=
  let sent := cellPkts x.replay
  let queued := (cellPkts x.queue).filter (fun q => !sent.contains q)
  sent.map (fun q => (q.1, { q.2.1 with flags := q.2.1.flags ||| 2 }, q.2.2)) ++ queued

/-- P stops and hands its packets to the takeover port (R318 steps 1 and 2). -/
def handOver (s : State) (p q : Nat) : State :=
  let x := portSt s p
  let y := portSt s q
  let lead := splitLead y.queue []
  let cells := (heldPkts x).flatMap (fun k => mkCells k.1 k.2.1 k.2.2)
  let s := setPort s q { y with queue := lead.1 ++ cells ++ lead.2 }
  let s := setPort s p { x with queue := [], replay := [], resend := none, tries := 0, partial_ := [], failover := true }
  wr (wr s (lkPg p) lk_STATUS_TAKEOVER q) (lkPg p) lk_STATUS_TAKEOVER_VALID 1

/-- A port group leads to the peer of port `p`. -/
def groupTo (s : State) (p g : Nat) : Bool :=
  p / 4 == g || (List.range 4).any (fun i => portState s (4 * g + i) != stOff && peerId s (4 * g + i) == peerId s p)

/-- The requests that wait for LSE credits of a lost peer fail (R286, R319). -/
def failWaiting (s : State) (q : Nat) : State :=
  forEach s.lseWait (fun m s => match m with
    | .lseRead _ a _ tag => if modOf a.toNat = q then failLse s a.toNat (tag % 65536) else { s with lseWait := s.lseWait ++ [m] }
    | .lseWrite _ a _ tag => if modOf a.toNat = q then failLse s a.toNat (tag % 65536) else { s with lseWait := s.lseWait ++ [m] }
    | _ => s) { s with lseWait := [] }

/-- What a port holds for its peer fails (R319): its packets, and those that wait for its failover. -/
def failHeld (s : State) (p : Nat) : State :=
  let x := portSt s p
  let s := setPort s p { x with queue := [], replay := [], resend := none, tries := 0, partial_ := [], waiting := [],
                                failover := false }
  let s := forEach (heldPkts x) (fun k s => failPkt s k.2.1.type k.2.1.addr k.2.2 true) s
  forEach x.waiting (fun k s => failPkt s k.2.1 k.2.2.2.1 k.2.2.2.2 true) s

/-- The ports that led to the peer of port `p`: itself, and those whose failover has moved their routes on (R318). -/
def lostPorts (s : State) (p : Nat) : List Nat :=
  (List.range 64).filter (fun q => q == p || ((portSt s q).failover && peerId s q == peerId s p))

/-- A packet that one of the ports has received. -/
def cameBy (ps : List Nat) (m : NetMsg) : Bool := match m with | .pkt q _ _ => ps.contains q | _ => false

/-- No ACTIVE port to the peer remains (R319): what is held fails, open collectives on the path are aborted (R333), the job
is held, and no packet of the path is delivered after that. -/
def pathLost (s : State) (p : Nat) : State :=
  let ps := lostPorts s p
  let s := forEach ps (fun q s => failHeld s q) { s with net := s.net.filter (fun m => !cameBy ps m) }
  let s := if p < 32 then failWaiting s (rd s (lkPg p) lk_PEER_MODULE) else s
  let s := logReq s 3 0x0103 (lkPg p)
    (b1 (rd s (lkPg p) lk_PEER_RACK) ++ b1 (rd s (lkPg p) lk_PEER_BOLT) ++ b1 (rd s (lkPg p) lk_PEER_MODULE))
  let s := abortWhere s (fun g =>
    let d := g.d
    (d.children ++ d.parent.toList ++ d.nextG.toList ++ d.prevG.toList).any (groupTo s p)) 1
  if jobPort s p then holdJob s 0x0103 none else s

/-- Failover or path loss of a port that has left ACTIVE. -/
def failPort (s : State) (p : Nat) : State :=
  match takeoverOf s p with
  | some q => handOver s p q
  | none => pathLost s p

/-- The PORT_DOWN record (R318, R473). -/
def logDown (s : State) (p : Nat) (take : Nat) : State :=
  logReq s 3 0x0102 (lkPg p) (b1 p ++ b2 (bits (regW s (lkPg p) pg_FAULT.off) 6 0) ++ b1 take)

/-- What follows when ports have entered DOWN (R316, R318, R319); `up` says that the port carried packets. -/
def afterDown (up : Bool) (p : Nat) (s : State) : State :=
  let s := raiseF s (lkPg p) lk_F_PORT_DOWN
  let s := logDown s p (if up then (takeoverOf s p).getD 0xFF else 0xFF)
  let s := { s with offers := smPut (fun _ => none) s.offers p none }
  if up then failPort s p else s

/-- A port leaves ACTIVE: a calibration that it runs ends (R335). -/
def leaveActive (s : State) (p : Nat) : State := if (portSt s p).cal.isSome then calEnd s p else s

/-- Ports enter DOWN together (R320); a port that is off, down or in fail-safe stays as it is. -/
def portsDown (s : State) (ps : List Nat) : State :=
  let go := (ps.filter (fun p => portUp s p || portState s p == stTrain)).map (fun p => (p, portUp s p))
  let s := forEach go (fun x s => setState (leaveActive s x.1) x.1 stDown) s
  reparent (forEach go (fun x s => afterDown x.2 x.1 s) s)

/-- A port enters DOWN (R316, R318 to R320). -/
def portDown (s : State) (p : Nat) : State := portsDown s [p]

/-- TRY_TIMEOUT (R311). -/
def execTryTimeout (port : BitVec 6) (s : State) : Out :=
  done s <|
    let p := port.toNat
    let x := portSt s p
    match x.replay with
    | [] => s
    | c :: _ =>
      if portState s p ≠ stActive ∧ portState s p ≠ stLull then s
      else
        let s := inc s (lkPg p) lk_TIMEOUT 1
        let s := setPort s p { x with tries := x.tries + 1, resend := some c.seq }
        if rd s (lkPg p) lk_CFG_TRY_LIMIT ≤ x.tries + 1 then portDown (raiseF s (lkPg p) lk_F_RETRY_LIMIT) p else s

/-- The takeover port holds a packet of port `p`. -/
def carriesOrigin (s : State) (p : Nat) : Bool :=
  (List.range 64).any (fun q => ((portSt s q).replay ++ (portSt s q).queue).any (fun c =>
    match c.pkt with
    | some (h, _) => h.origin == p
    | none => false))

/-- A request that left by port `p` has no response yet (R285). -/
def lseOpen (s : State) (p : Nat) : Bool := s.lseOut.any (fun x => x.port == p)

/-- FAILOVER_COMPLETE (R318 step 3, R285): once every request outstanding on P has its response, the routes of P move to the
takeover port, and what waited leaves by it. -/
def execFailoverComplete (port : BitVec 6) (s : State) : Out :=
  done s <|
    let p := port.toNat
    let x := portSt s p
    if ¬ x.failover ∨ carriesOrigin s p ∨ lseOpen s p then s
    else
      let s := setPort s p { x with failover := false, waiting := [] }
      let q := routePort s 64 p
      let s := { s with lseOut := s.lseOut.map (fun r => if r.port = 64 + p then { r with port := q } else r) }
      forEach x.waiting (fun k s => sendPkt s p k.1 k.2.1 k.2.2.1 k.2.2.2.1 k.2.2.2.2) s

/-! ### Wavelengths -/

/-- ROT moves one step toward `w`. -/
def rotToward (r w : Nat) : Nat := if r < w then r + 1 else if w < r then r - 1 else r

/-- WL_BAD of a wavelength. -/
def wlBad (s : State) (p w : Nat) : Bool := bit (rd s (lkPg p) lk_STATUS_WL_BAD) w

/-- The failing wavelength is idle (R314): marked bad, the flag set, the record logged. -/
def spared (s : State) (p w : Nat) : State :=
  let x := portSt s p
  let s := setPort s p { x with failing := none, rotStep := none }
  let s := wr s (lkPg p) lk_STATUS_WL_BAD (setBits (rd s (lkPg p) lk_STATUS_WL_BAD) w w 1)
  logReq (raiseF s (lkPg p) lk_F_WL_SPARED) 1 0x0101 (lkPg p) (b1 p ++ b1 w ++ b1 (rd s (lkPg p) lk_STATUS_ROT))

/-- A wavelength fails (R314, R315): the idle one is marked bad at once; without a good idle one the port goes down; a
second failure while one is being spared is a loss of two wavelengths (R320). -/
def wavelengthFails (s : State) (p w : Nat) : State :=
  let r := rd s (lkPg p) lk_STATUS_ROT
  if ¬ portUp s p ∨ 8 < w ∨ wlBad s p w then s
  else if wlBad s p r then portDown (raiseF s (lkPg p) lk_F_WL_NO_SPARE) p
  else match (portSt s p).failing with
    | some f => if f = w then s else portDown s p
    | none =>
      let s := if (portSt s p).cal.isSome then calEnd s p else s
      if w = r then spared s p w
      else setPort s p { portSt s p with failing := some w, rotStep := some (rotToward r w) }

/-- WAVELENGTH_FAIL. -/
def execWavelengthFail (port : BitVec 6) (w : BitVec 4) (s : State) : Out :=
  done s <| wavelengthFails s port.toNat w.toNat

/-- The idle wavelength is recalibrated (R317): one that fails stays idle, marked bad; else the idle index goes on, by
single steps, to the wavelengths that are left. Outside the windows of R221 the calibration waits: it then does not run. -/
def calibrateIdle (s : State) (p : Nat) (c : Cal) : State :=
  let w := rd s (lkPg p) lk_STATUS_ROT
  if ¬ calWindow s then
    wr (setPort s p { portSt s p with cal := some c, rotStep := none }) (lkPg p) lk_STATUS_CAL_ACTIVE 0
  else
  let todo := c.todo.dropWhile (· == w)
  if c.bad.contains w ∧ (¬ c.one ∨ todo.isEmpty) then spared (calEnd s p) p w
  else match todo with
    | [] => calEnd s p
    | t :: _ => setPort s p { portSt s p with cal := some { c with todo := todo }, rotStep := some (rotToward w t) }

/-- A calibration begins (R317). -/
def calBegin (s : State) (p : Nat) (c : Cal) : State := calibrateIdle (wr s (lkPg p) lk_STATUS_CAL_ACTIVE 1) p c

/-- A calibration that waits goes on in the next window (R221). -/
def calGo (s : State) (p : Nat) : State :=
  match (portSt s p).cal with
  | some c => if (portSt s p).rotStep.isNone ∧ portState s p = stActive then calBegin s p c else s
  | none => s

/-- The calibrations that wait go on once a window is open (R221). -/
def calTick (s : State) : State :=
  if calWindow s then forEach (s.ports.map (·.1)) (fun p s => calGo s p) s else s

/-- ROTATION_STEP (R314, R317): the idle index takes the announced value, of the own side or of the peer. -/
def execRotationStep (port : BitVec 6) (s : State) : Out :=
  done s <|
    let p := port.toNat
    let x := portSt s p
    match x.rotStep with
    | none => s
    | some r =>
      let s := wr s (lkPg p) lk_STATUS_ROT r
      match x.failing, x.cal with
      | some w, _ => if r = w then spared s p w else setPort s p { x with rotStep := some (rotToward r w) }
      | none, some c => calibrateIdle s p c
      | none, none => setPort s p { x with rotStep := none }

/-- The fuses name a bad wavelength of the port (R481). -/
def fusedWl (s : State) (p : Nat) : Option Nat :=
  let w := (fuseWl s.fuses.c0 p).toNat
  if w < 9 then some w else none

/-- CALIBRATION (R317): every wavelength in turn is made idle, by single steps, and recalibrated; the first that fails
stays idle, marked bad. In which direction the idle index goes first, and so where it ends, the manual does not say: a
free value. -/
def execCalibration (port : BitVec 6) (bad : List Nat) (s : State) : Out :=
  done s <|
    let p := port.toNat
    if rd s (lkPg p) lk_CFG_CAL_EN = 0 ∨ portState s p ≠ stActive ∨ wlBad s p (rd s (lkPg p) lk_STATUS_ROT)
        ∨ (portSt s p).failing.isSome ∨ (portSt s p).cal.isSome ∨ calWindow s = false then s
    else
      let up := (freshFree s).1.getLsbD 0
      calBegin (freshFree s).2 p { todo := if up then [8, 0] else [0, 8], bad := bad, one := false }

/-- CAL_WL (R221, R317): a write of CAL_WL; on a port whose idle wavelength is marked bad it is ignored and sets PG_STATUS[0]. -/
def execCalWl (port : BitVec 6) (w : BitVec 4) (ok : Bool) (s : State) : Out :=
  done s <|
    let p := port.toNat
    if ¬ locked s (lkPg p) ∧ wlBad s p (rd s (lkPg p) lk_STATUS_ROT) then wrej s (lkPg p)
    else actWrite s (lkPg p) fun s =>
      if 8 < w.toNat ∨ portState s p ≠ stActive ∨ (portSt s p).failing.isSome ∨ (portSt s p).cal.isSome then s
      else calBegin s p { todo := [w.toNat], bad := if ok then [] else [w.toNat], one := true }

/-! ### Enabling, training and disabling -/

/-- Training of a port begins (R320, R481): both directions start afresh, and the crossings of its group's receiver are
reset (R362). -/
def beginTraining (s : State) (p : Nat) : State :=
  let s := setPort s p PortSt.reset
  let s := wr (fifoReset (fifoReset s 5 (p / 4)) 6 (p / 4)) (lkPg p) lk_STATUS_CAL_ACTIVE 0
  let s := wr (wr (setState s p stTrain) (lkPg p) lk_STATUS_ROT ((fusedWl s p).getD 8)) (lkPg p) lk_STATUS_PEER_FAULT 0
  wr s (lkPg p) lk_STATUS_WL_BAD (match fusedWl s p with | some w => 2 ^ w | none => 0)

/-- A port is enabled (R320). -/
def enablePort (s : State) (p : Nat) : State :=
  let s := wr s (lkPg p) lk_CFG_ENABLE 1
  if portState s p = stOff then beginTraining s p else s

/-- A port is disabled (R316, R320): it sends PORT_RETIRE in its last frames, and what it holds moves as in a failover. -/
def disablePort (s : State) (p : Nat) : State :=
  let s := wr s (lkPg p) lk_CFG_ENABLE 0
  let st := portState s p
  if st = stOff ∨ st = stFailsafe ∨ st = stLull then s
  else
    let s := { setState (leaveActive s p) p stOff with offers := smPut (fun _ => none) s.offers p none }
    let s := if st = stActive then failPort s p else s
    let s := setPort s p { portSt s p with retiring := if st = stTrain then 0 else 2 }
    reparent s

/-- PORT_ENABLE and PORT_DISABLE: management writes of LK_CFG.ENABLE. -/
def execPortEnable (port : BitVec 6) (s : State) : Out :=
  done s <| actWrite s (lkPg port.toNat) (fun s => enablePort s port.toNat)

/-- PORT_DISABLE. -/
def execPortDisable (port : BitVec 6) (s : State) : Out :=
  done s <| actWrite s (lkPg port.toNat) (fun s => disablePort s port.toNat)

/-- Where a port's entry of the equalisation cache lies in flash (R487). -/
def eqBase (p : Nat) : Nat := 0x0A520000 + 0x8000 * p

/-- The bytes of an entry (R480): a mark that it is written, the firmware version, and for each wavelength its launch power,
its transmit setting and its receive setting. The layout is the model's choice (log entry 172). -/
def eqBytes (ver : Nat) (tr : Training) : List Byte :=
  b4 1 ++ b4 ver ++ (List.range 9).flatMap (fun w =>
    b4 (tr.txPower.getD w 0 % 2 ^ 32).toNat ++ b4 (tr.eq.getD w (0, 0)).1 ++ b4 (tr.eq.getD w (0, 0)).2)

/-- The launch power and the settings of a wavelength in a port's entry. -/
def eqPower (s : State) (p w : Nat) : Int := signed 32 (memNat s.flash (eqBase p + 8 + 12 * w) 4)
def eqSetting (s : State) (p w : Nat) : Nat × Nat :=
  (memNat s.flash (eqBase p + 12 + 12 * w) 4, memNat s.flash (eqBase p + 16 + 12 * w) 4)

/-- The cache entry of a port is valid for the launch powers that training found (R480): 1 dB is 100 units. -/
def eqValid (s : State) (p : Nat) (powers : List Int) : Bool :=
  rd s mgPg mg_EQ_CACHE_EN == 1 && memNat s.flash (eqBase p) 4 == 1 && memNat s.flash (eqBase p + 4) 4 == rd s mgPg mg_FW_VER
    && (List.range 9).all (fun w => decide ((eqPower s p w - powers.getD w 0).natAbs ≤ 100))

/-- The settings with which a trained port runs (R480): a job port takes those of a valid entry of the cache; without one
it has trained in full and writes its entry. -/
def equalise (s : State) (p : Nat) (tr : Training) : State :=
  let run := fun (s : State) eq => setPort s p { portSt s p with eq := eq }
  if rd s (lkPg p) lk_CFG_FOREIGN = 1 then run s tr.eq
  else if eqValid s p tr.txPower then run s ((List.range 9).map (eqSetting s p))
  else flWrite (run s tr.eq) (eqBase p) (eqBytes (rd s mgPg mg_FW_VER) tr)

/-- What training learns of the peer (R335). -/
def learnPeer (s : State) (p : Nat) (tr : Training) : State :=
  let s := setPort s p { portSt s p with learned := true }
  let s := wr (wr s (lkPg p) lk_PEER_RACK tr.rack) (lkPg p) lk_PEER_BOLT tr.bolt
  wr (wr (wr s (lkPg p) lk_PEER_MODULE tr.module) (lkPg p) lk_PEER_PORT tr.port) (lkPg p) lk_RTT (min tr.rtt 0xFFFF)

/-- An attempt at training has failed: the third takes the port DOWN (R320). -/
def trainingFails (s : State) (p attempts : Nat) : State := if attempts < 3 then s else portDown s p

/-- The lasers that training lit and found within limits (R337). -/
def lasersOk (s : State) (g : Nat) (ws : List Nat) : State :=
  forEach (ws.filter (· < 9)) (fun w s => wr s (oePg g) oe_LASER_OK (setBits (rd s (oePg g) oe_LASER_OK) w w 1)) s

/-- TRAINING_COMPLETE (R312, R320, R321, R480, R481): an attempt at training has ended; in lull mode the port passes to
LULL. -/
def execTrainingComplete (port : BitVec 6) (tr : Training) (s : State) : Out :=
  done s <|
    let p := port.toNat
    if portState s p ≠ stTrain then s
    else
      let need := (List.range 9).filter (fun w => some w != fusedWl s p)
      if ¬ need.all (fun w => tr.locked.contains w) then trainingFails s p tr.attempts
      else
        let s := learnPeer s p tr
        if 1000 < tr.rtt then trainingFails (raiseF s (lkPg p) lk_F_REACH) p tr.attempts
        else
          let key := (peerId s p * 64 + rd s (lkPg p) lk_PEER_PORT) * 8
          let s := if (portSt s p).keepPsn then setPort s p { portSt s p with keepPsn := false }
            else { s with nextPsn := smDrop s.nextPsn (fun k => decide (key ≤ k) && decide (k < key + 8)) }
          let s := wr s (lkPg p) lk_STATUS_TAKEOVER_VALID 0
          let s := equalise s p tr
          let s := wr s ckPg ck_RX_LOCK (setBits (rd s ckPg ck_RX_LOCK) (p / 4) (p / 4) 1)
          setState (lasersOk s (p / 4) tr.locked) p (if s.lull then stLull else stActive)

/-! ### Sending frames -/

/-- The stamp of a frame, or a free value where none is held. -/
def stampOf (s : State) (l : List (Nat × Nat)) (f : Nat) : Nat × State :=
  match l.find? (fun x => x.1 == f) with
  | some x => (x.2, s)
  | none => ((freshFree s).1.toNat, (freshFree s).2)

/-- The FCB of the frame that a port sends now (R304, R343). -/
def buildFcb (s : State) (p : Nat) (retire : Bool) : Fcb × State :=
  let x := portSt s p
  let t := stampOf s x.txStamps ((x.frameNo + 65534) % 65536)
  let r := stampOf t.2 x.rxStamps x.rxFrame
  ({ frameNo := x.frameNo, rot := rd s (lkPg p) lk_STATUS_ROT,
     rotNext := if x.failing.isSome ∨ x.cal.isSome then x.rotStep.getD 15 else 15,
     nakValid := x.nakDue, idleFault := false, lull := portState s p == stLull, portRetire := retire,
     ack := (x.rxSeq + 65535) % 65536, nak := x.rxSeq, credit := x.freed, txFrame := (x.frameNo + 65534) % 65536,
     rxFrame := x.rxFrame, tstate := rd s tmPg tm_TSTATE, hops := rd s tmPg tm_HOPS, txStamp := t.1 % 2 ^ 64,
     rxStamp := r.1 % 2 ^ 64 }, r.2)

/-- The class that owns a link slot of the window of 128 (R201, R202, R306). -/
def slotClass (p i : Nat) : Nat :=
  if i < 103 then 0 else if i < 119 then (if p < 32 then 1 else 0) else if i < 123 then 2 else if i < 127 then 3 else 4

/-- The first waiting cell of a class. -/
def headCell (x : PortSt) (c : Nat) : Option Cell := x.queue.find? (fun k => clsCode k.cls == c)

/-- A class can send (R309): it has a cell waiting and a credit. -/
def canSend (x : PortSt) (c : Nat) : Bool := (headCell x c).isSome && decide (0 < x.credits.getD c 0)

/-- The class that takes a slot: its owner, else the next class with a cell (R201). -/
def slotTaker (x : PortSt) (owner : Nat) : Option Nat :=
  ((List.range 5).map (fun i => (owner + i) % 5)).find? (canSend x)

/-- One new cell of class `c` is sent (R305, R310). -/
def sendCell (x : PortSt) (c : Nat) : PortSt × List Cell :=
  match headCell x c with
  | none => (x, [])
  | some k =>
    let k' := { k with seq := x.txSeq }
    ({ x with queue := x.queue.erase k, replay := x.replay ++ [k'], txSeq := (x.txSeq + 1) % 65536,
              credits := x.credits.set c (x.credits.getD c 0 - 1) }, [k'])

/-- New cells for up to `n` slots (R305, R306, R310): a slot that no class takes, or with a full replay buffer, holds a
NULL cell. -/
def fillSlots (p : Nat) : Nat → PortSt → PortSt × List Cell
  | 0, x => (x, [])
  | n + 1, x =>
    let step := { x with slot := (x.slot + 1) % 128 }
    match (if 3072 ≤ x.replay.length then none else slotTaker x (slotClass p x.slot)) with
      | none =>
        let r := fillSlots p n step
        (r.1, nullCell :: r.2)
      | some c =>
        let a := sendCell step c
        let r := fillSlots p n a.1
        (r.1, a.2 ++ r.2)

/-- Held cells that are resent, from SEQ `q` on, at most `n` (R310). -/
def resendCells (x : PortSt) (q n : Nat) : List Cell :=
  (x.replay.filter (fun c => decide ((c.seq + 65536 - q) % 65536 < 32768))).take n

/-- What a frame's 175 slots carry: resent cells first, then new ones; the slots left over hold NULL cells. -/
def loadFrame (s : State) (p : Nat) : List Cell × State :=
  let x := portSt s p
  let old := match x.resend with | some q => resendCells x q 175 | none => []
  let s := inc s (lkPg p) lk_RETRY old.length
  let last := match old.getLast? with | some c => some ((c.seq + 1) % 65536) | none => none
  let x := { x with resend := match last with | some q => if q = x.txSeq then none else some q | none => none }
  let r := fillSlots p (175 - old.length) x
  (old ++ r.2, setPort s p r.1)

/-- A frame has left: its number and departure stamp (R343). -/
def frameLeft (s : State) (p departure : Nat) : State :=
  let x := portSt s p
  let st := (x.txStamps ++ [(x.frameNo, departure)]).drop ((x.txStamps.length + 1) - 64)
  setPort s p { x with txStamps := st, frameNo := (x.frameNo + 1) % 65536, nakDue := false }

/-- A frame leaves as the light of nine wavelengths (R300 to R304). -/
def sendFrame (s : State) (p : Nat) (f : Fcb) (cells : List Cell) : State := send s (.frame p f cells (frameLight f cells))

/-- The stamp of a timing point that leaves, or arrives, on the wavelength that carries position 0 (R341, R342): hall time
between ticks less the delay of that wavelength. -/
def stampAtFace (s : State) (p : Nat) (phase : BitVec 16) (delay : Nat → Nat → Int) : Nat :=
  ((stampNow s phase : Int) - delay p (wlOf (rd s (lkPg p) lk_STATUS_ROT) 0)).toNat % 2 ^ 80

/-- FRAME_SEND (R300 to R306, R309, R310, R316, R320, R321, R342). -/
def execFrameSend (port : BitVec 6) (phase : BitVec 16) (s : State) : Out :=
  done s <|
    let p := port.toNat
    let departure := stampAtFace s p phase Config.oeTxDelay
    let st := portState s p
    let x := portSt s p
    if st = stActive ∨ st = stLull then
      let r := loadFrame s p
      let n := (portSt r.2 p).replay.length
      let s := if rd r.2 (lkPg p) lk_REPLAY_PEAK < n then wr r.2 (lkPg p) lk_REPLAY_PEAK n else r.2
      let f := buildFcb s p false
      sendFrame (frameLeft f.2 p departure) p f.1 (r.1.map wireCell)
    else if st = stDown then
      let f := buildFcb s p true
      sendFrame (frameLeft f.2 p departure) p f.1 []
    else if st = stTrain then send s (.training p (trainLight (fusedWl s p)))
    else if st = stFailsafe then send s (.frame p { Fcb.zero with idleFault := true } [] idleLight)
    else if st = stOff ∧ 0 < x.retiring then
      let f := buildFcb s p true
      let s := frameLeft f.2 p departure
      sendFrame (setPort s p { portSt s p with retiring := x.retiring - 1 }) p f.1 []
    else s

/-! ### Receiving frames -/

/-- `a` comes after `b` in 16-bit sequence numbers, or equals it. -/
def seqGe (a b : Nat) : Bool := decide ((a + 65536 - b) % 65536 < 32768)

/-- ACK (R310, R311): the cells it covers leave the replay buffer. -/
def takeAck (x : PortSt) (ack : Nat) : PortSt :=
  let rest := x.replay.filter (fun c => !seqGe ack c.seq)
  let resend := match x.resend with
    | some q => if seqGe ack q then (rest.head?.map (fun c => c.seq)) else some q
    | none => none
  { x with replay := rest, tries := if rest.length < x.replay.length then 0 else x.tries, resend := resend }

/-- CREDIT (R304, R309): cumulative counts return credits. -/
def takeCredit (x : PortSt) (counts : List Nat) : PortSt :=
  { x with
    credits := (List.range 5).map (fun c =>
      x.credits.getD c 0 + (counts.getD c 0 + 65536 - x.peerFreed.getD c 0) % 65536),
    peerFreed := (List.range 5).map (fun c => counts.getD c 0) }

/-- Δ of a port in units of 2^-16 ns (R344, R365): from picoseconds, to the nearest unit. -/
def asymUnits (s : State) (p : Nat) : Int :=
  let ps := signed 16 (rdi s tmPg tm_ASYM p)
  (ps * 65536 + 500) / 1000

/-- Half of an integer, halves to even. -/
def halfEven (v : Int) : Int :=
  let q := v / 2
  if v % 2 = 0 then q else if q % 2 = 0 then q else q + 1

/-- A stamp as its receiver restores it (R341): nanoseconds [63:48] come from the own hall time, so that the stamp lies
nearest to it. -/
def restoreStamp (s : State) (st : Nat) : Int :=
  let own : Nat := s.hallTime / 2 ^ 32
  (own : Int) + signed 64 ((st + 2 ^ 64 - own % 2 ^ 64) % 2 ^ 64)

/-- One sample and the round trip (R344): t1 the peer's departure of its frame, t2 its arrival here, t3 the departure here
of a frame, t4 its arrival at the peer. -/
def sampleOf (s : State) (p : Nat) (f : Fcb) : Option (Int × Int) :=
  let x := portSt s p
  if fifoBusy s 6 (p / 4) then none
  else match x.rxStamps.find? (fun a => a.1 == f.txFrame), x.txStamps.find? (fun a => a.1 == f.rxFrame) with
  | some t2, some t3 =>
    let t1 := restoreStamp s f.txStamp
    let t4 := restoreStamp s f.rxStamp
    some (halfEven ((t2.2 - t1) - (t4 - t3.2) + asymUnits s p), (t4 - t1) - (t3.2 - t2.2))
  | _, _ => none

/-- The port is that of the module's time parent (R350). -/
def isParent (s : State) (p : Nat) : Bool := rd s tmPg tm_PARENT_VALID == 1 && rd s tmPg tm_PARENT_PORT == p

/-- A packet of a class that lull mode does not carry (R320, R321): a port in LULL takes RCV and TIM alone, and so does a
port whose peer is in lull mode. That it is dropped uncounted is the model's choice (log entry 147). -/
def lullDrop (s : State) (p : Nat) (c : LinkClass) : Bool :=
  (portState s p == stLull || (portSt s p).peerLull) && c != .rcv && c != .tim

/-- A packet that a frame completes is checked and delivered (R25, R307, R313, R320, R321). -/
def deliverPkt (s : State) (p : Nat) (c : LinkClass) (h : PktHdr) (data : List Byte) (cells : Nat) : State :=
  let lk := lkPg p
  let key := (peerId s p * 64 + h.origin) * 8 + clsCode c
  let next := smGet (fun _ => 0) s.nextPsn key
  if rd s lk lk_CFG_FOREIGN = 1 ∧ c ≠ .tim then foreignDrop s p c
  else if lullDrop s p c then s
  else if ¬ typeClass h.type c ∨ cellsOf h.len ≠ cells ∨ 4096 < h.len then
    logReq (inc s lk lk_MALFORMED 1) 2 0x0105 lk (b1 p ++ b1 h.type ++ b2 h.len)
  else if h.psn = next then
    send { s with nextPsn := smPut (fun _ => 0) s.nextPsn key ((next + 1) % 65536) } (.pkt p h (padTo h.len data))
  else if (next + 65536 - h.psn % 65536) % 65536 ≤ 32768 then inc s lk lk_DUP_PSN 1
  else
    let s := logReq (raiseF s lk lk_F_PSN_GAP) 3 0x0104 lk
      (b1 p ++ b1 h.origin ++ b1 (clsCode c) ++ b2 next ++ b2 h.psn)
    portDown s p

/-- A cell received in order (R307, R309, R310): its buffer is freed as it moves on. -/
def takeCell (s : State) (p : Nat) (c : Cell) : State :=
  let x := portSt s p
  let k := clsCode c.cls
  let cur := if c.head then some (c.data, 1)
    else (smGet (fun _ => none) x.partial_ k).map (fun q => (q.1 ++ c.data, q.2 + 1))
  let freed := x.freed.set k ((x.freed.getD k 0 + 1) % 65536)
  let part := smPut (fun _ => none) x.partial_ k (if c.tail then none else cur)
  let s := setPort s p { x with rxSeq := (x.rxSeq + 1) % 65536, freed := freed, partial_ := part }
  match c.tail, cur with
  | true, some q => deliverPkt s p c.cls (hdrOf q.1) (q.1.drop 16) q.2
  | _, _ => s

/-- The cells of a frame in SEQ order (R305, R310); a port that went down takes no more. -/
def takeCells (p : Nat) : List Cell → State → State
  | [], s => s
  | c :: cs, s =>
    let x := portSt s p
    if portState s p ≠ stActive ∧ portState s p ≠ stLull then s
    else if c.cls = .null then takeCells p cs s
    else if c.seq = x.rxSeq then takeCells p cs (takeCell s p c)
    else if seqGe x.rxSeq c.seq then takeCells p cs (inc s (lkPg p) lk_DUP_CELL 1)
    else takeCells p cs (setPort s p { x with nakDue := true })

/-- IDLE_FAULT in four consecutive FCBs (R321, R245): PEER_FAULT, and for a bolt peer a LOST notice of the whole module;
the holder of a failing twin's region refuses its writes from then on (R294). -/
def seeIdleFault (s : State) (p : Nat) : State :=
  let x := portSt s p
  let s := setPort s p { x with idleRun := x.idleRun + 1 }
  if x.idleRun + 1 < 4 ∨ rd s (lkPg p) lk_STATUS_PEER_FAULT = 1 then s
  else
    let m := rd s (lkPg p) lk_PEER_MODULE
    let known := (List.range 64).any (fun q => peerId s q == peerId s p && rd s (lkPg q) lk_STATUS_PEER_FAULT == 1)
    let s := wr s (lkPg p) lk_STATUS_PEER_FAULT 1
    let s := if p < 32 ∧ ¬ known ∧ jobPort s p then sendLost s m none else s
    if p < 32 ∧ m = s.twin then wr s (lpPg 0) lp_FREEZE 1 else s

/-- The sample of a good frame (R344): it enters the filter if it is of the parent port (R345). -/
def takeSample (s : State) (p : Nat) (b : Fcb) : State :=
  match sampleOf s p b with
  | some v =>
    let s := setPort s p { portSt s p with sample := some v.1, trip := some v.2 }
    if isParent s p then feed s v.1 else s
  | none => s

/-- What the FCB of a good frame does (R304, R310, R314, R316, R321, R341 to R344, R351). -/
def takeFcb (s : State) (p : Nat) (f : Frame) : State :=
  let b := f.fcb
  let arrival := stampAtFace s p f.phase Config.oeRxDelay
  let x := takeCredit (takeAck (portSt s p) b.ack) b.credit
  let x := if b.nakValid then { x with resend := (x.replay.find? (fun c => seqGe c.seq b.nak)).map (fun c => c.seq) } else x
  let x := if b.rotNext < 9 ∧ x.failing.isNone ∧ x.cal.isNone then { x with rotStep := some b.rotNext } else x
  let st := (x.rxStamps ++ [(b.frameNo, arrival)]).drop ((x.rxStamps.length + 1) - 64)
  let x := { x with rxFrame := b.frameNo, rxStamps := st, retireRun := if b.portRetire then x.retireRun + 1 else 0,
                    idleRun := if b.idleFault then x.idleRun else 0, peerLull := b.lull }
  let s := takeSample (setPort s p x) p b
  match smGet (fun _ => none) s.offers p with
  | some a =>
    if a.tstate = b.tstate ∧ a.hops = b.hops then s
    else reparent { s with offers := smPut (fun _ => none) s.offers p (some { a with tstate := b.tstate, hops := b.hops }) }
  | none => s

/-- The runs of uncorrectable codewords, by wavelength, after a frame (R314). -/
def countRuns (runs : List Nat) (rot : Nat) (badPos : List Nat) : List Nat :=
  (List.range 9).map (fun w =>
    if w ≠ rot ∧ badPos.contains (if w < rot then w else w - 1) then runs.getD w 0 + 1 else 0)

/-- The wavelengths whose codeword was uncorrectable in four consecutive frames fail (R314). -/
def takeRuns (s : State) (p : Nat) (badPos : List Nat) : State :=
  let runs := countRuns (portSt s p).badRun (rd s (lkPg p) lk_STATUS_ROT) badPos
  let s := setPort s p { portSt s p with badRun := runs.map (fun n => if 4 ≤ n then 0 else n) }
  forEach ((List.range 9).filter (fun w => decide (4 ≤ runs.getD w 0))) (fun w s => wavelengthFails s p w) s

/-- A frame of the parent port counts toward the filter's period (R345). -/
def countFrame (s : State) (p : Nat) : State :=
  if isParent s p then { s with filt := { s.filt with frames := s.filt.frames + 1 } } else s

/-- Light that arrives on a wavelength whose echo path is enabled goes back down the same fibre (R346). -/
def echoLight (s : State) (p : Nat) (h : Heard) : State :=
  match h with
  | .frame _ => s
  | .light l _ => forEach (portSt s p).echo (fun e s => send s (.echoed p e.1 (l.getD e.1 []))) s

/-- FRAME (R300 to R314, R316, R321, R346): a frame is heard, decoded and taken. While the crossing of the port's group
resynchronises, what arrives is discarded, and its cells are asked for again (R310, R362). -/
def execFrame (port : BitVec 6) (h : Heard) (s : State) : Out :=
  done s <|
    let p := port.toNat
    let st := portState s p
    let lit := st = stActive ∨ st = stLull
    let f := hear (rd s (lkPg p) lk_STATUS_ROT) h
    let s := echoLight s p h
    if st = stOff ∨ st = stTrain ∨ st = stFailsafe then s
    else if fifoBusy s 5 (p / 4) then (if lit then setPort s p { portSt s p with nakDue := true } else s)
    else
      let s := countFrame (inc s (lkPg p) lk_CORR_SYM f.corrected) p
      if f.badPos ≠ [] ∨ ¬ f.fcsOk then
        let s := inc s (lkPg p) lk_BAD_FRAME 1
        if lit then takeRuns (setPort s p { portSt s p with nakDue := true }) p f.badPos else s
      else if f.fcb.idleFault then updatePartner (seeIdleFault s p)
      else if ¬ lit then setPort s p { portSt s p with idleRun := 0 }
      else
        let s := takeFcb (takeRuns s p []) p f
        if 2 ≤ (portSt s p).retireRun then portDown s p else updatePartner (takeCells p f.cells s)

/-! ### Streams at the receiver, and the management core's packets -/

/-- A packet that arrives by itself: the one that a frame left in flight, or one checked here (R307, R313), on a port whose
state carries sequenced cells (R320). `none` where it is discarded. -/
def arrive (s : State) (p : Nat) (c : LinkClass) (h : PktHdr) (data : List Byte) : Option State :=
  let r := takePkt s (fun q k d => q == p && k == h && d == data)
  if r.1 then some r.2
  else if ¬ portUp s p then none
  else
    let s' := if data.length = h.len then deliverPkt s p c h data (cellsOf data.length)
      else logReq (inc s (lkPg p) lk_MALFORMED 1) 2 0x0105 (lkPg p) (b1 p ++ b1 h.type ++ b2 h.len)
    let q := takePkt s' (fun q k d => q == p && k == h && d == data)
    if q.1 then some q.2 else none

/-- What is left after a packet that was discarded on arrival. -/
def arriveState (s : State) (p : Nat) (c : LinkClass) (h : PktHdr) (data : List Byte) : State :=
  if ¬ portUp s p then s
  else if data.length = h.len then dropMsg (deliverPkt s p c h data (cellsOf data.length)) (fun m => m == .pkt p h data)
  else logReq (inc s (lkPg p) lk_MALFORMED 1) 2 0x0105 (lkPg p) (b1 p ++ b1 h.type ++ b2 h.len)

/-- The party of a stream that lands (R294, R323): it comes from the peer of its port, by the NoC port of a spool. -/
def streamParty (s : State) (p : Nat) : Party := .tile (BitVec.ofNat 3 (rd s (lkPg p) lk_PEER_MODULE)) 0

/-- The lines of a stream packet are written into its window (R323). A window that refuses them (R277, R294) loses them:
no response of a STREAM packet is stated, and that their credits return all the same is the model's choice (log entry
135). -/
def landLines (s : State) (p : Nat) (e : StreamEnt) (off : Nat) (data : List Byte) : Nat × State :=
  if e.size < off + data.length then (rUnmapped, s)
  else if unserved s (streamParty s p) (e.land + off) data.length then (rOff, s)
  else serveWrite (progress s) (streamParty s p) (e.land + off) data .ok

/-- SIG follows when every byte of the transfer has been written: its LAST packet has landed, and `whole` says that every
other has (R323). -/
def landSig (s : State) (k : Nat) (e : StreamEnt) (last whole : Bool) : State :=
  let seen := last || s.lastSeen.contains k
  let others := s.lastSeen.filter (· != k)
  let s := { s with lastSeen := if seen && !whole then others ++ [k] else others }
  if seen ∧ whole ∧ e.sig ≠ 0 then send s (.signal .mgmt e.sig) else s

/-- A stream packet lands (R323): its lines are written and credited back, and SIG follows the last of them. -/
def landStream (s : State) (p : Nat) (h : PktHdr) (data : List Byte) (whole : Bool) : State :=
  let k := h.addr % 4096
  let off := h.addr / 4096 % 2 ^ 20
  let e := streamAt s k
  if e.kind = 1 then
    let r := landLines s p e off data
    let s := sendPkt r.2 p .sch tyCredit 0 0 (leBytes 4 (k + cellsOf data.length * 4096))
    if r.1 = rOK then landSig s k e (bit h.flags 0) whole else s
  else if e.kind = 2 then
    let s := sendPkt s p .sch tyCredit 0 0 (leBytes 4 (k + cellsOf data.length * 4096))
    send s (.cxData (.child (BitVec.ofNat 4 (p / 4))) (BitVec.ofNat 24 (descAt s e.desc).gid) (off / 4096) data)
  else s

/-- STREAM (R323). The packets of a transfer come by four ports: `whole` says that with this one every byte of its transfer
has been written, which the manual does not say how the receiver tells (log entry 136). -/
def execStream (port : BitVec 6) (hdr : PktHdr) (data : List Byte) (whole : Bool) (s : State) : Out :=
  done s <|
    let p := port.toNat
    if hdr.type ≠ tyStream then
      if ¬ portUp s p then s else logReq (inc s (lkPg p) lk_MALFORMED 1) 2 0x0105 (lkPg p) (b1 p ++ b1 hdr.type ++ b2 hdr.len)
    else match arrive s p .sch hdr data with
      | some s' => landStream s' p hdr data whole
      | none => arriveState s p .sch hdr data

/-- The pairs of a STREAM_CREDIT packet: stream and cells (R307). -/
def creditPairs (data : List Byte) : List (Nat × Nat) :=
  (List.range (min 12 (data.length / 4))).map (fun i =>
    let w := leNat ((data.drop (4 * i)).take 4)
    (w % 4096, w / 4096))

/-- STREAM_CREDIT (R323): credits return to the stream's sender, and transfers that waited for them go on. -/
def execStreamCredit (port : BitVec 6) (data : List Byte) (s : State) : Out :=
  done s <|
    let got := takePkt s (fun q h d => q == port.toNat && h.type == tyCredit && d == data)
    whenHeard got port.toNat .sch fun s =>
    let s := progress s
    let ps := creditPairs data
    let s := forEach ps
      (fun c s => { s with streamUse := smPut (fun _ => 0) s.streamUse c.1 (streamUsed s c.1 - c.2) }) s
    let go := (listedTiles s).flatMap (fun t =>
      ((s.tile t).dma.filter (fun e => e.active && (parseDma e.bytes).dstSp == 4 && (parseDma e.bytes).srcSp != 0
        && ps.any (fun c => c.1 == (parseDma e.bytes).dst % 4096))).map (fun e => (t, e)))
    forEach go (fun x s => pushStream s x.1 x.2 [] .ok) s

/-- Bytes of the region that one RCV packet moves. -/
def homePart : Nat := 4032

/-- The twin reads the twin-keep region (R280, R294, R450); LPDDR5X in self-refresh answers nothing (R283). -/
def keepRead (s : State) (p off len : Nat) : State :=
  if lpSilent s (keepBase s + off) len then s
  else if rd s (lkPg p) lk_PEER_MODULE ≠ s.twin ∨ keepSize s < off + len ∨ homePart < len then sendRcv s p (.regionData off rDenied [])
  else
    let r := lpCheck s (keepBase s + off) len .ok
    sendRcv r.2 p (if r.1 then .regionData off rOK (memRead s.lp (keepBase s + off) len) else .regionData off rUe [])

/-- The twin writes the twin-keep region (R280, R294). -/
def keepWrite (s : State) (p off : Nat) (data : List Byte) : State :=
  if s.lull ∨ rd s (lkPg p) lk_PEER_MODULE ≠ s.twin ∨ rd s (lpPg 0) lp_FREEZE = 1 ∨ keepSize s < off + data.length then
    sendRcv s p (.regionAck off rDenied)
  else
    let r := lpStore s (keepBase s + off) data .ok
    sendRcv (updatePartner r.2) p (.regionAck off r.1)

/-- The next part of the twin's region is asked for, to be copied into the home region (R443). -/
def fetchHome (s : State) (off : Nat) : State :=
  let n := min homePart (rd s twPg tw_HOME_SIZE * 2 ^ 30 - off)
  if n = 0 then { s with homeFetch := none }
  else sendRcv { s with homeFetch := some off } (boltPort s s.twin 0) (.regionRead off n)

/-- A part of the twin's region arrives and goes into the home region; without data the copy ends, the model's choice (log
entry 141). -/
def landHome (s : State) (p off rsp : Nat) (data : List Byte) : State :=
  if s.homeFetch ≠ some off ∨ rd s (lkPg p) lk_PEER_MODULE ≠ s.twin then s
  else if rsp ≠ rOK ∨ data.isEmpty ∨ lpSilent s (homeBase s + off) data.length then { s with homeFetch := none }
  else fetchHome (lpStore s (homeBase s + off) data .ok).2 (off + data.length)

/-- A write got a response other than OK (R439): the TW engine stops. -/
def writeFail (s : State) : State :=
  wr (wr (raiseF { s with twRun := none } twPg tw_F_WRITE_FAIL) twPg tw_BUSY 0) twPg tw_STAGE 0

/-- The twin answers a write into its region (R293, R439). -/
def twinAck (s : State) (p off rsp : Nat) : State :=
  match s.twRun with
  | none => s
  | some r =>
    if ¬ r.wait.contains off ∨ rd s (lkPg p) lk_PEER_MODULE ≠ s.twin then s
    else if rsp = rOK then { s with twRun := some { r with wait := r.wait.erase off } }
    else writeFail s

/-- The port group of the rack wiring by which a section goes on to another bolt (R324, R445): the shorter way round the
ring, two bolts at a time where it can. -/
def rackPort (s : State) (bolt : Nat) : Nat :=
  let d := (bolt + 8 - bits (ownId s) 23 21) % 8
  if d = 1 then 32 else if d ≤ 4 then 40 else if d = 7 then 36 else 44

/-- A part of a home section travels to a module of a bolt (R445): it is relayed between modules of the same number, crosses
to the twin in its bolt, and is stored in the home region at its place. -/
def takeSection (s : State) (bolt module : BitVec 3) (off : Nat) (data : List Byte) : State :=
  if bolt.toNat ≠ bits (ownId s) 23 21 then sendRcv s (rackPort s bolt.toNat) (.homePart bolt module off data)
  else if module.toNat = s.twin then sendRcv s (boltPort s s.twin 0) (.homePart bolt module off data)
  else if module.toNat ≠ s.module ∨ rd s twPg tw_HOME_SIZE * 2 ^ 30 < off + data.length
      ∨ lpSilent s (homeBase s + off) data.length then s
  else (lpStore s (homeBase s + off) data .ok).2

/-- A message about the twin-keep region. -/
def aboutRegion : RcvMsg → Bool
  | .regionRead _ _ => true
  | .regionWrite _ _ => true
  | .regionData _ _ _ => true
  | .regionAck _ _ => true
  | _ => false

/-- RCV (R307, R321, R442, R450): a recovery packet reaches the management core; of a peer in lull mode only reads and
writes of the region are served. -/
def execRcv (port : BitVec 6) (m : RcvMsg) (s : State) : Out :=
  done s <|
    let p := port.toNat
    let s := (takePkt s (fun q h d => q == p && h.type == tyRcv && d == rcvBytes m)).2
    let st := portState s p
    if st ≠ stActive ∧ st ≠ stLull then s
    else if rd s (lkPg p) lk_CFG_FOREIGN = 1 then foreignDrop s p .rcv
    else if (portSt s p).peerLull ∧ ¬ aboutRegion m then s
    else
      let s := progress s
      match m with
      | .jobHold => if rd s gsPg gs_JOB_HOLD = 1 then s else holdJob s 0 (some p)
      | .lost q t => send s (.lost q t)
      | .regionRead off len => keepRead s p off len
      | .regionWrite off data => keepWrite s p off data
      | .regionData off rsp data => landHome s p off rsp data
      | .regionAck off rsp => twinAck s p off rsp
      | .homePart bolt module off data => takeSection s bolt module off data
      | .other data => (deliverMgmt s { stamp := BitVec.ofNat 32 (2 ^ 30 + rd s (lkPg p) lk_PEER_MODULE * 2 ^ 27), data := data } true).2

/-- MGT (R307): a management packet reaches the management core; one beyond 4,096 bytes is malformed. -/
def execMgt (port : BitVec 6) (data : List Byte) (s : State) : Out :=
  done s <|
    let p := port.toNat
    let s := (takePkt s (fun q h _ => q == p && h.type == tyMgt)).2
    if portState s p ≠ stActive ∨ lullDrop s p .mgt then s
    else if rd s (lkPg p) lk_CFG_FOREIGN = 1 then
      logReq (raiseF (inc s (lkPg p) lk_FOREIGN_DROP 1) (lkPg p) lk_F_FOREIGN) 2 0x0501 (lkPg p) (b1 p ++ b1 3)
    else if 4096 < data.length then
      logReq (inc s (lkPg p) lk_MALFORMED 1) 2 0x0105 (lkPg p) (b1 p ++ b1 tyMgt ++ b2 data.length)
    else (deliverMgmt s { stamp := BitVec.ofNat 32 (2 ^ 30 + rd s (lkPg p) lk_PEER_MODULE * 2 ^ 27), data := data } false).2

end Sys2Proof.Machine
end

