-- ==== Sys2Proof/Machine/Collective.lean ====
section
/-! DEFINITION. The collective unit (R327 to R333, R84, R440): contributions, combines, decisions, verdicts and aborts. -/

namespace Sys2Proof.Machine

/-! ### Shapes -/

/-- A grid reduction (R327). -/
def isGr (op : Nat) : Bool := op == 6 || op == 7 || op == 8

/-- Bytes of an element (R327). -/
def cxSize (op lay : Nat) : Nat := if op = 0 then 0 else if op = 3 then 4 else if isGr op then gBytes lay else 8

/-- The element that changes nothing when it is combined. -/
def cxIdent (op : Nat) : W128 := if op = 3 then 0x80008000 else 0

/-- Elements of the buffer (R330). -/
def cxElems (d : CxDesc) : Nat := if d.op = 0 then 0 else if d.op = 2 then d.words * d.members else d.words

/-- Bytes of the allocation (R330). -/
def cxBytes (d : CxDesc) : Nat := cxElems d * cxSize d.op d.lay

/-- Elements of a 4 KiB chunk. -/
def chunkElems (d : CxDesc) : Nat := if d.op = 0 then 1 else 4096 / cxSize d.op d.lay

/-- Chunks of `n` elements; an arrival without data is one chunk. -/
def chunksOf (d : CxDesc) (n : Nat) : Nat := max 1 ((n + chunkElems d - 1) / chunkElems d)

/-- Chunks of a contribution by an edge. -/
def edgeChunks (d : CxDesc) : Nat := chunksOf d (cxElems d)

/-- The first word of chunk `c` of a contribution that opens with a partial packet header of 64 bytes (R149). -/
def hdrWord (d : CxDesc) (c : Nat) : Nat := (4096 * c - 64) / cxSize d.op d.lay

/-- The first word and the count of a tile's contribution (R149); without a header all of it. -/
def localExtent (g : CxGroup) (d : CxDesc) (t : Tile) : Nat × Nat :=
  match g.hdrs.find? (fun h => h.1 == t) with
  | some h => h.2
  | none => (0, d.words)

/-- Chunks of the contribution of a local tile: one for a barrier; a grid contribution opens with its header (R329). -/
def localChunks (g : CxGroup) (d : CxDesc) (t : Tile) : Nat :=
  if d.op = 0 then 1
  else if isGr d.op then ((localExtent g d t).2 * cxSize d.op d.lay + 64 + 4095) / 4096
  else chunksOf d d.words

/-- Two elements combined (R327, R69, R77): a NaN maximum is the canonical NaN. -/
def cxCombine (op lay x y : Nat) : Nat :=
  let mx := fun (a b : Nat) => if signed 16 a < signed 16 b then b % 2 ^ 16 else a % 2 ^ 16
  let mag := fun (a : Nat) => a % 2 ^ 63
  if op = 3 then mx x y + 2 ^ 16 * mx (x / 2 ^ 16) (y / 2 ^ 16)
  else if op = 5 then
    (if 0x7FF0000000000000 < mag x ∨ 0x7FF0000000000000 < mag y then canonNaN 7 else max (mag x) (mag y))
  else if isGr op then gridAdd lay x y
  else if op = 1 then y
  else x ||| y

/-- Element `i` of a group's buffer. -/
def cxGet (g : CxGroup) (lay i : Nat) : Nat := if g.bad then gInvalid lay else (smGet (fun _ => cxIdent g.op) g.words i).toNat

/-- Set it. -/
def cxPut (g : CxGroup) (i v : Nat) : CxGroup :=
  { g with words := smPut (fun _ => cxIdent g.op) g.words i (BitVec.ofNat 128 v) }

/-- The partial packet header of a local contribution to a grid reduction (R149, R329); `none` where its reserved bits,
GROUP_ID, LAYOUT or COUNT do not stand as R149 and the descriptor have them. -/
def parseHdr (t : Tile) (d : CxDesc) (bs : List Byte) : Option CxHdr :=
  let f := fun o n => leNat ((bs.drop o).take n)
  let h : CxHdr := { tile := t, gid := f 0 3, attempt := f 3 1 % 8, lay := f 3 1 / 8, hem := f 4 2, first := f 6 2, count := f 8 2 }
  if 64 ≤ bs.length ∧ h.gid = d.gid ∧ h.lay = d.lay ∧ h.first < 4096 ∧ 1 ≤ h.count ∧ h.count ≤ 4096
      ∧ (bs.drop 0x0A).take 54 = List.replicate 54 0 then some h else none

/-- The elements that the bytes of a chunk spell. -/
def chunkVals (d : CxDesc) (data : List Byte) : List Nat :=
  if d.op = 0 then []
  else (List.range (data.length / cxSize d.op d.lay)).map (fun i =>
    leNat ((data.drop (i * cxSize d.op d.lay)).take (cxSize d.op d.lay)))

/-- A chunk's elements join the buffer from element `base` on; what comes from the parent is the result. -/
def joinChunk (g : CxGroup) (d : CxDesc) (src : CxSrc) (base : Nat) (vs : List Nat) : CxGroup :=
  (vs.zipIdx).foldl (fun g x =>
    cxPut g (base + x.2) (if src = .parent then x.1 else cxCombine g.op d.lay (cxGet g d.lay (base + x.2)) x.1)) g

/-- The bytes of the elements [a, b) of a buffer (R86). -/
def cxData (g : CxGroup) (d : CxDesc) (a b : Nat) : List Byte :=
  (List.range (b - a)).flatMap (fun i => leBytes (cxSize d.op d.lay) (cxGet g d.lay (a + i)))

/-! ### The table of open groups -/

/-- The open group of a GROUP_ID. -/
def cxFind (s : State) (gid : Nat) : Option CxGroup := s.cx.find? (fun g => g.gid == gid)

/-- Set an open group. -/
def cxSet (s : State) (g : CxGroup) : State := { s with cx := s.cx.map (fun x => if x.gid = g.gid then g else x) }

/-- A group is freed. -/
def cxFree (s : State) (gid : Nat) : State := { s with cx := s.cx.filter (fun g => g.gid != gid) }

/-- The descriptor of a GROUP_ID in the table (R328). -/
def descOf (s : State) (gid : Nat) : Option Nat :=
  (List.range (rd s cxPg cx_DESC_COUNT)).find? (fun i => (descAt s i).gid == gid)

/-- An allocation overlaps that of an open group (R330); one without bytes overlaps none. -/
def overlapsOpen (s : State) (d : CxDesc) : Bool :=
  s.cx.any (fun g =>
    let e := g.d
    decide (0 < cxBytes d) && decide (0 < cxBytes e) && decide (d.bufOff < e.bufOff + cxBytes e) && decide (e.bufOff < d.bufOff + cxBytes d))

/-- The party of the chip's CXU and of streams that land, on the NoC port of a spool (R271). -/
def cxParty (s : State) : Party := .tile (BitVec.ofNat 3 s.module) 0

/-- The CXU reads module memory through the NoC (R271): the bytes, or `none` where the access is refused (R274, R277,
R280, R294), and what the read finds; after fail-safe nothing answers (R283). -/
def cxRead (s : State) (a n : Nat) : Option (List Byte) × State :=
  if unserved s (cxParty s) a n then (none, s)
  else
    let r := serveRead s (cxParty s) a n .ok
    (if r.1 = rOK then some r.2.1 else none, r.2.2)

/-- The tiles on the LIST of a descriptor (R328); none where the list cannot be read, the model's choice (log entry 134). That LIST 0
stands for no list in every operation, though module address 0 exists, is the model's choice too (log entry 65). -/
def readTiles (s : State) (d : CxDesc) : List Tile × State :=
  if d.list = 0 then ([], s)
  else
    let r := cxRead s d.list 130
    (match r.1 with | some bs => parseList s bs | none => [], r.2)

/-- A collective opens at its first arrival, or is refused and aborted (R330, R338): its descriptor and its LIST are read
then. Where the descriptor cannot be read nothing opens, the model's choice (log entry 134). The cause that the record of
a bad descriptor carries is not stated: a free value. -/
def cxOpen (s : State) (gid hem : Nat) : State :=
  match descOf s gid with
  | none => s
  | some i =>
    let r := cxRead s (descBase s + 64 * i) 64
    match r.1 with
    | none => r.2
    | some bs =>
      let d := { parseDesc bs with gid := gid }
      let q := readTiles r.2 d
      let s := q.2
      if d.bad then abortDesc (raiseF (freshFree s).2 cxPg cx_F_DESC_BAD) d q.1 hem 0 ((freshFree s).1.toNat % 256) none
      else if overlapsOpen s d then abortDesc (raiseF s cxPg cx_F_BUF_OVER) d q.1 hem 0 2 none
      else { s with cx := s.cx ++ [{ gid := gid, bytes := bs, tiles := q.1, op := d.op, attempt := 0,
                                     hem := if isGr d.op then some hem else none, words := [], got := [], hdrs := [],
                                     verdicts := [], bad := false, up := false, dec := false }] }

/-! ### Readiness -/

/-- Every chunk of a source has arrived. -/
def srcDone (g : CxGroup) (src : CxSrc) (n : Nat) : Bool := (List.range n).all (fun c => g.got.contains (src, c))

/-- The tiles that have contributed. -/
def localSrcs (g : CxGroup) : List CxSrc :=
  (g.got.filterMap (fun x => match x.1 with | .localTile t => some (CxSrc.localTile t) | _ => none)).dedup

/-- The own part of a collective is complete (R329). The barrier of R440 has no tiles on its LIST: the module itself
enters it when it has committed. -/
def localDone (s : State) (g : CxGroup) (d : CxDesc) : Bool :=
  if d.op = 0 ∧ d.list = 0 then s.barrier.isSome
  else decide (d.localParts ≤ ((localSrcs g).filter (fun x => match x with
      | .localTile t => srcDone g x (localChunks g d t)
      | _ => false)).length)

/-- The combined contribution of every child edge is complete; a broadcast has none. -/
def childrenDone (g : CxGroup) (d : CxDesc) : Bool :=
  d.op == 1 || d.children.all (fun c => srcDone g (.child (BitVec.ofNat 4 c)) (edgeChunks d))

/-! ### Sending and landing -/

/-- The ADDR of a CX_DATA packet (R307). The table of R307 has no place for the HEM by which R332 refuses a contribution:
that it stands in [63:48] is the model's choice (log entry 131). -/
def cxAddr (gid attempt c hem : Nat) : Nat := gid + attempt % 8 * 2 ^ 24 + c % 2 ^ 16 * 2 ^ 32 + hem % 2 ^ 16 * 2 ^ 48

/-- A chunk leaves by a port group (R307, R323). -/
def sendChunk (s : State) (g : CxGroup) (d : CxDesc) (grp c n : Nat) : State :=
  let a := c * chunkElems d
  let b := min (cxElems d) (a + chunkElems d)
  sendPkt s (4 * grp + c % 4) .sch tyCxData (b2n (c + 1 == n)) (cxAddr g.gid g.attempt c (g.hem.getD 0)) (cxData g d a b)

/-- Every chunk leaves by a port group. -/
def sendAll (s : State) (g : CxGroup) (d : CxDesc) (grp : Nat) : State :=
  forEach (List.range (edgeChunks d)) (fun c s => sendChunk s g d grp c (edgeChunks d)) s

/-- SIG_CTR is signalled by 1 on every listed tile (R327, R328). -/
def signalList (s : State) (g : CxGroup) (d : CxDesc) : State :=
  forEach g.tiles
    (fun t s => send s (.signal .cxu (BitVec.ofNat 64 (d.sigCtr + t.toNat * 2 ^ 16 + s.module * 2 ^ 28 + 2 ^ 32)))) s

/-- Segment `r` of a ring holds these chunks (R329): the whole chunks of the buffer, shared out evenly in order. -/
def segChunks (d : CxDesc) (r : Nat) : List Nat :=
  (List.range (edgeChunks d)).filter (fun c => c * d.members / edgeChunks d == r)

/-- The bytes of the result that this member holds (R327, R331 step 5): a grid result is followed by its HEM. -/
def resultBytes (g : CxGroup) (d : CxDesc) : List Byte :=
  let ws := if g.op = 8 then (segChunks d d.rank).flatMap (fun c =>
      cxData g d (c * chunkElems d) (min (cxElems d) ((c + 1) * chunkElems d)))
    else cxData g d 0 (cxElems d)
  if isGr g.op then ws ++ b2 (g.hem.getD 0) else ws

/-- A forced in-field test has begun and is not over (R432). -/
def forcedOpen (s : State) : Bool :=
  rd s itPg it_ENABLE == 1 && s.it.any (fun x => x.2.begun && (s.ltile x.1).isSome)

/-- A result holder writes its words at RESULT and signals (R331 step 5); where the write gets a response other than OK
nothing is signalled, the model's choice (log entry 135); after fail-safe nothing takes it (R283). The barrier of R440 makes the step the job
commit and releases the tiles (R378 step 6), once no forced test delays them (R432). -/
def landResult (s : State) (g : CxGroup) (d : CxDesc) : State :=
  let s := progress s
  if d.op = 0 ∧ d.list = 0 then
    match s.barrier with
    | some k =>
      let open_ := forcedOpen s
      updatePartner { s with jobCommit := k, barrier := none, releaseDue := open_,
                             stepClosed := if open_ then s.stepClosed else none }
    | none => s
  else if d.op = 0 then signalList s g d
  else
    let bs := resultBytes g d
    if unserved s (cxParty s) d.result bs.length then s
    else
      let r := serveWrite s (cxParty s) d.result bs .ok
      if r.1 = rOK then signalList r.2 g d else r.2

/-- A member holds the result of an operation when it is DONE. -/
def holdsResult (d : CxDesc) : Bool := d.op != 6 || d.root

/-- CX_CTRL goes down the tree (R331 step 3). -/
def ctrlDown (s : State) (d : CxDesc) (attempt kind hem : Nat) : State :=
  forEach d.children (fun c s => cxCtrlPkt s (4 * c) d.gid attempt kind hem) s

/-- Every buffer is zeroed and awaits the next attempt (R331 step 6). An invalid word is zeroed with the others, and a group
that a hem mismatch made invalid (R70) starts valid again: R65 keeps an invalid element invalid through a raise, R72, R107
and R331 zero every word, and that the zeroing prevails is the model's choice (log entry 158). -/
def nextAttempt (g : CxGroup) (attempt hem : Nat) : CxGroup :=
  { g with attempt := attempt, hem := some hem, words := [], got := [], hdrs := [], verdicts := [], bad := false, up := false,
           dec := false }

/-- A decided DONE is whole: the result holder lands it and the group is freed. -/
def finishDone (s : State) (g : CxGroup) (d : CxDesc) : State :=
  cxFree (if holdsResult d then landResult s g d else s) g.gid

/-! ### Decisions -/

/-- The totals of the elements that this module holds overflow (R71, R82). -/
def cxOver (g : CxGroup) (d : CxDesc) : Bool := !g.bad && g.words.any (fun c => gridOver d.lay c.2.toNat)

/-- The root decides (R331 step 3, R72, R73). -/
def cxDecide (s : State) (g : CxGroup) (d : CxDesc) (ovf : Bool) : State :=
  let hem := g.hem.getD 0
  let r := gridDecide ovf hem g.attempt
  let s := inc s cxPg cx_DEC_SENT 1
  let s := ctrlDown s d g.attempt (decCode r.1) r.2.1
  let s := sendDecision s g.tiles g.gid r.1 r.2.1 g.attempt
  match r.1 with
  | .done =>
    let s := if g.op = 7 then forEach d.children (fun c s => sendAll s g d c) s else s
    finishDone s g d
  | .raise =>
    let s := logReq (inc s cxPg cx_RAISES 1) 1 0x0401 cxPg (leBytes 3 g.gid ++ b2 hem ++ b1 r.2.2)
    cxSet s (nextAttempt g r.2.2 r.2.1)
  | .exhausted => cxFree (logReq s 3 0x0402 cxPg (leBytes 3 g.gid ++ b2 hem)) g.gid

/-- The root of another operation holds its result: it lands here and goes down the tree. -/
def rootResult (s : State) (g : CxGroup) (d : CxDesc) : State :=
  let s := if d.op = 0 then ctrlDown s d 0 1 0 else forEach d.children (fun c s => sendAll s g d c) s
  cxFree (landResult s g d) g.gid

/-- Under TREE (R329): a combined contribution goes up, or the root has the total. -/
def advanceTree (s : State) (g : CxGroup) (d : CxDesc) : State :=
  if g.up ∨ ¬ localDone s g d ∨ ¬ childrenDone g d then s
  else if d.root then
    (if isGr g.op then cxDecide s g d (cxOver g d) else rootResult s g d)
  else if d.op = 1 then s
  else
    let s := cxSet s { g with up := true }
    match d.parent with
    | some p => sendAll s g d p
    | none => s

/-- Every chunk of a tile's contribution with words in chunk `c` of the buffer has arrived. -/
def tileCovers (g : CxGroup) (d : CxDesc) (t : Tile) (c : Nat) : Bool :=
  let e := localExtent g d t
  (List.range (localChunks g d t)).all (fun k =>
    g.got.contains (.localTile t, k)
      || decide (min (e.1 + e.2) (e.1 + hdrWord d (k + 1)) ≤ c * chunkElems d)
      || decide ((c + 1) * chunkElems d ≤ e.1 + hdrWord d k))

/-- The own part of a chunk of the buffer has arrived from every local contributor. -/
def localChunkDone (g : CxGroup) (d : CxDesc) (c : Nat) : Bool :=
  decide (d.localParts ≤ ((localSrcs g).filter (fun x => match x with
    | .localTile t => tileCovers g d t c
    | _ => false)).length)

/-- A chunk of the ring's buffer is complete at this member (R329): the member after the segment's holder starts it. -/
def ringReady (g : CxGroup) (d : CxDesc) (c : Nat) : Bool :=
  localChunkDone g d c
    && (d.members == 1 || d.rank == (c * d.members / edgeChunks d + 1) % d.members || g.got.contains (.ring, c))

/-- Every verdict that goes up from here is in (R331 step 2). -/
def verdictsIn (g : CxGroup) (d : CxDesc) : Bool :=
  d.children.all (fun c => g.verdicts.any (fun v => v.1 == .child (BitVec.ofNat 4 c)))

/-- The totals of the own segment. -/
def segOver (g : CxGroup) (d : CxDesc) : Bool :=
  !g.bad && (segChunks d d.rank).any (fun c =>
    (List.range (chunkElems d)).any (fun i => gridOver d.lay (cxGet g d.lay (c * chunkElems d + i))))

/-- The verdict of a segment holder and those of its children go up, or the root decides (R331). -/
def advanceVerdict (s : State) (g : CxGroup) (d : CxDesc) : State :=
  if g.up ∨ ¬ (segChunks d d.rank).all (ringReady g d) ∨ ¬ verdictsIn g d then s
  else
    let ovf := segOver g d || g.verdicts.any (·.2)
    if d.root then cxDecide s { g with up := true } d ovf
    else
      let s := cxSet s { g with up := true }
      match d.parent with
      | some p => sendPkt s (4 * p) .sch tyCxCtrl 0
          (g.gid + g.attempt % 8 * 2 ^ 24 + 4 * 2 ^ 28 + g.hem.getD 0 * 2 ^ 32) (b1 (b2n ovf))
      | none => s

/-- Under RING (R329): the chunks that an arrival completed here (`old` is the group before it) and that belong to another
holder move on. -/
def advanceRing (s : State) (old g : CxGroup) (d : CxDesc) : State :=
  let go := (List.range (edgeChunks d)).filter (fun c =>
    !ringReady old d c && ringReady g d c && c * d.members / edgeChunks d != d.rank)
  let s := match d.nextG with
    | some n => forEach go (fun c s => sendChunk s g d n c (edgeChunks d)) s
    | none => s
  advanceVerdict s g d

/-- Results come down from the parent (R327): when they are whole they land here and go on down. -/
def advanceDown (s : State) (g : CxGroup) (d : CxDesc) : State :=
  if ¬ srcDone g .parent (edgeChunks d) then s
  else if isGr g.op ∧ ¬ g.dec then s
  else
    let s := forEach d.children (fun c s => sendAll s g d c) s
    finishDone s g d

/-! ### Contributions -/

/-- A source that the descriptor expects contributions from. -/
def srcKnown (d : CxDesc) (src : CxSrc) : Bool :=
  match src with
  | .localTile _ => true
  | .child g => d.children.contains g.toNat
  | .parent => d.parent.isSome
  | .ring => d.prevG.isSome

/-- The first element of a chunk in the buffer: a local contribution to a concatenation starts at its rank's place, one to
a grid reduction at the FIRST of its header (R149). -/
def chunkBase (g : CxGroup) (d : CxDesc) (src : CxSrc) (c : Nat) : Nat :=
  match src with
  | .localTile t =>
    if isGr d.op then (localExtent g d t).1 + hdrWord d c
    else (if d.op = 2 then d.rank * d.words else 0) + c * chunkElems d
  | _ => c * chunkElems d

/-- The element at which the contribution of a source ends. -/
def srcEnd (g : CxGroup) (d : CxDesc) (src : CxSrc) : Nat :=
  match src with
  | .localTile t =>
    if isGr d.op then (localExtent g d t).1 + (localExtent g d t).2
    else if d.op = 2 then (d.rank + 1) * d.words else d.words
  | _ => cxElems d

/-- A contribution falls outside the allocation (R338); the arrival at a barrier has no elements. A transfer moves whole
lines (R183), so that a local contribution may end in bytes of its last line that belong to no element. -/
def outside (g : CxGroup) (d : CxDesc) (src : CxSrc) (c : Nat) (data : List Byte) : Bool :=
  let room := (srcEnd g d src - chunkBase g d src c) * cxSize d.op d.lay
  match src with
  | .localTile _ =>
    d.op != 0 && (decide ((room + 63) / 64 * 64 < data.length) || decide (4096 < data.length)
      || (isGr d.op && decide (d.words < srcEnd g d src)))
  | _ => d.op != 0 && (decide (room < data.length) || decide (4096 < data.length))

/-- A residue mismatch in a grid combine (R88, R338): fail-safe. -/
def cxResidue (s : State) (gid op : Nat) : State :=
  let s := cxLast (raiseF s cxPg cx_F_RESIDUE) gid op
  driveFailSafe (logReq s 4 0x0207 cxPg (leBytes 3 gid)) true

/-- A chunk that passed every check is combined, and what it completes follows. -/
def addChunk (s : State) (g : CxGroup) (d : CxDesc) (src : CxSrc) (c : Nat) (vs : List Nat) (u : Option Upset) : State :=
  let vs := if isGr g.op then (vs.zipIdx).map (fun x => disturb d.lay u x.2 x.1) else vs
  let vs := vs.take (srcEnd g d src - chunkBase g d src c)
  let old := g
  let g := { joinChunk g d src (chunkBase g d src c) vs with got := g.got ++ [(src, c)] }
  let s := progress (cxSet s g)
  if src = .parent then advanceDown s g d
  else if g.op = 8 then advanceRing s old g d
  else advanceTree s g d

/-- A contribution of another hem (R70): the group becomes invalid. Its chunk does not count as arrived, so that an invalid
group never completes of itself: what R332's bitmap shows then is not stated, and this is the model's choice (log entry
132). -/
def hemMismatch (s : State) (g : CxGroup) (hem : Nat) : State :=
  let s := cxLast (raiseF (cxSet s { g with bad := true }) cxPg cx_F_HEM_MISMATCH) g.gid g.op
  logReq s 3 0x0403 cxPg (leBytes 3 g.gid ++ b2 (g.hem.getD 0) ++ b2 hem)

/-- What an open group does with a contribution (R332): stale, duplicate, outside, of another hem, or combined. A
contribution of a later attempt shows that the group was raised, before the decision itself has come down. `ext` is the
first word and the count of a contribution that opens with a header. -/
def contribute (s : State) (g : CxGroup) (src : CxSrc) (attempt c hem : Nat) (ext : Option (Tile × Nat × Nat))
    (data : List Byte) (u : Option Upset) : State :=
  let d := g.d
  if attempt < g.attempt then inc s cxPg cx_STALE 1
  else
    let g := if g.attempt < attempt then nextAttempt g attempt hem else g
    let g := match ext with
      | some x => if g.hdrs.any (fun h => h.1 == x.1) then g else { g with hdrs := g.hdrs ++ [x] }
      | none => g
    let s := cxSet s g
    if ¬ srcKnown d src then s
    else if g.got.contains (src, c) then cxLast (raiseF (inc s cxPg cx_DUP 1) cxPg cx_F_DUP) g.gid g.op
    else if outside g d src c data then cxLast (raiseF s cxPg cx_F_BUF_OVER) g.gid g.op
    else if isGr g.op ∧ g.hem ≠ some hem then hemMismatch s g hem
    else if isGr g.op ∧ upsetCaught u (chunkVals d data).length then cxResidue s g.gid g.op
    else addChunk s g d src c (chunkVals d data) u

/-- A contribution reaches the CXU: an arrival at a collective that is not open opens it (R330). A decision follows the last
expected partial (R84), and no chunk arrives twice (R313, R332), so no chunk of a group that DONE has freed is late: one of
attempt 0 begins the group's next collective. One of a later attempt belongs to no open group: that it counts as stale is
the model's choice (log entry 133). -/
def arrival (s : State) (src : CxSrc) (gid attempt c hem : Nat) (ext : Option (Tile × Nat × Nat)) (data : List Byte)
    (u : Option Upset) : State :=
  let s := if (cxFind s gid).isNone ∧ attempt = 0 then cxOpen s gid hem else s
  match cxFind s gid with
  | some g => contribute s g src attempt c hem ext data u
  | none => if attempt = 0 then s else inc s cxPg cx_STALE 1

/-- A local contribution to a grid reduction (R149, R329): its first chunk opens with the header, which the CXU keeps for
the chunks that follow. A header that R149 does not allow falls outside the allocation of every group: BUF_OVER, the
model's choice (log entry 132). -/
def localGr (s : State) (t : Tile) (d : CxDesc) (c : Nat) (data : List Byte) (u : Option Upset) : State :=
  if c = 0 then
    match parseHdr t d data with
    | none => cxLast (raiseF s cxPg cx_F_BUF_OVER) d.gid d.op
    | some h =>
      let s := { s with cxHdrs := s.cxHdrs.filter (fun x => !(x.tile == t && x.gid == d.gid)) ++ [h] }
      arrival s (.localTile t) d.gid h.attempt 0 h.hem (some (t, h.first, h.count)) (data.drop 64) u
  else
    match s.cxHdrs.find? (fun x => x.tile == t && x.gid == d.gid) with
    | some h => arrival s (.localTile t) d.gid h.attempt c h.hem (some (t, h.first, h.count)) data u
    | none => s

/-- The descriptor of a GROUP_ID: of its open group, else in the table. -/
def gidDesc (s : State) (gid : Nat) : Option CxDesc :=
  match cxFind s gid with
  | some g => some g.d
  | none => (descOf s gid).map (fun i => { descAt s i with gid := gid })

/-- The port group of an edge that a packet comes by. -/
def srcGroup (d : CxDesc) : CxSrc → Option Nat
  | .parent => d.parent
  | .child g => some g.toNat
  | .ring => d.prevG
  | .localTile _ => none

/-- The port group that a packet from a source comes by: a child names it, and the descriptor that of the other edges. -/
def srcPorts (s : State) (gid : Nat) (src : CxSrc) : Option Nat :=
  match src with
  | .child g => some g.toNat
  | _ => (gidDesc s gid).bind (fun d => srcGroup d src)

/-- The lowest port of a group that carries sequenced cells, else its lowest. -/
def groupPort (s : State) (g : Nat) : Nat := ((List.range 4).map (4 * g + ·)).find? (portUp s) |>.getD (4 * g)

/-- What a collective packet does, unless its port is FOREIGN (R25) or carries none (R320); a packet delivered to the CXU is
progress (R263). `got` is the port by which a packet in flight was received. A packet that is not in flight from a parent
or a ring whose descriptor the table does not hold names no port. -/
def edgeIn (got : Option Nat × State) (gid : Nat) (src : CxSrc) (k : State → State) : State :=
  let s := got.2
  match src, got.1, srcPorts s gid src with
  | .localTile _, _, _ => k (progress s)
  | _, some p, _ => unlessForeign s p .sch (k (progress s))
  | _, none, some g => if portUp s (groupPort s g) then unlessForeign s (groupPort s g) .sch (k (progress s)) else s
  | _, none, none => k (progress s)

/-- CX_DATA (R329 to R332). A local contribution to a grid reduction carries its ATTEMPT and HEM in its header; a chunk of
one whose first chunk has not arrived waits, the model's choice (log entry 132). -/
def execCxData (src : CxSrc) (gid : BitVec 24) (attempt : BitVec 3) (chunk : Nat) (hem : BitVec 16) (data : List Byte)
    (_last : Bool) (upset : Option Upset) (s : State) : Out :=
  done s <|
    let s0 := s
    let s := dropMsg s (fun m => m == .cxData src gid chunk data)
    let got := takePort s (fun _ h d => h.type == tyCxData && d == data
      && h.addr == cxAddr gid.toNat attempt.toNat chunk hem.toNat)
    edgeIn got gid.toNat src fun s =>
    if rd s cxPg cx_ENABLE = 0 then s
    else match src, gidDesc s gid.toNat with
      | .localTile t, some d =>
        if ¬ isGr d.op then arrival s src gid.toNat attempt.toNat chunk hem.toNat none data upset
        else if chunk ≠ 0 ∧ s.cxHdrs.any (fun x => x.tile == t && x.gid == d.gid) = false then s0
        else localGr s t d chunk data upset
      | _, _ => arrival s src gid.toNat attempt.toNat chunk hem.toNat none data upset

/-- The module enters the barrier of the job (R440): the first BARRIER descriptor without tiles. A CXU that does not run
(R339) enters none. -/
def enterBarrier (s : State) : State :=
  match (List.range (rd s cxPg cx_DESC_COUNT)).find? (fun i =>
    rd s cxPg cx_ENABLE == 1 && (descAt s i).op == 0 && (descAt s i).list == 0) with
  | none => s
  | some i =>
    let gid := (descAt s i).gid
    let s := if (cxFind s gid).isNone then cxOpen s gid 0 else s
    match cxFind s gid with
    | some g => advanceTree s g g.d
    | none => s

/-- An open group of a CXU that runs (R339). -/
def running (s : State) (gid : Nat) : Option CxGroup := if rd s cxPg cx_ENABLE = 1 then cxFind s gid else none

/-- CX_CTRL (R331): a decision comes down the tree, is delivered, forwarded and applied. -/
def execCxCtrl (src : CxSrc) (gid : BitVec 24) (kind : DecKind) (hem : BitVec 16) (attempt : BitVec 3) (s : State) : Out :=
  done s <|
    let got := takePort s (fun _ h _ => h.type == tyCxCtrl
      && h.addr == gid.toNat + attempt.toNat * 2 ^ 24 + decCode kind * 2 ^ 28 + hem.toNat * 2 ^ 32)
    edgeIn got gid.toNat src fun s =>
    match running s gid.toNat with
    | none => s
    | some g =>
      let d := g.d
      if src ≠ .parent then s
      else if d.op = 0 then finishDone (ctrlDown s d 0 1 0) g d
      else
        let s := ctrlDown s d attempt.toNat (decCode kind) hem.toNat
        let s := sendDecision s g.tiles g.gid kind hem.toNat attempt.toNat
        match kind with
        | .done =>
          if g.op = 7 then advanceDown (cxSet s { g with dec := true }) { g with dec := true } d
          else finishDone s g d
        | .raise =>
          if g.attempt = attempt.toNat then cxSet s (nextAttempt g (attempt.toNat + 1) hem.toNat) else s
        | .exhausted => cxFree s g.gid

/-- VERDICT (R331 step 2): ORed toward the root. -/
def execVerdict (src : CxSrc) (gid : BitVec 24) (attempt : BitVec 3) (overflow : Bool) (s : State) : Out :=
  done s <|
    let got := takePort s (fun _ h d => h.type == tyCxCtrl && d == b1 (b2n overflow)
      && h.addr % 2 ^ 32 == gid.toNat + attempt.toNat * 2 ^ 24 + 4 * 2 ^ 28)
    edgeIn got gid.toNat src fun s =>
    match running s gid.toNat with
    | none => s
    | some g =>
      let d := g.d
      if attempt.toNat < g.attempt then inc s cxPg cx_STALE 1
      else if g.attempt ≠ attempt.toNat ∨ g.op ≠ 8 ∨ ¬ srcKnown d src ∨ g.verdicts.any (fun v => v.1 == src) then s
      else
        let g := { g with verdicts := g.verdicts ++ [(src, overflow)] }
        advanceVerdict (cxSet s g) g d

/-- ABORT (R333): the group is freed, its tiles get an exhausted decision, and the ABORT goes on to the other edges. The
cause that the record carries does not travel with it: a free value. -/
def execAbort (src : CxSrc) (gid : BitVec 24) (s : State) : Out :=
  done s <|
    let got := takePort s (fun _ h _ => h.type == tyCxCtrl && h.addr % 2 ^ 24 == gid.toNat && bits h.addr 31 28 == 6)
    edgeIn got gid.toNat src fun s =>
    match running s gid.toNat with
    | none => s
    | some g => abortGroup (freshFree s).2 g ((freshFree s).1.toNat % 3) (some src)

end Sys2Proof.Machine
end

