-- ==== Sys2Proof/Machine/Time.lean ====
section
/-! DEFINITION. Hall time and clocks (R340 to R367): announcements, echo paths and asymmetry, the servo, the IEEE 1588
fallback, TIME_1PPS, the stitch origin, and the loss of clocks. -/

namespace Sys2Proof.Machine

/-! ### Announcements -/

/-- The state without the TIME packet of a kind with these data that has arrived on a port (R353). -/
def takeTime (s : State) (p kind : Nat) (data : List Byte) : State :=
  (takePkt s (fun q h d => q == p && h.type == tyTime && h.addr % 16 == kind && d == data)).2

/-- The offer that the data of an ANNOUNCE packet spell (R353). -/
def announceOf (b : List Byte) : Announce :=
  { rootId := fieldAt b 0 4, priority := fieldAt b 4 1, hops := fieldAt b 5 1, tstate := fieldAt b 6 1, now := fieldAt b 8 8 }

/-- ANNOUNCE (R350, R353). -/
def execAnnounce (port : BitVec 6) (data : List Byte) (s : State) : Out :=
  done s <|
    let p := port.toNat
    let s := takeTime s p 1 data
    if portUp s p then reparent { s with offers := smPut (fun _ => none) s.offers p (some (announceOf data)) } else s

/-- PRIORITY of the root that the module follows. -/
def rootPriority (s : State) : Nat :=
  if rd s tmPg tm_PARENT_VALID = 1 then
    match smGet (fun _ => none) s.offers (rd s tmPg tm_PARENT_PORT) with
    | some a => a.priority
    | none => rd s tmPg tm_PRIORITY
  else rd s tmPg tm_PRIORITY

/-- Hall time in whole nanoseconds at the departure of the port's current frame (R353): before the port has sent a frame,
that of the command. -/
def frameNs (s : State) (p : Nat) : Nat :=
  match (portSt s p).txStamps.getLast? with
  | some x => x.2 / 2 ^ 16 % 2 ^ 64
  | none => hallNs s

/-- The data of an ANNOUNCE packet by a port (R353). -/
def announceData (s : State) (p : Nat) : List Byte :=
  b4 (rd s tmPg tm_ROOT_ID) ++ b1 (rootPriority s) ++ b1 (rd s tmPg tm_HOPS) ++ b1 (rd s tmPg tm_TSTATE) ++ b1 0
    ++ leBytes 8 (frameNs s p)

/-- ANNOUNCE_SEND (R350): on every ACTIVE or LULL port. -/
def execAnnounceSend (s : State) : Out :=
  done s <|
    let s := reparent s
    forEach ((List.range 64).filter (portUp s)) (fun p s => sendPkt s p .tim tyTime 0 1 (announceData s p)) s

/-! ### Echo paths and asymmetry -/

/-- ECHO_REQ (R346, R353): the echo path of a wavelength is enabled, for at most 500 µs, or ended, and acknowledged. -/
def execEchoReq (port : BitVec 6) (data : List Byte) (s : State) : Out :=
  done s <|
    let p := port.toNat
    let w := fieldAt data 0 1
    let enable := fieldAt data 1 1
    let us := fieldAt data 2 2
    let s := takeTime s p 2 data
    if ¬ portUp s p ∨ 8 < w then s
    else
      let others := (portSt s p).echo.filter (fun x => x.1 != w)
      sendPkt (setPort s p { portSt s p with echo := if enable = 1 then others ++ [(w, min us 500)] else others }) p .tim tyTime 0 3 (b1 w ++ b1 enable)

/-- ECHO_ACK (R353): the peer's echo path is set; the measurement follows. -/
def execEchoAck (port : BitVec 6) (data : List Byte) (s : State) : Out := done s <| takeTime s port.toNat 3 data

/-- ECHO_PATH_CLOSE (R353): the enable time of a wavelength's echo path has passed. -/
def execEchoPathClose (port : BitVec 6) (w : BitVec 4) (s : State) : Out :=
  done s <|
    let p := port.toNat
    setPort s p { portSt s p with echo := (portSt s p).echo.filter (fun x => x.1 != w.toNat) }

/-- The sum of the delays of pulses from their stamps of departure and return, in units of 2^-16 ns (R346). -/
def echoSum (l : List (Nat × Nat)) : Int := l.foldl (fun a x => a + ((x.2 : Int) - x.1)) 0

/-- The pulses of one measurement (R346). -/
def echoPulses : Nat := 4096

/-- A quotient rounded to the nearest, halves to even. -/
def divEven (a : Int) (b : Nat) : Int :=
  let q := a / b
  let r := 2 * (a % b)
  if r < b ∨ (r = b ∧ q % 2 = 0) then q else q + 1

/-- Δ of a port from the pulses of its own and its peer's transmit fibre, in ps (R346): half the difference of the means,
halves to even as R344 rounds; a difference that 16 bits do not hold leaves a free value. -/
def asymOf (s : State) (own peer : List (Nat × Nat)) : Nat × State :=
  let d := divEven ((echoSum own - echoSum peer) * 1000) (2 * echoPulses * 2 ^ 16)
  if -32768 ≤ d ∧ d ≤ 32767 then (encInt 16 d, s) else ((freshFree s).1.toNat % 2 ^ 16, (freshFree s).2)

/-- Two results for one fibre are more than 20 ps apart (R347). -/
def echoApart (a b : List (Nat × Nat)) : Bool :=
  decide (20 * (echoPulses * 2 ^ 16) < ((echoSum a - echoSum b) * 1000).natAbs)

/-- ECHO_MEASUREMENT (R346, R347): the request to the peer, and the asymmetry that the delays of 4,096 pulses give; two
results for one fibre more than 20 ps apart clear VALID. R353 lets a request ask for at most 500 µs: that the port's own
always asks for 500 is the model's choice (log entry 169). -/
def execEchoMeasurement (port : BitVec 6) (own1 own2 peer : List (Nat × Nat)) (s : State) : Out :=
  done s <|
    let p := port.toNat
    let w := rd s (lkPg p) lk_STATUS_ROT
    if ¬ portUp s p ∨ wlBad s p w then s
    else
      let s := sendPkt s p .tim tyTime 0 2 (b1 w ++ b1 1 ++ b2 500)
      if ¬ [own1, own2, peer].all (fun l => l.length == echoPulses) then s
      else if echoApart own1 own2 then reparent (raiseF (wri s tmPg tm_VALID p 0) tmPg tm_F_ASYM_FAIL)
      else
        let r := asymOf s own2 peer
        reparent (wri (wri r.2 tmPg tm_VALID p 1) tmPg tm_ASYM p r.1)

/-- ASYM_EXPIRY (R348). -/
def execAsymExpiry (port : BitVec 6) (s : State) : Out :=
  done s <|
    let p := port.toNat
    if rdi s tmPg tm_VALID p = 1 ∧ wlBad s p (rd s (lkPg p) lk_STATUS_ROT) then
      reparent (raiseF (wri s tmPg tm_VALID p 0) tmPg tm_F_ASYM_FAIL)
    else s

/-! ### The servo -/

/-- The nominal RATE, 8/9 ns in units of 2^-48 ns, and ±100 ppm of it (R340). -/
def rateNominal : Nat := 0xE38E38E38E39
def rateSpan : Nat := rateNominal / 10000

/-- The bound of a slew, 0.1 ppm (R345). -/
def slewSpan : Nat := rateNominal / 10000000

/-- RATE without the filtered frequency error, in 10^-12 (R345); which way a fraction is rounded is a free value. -/
def rateFixed (rate : Nat) (freq : Int) : Int :=
  let e := (rate : Int) * freq
  rate - e / 1000000000000 - (if e % 1000000000000 = 0 then 0 else if Config.servoUp rate freq then 0 else 1)

/-- The part of RATE that slews a filtered offset out, against its sign and by no more than 0.1 ppm (R345). -/
def slew (offset : Int) : Int :=
  let n := min (Config.servoSlew offset) slewSpan
  if 0 < offset then -(n : Int) else if offset < 0 then n else 0

/-- RATE after a filter period, within ±100 ppm of nominal (R340, R345). -/
def servoNext (s : State) (offset freq : Int) : Nat :=
  clampN (rateNominal - rateSpan) (rateNominal + rateSpan) (rateFixed s.rate freq + slew offset).toNat

/-- TM_FREQ (R365): the rate correction in 10^-12 of nominal. That it is rounded down is the model's choice (log entry 163). -/
def freqReg (rate : Nat) : Nat := encInt 32 (((rate : Int) - rateNominal) * 1000000000000 / rateNominal)

/-- An offset in units of 2^-16 ns lies within `ps` picoseconds. -/
def within (offset : Int) (ps : Nat) : Bool := decide (offset.natAbs * 1000 ≤ ps * 65536)

/-- Hall time moved back by an offset in units of 2^-16 ns, by one step (R345). -/
def stepTime (s : State) (offset : Int) : State :=
  { s with hallTime := (((s.hallTime : Int) - offset * 2 ^ 32) % 2 ^ 112).toNat }

/-- A filtered offset is removed by one step (R345). -/
def steps (s : State) (offset : Int) : Bool := !within offset 1000000 && !programRuns s

/-- The servo acts (R345): it slews the offset out, or outside a running program removes a large one by one step. -/
def servo (s : State) (offset freq : Int) : State :=
  let s := wr s tmPg tm_OFFSET (encInt 32 offset)
  let jump := steps s offset
  let s := if jump then stepTime s offset else s
  let r := servoNext s (if jump then 0 else offset) freq
  wr { s with rate := r } tmPg tm_FREQ (freqReg r)

/-- The source of time is good enough for LOCKED (R352). -/
def sourceLocked (s : State) : Bool :=
  if rd s tmPg tm_ACTIVE_ROOT = 1 then s.ppsSeen
  else rd s tmPg tm_PARENT_VALID == 1 &&
    (match smGet (fun _ => none) s.offers (rd s tmPg tm_PARENT_PORT) with
      | some a => a.tstate == tsLocked
      | none => false)

/-- The time states at the end of a filter period (R351, R352, R355). -/
def timeState (s : State) (offset freq : Int) : State :=
  let near := if s.ptpSlave then within offset 20000 else within offset 4
  let s := { s with lockRun := if near then s.lockRun + 1 else 0 }
  let ts := rd s tmPg tm_TSTATE
  if ts = tsLocked ∧ ¬ within offset 5 then wr (dropLock s 0) tmPg tm_TSTATE tsAcquire
  else if ts = tsAcquire ∧ 16 ≤ s.lockRun then
    (if s.ptpSlave then wr s tmPg tm_TSTATE tsPtp
    else if sourceLocked s ∧ freq.natAbs ≤ 50000 ∧ rd s tmPg tm_HOPS ≤ 24 then
      wr (wr s tmPg tm_TSTATE tsLocked) tmPg tm_LOCKED 1
    else s)
  else s

/-- The reference is out of range (R359). -/
def refOut (ppb : Int) : Bool := decide (10000 < ppb.natAbs)

/-- REF_PPB while LOCKED (R359, R367): recorded when the offset leaves ±10 ppm. -/
def refRange (s : State) (ppb : Int) : State :=
  if rd s tmPg tm_LOCKED = 0 then s
  else
    let was := refOut (signed 32 (rd s ckPg ck_REF_PPB))
    let s := wr s ckPg ck_REF_PPB (encInt 32 ppb)
    if refOut ppb ∧ ¬ was then logReq (raiseF s ckPg ck_F_REF_RANGE) 2 0x0303 ckPg (b4 (encInt 32 ppb)) else s

/-- The filter's period has ended (R345): 2^AVG frames of the parent port; of a root or an IEEE 1588 slave, which have no
frames, whenever the command says so. -/
def periodOver (s : State) : Bool :=
  rd s tmPg tm_PARENT_VALID == 0 || s.ptpSlave || decide (2 ^ rd s tmPg tm_AVG ≤ s.filt.frames)

/-- The offset that the filter gives (R345). Of the filter the manual says only that it filters the samples: the model lets
it give any value between the least and the greatest of them (log entry 148). -/
def filtered (s : State) (offset : Int) : Option Int := s.filt.span.map (fun r => max r.1 (min r.2 offset))

/-- The filter after a period: empty, but at a root, whose samples come once a second, it keeps what it gave until the
next edge (log entry 148). -/
def nextPeriod (s : State) (offset : Int) (jump : Bool) : State :=
  let kept := if jump then 0 else offset
  { s with filt := { frames := 0, span := if rd s tmPg tm_ACTIVE_ROOT = 1 then some (kept, kept) else none } }

/-- FILTER_PERIOD (R345, R351, R352, R355, R359): the filter's offset in units of 2^-16 ns, its frequency error in 10^-12,
and the offset of REFCLK_100 in 10^-9. Without a source of time, or a sample, RATE keeps its value. -/
def execFilterPeriod (offset freq refPpb : Int) (s : State) : Out :=
  done s <|
    let s := refRange s refPpb
    if rd s tmPg tm_TSTATE = tsFree ∨ rd s tmPg tm_TSTATE = tsHoldover ∨ ¬ periodOver s then s
    else match filtered s offset with
      | some v => timeState (servo (nextPeriod s v (steps s v)) v freq) v freq
      | none => s

/-- HOLDOVER_EXPIRY (R351). -/
def execHoldoverExpiry (s : State) : Out :=
  done s <| if rd s tmPg tm_TSTATE = tsHoldover then wr (dropLock s 1) tmPg tm_TSTATE tsFree else s

/-! ### IEEE 1588 and TIME_1PPS -/

/-- PTP_FALLBACK (R355): with PTP_EN and no link candidate. -/
def execPtpFallback (s : State) : Out :=
  done s <|
    if rd s tmPg tm_PTP_EN = 0 ∨ hasRoot s ∨ s.ptpSlave then s
    else { acquire s with ptpSlave := true }

/-- The slave asks for the delay (R355): its Delay_Req leaves, stamped at the port's PCS. That it carries the sequence
number of the Sync is the model's choice (log entry 149). -/
def askDelay (s : State) (port : Nat) (phase : BitVec 16) : State :=
  send { s with ptp := { s.ptp with t3 := some (stampNow s phase) } } (.delayReq port (rd s tmPg tm_PTP_DOMAIN) s.ptp.seq)

/-- A message of a master reaches the slave (R355): a Sync, and for a two-step master its Follow_Up, give two stamps, the
Delay_Req and its Delay_Resp the other two, and with them one sample. -/
def ptpTake (s : State) (port : Nat) (m : PtpMsg) : State :=
  match m.kind with
  | .sync (some t1) =>
    askDelay { s with ptp := { seq := m.seq, t1 := some t1, t2 := some (stampNow s m.phase), t3 := none } } port m.phase
  | .sync none => { s with ptp := { seq := m.seq, t1 := none, t2 := some (stampNow s m.phase), t3 := none } }
  | .followUp t1 =>
    if m.seq = s.ptp.seq ∧ s.ptp.t1 = none ∧ s.ptp.t2.isSome then
      askDelay { s with ptp := { s.ptp with t1 := some t1 } } port m.phase
    else s
  | .delayResp t4 =>
    match s.ptp.t1, s.ptp.t2, s.ptp.t3 with
    | some t1, some t2, some t3 =>
      if m.seq = s.ptp.seq then
        let v := halfEven (((t2 : Int) - t1) - ((t4 : Int) - t3))
        feed { s with ptpSample := some v, ptp := { s.ptp with t3 := none } } v
      else s
    | _, _, _ => s

/-- PTP_MESSAGE (R355): a slave takes the messages of its domain that come over UDP on its port. -/
def execPtpMessage (port : BitVec 2) (m : PtpMsg) (s : State) : Out :=
  done s <|
    if s.ptpSlave ∧ port.toNat = rd s tmPg tm_PTP_PORT ∧ m.domain.toNat = rd s tmPg tm_PTP_DOMAIN ∧ m.udp then
      ptpTake s port.toNat m
    else s

/-- The edge minus the nearest whole second of hall time, in units of 2^-48 ns. -/
def edgeOffset (s : State) : Int :=
  let f : Nat := s.hallTime % (1000000000 * 2 ^ 48)
  if f < 500000000 * 2 ^ 48 then f else (f : Int) - 1000000000 * 2 ^ 48

/-- The same in ps (R365); that it is rounded down is the model's choice (log entry 163). -/
def ppsDiff (s : State) : Int := edgeOffset s * 1000 / 2 ^ 48

/-- The active root steers its hall time to a whole number of seconds at the edge (R349, R350): the distance from it is
the sample of its servo. -/
def steerRoot (s : State) : State :=
  if rd s tmPg tm_ACTIVE_ROOT = 1 then
    feed { s with filt := .empty } (edgeOffset s / 2 ^ 32)
  else s

/-- TM_PPS_DIFF (R364, R365): a difference that 32 bits do not hold leaves a free value. -/
def ppsReport (s : State) : State :=
  let d := ppsDiff s
  let s' := if -2147483648 ≤ d ∧ d ≤ 2147483647 then wr s tmPg tm_PPS_DIFF (encInt 32 d)
    else wr (freshFree s).2 tmPg tm_PPS_DIFF ((freshFree s).1.toNat % 2 ^ 32)
  if rd s tmPg tm_LOCKED = 1 ∧ 2000 < d.natAbs then raiseF s' tmPg tm_F_PPS_MISMATCH else s'

/-- TIME_1PPS (R349): at the active root the edge takes the epoch written for it; every module reports the difference. -/
def execTime1pps (s : State) : Out :=
  done s <|
    let s := reparent { s with ppsSeen := true }
    let s := match s.epoch with
      | some e => if rd s tmPg tm_ACTIVE_ROOT = 1 ∧ ¬ programRuns s then { s with hallTime := e * 2 ^ 48, epoch := none } else s
      | none => s
    steerRoot (ppsReport s)

/-! ### The stitch origin -/

/-- A new stitch origin (R214, R357). -/
def armT0 (s : State) (v : Nat) : State :=
  let s := wr64 s tmPg tm_T0_LO tm_T0_HI v
  if v * 2 ^ 48 < s.hallTime + 2000 * 2 ^ 48 then raiseF { s with t0 := none } tmPg tm_F_T0_LATE
  else
    let s := wr64 (wr64 s tmPg tm_STITCH_LO tm_STITCH_HI 0) gsPg gs_REST_LO gs_REST_HI 0
    { s with t0 := some v, begun := false, resting := false, rests := [], holdN := [], holdFwd := [], passed := none }

/-- T0_ARM (R357, R365): the management core's write of TM_T0, which it makes only while no program runs. -/
def execT0Arm (value : BitVec 64) (s : State) : Out :=
  done s <| if programRuns s then s else actWrite s tmPg (fun s => armT0 s value.toNat)

/-! ### Clocks lost -/

/-- PLL_LOSS (R359): of the root PLL or the link PLL. -/
def execPllLoss (link : Bool) (s : State) : Out :=
  done s <|
    let s := if link then wr s ckPg ck_LINK_LOCK 0 else wr s ckPg ck_ROOT_LOCK 0
    driveFailSafe (logReq (raiseF s ckPg ck_F_PLL_LOSS) 4 0x0802 ckPg (b1 (b2n link))) true

/-- REF_LOSS (R359): the root PLL has no reference, and the always-on domain takes its own oscillator. -/
def execRefLoss (s : State) : Out :=
  done s <|
    let s := wr (wr (wr s ckPg ck_AON_INTERNAL 1) ckPg ck_ROOT_LOCK 0) ckPg ck_LINK_LOCK 0
    driveFailSafe (logReq (raiseF s ckPg ck_F_REF_LOSS) 4 0x0803 ckPg []) true

/-- REFCLK_100_RETURN (R358, R359). -/
def execRefclk100Return (s : State) : Out := done s <| wr s ckPg ck_AON_INTERNAL 0

/-- RECOVERED_CLOCK_LOST (R359): the group's four ports enter DOWN. -/
def execRecoveredClockLost (g : BitVec 4) (s : State) : Out :=
  done s <|
    let s := wr s ckPg ck_RX_LOCK (setBits (rd s ckPg ck_RX_LOCK) g.toNat g.toNat 0)
    portsDown s ((List.range 4).map (fun i => 4 * g.toNat + i))

/-- Rows of the table of crossings (R360). -/
def crossings : Nat := 16

/-- FIFO_RESYNC (R362): the two sides of a crossing's FIFOs resynchronise their pointers by handshake, and it is live. What
resets the crossing to the debug domain, the last row, is TRST_N, a pin of JTAG alone: the handshake follows it at once
(log entry 174). -/
def execFifoResync (x : BitVec 8) (s : State) : Out :=
  if crossings ≤ x.toNat then .fault .noSuchUnit else done s <|
    let s := if x.toNat = 15 then fifoReset s 15 0 else s
    inc (fifoSync s x.toNat) ckPg ck_RESYNC_CNT (s.fifos.length - (fifoSync s x.toNat).fifos.length)

/-- XING_ERR (R363): fail-safe. -/
def execXingErr (x : BitVec 8) (s : State) : Out :=
  if crossings ≤ x.toNat then .fault .noSuchUnit
  else done s <|
    let s := wr s ckPg ck_XING_ID x.toNat
    driveFailSafe (logReq (raiseF s ckPg ck_F_XING_ERR) 4 0x0804 ckPg (b1 x.toNat)) true

end Sys2Proof.Machine
end

