-- ==== Sys2Proof/Machine/Numerics.lean ====
section
/-! DEFINITION. The scale tracker and the bobbin engine (chapter "Training Numerics"): observations, commits, the table
image, loads, drift watch, and the known-answer inputs. -/

namespace Sys2Proof.Machine

/-! ### Fingerprints (R417, R419) -/

/-- FP_SEED (R417). -/
def fpSeed : W64 := 0x2D957A1C40E3B86F

/-- What the element at global index `e` with element word `w` adds to its tensor's fingerprint (R417). -/
def fpTerm (e w : W64) (fpId : W32) : W64 :=
  let r := bobbin fpSeed fpId 0 e
  (r.extractLsb' 0 64 ||| 1) * w + r.extractLsb' 64 64

/-- The element word of a J-format element: its code and its block scale (R417). -/
def fpWordJ (code : BitVec 12) (scale : BitVec 8) : W64 := BitVec.ofNat 64 (code.toNat + scale.toNat * 2 ^ 16)

/-- The element word of a grid word with its hem (R417); a GR64 word stands zero-extended in place of VALUE and TALLY. -/
def fpWordGrid (value : BitVec 96) (tally : W32) (hem : BitVec 16) : W64 :=
  value.extractLsb' 0 64 ^^^ ((value.extractLsb' 64 32 ++ (0 : W32)) ||| tally.setWidth 64)
    ^^^ (hem.setWidth 64 <<< 48)

/-- The fingerprint of the elements of a range of global indexes: its partials add (R417, R419). -/
def fingerprint (fpId : W32) : List (W64 × W64) → W64
  | [] => 0
  | x :: xs => fpTerm x.1 x.2 fpId + fingerprint fpId xs

/-- An entry of a fingerprint table (R419). -/
structure FpEnt where
  id : W32
  order : W32
  f : W64
deriving DecidableEq, Repr

/-- STEP_DIGEST of a table's entries (R419). -/
def stepDigest : List FpEnt → W64
  | [] => 0
  | x :: xs => x.f * (2 * x.id.setWidth 64 + 1) + stepDigest xs

/-- The bytes of a job table or of a partial table (R419); its entries come sorted by FP_ORDER. -/
def fpTableBytes (jobId jobDesc : W64) (step : W32) (partialTable : Bool) (es : List FpEnt) : List Byte :=
  [0x4A#8, 0x54#8, 0x46#8, 0x50#8, 0x54#8, 0x41#8, 0x42#8, 0x4C#8] ++ leBytes 8 jobId.toNat ++ leBytes 8 jobDesc.toNat
    ++ leBytes 4 step.toNat ++ leBytes 4 es.length ++ leBytes 8 (stepDigest es).toNat ++ b1 (b2n partialTable)
    ++ List.replicate 23 0 ++ es.flatMap (fun x => leBytes 4 x.id.toNat ++ leBytes 4 x.order.toNat ++ leBytes 8 x.f.toNat)

/-- STEP_DIGEST of the job table, at offset 0x20 of the place that the image names (R419). -/
def jobDigest (s : State) : Nat :=
  match s.image with
  | some i => leNat (memRead s.lp (Config.jobTableAt i.1 + 0x20) 8)
  | none => 0

/-! ### Observations -/

/-- The binary32 encoding of plus infinity. -/
def inf32 : W32 := 0x7F800000

/-- A nonnegative binary32 encoding as R371 keeps it: a NaN or an infinity becomes plus infinity. -/
def obsVal (x : W32) : W32 := if infCode 6 ≤ x.toNat % 2 ^ 31 then inf32 else x

/-- The larger of two nonnegative binary32 encodings. -/
def max32 (a b : W32) : W32 := if a.toNat < b.toNat then b else a

/-- An entry takes an observation (R371). -/
def nmObserve (e : NmEnt) (x : W32) : NmEnt :=
  { e with pend := if obsVal x = inf32 then inf32 else if e.pvalid then max32 e.pend x else x, pvalid := true }

/-- An observation breaks the contract of R378 (R379). -/
def lateObs (s : State) (entry : Nat) : State :=
  logReq (inc (raiseF s nmPg nm_F_LATE_OBS) nmPg nm_LATE_CNT 1) 2 0x0405 nmPg (b2 entry)

/-- An entry of the NM block takes an observation. -/
def nmTake (s : State) (x : Nat × W32) : State := nmPut s x.1 (nmObserve (nmGet s x.1) x.2)

/-- OBSERVATION (R371, R379): the response completes the tile's vx.trk for c.lfence. One that comes before the commit of a
closed step applies after it. -/
def execObservation (entry : BitVec 12) (x : W32) (s : State) : Out :=
  done s <|
    let q := takeMsg s (fun m => match m with | .observation _ _ e y => e == entry && y == x | _ => false)
    let s := match q.1 with
      | some (.observation t tag _ _) => send q.2 (.lseRsp (.tile (BitVec.ofNat 3 s.module) t) tag 0 [])
      | _ => q.2
    let s := inc s nmPg nm_OBS_CNT 1
    if rd s nmPg nm_BUSY = 1 ∨ s.stepClosed = some false then
      lateObs { s with lateObs := s.lateObs ++ [(entry.toNat, x)] } entry.toNat
    else
      let s := nmTake s (entry.toNat, x)
      if s.stepClosed.isSome then lateObs s entry.toNat else s

/-! ### Commits -/

/-- AMAX decayed by 1 - 2^-D and rounded up (R373); D = 0 is no decay (R370). -/
def nmDecay (a : W32) (d : Nat) : W32 :=
  if d = 0 then a
  else match decVal 6 a.toNat with
    | .fin neg n m => BitVec.ofNat 32 (cvtVal 6 (.fin neg (n * (2 ^ d - 1)) (m * 2 ^ d)) rmRUP false 0).bits
    | _ => a

/-- AMAX after a commit (R373). -/
def nmNext (e : NmEnt) : W32 :=
  if e.drift then (if e.pvalid then e.pend else 0)
  else if e.pvalid ∧ (e.cold ∨ e.pend = inf32) then e.pend
  else if e.pvalid then max32 e.pend (nmDecay e.amax e.d.toNat)
  else e.amax

/-- A commit of one entry (R373). -/
def nmCommitEnt (e : NmEnt) : NmEnt :=
  { e with amax := nmNext e, hist := if e.pvalid then min (e.hist + 1) 65535 else e.hist,
           cold := e.cold && !e.pvalid, nonfin := e.nonfin || nmNext e == inf32, pend := 0, pvalid := false }

/-- An estimate that gives no scale (R374, R375). -/
def nmOpen (e : NmEnt) : Bool := e.cold || e.nonfin || e.drift

/-- nm_scale (R375). -/
def nmScale (e : NmEnt) (f : Nat) : Nat :=
  if nmOpen e then 0xFF
  else match decVal 6 e.amax.toNat with
    | .zero _ => 0
    | _ => (min (max (amaxExp e.amax.toNat - 1 - eMaxJ f + 127 + e.hr.toNat) 0) 0xFE).toNat

/-- EA (R374). -/
def nmEa (e : NmEnt) : Int := if nmOpen e then 129 else amaxExp e.amax.toNat

/-- The 16 bytes of an entry in the table image (R374). -/
def nmImage (e : NmEnt) : List Byte :=
  leBytes 4 e.amax.toNat ++ leBytes 2 e.hist ++ leBytes 1 (b2n e.cold + 2 * b2n e.nonfin + 4 * b2n e.drift)
    ++ leBytes 1 (e.hr.toNat + 16 * e.d.toNat) ++ (List.range 5).flatMap (fun f => leBytes 1 (nmScale e f))
    ++ leBytes 1 0 ++ leBytes 2 (encInt 16 (nmEa e))

/-- The table image's address (R397). -/
def nmTable (s : State) : Nat := rd s nmPg nm_TABLE_LO * 2 ^ 16 + rd s nmPg nm_TABLE_HI * 2 ^ 32

/-- The table image: the image of every entry (R374). -/
def nmTableBytes (s : State) : List Byte := (List.range 4096).flatMap (fun i => nmImage (nmGet s i))

/-- The table image goes to LPDDR5X, line by line (R374), where LPDDR5X serves it (R283). -/
def nmWriteTable (s : State) : State :=
  if lpSilent s (nmTable s) 65536 then s else lpWrite s (nmTable s) (nmTableBytes s)

/-- A drift entry with an observation, and its committed value (R386); `first` says that no such entry came before it. -/
def driftOne (s : State) (i : Nat) (a : W32) (first : Bool) : State :=
  let v := decVal 6 a.toNat
  let w := decVal 6 (regW s nmPg 0x064)
  let e := decVal 6 (regW s nmPg 0x068)
  let s := if first || rd s nmPg nm_DW_MAX < a.toNat then wr (wr s nmPg nm_DW_MAX a.toNat) nmPg nm_DW_ENTRY i else s
  let s := if fLt w v then wr s nmPg nm_DW_COUNT (rd s nmPg nm_DW_COUNT + 1) else s
  if fLt e v then logReq (raiseF s nmPg nm_F_DRIFT_HIGH) 3 0x040B nmPg (b2 i ++ b4 a.toNat)
  else if fLt w v then logReq (raiseF s nmPg nm_F_DRIFT_WARN) 2 0x040A nmPg (b2 i ++ b4 a.toNat)
  else s

/-- One entry commits (R373, R386, R396); `first` is the first drift entry with an observation. -/
def commitOne (first : Option Nat) (i : Nat) (s : State) : State :=
  let e := nmGet s i
  let e' := nmCommitEnt e
  let s := nmPut s i e'
  let s := if e'.amax = inf32 then raiseF s nmPg nm_F_NONFIN else s
  if e.drift ∧ e.pvalid then driftOne s i e'.amax (first == some i) else s

/-- A commit of every entry (R373, R374, R386, R397): an entry at its reset value stays as it is. Observations that waited
for it apply to PEND after it (R379). -/
def commitOp (s : State) : State :=
  let s := wr (wr (wr s nmPg nm_DW_MAX 0) nmPg nm_DW_ENTRY 0) nmPg nm_DW_COUNT 0
  let is := (s.nm.map (·.1)).dedup
  let s := forEach is (commitOne (is.find? (fun i => (nmGet s i).drift && (nmGet s i).pvalid))) s
  let s := wr (incWrap (nmWriteTable s) nmPg nm_COMMITS 1) nmPg nm_OBS_CNT 0
  forEach s.lateObs (fun x s => nmTake s x) { s with lateObs := [] }

/-- A write of NM_CTRL: while BUSY it is ignored and sets PG_STATUS[0] (R397). -/
def nmCtrl (s : State) (f : State → State) : State :=
  if ¬ locked s nmPg ∧ rd s nmPg nm_BUSY = 1 then wrej s nmPg else actWrite s nmPg f

/-- NM_COMMIT. -/
def execNmCommit (s : State) : Out := done s (nmCtrl s commitOp)

/-! ### Loads -/

/-- The image of an entry is as R374 lays it out: every reserved field 0. -/
def nmImageOk (bs : List Byte) : Bool :=
  decide (leNat ((bs.drop 6).take 1) < 8) && !bit (leNat ((bs.drop 7).take 1)) 3 && leNat ((bs.drop 13).take 1) == 0

/-- The entry that an image spells (R374, R397). -/
def nmFromImage (bs : List Byte) : NmEnt :=
  let fl := leNat ((bs.drop 6).take 1)
  let cf := leNat ((bs.drop 7).take 1)
  { amax := BitVec.ofNat 32 (leNat (bs.take 4)), pend := 0, pvalid := false, hist := leNat ((bs.drop 4).take 2),
    cold := bit fl 0, nonfin := bit fl 1, drift := bit fl 2, d := BitVec.ofNat 4 (cf / 16), hr := BitVec.ofNat 3 cf }

/-- The image of entry `i` as LPDDR5X holds it. -/
def nmAt (s : State) (i : Nat) : List Byte := memRead s.lp (nmTable s + 16 * i) 16

/-- A load of every entry from the table image (R377, R397): the whole image is read before an entry changes. -/
def loadOp (s : State) : State :=
  let r := lpCheck s (nmTable s) 65536 .ok
  if lpSilent s (nmTable s) 65536 then wr s nmPg nm_LOAD_ERR 1
  else if ¬ r.1 then wr r.2 nmPg nm_LOAD_ERR 1
  else
    let s := r.2
    if ¬ (List.range 4096).all (fun i => nmImageOk (nmAt s i)) then wr s nmPg nm_LOAD_ERR 1
    else
      let s := forEach (List.range 4096) (fun i s => nmPut s i (nmFromImage (nmAt s i))) s
      wr (wr s nmPg nm_LOAD_ERR 0) nmPg nm_COMMITS 0

/-- NM_LOAD. -/
def execNmLoad (s : State) : Out := done s (nmCtrl s loadOp)

/-- NM_CTRL.COLD_ALL (R377, R397). -/
def coldOp (s : State) : State :=
  let s := forEach (s.nm.map (·.1)).dedup
    (fun i s => nmPut s i { nmGet s i with amax := 0, hist := 0, nonfin := false, cold := true }) s
  wr s nmPg nm_COMMITS 0

/-- COLD_ALL. -/
def execColdAll (s : State) : Out := done s (nmCtrl s coldOp)

/-! ### The bobbin engine -/

/-- The engine's result and DONE (R399). -/
def bbResult (s : State) (r : W128) : State :=
  wr (forEach (List.range 4) (fun w s => wri s bbPg bb_OUT w (bits r.toNat (32 * w + 31) (32 * w))) s) bbPg bb_DONE 1

/-- BB_CTRL.GO (R399). -/
def bbGoOp (s : State) : State :=
  bbResult s (bobbin (BitVec.ofNat 64 (rd64 s bbPg bb_SEED_LO bb_SEED_HI)) (BitVec.ofNat 32 (rd s bbPg bb_IN_STREAM))
    (BitVec.ofNat 32 (rd s bbPg bb_IN_STEP)) (BitVec.ofNat 64 (rd64 s bbPg bb_IN_CTR_LO bb_IN_CTR_HI)))

/-- The known-answer inputs (R391): seed, stream, step, counter. -/
def katInput (i : Nat) : W64 × W32 × W32 × W64 :=
  if i = 0 then (0, 0, 0, 0)
  else if i = 1 then (BitVec.allOnes 64, BitVec.allOnes 32, BitVec.allOnes 32, BitVec.allOnes 64)
  else if i = 2 then (0x0123456789ABCDEF, 1, 2, 3)
  else (0x2D957A1C40E3B86F, 0x113, 0, 0x4302A)

/-- BB_CTRL.KAT (R399). -/
def bbKatOp (s : State) : State :=
  let k := katInput (rd s bbPg bb_KAT_IDX)
  bbResult s (bobbin k.1 k.2.1 k.2.2.1 k.2.2.2)

/-- BB_CTRL.KAT_FAILED (R391, R399). -/
def katFailedOp (s : State) : State :=
  logReq (raiseF s bbPg bb_F_KAT_FAIL) 3 0x0805 bbPg (b1 (rd s bbPg bb_KAT_IDX))

/-- BB_GO. -/
def execBbGo (s : State) : Out := done s (actWrite s bbPg bbGoOp)

/-- BB_KAT. -/
def execBbKat (s : State) : Out := done s (actWrite s bbPg bbKatOp)

/-- KAT_FAILED. -/
def execKatFailed (s : State) : Out := done s (actWrite s bbPg katFailedOp)

end Sys2Proof.Machine
end

