-- ==== Sys2Proof/Machine/Twin.lean ====
section
/-! DEFINITION. The step boundary and the TW engine (R378, R428, R432, R437 to R440, R455): the home commit, the copy into
the twin's region, seeding, and the job's commit barrier. -/

namespace Sys2Proof.Machine

/-! ### Section tables -/

/-- Entry `j` of a section table at address `b` (R291). -/
def secEntry (s : State) (b j : Nat) : List Byte := memRead s.lp (b + 64 * j) 64

/-- Fields of a section entry (R291). -/
def secKind (e : List Byte) : Nat := leNat (e.take 1)
def secCur (e : List Byte) : Nat := leNat ((e.drop 1).take 1) % 2
def secLen (e : List Byte) : Nat := leNat ((e.drop 8).take 8)
def secOff (e : List Byte) : Nat := leNat ((e.drop (0x10 + 8 * secCur e)).take 8)
def secStep (e : List Byte) : Nat := leNat ((e.drop 0x20).take 8)

/-- SEC_ID of an entry (R291). -/
def secId (e : List Byte) : Nat := leNat ((e.drop 4).take 4)

/-- The address of the image's section list (R438, R455). -/
def listAddr (s : State) : Nat := rd s twPg tw_LIST_LO * 64 + rd s twPg tw_LIST_HI * 2 ^ 32

/-- The tiles have marked section `j` as changed (R438). -/
def listMarked (s : State) (j : Nat) : Bool := Config.listMarks (fun i => memByte s.lp (listAddr s + i)) j

/-- FPRINT of the current copy that an entry of the home region names (R291, R419): the partial of its ranges. -/
def secPrint (s : State) (e : List Byte) : Nat :=
  let bs := memRead s.lp (homeBase s + secOff e) (secLen e)
  let ts := Config.sectionElems (match s.image with | some i => i.1 | none => []) (secId e) bs
  (ts.foldl (fun f x => f + fingerprint x.1 x.2) 0).toNat

/-- The entry of a section that step `n` changed (R293, R419): the other copy is current; its fingerprint is given. -/
def secChanged (e : List Byte) (n fp : Nat) : List Byte :=
  e.take 1 ++ b1 (1 - secCur e) ++ (e.drop 2).take 30 ++ leBytes 8 n ++ leBytes 8 fp ++ (e.drop 0x30).take 16

/-- What a checkpoint writes of itself into a section (R378 step 5, R390): the bobbin positions open with the job seed and
BB_STEP, and the scale-tracker section is a copy of the table image. -/
def ownBytes (s : State) (e : List Byte) : Option (List Byte) :=
  if secKind e = 3 then
    some (leBytes 8 (rd64 s bbPg bb_SEED_LO bb_SEED_HI) ++ leBytes 4 (rd s bbPg bb_STEP) ++ leBytes 4 0)
  else if secKind e = 4 then some (memRead s.lp (nmTable s) (min (secLen e) 65536))
  else none

/-- What the checkpoint writes of a section itself goes to its new copy: the response, and the state. -/
def putOwn (s : State) (b : Nat) (e e' : List Byte) : Nat × State :=
  match ownBytes s e with
  | some bs => lpStore s (b + secOff e') bs .ok
  | none => (rOK, s)

/-- Table `n mod 2` of the home region takes entry `j` of table `old` (R293 steps 1 and 3); a write that fails leaves the
rest undone (R439). The sections that a step changed are those that the tiles have marked (R438) and those that the
checkpoint writes itself. -/
def putSection (b old n : Nat) (r : Nat × State) (j : Nat) : Nat × State :=
  if r.1 ≠ rOK then r
  else
    let s := r.2
    let e := secEntry s (tableAddr b old) j
    let at_ := tableAddr b (n % 2) + 64 * j
    if (ownBytes s e).isSome || listMarked s j then
      let q := putOwn s b e (secChanged e n 0)
      if q.1 ≠ rOK then q
      else lpStore q.2 at_ (secChanged e n (secPrint q.2 (secChanged e n 0))) .ok
    else lpStore s at_ e .ok

/-- The 128 bytes of a commit record of step `n` (R290) over a table at address `t` of `k` sections. -/
def recBytesOf (s : State) (t n k : Nat) : List Byte :=
  let body := leBytes 8 keepMagic ++ leBytes 8 (jobId s) ++ leBytes 8 n ++ leBytes 4 k ++ leBytes 1 (n % 2)
    ++ List.replicate 27 0 ++ digestBytes (memRead s.lp t (64 * k))
  body ++ leBytes 8 (recCheck body)

/-- The record that a commit of step `n` starts from (R293): that of step n - 1, also on a replay; else the current one, else
the other place. -/
def baseRec (s : State) (n : Nat) : Nat :=
  match (List.range 2).find? (fun i => recValid s (homeBase s) i && recStep s (homeBase s) i + 1 == n) with
  | some i => i
  | none => (currentRec s (homeBase s)).getD ((n + 1) % 2)

/-- The home commit of step `n` (R439 stage 1): table, then record; a failed write leaves the record as it is. -/
def homeCommit (s : State) (n : Nat) : Nat × State :=
  let b := homeBase s
  let i := baseRec s n
  let k := min (recNsec s b i) 8192
  let old := recTable s b i % 2
  let r := (List.range k).foldl (putSection b old n) (rOK, s)
  if r.1 ≠ rOK then r
  else
    let s := r.2
    (rOK, wr (lpWrite s (recAddr b (n % 2)) (recBytesOf s (tableAddr b (n % 2)) n k)) twPg tw_HOME_STEP n)

/-- A port of the twin path carries packets (R23). -/
def twinPathUp (s : State) : Bool :=
  (List.range 4).any (fun i => portState s (28 + i) == stActive
    || portState s ((if s.module % 2 = 0 then 0 else 24) + i) == stActive)

/-- The sections of step `n`'s table that step `n` itself changed, or all of them. -/
def stepSections (s : State) (n : Nat) (all : Bool) : List (List Byte) :=
  let b := homeBase s
  ((List.range (min (recNsec s b (n % 2)) 8192)).map (fun j => secEntry s (tableAddr b (n % 2)) j)).filter
    (fun e => all || secStep e == n)

/-- A write goes to an offset of the twin's region, and the engine waits for its response (R293). -/
def twinPut (s : State) (off : Nat) (data : List Byte) : State :=
  { send s (.twinWrite off data) with twRun := s.twRun.map (fun r => { r with wait := r.wait ++ [off] }) }

/-- Sections go from their home copies to the same places of the twin's region (R439 stage 2). -/
def copySections (s : State) (es : List (List Byte)) : State :=
  forEach es (fun e s => twinPut s (secOff e) (memRead s.lp (homeBase s + secOff e) (secLen e))) s

/-- The table of step `n` goes to the twin's region (R293 step 3). -/
def twinTable (s : State) (n : Nat) : State :=
  let b := homeBase s
  let k := min (recNsec s b (n % 2)) 8192
  twinPut s (tableAddr 0 (n % 2)) (memRead s.lp (tableAddr b (n % 2)) (64 * k))

/-- The record of step `n` goes to the twin's region (R293 step 5). -/
def twinRecord (s : State) (n : Nat) : State :=
  wr (twinPut s (recAddr 0 (n % 2)) (memRead s.lp (recAddr (homeBase s) (n % 2)) 128)) twPg tw_TWIN_STEP n

/-- What the page shows of a finished commit: MiB copied, and a duration that no rule fixes. -/
def twinDone (s : State) (es : List (List Byte)) : State :=
  let s := wr (wr { s with twRun := none } twPg tw_BUSY 0) twPg tw_STAGE 0
  let s := wr s twPg tw_BYTES_MIB ((es.map secLen).sum / 2 ^ 20)
  wr (freshFree s).2 twPg tw_LAST_US (freshFree s).1.toNat

/-- Stage 2 of R439 begins: the sections go to the twin's region (R293 step 1). A home copy that cannot be read ends the
stage as a failed write does, the model's choice (log entry 143). -/
def twinCopy (s : State) (n : Nat) (seed : Bool) : State :=
  let es := stepSections s n seed
  if ¬ twinPathUp s then writeFail s
  else match es.find? (fun e => lpIsBad s (homeBase s + secOff e) (secLen e)) with
    | some e => writeFail (lpUe s (lpBadAt s (homeBase s + secOff e) (secLen e)))
    | none =>
      let s := { s with twRun := some { step := n, seed := seed, sent := 1, wait := [] } }
      copySections (wr (wr s twPg tw_BUSY 1) twPg tw_STAGE 2) es

/-- TW_CTL.COMMIT (R439): the home commit; the copy follows in the next cycle. `rsp` is a response other than OK that a
write of the home region gets. After fail-safe LPDDR5X serves no write of the home region (R283): such a commit fails. -/
def twCommitOp (s : State) (rsp : Nat) : State :=
  if rd s twPg tw_ENABLE = 0 ∨ rd s twPg tw_BUSY = 1 then s
  else if lpSilent s (homeBase s) 64 ∨ rsp ≠ 0 then writeFail s
  else
    let n := rd s twPg tw_STEP
    let r := homeCommit (wr (wr s twPg tw_BUSY 1) twPg tw_STAGE 1) n
    if r.1 = rOK then { r.2 with twRun := some { step := n, seed := false, sent := 0, wait := [] } } else writeFail r.2

/-- TW_COMMIT. -/
def execTwCommit (rsp : BitVec 8) (s : State) : Out := done s (actWrite s twPg (fun s => twCommitOp s rsp.toNat))

/-- TW_CTL.SEED (R445, R455): stage 2 alone, for every section of step TW_STEP. -/
def twSeedOp (s : State) (rsp : Nat) : State :=
  if rd s twPg tw_ENABLE = 0 ∨ rd s twPg tw_BUSY = 1 then s
  else if lpSilent s (homeBase s) 64 ∨ rsp ≠ 0 then writeFail s
  else twinCopy s (rd s twPg tw_STEP) true

/-- The engine goes on once every write that it sent has its response (R293 steps 2, 4 and 5). A seed ends there, a commit
with STEP_COMMITTED. -/
def twTick (s : State) : State :=
  match s.twRun with
  | none => s
  | some r =>
    if ¬ twinPathUp s then writeFail s
    else if ¬ r.wait.isEmpty then s
    else if r.sent = 0 then twinCopy s r.step r.seed
    else if r.sent = 1 then
      twinTable { wr s twPg tw_STAGE 3 with twRun := some { r with sent := 2 } } r.step
    else if r.sent = 2 then twinRecord { s with twRun := some { r with sent := 3 } } r.step
    else if r.seed then twinDone s (stepSections s r.step true)
    else s

/-- TW_SEED. -/
def execTwSeed (rsp : BitVec 8) (s : State) : Out := done s (actWrite s twPg (fun s => twSeedOp s rsp.toNat))

/-! ### The job's commit barrier -/

/-- The module has committed step `n` and enters the barrier (R440); a planned detach is reported now (R424). -/
def committed (s : State) (n : Nat) : State :=
  let s := send { s with barrier := some n } (.barrier n)
  let s := if s.detach then send { s with detach := false } (.hostReport n) else s
  enterBarrier s

/-- STEP_COMMITTED (R439, R440): the record of a commit has its response, and both stages are done. -/
def execStepCommitted (s : State) : Out :=
  done s <|
    match s.twRun with
    | none => s
    | some r =>
      if ¬ twinPathUp s then writeFail s
      else if r.seed ∨ r.sent < 3 ∨ ¬ r.wait.isEmpty then s
      else committed (twinDone s (stepSections s r.step false)) r.step

/-! ### The step boundary -/

/-- A running tile has a baste sample outstanding (R428). -/
def basteOut (s : State) : Bool :=
  s.tileList.any (fun t => rd s (tlPg t) tl_STATUS_RUNNING == 1 && decide (rd s (mxPg t) mx_STATUS_BASTE_OUT ≠ 0))

/-- The module's rank in the job (R501): 0xFFFF outside it. -/
def ownRank (s : State) : Nat :=
  match ownEntry s with
  | some i => manField s (modOff s i + 0xC) 2
  | none => 0xFFFF

/-- The fingerprint record of a step (R420), by the module of rank 0: STEP and the STEP_DIGEST of the job table. -/
def logFprint (s : State) (n : Nat) : State :=
  if ownRank s ≠ 0 then s
  else logReq s 0 0x040C mgPg (b4 n ++ leBytes 8 (jobDigest s))

/-- The forced tests of overdue tiles begin at the boundary, and each is counted once (R432). -/
def forcedTests (s : State) : State :=
  forEach ((s.it.filter (fun x => x.2.forced && !x.2.begun)).map (·.1)) (fun p s =>
    let x := smGet (fun _ => ItTile.reset) s.it p
    inc { s with it := smPut (fun _ => ItTile.reset) s.it p { x with state := 1, begun := true } } itPg it_FORCED 1) s

/-- STEP_BOUNDARY (R378, R428, R432, R439): steps 2 to 5; the tiles are released when the job's barrier completes
(step 6). After fail-safe, in lull mode too, the module computes nothing (R448, R450). -/
def execStepBoundary (s : State) : Out :=
  done s <|
    if s.stepClosed = some true ∨ s.failSafe.isSome then s
    else if basteOut s then { s with stepClosed := some false }
    else
      let n := rd s bbPg bb_STEP
      let s := nmCtrl { s with stepClosed := some true } commitOp
      let s := forcedTests (logFprint (wr s bbPg bb_STEP (n + 1)) n)
      if rd s twPg tw_ENABLE = 1 then
        let s := wr s twPg tw_STEP n
        actWrite s twPg (fun s => twCommitOp s 0)
      else committed s n

end Sys2Proof.Machine
end

