-- ==== Sys2Proof/Machine/HostQ.lean ====
section
/-! DEFINITION. Reset of the module (R9, R451, R567) and the stop of a bring-up (R478); the command queues of the host
interface (R510 to R520): how an entry is fetched and checked and how its completion is posted. -/

namespace Sys2Proof.Machine

/-! ### Reset -/

/-- The bits of a register that survive a reset (R9, R544): its RWS fields, all of the EV page, which lies in the
always-on domain (R567), and DEBUG_OPEN with its SCOPE, which last until the next power cycle (R529). -/
def keptBits (k : Nat) (v : W32) : W32 :=
  if k / 0x1000 = evPg ∨ k = lcPg * 0x1000 + 0x040 then v
  else match pageBlk (k / 0x1000) with
    | none => 0
    | some b => BitVec.ofNat 32 (((fieldsAt b (k % 0x1000)).filter (fun f => f.ty == .rws)).foldl
        (fun a f => setBits a f.hi f.lo (bits v.toNat f.hi f.lo)) (regDflt k).toNat)

/-- The registers after a reset. -/
def resetRegs (m : SMap W32) : SMap W32 :=
  m.foldl (fun r c => smPut regDflt r c.1 (keptBits c.1 c.2)) State.reset.regs

/-- A PG_FAULT bit survives a reset, and so does its interrupt (R544, R545). -/
def keptFault (s : State) (x : Nat × Nat) : Bool :=
  let k := regKey x.1 pg_FAULT.off
  (keptBits k (smGet regDflt s.regs k)).getLsbD x.2

/-- The MAC addresses that the EN pages derive from DIE_ID (R534). -/
def withMac (s : State) : State :=
  let d := s.fuses.c0.dieId.toNat
  forEach (List.range 4) (fun n s =>
    wr (wr s (enPg n) en_MAC_LO d) (enPg n) en_MAC_HI (0x0200 + n * 64 + bits d 37 32)) s

/-- What has left the module for the host, and no reset takes back. -/
def NetMsg.left : NetMsg → Bool
  | .rdmaWrite _ _ _ _ => true
  | .rdmaImm _ _ => true
  | .rdmaReadReq _ _ _ _ => true
  | .rdmaReadRsp _ _ _ => true
  | .datagram _ _ => true
  | .rdmaNak _ _ => true
  | .ethReply _ _ => true
  | .cmRep _ _ => true
  | .cmRej _ _ => true
  | .cmDrep _ _ => true
  | .recoveryReq _ _ _ => true
  | .smb _ => true
  | .hostReport _ => true
  | _ => false

/-- The bad wavelengths that the fuses name stand in WL_BAD from reset (R481). -/
def fuseWls (s : State) : State :=
  forEach (s.fuses.c0.wlBad.filter (fun x => decide (x.1 < 64) && decide (x.2.toNat < 9)))
    (fun x s => wr s (lkPg x.1) lk_STATUS_WL_BAD (2 ^ x.2.toNat)) s

/-- A reset of everything but the always-on domain, the memories that keep their contents, flash and fuses (R451, R567). -/
def resetModule (s : State) : State :=
  fuseWls <| withMac { State.reset with
    regs := resetRegs s.regs, fuses := s.fuses, spool := s.spool, spoolBad := s.spoolBad, lp := s.lp, lpBad := s.lpBad,
    spoolWeak := s.spoolWeak, lpWeak := s.lpWeak,
    lpTrained := s.lpTrained, failed := s.failed, flash := s.flash, repairN := s.repairN, timeNext := s.timeNext,
    sec := s.sec, vendorHash := s.vendorHash, itStored := s.itStored, pkgStored := s.pkgStored, ring := s.ring, logQ := s.logQ, mirrorPos := s.mirrorPos, ticks := s.ticks,
    unusable := s.unusable, entIdx := s.entIdx, freeIdx := s.freeIdx, freshPower := s.freshPower, evLost := s.evLost, optSet := s.optSet, smbSlot := s.smbSlot,
    irqs := s.irqs.filter (keptFault s), hostIrqs := s.hostIrqs.filter (fun b => keptFault s (mgPg, b)),
    pins := { s.pins with faultN := true }, net := s.net.filter NetMsg.left, pending := s.pending }

/-- A phase of bring-up stops (R478, R507): MG_PHASE holds the phase and the reason, and the outputs take the harmless
state of R448; from B2 on E0 stays open for the management queue pair. -/
def stopBring (s : State) (phase reason : Nat) : State :=
  let s := wr (wr (raiseF s mgPg mg_F_PHASE_FAIL) mgPg mg_FAIL_PHASE phase) mgPg mg_FAIL_REASON reason
  let s := haltAll { s with stopped := true, pins := { s.pins with faultN := false, smbAlertN := false } }
  let s := flushData (portsFailSafe s)
  let s := forEach (List.range 4) (fun n s => wr s (enPg n) en_SENDING_LF (b2n (n != 0 || decide (phase < 2)))) s
  if keepServed s then s else forEach (List.range 4) (fun g s => wr s (lpPg g) lp_SELF_REFRESH 1) s

/-! ### Queues -/

/-- The key of a queue that a command names. -/
def qref (q : QRef) : Nat := qKey q.port.toNat (if q.mgmt then 256 else q.q.toNat)

/-- Argument `i` of a command entry (R516). -/
def arg (e : List Byte) (i : Nat) : Nat := leNat ((e.drop (8 + 8 * i)).take 8)

/-- Opcodes of an entry (R517, R522). -/
def dataOps : List Nat := [0x01, 0x02, 0x03, 0x04, 0x05]
def mgmtOps : List Nat :=
  [0x40, 0x41, 0x42, 0x43, 0x44, 0x45, 0x46, 0x47, 0x48, 0x49, 0x4A, 0x4B, 0x4C, 0x4D, 0x4E, 0x50, 0x51, 0x52, 0x53, 0x54]
def lullOps : List Nat := [0x48, 0x49, 0x4B, 0x4C, 0x50, 0x51]

/-- The opcodes that a queue accepts now (R517, R522). -/
def opsOf (s : State) (mgmt : Bool) : List Nat :=
  if ¬ mgmt then dataOps else if s.lull then lullOps else dataOps ++ mgmtOps

/-- The peer of an Ethernet port has paused the priority on which the module sends (R509). -/
def pfcPaused (s : State) (p : Nat) : Bool := decide (s.cycles < smGet (fun _ => 0) s.pfcUntil p)

/-- The commands of a queue are served: data queues outside fail-safe and a stopped bring-up (R448, R478); the management
queue from B2 on (R478), and in lull mode on E0 alone (R449). While flow control pauses the port none starts: what it sends
could not leave (R509). -/
def hostServes (s : State) (q : QRef) : Bool :=
  let up := (qpGet s q.port.toNat (qpnOf (if q.mgmt then 256 else q.q.toNat))).st == .ready
  up && !pfcPaused s q.port.toNat && (if q.mgmt then s.entered && decide (2 ≤ rd s mgPg mg_PHASE) && (s.failSafe.isNone || (s.lull && q.port == 0))
    else s.failSafe.isNone && !s.stopped)

/-- A completion joins its queue. -/
def pushCpl (s : State) (k : Nat) (c : Cpl) : State :=
  match queueGet s k with
  | none => s
  | some h => queuePut s k (some { h with cpls := h.cpls ++ [c] })

/-- A command completes (R518, R519). -/
def complete (s : State) (k : Nat) (e : List Byte) (status detail : Nat) : State := pushCpl s k (cplOf e status detail)

/-- Status codes (R519). -/
def csOK : Nat := 0x00
def csBadOpcode : Nat := 0x01
def csBadField : Nat := 0x02
def csBadSeq : Nat := 0x03
def csDenied : Nat := 0x04
def csRefused : Nat := 0x05
def csBusy : Nat := 0x06
def csErrUe : Nat := 0x07
def csErrUnmapped : Nat := 0x08
def csRdmaErr : Nat := 0x09
def csQpError : Nat := 0x0A
def csDoorbellBad : Nat := 0x0B
def csFlushed : Nat := 0x0C

/-- A command stays in progress: its completion is held in its place (R515). -/
def holdCpl (s : State) (k : Nat) (e : List Byte) (op : Nat) : State :=
  pushCpl { s with mgmtBusy := some { op := op, key := k } } k { cplOf e csOK 0 with hold := .command }

/-- The completions that wait for `w` wait no longer. -/
def freeHeld (w : CplHold) (status detail : Nat) (cs : List Cpl) : List Cpl :=
  cs.map (fun c => if c.hold = w then { c with hold := .no, status := status, detail := detail } else c)

/-- The command in progress completes. -/
def finishCmd (s : State) (status detail : Nat) : State :=
  match s.mgmtBusy with
  | none => s
  | some r =>
    let s := { s with mgmtBusy := none }
    match queueGet s r.key with
    | some h => queuePut s r.key (some { h with cpls := freeHeld .command status detail h.cpls })
    | none => s

/-- The byte offset of the first reserved field before the arguments of an entry that is not 0 (R516). -/
def badEntry (e : List Byte) : Option Nat :=
  if leNat ((e.drop 1).take 1) / 4 ≠ 0 then some 1
  else if leNat ((e.drop 2).take 2) ≠ 0 then some 2
  else none

/-- The reserved field behind the arguments is not 0 (R516). -/
def badTail (e : List Byte) : Bool := leNat ((e.drop 0x3C).take 4) != 0

/-- The last completion of a queue is a BAD_FIELD. -/
def saidBadField (s : State) (k : Nat) : Bool :=
  match queueGet s k with
  | some h => (h.cpls.getLast?).any (fun c => c.status == 0x02)
  | none => false

/-- A command with FENCE starts only after every earlier command of its queue has completed (R515). -/
def fenced (h : HostQ) (e : List Byte) : Bool := bit (leNat ((e.drop 1).take 1)) 0 && !h.cpls.isEmpty

/-- A command that needs `n` bytes of LPDDR5X at `a`: an uncorrectable line completes it with ERR_UE (R280, R519). -/
def needMem (s : State) (k : Nat) (e : List Byte) (a n : Nat) (body : State → State) : State :=
  let r := lpCheck s a n .ok
  if r.1 then body r.2 else complete r.2 k e csErrUe rUe

/-- The next entry of a queue is fetched and, when it holds opcode `op`, executed (R513 to R516). A queue that is not
served, an empty or stopped one, and one whose next entry is another command have no such command to run. An entry that
lies in an uncorrectable line completes with ERR_UE, the model's choice (log entry 140). -/
def hostRun (q : QRef) (op : Nat) (body : State → Nat → List Byte → State) (s : State) : State :=
  let k := qref q
  match queueGet s k with
  | none => s
  | some h =>
    if ¬ hostServes s q ∨ h.stopped ∨ unstarted h = 0 then s
    else
      let e := ringEntry s h h.head
      let c := lpCheck s (h.ring + 64 * (h.head % 2 ^ h.n)) 64 .ok
      let s' := queuePut c.2 k (some { h with head := (h.head + 1) % 2 ^ 32 })
      let o := leNat (e.take 1)
      if ¬ c.1 then complete s' k e csErrUe rUe
      else if leNat ((e.drop 0x38).take 4) ≠ h.head then
        complete (queuePut c.2 k (some { h with head := (h.head + 1) % 2 ^ 32, stopped := true })) k e csBadSeq h.head
      else if ¬ (opsOf s q.mgmt).contains o then complete s' k e csBadOpcode o
      else if o ≠ op ∨ fenced h e then s
      else match badEntry e with
        | some f => complete s' k e csBadField f
        | none =>
          let t := body s' k e
          if badTail e ∧ ¬ saidBadField t k then complete s' k e csBadField 0x3C else t

/-- A host command that blows no fuse. -/
def hostCmd (q : QRef) (op : Nat) (body : State → Nat → List Byte → State) (s : State) : Out :=
  done s (hostRun q op body s)

/-- A command of the management queue that changes state answers BUSY while another one runs (R522). -/
def stateCmd (body : State → Nat → List Byte → State) (s : State) (k : Nat) (e : List Byte) : State :=
  match s.mgmtBusy with
  | some r => complete s k e csBusy r.op
  | none => body s k e

/-- A signature failed on a command (R537 to R539): object 1 to 6. -/
def sigFail (s : State) (obj : Nat) : State :=
  logReq (inc (raiseF s scPg sc_F_SIG_FAIL) scPg sc_SIG_FAILS 1) 2 0x0510 scPg (b1 obj)

/-- A command is refused for a reason that the manual does not number: DETAIL is a free value. -/
def refuseFree (s : State) (k : Nat) (e : List Byte) : State :=
  complete (freshFree s).2 k e csRefused ((freshFree s).1.toNat % 2 ^ 32)

/-- A command is denied for want of a key or an entropy source: DETAIL is a free value. -/
def denyFree (s : State) (k : Nat) (e : List Byte) : State :=
  complete (freshFree s).2 k e csDenied ((freshFree s).1.toNat % 2 ^ 32)

/-- A range of module addresses lies in LPDDR5X (R284). -/
def inLp (a n : Nat) : Bool := decide (a + n ≤ 2 ^ 39)

end Sys2Proof.Machine
end

