-- ==== Sys2Proof/Machine/Load.lean ====
section
/-! DEFINITION. Program images (R222 to R224, R492, R493), the tile remap (R444), and the distribution of a tile program
by the NoC and of firmware by Ethernet (R494 to R500). -/

namespace Sys2Proof.Machine

/-! ### The header -/

/-- A field of an image in LPDDR5X. -/
def img (s : State) (a o n : Nat) : Nat := leNat (memRead s.lp (a + o) n)

/-- Grade as its fuse byte. -/
def State.grade (s : State) : Nat := s.fuses.c0.grade.toNat

/-- The SHA-512 of the owner key that is installed (R523). -/
def ownerHash (s : State) : List Byte := match s.sec.owner with | some o => digestBytes o.key | none => []

/-- The header of an object at `a` of LPDDR5X is signed by the owner, whose key the object carries (R222, R523). -/
def ownerSigned (s : State) (a : Nat) (key : List Byte) : Bool :=
  s.sec.owner.isSome && signedBy (ownerHash s) key (memRead s.lp a 256) (memRead s.lp (a + 0x100) 512)

/-- The body of an image in LPDDR5X has the digest of its header (R222). -/
def bodyDigestOk (s : State) (a : Nat) : Bool :=
  digestBytes (memRead s.lp (a + 0x300) (img s a 0x3C 4)) == memRead s.lp (a + 0x40) 64

/-- The reason of the first header check that fails (R223, R525); 0 for none. -/
def headReason (s : State) (a len : Nat) (key : List Byte) : Nat :=
  if s.sec.owner.isNone then 2
  else if memRead s.lp a 8 ≠ [0x4A#8, 0x54#8, 0x38#8, 0x36#8, 0x30#8, 0x49#8, 0x4D#8, 0x47#8] ∨ img s a 8 2 ≠ 1 then 1
  else if ¬ ownerSigned s a key then 2
  else if len < 0x300 + img s a 0x3C 4 ∨ ¬ bodyDigestOk s a then 3
  else if img s a 0xA 1 ≠ s.grade then 4
  else if img s a 0xC 2 ≠ s.ntiles ∨ img s a 0xE 1 ≠ s.ncols ∨ img s a 0xF 1 ≠ 32 then 5
  else if img s a 0x10 4 ≠ 0x500000 ∨ img s a 0x14 1 ≠ 32
      ∨ memRead s.lp (a + 0x15) 9 ≠ [8#8, 4#8, 16#8, 32#8, 8#8, 8#8, 48#8, 16#8, 4#8]
      ∨ img s a 0x1E 2 ≠ 0x4000 ∨ img s a 0x20 2 ≠ 64 then 6
  else if img s a 0x22 2 % 64 ≠ 0 ∨ img s a 0x22 2 < 1024 ∨ 32768 < img s a 0x22 2 then 7
  else if 52736 < img s a 0x24 4 ∨ 8192 < img s a 0x28 4 ∨ 72100 < img s a 0x2C 4 ∨ 83300 < img s a 0x30 4 then 8
  else if bit (img s a 0xB 1) 1 ∧ (img s a 0x34 1 < 6 ∨ 14 < img s a 0x34 1 ∨ img s a 0x36 2 < 512 ∨ img s a 0x38 4 < 545) then 9
  else if ¬ bit (img s a 0xB 1) 0 ∨ 4 ≤ img s a 0xB 1 ∨ img s a 0x35 1 ≠ 0 ∨ (memRead s.lp (a + 0x80) 128).any (· != 0) then 10
  else 0

/-! ### The body -/

/-- A section of a program image (R492). -/
structure Sec where
  kind : Nat
  target : Nat
  dest : Nat
  off : Nat
  len : Nat
  rsvOk : Bool
deriving DecidableEq, Repr

/-- NSEC of a body at `b`. -/
def nsec (s : State) (b : Nat) : Nat := img s b 0 4

/-- The sections of a body at `b` (R492). -/
def secsOf (s : State) (b : Nat) : List Sec :=
  (List.range (min (nsec s b) 65536)).map (fun i =>
    let e := b + 16 + 32 * i
    { kind := img s e 0 1, target := img s e 2 2, dest := img s e 8 8, off := img s e 0x10 8, len := img s e 0x18 8,
      rsvOk := img s e 1 1 == 0 && img s e 4 4 == 0 })

/-- Reason 11 (R493); the directory's own header counts with it. -/
def secsKnown (s : State) (b : Nat) : Bool :=
  decide (1 ≤ nsec s b) && decide (nsec s b ≤ 65536) && (memRead s.lp (b + 4) 12).all (· == 0)
    && (secsOf s b).all (fun x => decide (1 ≤ x.kind) && decide (x.kind ≤ 7) && x.rsvOk)

/-- A section for one tile or for all. -/
def Sec.perTile (x : Sec) : Bool := decide (x.kind ≤ 3)

/-- The size of a section's destination (R492). -/
def destSize (s : State) (x : Sec) : Nat :=
  match x.kind with
  | 1 => 0x10000
  | 2 => 0x10000
  | 3 => 0x500000
  | 4 => 2 ^ 39
  | 5 => 4096 * 32
  | 6 => x.len
  | _ => 64 * s.ntiles

/-- The target is one that the kind allows (R492). -/
def targetOk (s : State) (x : Sec) : Bool :=
  if x.perTile then x.target == 0xFFFF || decide (x.target < s.ntiles) else x.target == 0xFFFE

/-- Two sections name one destination and overlap there. -/
def secOverlap (x y : Sec) : Bool :=
  decide (x.kind ≤ 5) && x.kind == y.kind && (!x.perTile || x.target == y.target || x.target == 0xFFFF || y.target == 0xFFFF)
    && decide (x.dest < y.dest + y.len) && decide (y.dest < x.dest + x.len)

/-- No two of a list overlap. -/
def noOverlap : List Sec → Bool
  | [] => true
  | x :: xs => xs.all (fun y => !secOverlap x y) && noOverlap xs

/-- Reason 12 (R493). -/
def secsFit (s : State) (b n : Nat) : Bool :=
  (secsOf s b).all (fun x => targetOk s x && x.off % 64 == 0 && x.len % 64 == 0 && decide (x.off + x.len ≤ n)
    && decide (x.dest + x.len ≤ destSize s x)) && noOverlap (secsOf s b)

/-- The register writes of kind 6: page, offset and value. -/
def imgWrites (s : State) (b : Nat) : List (Nat × Nat × Nat) :=
  ((secsOf s b).filter (fun x => x.kind == 6)).flatMap (fun x => (List.range (x.len / 8)).map (fun i =>
    let a := b + x.off + 8 * i
    (img s a 0 2, img s a 2 2, img s a 4 4)))

/-- A register that kind 6 may write (R493, reason 13). -/
def writeNamed (s : State) (n off : Nat) : Bool :=
  pageExists s n && off % 4 == 0 && (pageFields n off).any (fun f => f.ty == .rw) &&
    (match pageBlk n with
      | some .sy => decide (0x300 ≤ off) && decide (off < 0x3C0)
      | some .tk => decide (0x040 ≤ off) && decide (off < 0x080)
      | some .cx => decide (0x040 ≤ off)
      | some .nm => decide (0x040 ≤ off)
      | some .tw => decide (0x040 ≤ off)
      | some .lp => decide (0x080 ≤ off) && decide (off ≤ 0x088)
      | some .vx => off == 0x048 || off == 0x04C
      | _ => false)

/-- Reason 14 (R493). -/
def oneDigest (s : State) (b : Nat) : Bool :=
  match (secsOf s b).filter (fun x => x.kind == 7) with
  | [x] => x.len == 64 * s.ntiles
  | _ => false

/-- The stream-table entry that 32 bytes spell (R322). -/
def streamOf (bs : List Byte) : StreamEnt :=
  let f := fun o n => leNat ((bs.drop o).take n)
  { kind := f 0 1, group := f 1 1 % 16, credits := f 2 2, desc := f 4 4, land := f 8 8, size := f 0x10 4,
    sig := BitVec.ofNat 64 (f 0x18 8) }

/-- The stream-table entries of an image, with their indices. -/
def imgStreams (s : State) (b : Nat) : List (Nat × StreamEnt) :=
  ((secsOf s b).filter (fun x => x.kind == 5)).flatMap (fun x => (List.range (x.len / 32)).map (fun i =>
    (x.dest / 32 + i, streamOf (memRead s.lp (b + x.off + 32 * i) 32))))

/-- A stream lands here through a port group (R322). Both ends hold the entry and no field of it says which end this is:
one whose SIG names another module is a stream that this module sends, and every other one counts, the model's choice
(log entry 142). A KIND CXU stream is of the own tiles and comes through no port (R329). -/
def landsHere (s : State) (e : StreamEnt) : Bool :=
  e.kind == 1 && (e.sig == 0 || bits e.sig.toNat 30 28 == s.module)

/-- Reason 16 (R322, R493). -/
def creditsOk (s : State) (b : Nat) : Bool :=
  (List.range 16).all (fun g =>
    decide ((((imgStreams s b).filter (fun x => landsHere s x.2 && x.2.group == g)).map (·.2.credits)).sum ≤ 8192))

/-- The value that the image's register writes leave in a register, else the present one. -/
def imgReg (s : State) (b n off : Nat) : Nat :=
  match ((imgWrites s b).filter (fun w => w.1 == n && w.2.1 == off)).getLast? with
  | some w => w.2.2
  | none => regW s n off

/-- Bytes that the kind 4 sections place at a module address. -/
def imgLp (s : State) (b a n : Nat) : Option (List Byte) :=
  ((secsOf s b).find? (fun x => x.kind == 4 && decide (x.dest ≤ a) && decide (a + n ≤ x.dest + x.len))).map
    (fun x => memRead s.lp (b + x.off + (a - x.dest)) n)

/-- Reason 17 (R493). -/
def descsOk (s : State) (b : Nat) : Bool :=
  let base := imgReg s b cxPg 0x044 / 64 * 64 + imgReg s b cxPg 0x048 % 128 * 2 ^ 32
  (List.range (imgReg s b cxPg 0x040 % 4096)).all (fun i =>
    match imgLp s b (base + 64 * i) 64 with
    | some bs => !(parseDesc bs).bad && decide ((parseDesc bs).bufOff + cxBytes (parseDesc bs) ≤ 2 ^ 24)
    | none => true)

/-- The reason of the first body check that fails before the transfer (R493); 0 for none. -/
def bodyReason (s : State) (b n : Nat) : Nat :=
  if ¬ secsKnown s b then 11
  else if ¬ secsFit s b n then 12
  else if ¬ (imgWrites s b).all (fun w => writeNamed s w.1 w.2.1) then 13
  else if ¬ oneDigest s b then 14
  else if ¬ creditsOk s b then 16
  else if ¬ descsOk s b then 17
  else 0

/-! ### Payloads -/

/-- The sections of kinds 1 to 3 with their places in the sequence that the transfer splits into segments (R499). -/
def placed : Nat → List Sec → List (Nat × Sec)
  | _, [] => []
  | p, x :: xs => if x.perTile then (p, x) :: placed (p + x.len) xs else placed p xs

/-- The bytes of that sequence. -/
def payLen (xs : List Sec) : Nat := ((xs.filter Sec.perTile).map (·.len)).sum

/-- A section goes to a tile. -/
def Sec.for_ (x : Sec) (t : Tile) : Bool := x.target == 0xFFFF || x.target == t.toNat

/-- Words stored into an instruction store from byte offset `o` on. -/
def imWrite : SMap W32 → Nat → List Byte → SMap W32
  | m, o, a :: b :: c :: d :: bs =>
    imWrite (smPut (fun _ => 0) m (o / 4) (BitVec.ofNat 32 (leNat [a, b, c, d]))) (o + 4) bs
  | m, _, _ => m

/-- The load port writes bytes of a section from its offset `o` on (R499). -/
def putSec (s : State) (t : Tile) (x : Sec) (o : Nat) (bs : List Byte) : State :=
  match x.kind with
  | 1 => s.modTile t (fun ts => { ts with imem := imWrite ts.imem (x.dest + o) bs })
  | 2 => s.modTile t (fun ts => dsWrite ts (x.dest + o) bs)
  | _ => spWrite s (s.ptile t.toNat) (x.dest + o) bs

/-- Bytes of a NoC segment (R494). -/
def segSize : Nat := 4096

/-- Segment `n` holds bytes of the section placed at `p`. -/
def segHits (n : Nat) (p : Nat × Sec) : Bool :=
  decide (p.1 < (n + 1) * segSize) && decide (n * segSize < p.1 + p.2.len)

/-- A segment written by a tile's load port. -/
def putSegment (s : State) (t : Tile) (xs : List Sec) (n : Nat) (bs : List Byte) : State :=
  forEach ((placed 0 xs).filter (fun p => p.2.for_ t && segHits n p)) (fun p s =>
    let lo := max (n * segSize) p.1
    let hi := min ((n + 1) * segSize) (p.1 + p.2.len)
    putSec s t p.2 (lo - p.1) ((bs.drop (lo - n * segSize)).take (hi - lo))) s

/-- The segments of a payload (R494). -/
def segments (xs : List Sec) : List Nat := List.range ((payLen xs + segSize - 1) / segSize)

/-- The segments that a tile needs (R494). -/
def needed (xs : List Sec) (t : Tile) : List Nat :=
  (segments xs).filter (fun n => (placed 0 xs).any (fun p => p.2.for_ t && segHits n p))

/-- The bytes of segment `n` of the image whose body lies at `b` (R494): the last one is padded with zeros. -/
def segBytes (s : State) (b : Nat) (xs : List Sec) (n : Nat) : List Byte :=
  padTo segSize (((placed 0 xs).filter (segHits n)).flatMap (fun p =>
    let lo := max (n * segSize) p.1
    let hi := min ((n + 1) * segSize) (p.1 + p.2.len)
    memRead s.lp (b + p.2.off + (lo - p.1)) (hi - lo)))

/-- What a tile's load port reads back of a section (R499). -/
def readSec (s : State) (t : Tile) (x : Sec) : List Byte :=
  match x.kind with
  | 1 => (List.range (x.len / 4)).flatMap (fun i => leBytes 4 (smGet (fun _ => (0 : W32)) (s.tile t).imem (x.dest / 4 + i)).toNat)
  | 2 => dsRead (s.tile t) x.dest x.len
  | _ => spRead s (s.ptile t.toNat) x.dest x.len

/-- The digest that the kind 7 section gives for a tile (R492, R499). -/
def tileDigest (s : State) (b : Nat) (xs : List Sec) (t : Tile) : List Byte :=
  match xs.find? (fun x => x.kind == 7) with
  | some x => memRead s.lp (b + x.off + 64 * t.toNat) 64
  | none => []

/-- The load port finds the digest of its payload right (R499): the sections that it received, in directory order. A spool
word beyond correction does not read back (R274). -/
def payloadOk (s : State) (b : Nat) (xs : List Sec) (t : Tile) : Bool :=
  let mine := xs.filter (fun x => x.perTile && x.for_ t)
  !(mine.any (fun x => x.kind == 3 && spIsBad s (s.ptile t.toNat) x.dest x.len))
    && digestBytes (mine.flatMap (readSec s t)) == tileDigest s b xs t

/-- A tile's whole payload, reloaded from the image in LPDDR5X (R444); the image has been read whole (R280). -/
def reloadTile (s : State) (t : Tile) (b : Nat) : State :=
  forEach ((secsOf s b).filter (fun x => x.perTile && x.for_ t))
    (fun x s => putSec s t x 0 (memRead s.lp (b + x.off) x.len)) s

/-! ### The tile remap -/

/-- The unusable physical columns of a row by the fuses and the repair log (R16, R486). -/
def unusableBy (s : State) (y : Nat) : BitVec 36 :=
  BitVec.ofNat 36 (((List.range 36).filter (rowBadNow s y)).map (fun x => 2 ^ x)).sum

/-- The map of a row is computed again (R16). -/
def mapRow (s : State) (y : Nat) : State :=
  { s with unusable := smPut (fun _ => 0) s.unusable y (unusableBy s y) }

/-- The logical tiles of a row (R4). -/
def rowTiles (s : State) (y : Nat) : List Tile := (List.range s.ncols).map (fun x => BitVec.ofNat 11 (y * s.ncols + x))

/-- A tile as a bring-up leaves it: on, not fenced, its stores empty. Its next request takes a new tag, so that no answer to
an old one can be its. -/
def freshTile (s : State) (t : Tile) : State :=
  (setW s (tlPg t) tl_STATUS_FENCED.off 0).setTile t { TileSt.reset with tagNo := (s.tile t).tagNo }

/-- A row of which the map still fills every logical column. -/
def rowFits (s : State) (y : Nat) : Bool := decide (s.ncols ≤ (s.usableCols y).length)

/-- The row is mapped again and its tiles come up (R444 steps 2 and 3), but for one that failed without a spare: it stays
fenced (R20). -/
def remapRow (s : State) (y : Nat) : State :=
  let s := mapRow s y
  if rowFits s y then
    forEach ((rowTiles s y).filter (fun t => !s.failed.contains (s.ptile t.toNat))) (fun t s => freshTile s t) s
  else s

/-- The management core resets the tiles of a row in service: LOST for each, and the lines that they take part in break
(R245, R251). -/
def resetRow (s : State) (y : Nat) : State :=
  remapRow (forEach (rowTiles s y)
    (fun t s => breakTileLines (sendLost (markLost s s.module (some t)) s.module (some t)) t) s) y

/-- The program image is reloaded into a row (R444 step 4); one with an uncorrectable line is not (R280). -/
def reloadRow (s : State) (y : Nat) : State :=
  match s.image with
  | none => s
  | some i =>
    let r := lpCheck s i.2.1 i.2.2 .ok
    if r.1 then forEach (rowTiles s y) (fun t s => reloadTile s t (i.2.1 + 0x300)) r.2 else r.2

/-! ### Loading -/

/-- A load is refused (R224, R493). -/
def refuseLoad (s : State) (r : Nat) : State :=
  logReq (raiseF (wr s mgPg mg_LOAD_REASON r) mgPg mg_F_LOAD_REFUSED) 3 0x0801 mgPg (b1 r)

/-- The management core clears BROKEN of line k0 (R251, R500). -/
def wholeLine (s : State) : State := quietPage (setW s tkPg pg_FAULT.off (setBits (regW s tkPg pg_FAULT.off) 0 0 0)) tkPg

/-- PART of line k0 on exactly the target tiles, none of them arrived, the line whole (R500). -/
def armLine (s : State) (ts : List Tile) : State :=
  let s := forEach s.tileList (fun t s => wr s (syPg t) sy_TACK_PART (setBits (rd s (syPg t) sy_TACK_PART) 0 0 (b2n (ts.contains t)))) s
  wholeLine (clearPend s 0)

/-- The sections of kinds 4 and 5 go to LPDDR5X and to the stream table (R322, R492). -/
def putModule (s : State) (b : Nat) : State :=
  let st := imgStreams s b
  let s := forEach ((secsOf s b).filter (fun x => x.kind == 4)) (fun x s => lpWrite s x.dest (memRead s.lp (b + x.off) x.len)) s
  forEach st (fun x s => { s with streams := smPut (fun _ => StreamEnt.none_) s.streams x.1 x.2 }) s

/-- The sections of the image in transfer. -/
def xferSecs (s : State) (x : Xfer) : List Sec := secsOf s (x.addr + 0x300)

/-- A round of the transfer (R494, R495, R499): the management core sends the segments `ns`, each once to the targets that
need it, and END to every target. What LPDDR5X cannot give, it does not send (R280). -/
def sendRound (s : State) (x : Xfer) (ns : List Nat) : State :=
  let xs := xferSecs s x
  let r := lpCheck s x.addr x.len .ok
  let s := if r.1 then
      forEach ns (fun n s =>
        send s (.segment (x.targets.filter (fun t => (needed xs t).contains n)) n (segBytes s (x.addr + 0x300) xs n))) r.2
    else r.2
  forEach x.targets (fun t s => send s (.endRound t x.round)) s

/-- The transfer of an accepted image begins (R499, R500): round 0 sends every segment. -/
def beginXfer (s : State) (a len : Nat) : State :=
  let s := wr (wr (putModule s (a + 0x300)) mgPg mg_ROUND 0) mgPg mg_LAGGARDS 0
  let s := armLine s s.tileList
  let x : Xfer := { addr := a, len := len, round := 0, targets := s.tileList, have_ := [], answered := [] }
  sendRound { s with image := none, xfer := some x } x (segments (xferSecs s x))

/-- LOAD (R223, R224, R493, R499, R525): without an owner key it is refused with reason 2; a module that is not ready
accepts no image (R450, R476). -/
def execLoad (q : QRef) (key : List Byte) (s : State) : Out :=
  hostCmd q 0x44 (stateCmd fun s k e =>
    let a := arg e 0
    if s.sec.owner.isNone then complete (refuseLoad s 2) k e csRefused 2
    else if rd s mgPg mg_PHASE < 8 ∨ s.stopped then refuseFree s k e
    else if ¬ inLp a (arg e 1) then complete s k e csErrUnmapped 0
    else needMem s k e a (arg e 1) fun s =>
      let h := headReason s a (arg e 1) key
      let r := if h ≠ 0 then h else bodyReason s (a + 0x300) (img s a 0x3C 4)
      let s := if h = 2 then sigFail s 1 else s
      if r ≠ 0 then complete (refuseLoad s r) k e csRefused r
      else beginXfer (holdCpl s k e 0x44) a (arg e 1)) s

/-! ### The transfer -/

/-- The segments that a tile still misses. -/
def missing (s : State) (x : Xfer) (t : Tile) : List Nat :=
  (needed (xferSecs s x) t).filter (fun n => !x.have_.contains (t, n))

/-- A firmware segment's place: flash in network recovery (R491), else the staging area (R498). -/
def stageBase (s : State) : Nat := rd s mgPg mg_STAGE_LO * 2 ^ 27 + rd s mgPg mg_STAGE_HI * 2 ^ 32

/-- The size of the image area of flash, and of the staging area (R487, R498). -/
def fwArea : Nat := 0x08000000

/-! ### Datagrams (R497) -/

/-- A datagram of a transfer on Ethernet (R497): its header of 32 bytes, and its data. -/
def xferDatagram (type round : Nat) (xferId : W64) (index count : Nat) (data : List Byte) : List Byte :=
  [0x4A#8, 0x54#8, 0x53#8, 0x47#8] ++ b1 type ++ b1 round ++ b2 0 ++ leBytes 8 xferId.toNat ++ b4 index ++ b4 count
    ++ b4 data.length ++ b4 0 ++ data

/-- Rising segment indexes as ranges of a first index and a count (R495). -/
def missingRanges : List Nat → List (Nat × Nat)
  | [] => []
  | n :: ns =>
    match missingRanges ns with
    | r :: rs => if r.1 = n + 1 then (n, r.2 + 1) :: rs else (n, 1) :: r :: rs
    | [] => [(n, 1)]

/-- The receiver's bitmap of `count` segments that are missing `ns` (R494, R495): bit k of byte j is segment 8j + k. -/
def xferBitmap (count : Nat) (ns : List Nat) : List Byte :=
  (List.range ((count + 7) / 8)).map (fun j =>
    BitVec.ofNat 8 ((List.range 8).foldl
      (fun a k => a + (if 8 * j + k < count ∧ ¬ ns.contains (8 * j + k) then 2 ^ k else 0)) 0))

/-- The data of a STATUS datagram (R495, R497): the ranges while they are at most 512, else the bitmap. The widths of a
range's two numbers and the bit order of the bitmap are the model's choice (log entry 156). -/
def statusBytes (count : Nat) : XferStatus → List Byte
  | .incomplete ns =>
    let rs := missingRanges ns
    let asMap := decide (512 < rs.length)
    b1 0 ++ List.replicate 3 0 ++ b4 ns.length ++ b1 (b2n asMap) ++ List.replicate 7 0
      ++ (if asMap then xferBitmap count ns else rs.flatMap (fun r => b4 r.1 ++ b4 r.2))
  | .digestOk => b1 1 ++ List.replicate 15 0
  | .digestBad => b1 2 ++ List.replicate 15 0

/-- A datagram of a firmware transfer as its header gives it (R497). -/
structure Dgram where
  type : Nat
  round : Nat
  id : W64
  index : Nat
  count : Nat
  data : List Byte
deriving DecidableEq, Repr

/-- The datagram that bytes spell (R497): MAGIC, a LEN that is its data, and an image that its area holds, with the segment
in it. What fails these is no datagram of a transfer. -/
def readDgram (bs : List Byte) : Option Dgram :=
  let f := fun o n => leNat ((bs.drop o).take n)
  let d : Dgram := { type := f 4 1, round := f 5 1, id := BitVec.ofNat 64 (f 8 8), index := f 0x10 4, count := f 0x14 4,
                     data := bs.drop 32 }
  if bs.take 4 = [0x4A#8, 0x54#8, 0x53#8, 0x47#8] ∧ 32 ≤ bs.length ∧ f 0x18 4 = d.data.length ∧ d.data.length ≤ 8192
      ∧ d.round ≤ 8 ∧ 0 < d.count ∧ 8192 * d.count ≤ fwArea ∧ d.index < d.count then some d
  else none

/-- The datagram of type `ty` that arrives on a port. -/
def takeDgram (s : State) (port : BitVec 2) (ty : Nat) (bs : List Byte) : Option Dgram :=
  if ethUp s port then (readDgram bs).filter (fun d => d.type == ty) else none

/-- The module takes part in a transfer of firmware: in network recovery (R491), or while its firmware runs (R498). -/
def takesFirmware (s : State) : Bool := s.netRecovery.isSome || (s.fwEntry.isSome && s.failSafe.isNone)

/-- The transfer that a datagram belongs to, by its XFER_ID and COUNT: one that the module does not know begins with an
empty bitmap (R494, R497), and network recovery then erases the image area (R491). That a new XFER_ID ends the transfer
before it is the model's choice (log entry 156). -/
def joinXfer (s : State) (d : Dgram) : RxXfer × State :=
  match s.rxXfer.filter (fun x => x.id == d.id && x.count == d.count) with
  | some x => (x, s)
  | none => ({ id := d.id, count := d.count, have_ := [], digestOk := false },
      if s.netRecovery.isSome then { s with flash := s.flash.filter (fun c => decide (fwArea ≤ c.1)) } else s)

/-- A firmware segment arrives at the module (R491 step 3, R494, R498). -/
def recvFirmware (s : State) (d : Dgram) : State :=
  let j := joinXfer s d
  let have_ := if j.1.have_.contains d.index then j.1.have_ else j.1.have_ ++ [d.index]
  let t := { j.2 with rxXfer := some { j.1 with have_ := have_ } }
  let a := stageBase s + 8192 * d.index
  if s.netRecovery.isSome then flWrite t (8192 * d.index) (padTo 8192 d.data)
  else if lpSilent s a 8192 then s
  else (lpStore t a (padTo 8192 d.data) .ok).2

/-- The load port of a tile that is OFF answers MB_ERR_OFF (R18, R261). -/
def portOff (s : State) : State := send s (.remoteRsp s.module none none rOff)

/-- A segment under way to tile `t`. -/
def segFor (t : Tile) (n : Nat) : NetMsg → Bool
  | .segment ts m _ => m == n && ts.contains t
  | _ => false

/-- The bytes of a segment that reaches tile `t`; it stays under way to its other tiles. -/
def takeSegment (s : State) (t : Tile) (n : Nat) : Option (List Byte) × State :=
  match takeMsg s (segFor t n) with
  | (some (.segment ts _ bs), s') =>
    (some bs, if (ts.erase t).isEmpty then s' else send s' (.segment (ts.erase t) n bs))
  | (_, _) => (none, s)

/-- A segment at the load port of a tile (R18, R494, R499): one that the tile does not need, or that arrives twice, changes
nothing. -/
def segmentAt (s : State) (t : Tile) (n : Nat) (bs : List Byte) : State :=
  match s.xfer with
  | some x =>
    if ¬ x.targets.contains t ∨ ¬ (missing s x t).contains n then s
    else putSegment { s with xfer := some { x with have_ := x.have_ ++ [(t, n)] } } t (xferSecs s x) n bs
  | none => s

/-- SEGMENT (R18, R494, R497 to R499). -/
def execSegment (m : SegSrc) (s : State) : Out :=
  match m with
  | .net port bs => done s <| match takeDgram s port 1 bs with
      | some d => if takesFirmware s then recvFirmware s d else s
      | none => s
  | .noc t n => onTile s t <| done s <| match takeSegment s t n with
      | (some bs, s') => if s.tileOff t then portOff s' else segmentAt s' t n bs
      | (none, _) => s

/-! ### Rounds -/

/-- Bytes of the image that the module has received: in flash in network recovery (R491), else in the staging area
(R498). -/
def rxBytes (s : State) (o n : Nat) : List Byte :=
  if s.netRecovery.isSome then memRead s.flash o n else memRead s.lp (stageBase s + o) n

/-- The most that the body of a firmware image has (R489). -/
def fwBodyMax : Nat := 0x07FFFD00

/-- The header of a firmware image is signed by the vendor, whose key the image carries (R489, R523). -/
def vendorSigned (s : State) (image : Nat → Nat → List Byte) (key : List Byte) : Bool :=
  signedBy s.vendorHash key (image 0 256) (image 0x100 512)

/-- The body of a firmware image has the digest of its header (R489, R490). -/
def fwDigestOk (image : Nat → Nat → List Byte) : Bool :=
  let n := leNat (image 0x3C 4)
  decide (n ≤ fwBodyMax) && digestBytes (image 0x300 n) == image 0x40 64

/-- The module's answer to END (R495, R497): the signature is checked before DIGEST_OK is reported. -/
def moduleStatus (s : State) (x : RxXfer) (key : List Byte) : XferStatus :=
  let m := (List.range x.count).filter (fun n => !x.have_.contains n)
  if ¬ m.isEmpty then .incomplete m
  else if vendorSigned s (rxBytes s) key ∧ 0x300 + leNat (rxBytes s 0x3C 4) ≤ 8192 * x.count ∧ fwDigestOk (rxBytes s) then .digestOk
  else .digestBad

/-- The staging area reads whole (R280). -/
def stageCheck (s : State) (x : RxXfer) : Bool × State :=
  if s.netRecovery.isSome then (true, s) else lpCheck s (stageBase s) (8192 * x.count) .ok

/-- The module answers END with STATUS to its sender (R495, R497); a bad digest clears its bitmap. -/
def endAtModule (s : State) (port : BitVec 2) (d : Dgram) (key : List Byte) : State :=
  let j := joinXfer s d
  let r := stageCheck j.2 j.1
  let st := if r.1 then moduleStatus r.2 j.1 key else .digestBad
  let x := if st = .digestBad then { j.1 with have_ := [], digestOk := false } else { j.1 with digestOk := st == .digestOk }
  send { r.2 with rxXfer := some x } (.datagram port.toNat (xferDatagram 3 d.round d.id 0 d.count (statusBytes d.count st)))

/-- The load port of a tile answers END with STATUS (R495, R499); a bad digest clears its bitmap. -/
def endAtTile (s : State) (t : Tile) : State :=
  match s.xfer with
  | none => s
  | some x =>
    if ¬ x.targets.contains t then s
    else
      let m := missing s x t
      if ¬ m.isEmpty then send s (.status t (.incomplete m))
      else if payloadOk s (x.addr + 0x300) (xferSecs s x) t then send s (.status t .digestOk)
      else send { s with xfer := some { x with have_ := x.have_.filter (fun c => c.1 != t) } } (.status t .digestBad)

/-- An END under way to tile `t`. -/
def endFor (t : Tile) : NetMsg → Bool
  | .endRound u _ => u == t
  | _ => false

/-- END (R491, R495, R497, R499). -/
def execEndRound (m : EndSrc) (s : State) : Out :=
  match m with
  | .net port bs key => done s <| match takeDgram s port 2 bs with
      | some d => if takesFirmware s then endAtModule s port d key else s
      | none => s
  | .noc t => onTile s t <| done s <| match takeMsg s (endFor t) with
      | (some _, s') => if s.tileOff t then portOff s' else endAtTile s' t
      | (none, _) => s

/-- A tile has reported DIGEST_OK. -/
def reported (x : Xfer) (t : Tile) : Bool := x.answered.contains (t, .digestOk)

/-- STATUS (R495, R500): the management core takes a tile's answer; DIGEST_OK is an ARRIVE on k0. -/
def execStatus (t : Tile) (st : XferStatus) (s : State) : Out :=
  onTile s t <| done s <|
    let s := dropMsg s (fun m => m == .status t st)
    match s.xfer with
    | none => s
    | some x =>
      if ¬ x.targets.contains t ∨ reported x t then s
      else
        let y := { x with answered := x.answered.filter (fun a => a.1 != t) ++ [(t, st)] }
        let s := { s with xfer := some y }
        if st = .digestOk then setPend s t 0 else s

/-- The segments that the sender takes a target as missing (R495): those that it names; every one that it needs where its
bitmap is clear or it has not answered. -/
def takenMissing (s : State) (x : Xfer) (t : Tile) : List Nat :=
  match x.answered.find? (fun a => a.1 == t) with
  | some (_, .incomplete ns) => ns
  | some (_, .digestOk) => []
  | _ => needed (xferSecs s x) t

/-- A laggard is fenced; its fence breaks k0, which the management core makes whole again (R496, R500). -/
def fenceLaggard (t : Tile) (s : State) : State :=
  let s := wr (inc (raiseF s mgPg mg_F_LAGGARD) mgPg mg_LAGGARDS 1) mgPg mg_LAG_TILE t.toNat
  let s := fenceTile s t
  let s := wr s (syPg t) sy_TACK_PART (setBits (rd s (syPg t) sy_TACK_PART) 0 0 0)
  wholeLine s

/-- The rows of laggards come up again and receive their payloads as a new transfer (R496). -/
def retryRows (s : State) (x : Xfer) (ys : List Nat) : State :=
  let s := forEach ys (fun y s => resetRow s y) s
  let ts := ys.flatMap (rowTiles s)
  let keep := x.answered.filter (fun a => a.2 == .digestOk && !ts.contains a.1)
  let y := { x with round := 0, targets := x.targets.filter (fun t => !ts.contains t) ++ ts,
                    have_ := x.have_.filter (fun c => !ts.contains c.1), answered := keep }
  let s := armLine (wr { s with xfer := some y } mgPg mg_ROUND 0) y.targets
  let s := forEach (keep.map (·.1)) (fun t s => setPend s t 0) s
  sendRound s { y with targets := ts } ((ts.flatMap (needed (xferSecs s y))).dedup)

/-- The status window after round 8 closes over laggards (R496). -/
def laggards (s : State) (x : Xfer) (ls : List Tile) : State :=
  let ys := (ls.map (fun t => t.toNat / s.ncols)).dedup
  let short := ys.any (fun y => decide (spareLeft s y < (ls.filter (fun t => t.toNat / s.ncols == y)).length))
  let s := forEach ls fenceLaggard s
  if short then finishCmd (refuseLoad { s with xfer := none } 15) csRefused 15 else retryRows s x ys

/-- STATUS_WINDOW (R495, R496): a receiver that has not answered misses every segment; the next round resends the union of
what is missing. -/
def execStatusWindow (s : State) : Out :=
  done s <|
    match s.xfer with
    | none => s
    | some x =>
      let ls := x.targets.filter (fun t => !reported x t)
      if ls.isEmpty then s
      else if x.round < 8 then
        let y := { x with round := x.round + 1, answered := x.answered.filter (fun a => a.2 == .digestOk) }
        sendRound (wr { s with xfer := some y } mgPg mg_ROUND y.round) { y with targets := ls }
          ((ls.flatMap (takenMissing s x)).dedup)
      else laggards s x ls

/-- A transfer is complete when line k0 completes (R224, R500): the register writes of kind 6, BASTE_EN and BASTE_N of
every tile, and the ease. -/
def finishLoad (s : State) (x : Xfer) : State :=
  let b := x.addr + 0x300
  let en := b2n (bit (img s x.addr 0xB 1) 1)
  let n := img s x.addr 0x34 1
  let ws := imgWrites s b
  let ease := img s x.addr 0x22 2
  let hdr := memRead s.lp x.addr 256
  let s := forEach ws (fun w s => (pageStore .mgmt s w.1 w.2.1 w.2.2).2) s
  let s := forEach s.tileList (fun t s => wr (wr s (mxPg t) mx_CFG_BASTE_EN en) (mxPg t) mx_CFG_BASTE_N (clampN 6 14 n)) s
  let s := updatePartner (wr s gsPg gs_EASE ease)
  finishCmd { s with image := some (hdr, x.addr, x.len), xfer := none } csOK 0

/-- TACK_LINE_COMPLETE (R248, R252, R500). -/
def execTackLineComplete (k : BitVec 4) (s : State) : Out :=
  done s <|
    if ¬ lineReady s k.toNat then s
    else
      let s := completeLine s k.toNat
      match s.xfer with
      | some x => if k = 0 then finishLoad s x else s
      | none => s

/-- RUN_ALL (R166, R390, R500, R507): BB_SEED goes to VX_SEED of every tile, and every tile of the map starts. -/
def runAllOp (s : State) : State :=
  let lo := rd s bbPg bb_SEED_LO
  let hi := rd s bbPg bb_SEED_HI
  let s := forEach s.tileList (fun t s => wr (wr s (vxPg t) vx_SEED_LO lo) (vxPg t) vx_SEED_HI hi) s
  forEach (beginProgram s).tileList (fun t s => startTile s t) (beginProgram s)

/-- RUN_ALL before k0 has completed, or while PHASE is below 8, is ignored (R507). -/
def runAllRefused (s : State) : Bool := decide (rd s mgPg mg_PHASE < 8) || s.image.isNone || s.xfer.isSome

/-- RUN_ALL. -/
def execRunAll (s : State) : Out :=
  done s (if ¬ locked s mgPg ∧ runAllRefused s then wrej s mgPg else actWrite s mgPg runAllOp)

end Sys2Proof.Machine
end

