-- ==== Sys2Proof/Machine/Recovery.lean ====
section
/-! DEFINITION. Recovery of a job (R424, R436, R442 to R446), in-field test (R427, R429 to R433), fail-safe (R447, R448)
and lull mode (R449). -/

namespace Sys2Proof.Machine

/-! ### Holding and draining -/

/-- The newer of a record and the newest so far, of severity ERROR or FATAL. -/
def newerRec (b : Option LogRec) (c : Nat × Option LogRec) : Option LogRec :=
  match c.2 with
  | none => b
  | some r => if r.sev < 3 then b else match b with
    | none => some r
    | some x => if x.seq < r.seq then some r else some x

/-- The newest fault of severity ERROR or FATAL: the code and payload of the last request, else of the ring's newest. -/
def newestFault (s : State) : Nat × List Byte :=
  match s.logQ.reverse.find? (fun q => decide (3 ≤ q.sev)) with
  | some q => (q.code, q.payload)
  | none => match s.ring.foldl newerRec none with
    | some r => (r.code, r.payload)
    | none => (0, [])

/-- A physical tile's test state. -/
def itGet (s : State) (p : Nat) : ItTile := smGet (fun _ => ItTile.reset) s.it p

/-- Set it. -/
def itPut (s : State) (p : Nat) (x : ItTile) : State := { s with it := smPut (fun _ => ItTile.reset) s.it p x }

/-- A test round of a physical tile is due (R430, R431): the stored content takes effect. -/
def itStart (s : State) (p : Nat) : State :=
  let x := itGet s p
  wr (itPut { s with pkgActive := s.pkgStored } p { x with due := some (x.due.getD (rd s evPg ev_SEC)), percent := 0, state := 0 })
    itPg it_VER s.itStored

/-- The MXE set of the test content is asked of a physical tile (R427). -/
def askMxe (p : Nat) (s : State) : State := itPut s p { itGet s p with mxe := 1 }

/-- The two tiles of a baste mismatch are to be tested by the MXE set (R427). -/
def testPair (s : State) (a b : Nat) : State :=
  let x := min (s.ptile a) (s.ptile b)
  let y := max (s.ptile a) (s.ptile b)
  let s := askMxe y (askMxe x s)
  { s with pairTest := s.pairTest.filter (· != (x, y)) ++ [(x, y)] }

/-- A NUM ERROR that comes again on the replay, with the same code in the same step (R443). -/
def numAgain (s : State) (code : Nat) : State :=
  if code / 256 ≠ 4 then s
  else
    let key := (code, rd s bbPg bb_STEP)
    let s := if s.numFault = some key then
        { s with recovery := s.recovery.map (fun r => { r with again := true }) }
      else s
    { s with numFault := some key }

/-- JOB_HOLD (R436, R442 step 1): for a fault of this module, or on the arrival of the packet at a port. -/
def execJobHold (from_ : Option (BitVec 6)) (s : State) : Out :=
  done s <|
    match from_ with
    | some p => if rd s gsPg gs_JOB_HOLD = 1 then s else holdJob s 0 (some p.toNat)
    | none =>
      let f := newestFault s
      let s := numAgain (holdJob s f.1 none) f.1
      if f.1 = 0x0002 then testPair s (leNat (f.2.take 2)) (leNat ((f.2.drop 2).take 2)) else s

/-- Nothing of the job is in flight (R442 step 2). -/
def isDrained (s : State) : Bool :=
  s.cx.isEmpty && (List.range 64).all (fun p => !jobPort s p || (portSt s p).replay.isEmpty)

/-- DRAIN_COMPLETE (R442 step 2, R443). -/
def execDrainComplete (s : State) : Out :=
  done s <| if isDrained s then { s with recovery := s.recovery.map (fun r => { r with drained := true }) } else s

/-! ### Restart -/

/-- The sections that record `i` of the home region commits. -/
def homeSecs (s : State) (i : Nat) : List (List Byte) :=
  let b := homeBase s
  (List.range (min (recNsec s b i) 8192)).map (fun j => secEntry s (tableAddr b (recTable s b i % 2)) j)

/-- The home record of step `c` (R442 step 5), every section of which can be read (R443). -/
def homeRec (s : State) (c : Nat) : Option Nat :=
  (List.range 2).find? (fun i => recValid s (homeBase s) i && recStep s (homeBase s) i == c
    && (homeSecs s i).all (fun e => !lpIsBad s (homeBase s + secOff e) (secLen e)))

/-- The tracker entries of the restored commit (R377): its section of KIND 4 goes to the table image and is loaded. -/
def restoreNm (s : State) (i : Nat) : State :=
  match (homeSecs s i).find? (fun e => secKind e == 4) with
  | some e => loadOp (lpStore s (nmTable s) (memRead s.lp (homeBase s + secOff e) (min (secLen e) 65536)) .ok).2
  | none => s

/-- The fault is contained and its party replaced (R442 steps 3 and 4): no tile of the map is fenced, and every job port that
is down has another port to its peer. -/
def isContained (s : State) : Bool :=
  s.tileList.all (fun t => rd s (tlPg t) tl_STATUS_FENCED == 0)
    && (List.range 64).all (fun p => !jobPort s p || portState s p != stDown || (takeoverOf s p).isSome)

/-- Restart of the program of step c + 1 (R442 steps 5 and 6). -/
def restartJob (s : State) (i c t0 : Nat) : State :=
  let s := wr (restoreNm s i) bbPg bb_STEP (c + 1)
  let s := wr (wr s twPg tw_BUSY 0) twPg tw_STAGE 0
  let s := { armT0 s t0 with recovery := none, barrier := none, stepClosed := none, releaseDue := false, twRun := none }
  runAllOp (wr s gsPg gs_JOB_HOLD 0)

/-- RECOVERY_RESTART (R442, R443): once the job is drained, the fault contained and its party replaced, and no test of a
suspect pair is open; not where one of two faults cannot be contained (R436), nor after fail-safe (R450). A home region that does
not hold the step, or cannot be read, sets HOME_BAD and is copied from the twin's region first. -/
def execRecoveryRestart (t0 : BitVec 64) (s : State) : Out :=
  done s <|
    match s.recovery with
    | none => s
    | some r =>
      if ¬ r.drained ∨ r.again ∨ r.stuck ∨ ¬ s.pairTest.isEmpty ∨ s.homeFetch.isSome ∨ ¬ isContained s ∨ s.failSafe.isSome then s
      else match homeRec s s.jobCommit with
        | some i => restartJob s i s.jobCommit t0.toNat
        | none => fetchHome (logReq (raiseF s twPg tw_F_HOME_BAD) 3 0x0208 twPg (b4 s.jobCommit)) 0

/-! ### Replacement and detach -/

/-- A request that R31 refuses: the twin is not healthy. -/
def twinUnhealthy (s : State) : State := logReq s 2 0x080B mgPg (b1 s.module)

/-- A range of a region goes to the module of a bolt in parts (R445). -/
def moveRange (spare : BitVec 3) (module : Nat) (b : Nat) (s : State) (off len : Nat) : State :=
  forEach (List.range ((len + homePart - 1) / homePart)) (fun i s =>
    let o := off + homePart * i
    let bs := lpLoad s (b + o) (min homePart (off + len - o))
    match bs.1 with
    | some d => takeSection bs.2 spare (BitVec.ofNat 3 module) o d
    | none => bs.2) s

/-- The commit that a region at `b` holds for step `c` goes to the module of a bolt (R445): its sections, its table, and its
record last (R293). -/
def moveRegion (spare : BitVec 3) (module b : Nat) (s : State) (c : Nat) : State :=
  match (List.range 2).find? (fun i => recValid s b i && recStep s b i == c) with
  | none => s
  | some i =>
    let n := min (recNsec s b i) 8192
    let t := recTable s b i % 2
    let s := forEach (List.range n) (fun j s =>
      let e := secEntry s (tableAddr b t) j
      moveRange spare module b s (secOff e) (secLen e)) s
    let s := moveRange spare module b s (tableAddr 0 t) (64 * n)
    moveRange spare module b s (recAddr 0 i) 128

/-- MODULE_REPLACEMENT (R31, R445, R446): host software replaces the module, or (`twin`) its twin, by the module of the same
number in the spare bolt, to which the sections of the job commit travel: from the home region, or from the twin's region
that this module holds. -/
def execModuleReplacement (spare : BitVec 3) (twin : Bool) (s : State) : Out :=
  done s <|
    if twin then moveRegion spare s.twin (keepBase s) s s.jobCommit
    else if twinHealthy s then moveRegion spare s.module (homeBase s) (send s (.hostReport s.jobCommit)) s.jobCommit
    else twinUnhealthy s

/-- PLANNED_DETACH (R31, R424): reported once the step in progress has committed. -/
def execPlannedDetach (s : State) : Out :=
  done s <|
    if ¬ twinHealthy s then twinUnhealthy s
    else if programRuns s then { s with detach := true }
    else send s (.hostReport s.jobCommit)

/-! ### In-field test -/

/-- INTERVAL_H hours of operation have passed since the tile's last passed round (R431). -/
def itElapsed (s : State) (p : Nat) : Bool :=
  decide (rd s itPg it_INTERVAL_H * 3600 ≤ rd s evPg ev_SEC - (itGet s p).passSec)

/-- IT_DUE (R431, R482). -/
def execItDue (ptile : Nat) (s : State) : Out :=
  if 1152 ≤ ptile then .fault .noSuchUnit
  else done s <| if rd s itPg it_ENABLE = 0 ∨ (s.ltile ptile).isNone ∨ ¬ itElapsed s ptile then s else itStart s ptile

/-- Any part of the test content may run (R429, R431, R432): no job runs or it is held, or the step has committed and the
tiles are not released yet. -/
def itWhole (s : State) : Bool := !programRuns s || s.recovery.isSome || s.barrier.isSome || s.releaseDue

/-- A slice of `len` CCLK cycles may run (R429, R431): at any time that `itWhole` names, or in a window that has its length
and 128 cycles left. -/
def itMayRun (s : State) (len window : Nat) : Bool :=
  itWhole s
    || (rd s itPg it_SLICES_EN == 1 && gateShut s && rd s gsPg gs_BEHIND == 0
      && decide (len ≤ rd s itPg it_SLICE_MAX) && decide (len + 128 ≤ window))

/-- A physical tile that failed its test is fenced and retired (R433, R20). -/
def retireTile (s : State) (p : Nat) : State :=
  match s.ltile p with
  | some t => fenceTile s (BitVec.ofNat 11 t)
  | none => s

/-- The tiles are released once no forced test delays them (R432). -/
def releaseNow (s : State) : State :=
  if s.releaseDue ∧ ¬ forcedOpen s then { s with releaseDue := false, stepClosed := none } else s

/-- The MXE set is no longer asked of a tile that no pair under test names (R427). -/
def dropMxe (p : Nat) (s : State) : State :=
  if s.pairTest.any (fun x => x.1 == p || x.2 == p) then s else itPut s p { itGet s p with mxe := 0 }

/-- A tile fails its test (R433); the tests of its pairs end (R427). -/
def itFails (s : State) (p test : Nat) : State :=
  let x := itGet s p
  let s := itPut s p { x with state := 3, due := none, forced := false, begun := false }
  let s := wr (wr (raiseF s itPg it_F_TEST_FAIL) itPg it_FAIL_TEST test) itPg it_FAIL_TILE p
  let s := retireTile (logReq s 3 0x000B itPg (b2 p ++ b2 test ++ b4 x.passStep)) p
  let mine := s.pairTest.filter (fun y => y.1 == p || y.2 == p)
  let s := { s with pairTest := s.pairTest.filter (fun y => !mine.contains y) }
  releaseNow (forEach mine (fun y s => dropMxe y.2 (dropMxe y.1 s)) s)

/-- Both tiles of a suspect pair have passed the MXE set (R427). -/
def pairOver (s : State) (x : Nat × Nat) : Bool := (itGet s x.1).mxe == 2 && (itGet s x.2).mxe == 2

/-- A suspect pair of which both tiles have passed (R427): counted, or both retired at the second mismatch within 24 h. -/
def passPair (x : Nat × Nat) (s : State) : State :=
  let last := smGet (fun _ => 0) s.pairs (x.1 * 2048 + x.2)
  let now := rd s evPg ev_SEC
  let s := { inc s itPg it_BASTE_PAIRS 1 with pairs := smPut (fun _ => 0) s.pairs (x.1 * 2048 + x.2) (now + 1) }
  if last ≠ 0 ∧ now + 1 - last ≤ 86400 then retireTile (retireTile s x.1) x.2 else s

/-- A tile has passed the MXE set: the pairs whose tests are over end (R427). -/
def mxePassed (s : State) (p : Nat) : State :=
  let s := itPut (inc s itPg it_SLICES 1) p { itGet s p with mxe := 2 }
  let ended := s.pairTest.filter (pairOver s)
  let s := forEach ended passPair { s with pairTest := s.pairTest.filter (fun x => !pairOver s x) }
  forEach ended (fun x s => dropMxe x.2 (dropMxe x.1 s)) s

/-- The percentage of a round that the slice part is: 100 of 120 ms (R429). That T_DONE counts by time is the model's choice
(log entry 168). -/
def slicePart : Nat := 83

/-- A slice completes, `pct` percent of the round done; the round passes at 100 percent (R431), which only a time that lets
the boundary part run reaches (R429). -/
def itDone (s : State) (p pct : Nat) : State :=
  let x := itGet s p
  let n := if itWhole s then pct else min pct slicePart
  let s := inc s itPg it_SLICES 1
  if n < 100 then itPut s p { x with state := 1, percent := n }
  else releaseNow (itPut s p { x with state := 2, percent := 100, passSec := rd s evPg ev_SEC, passStep := rd s bbPg bb_STEP,
                                      due := none, forced := false, begun := false })

/-- IT_SLICE (R427, R429, R431 to R433): the MXE set comes before a round, and runs while the job is held. -/
def execItSlice (ptile len window : Nat) (e : SliceEnd) (s : State) : Out :=
  if 1152 ≤ ptile then .fault .noSuchUnit
  else done s <|
    let x := itGet s ptile
    if rd s itPg it_ENABLE = 0 ∨ (x.due.isNone ∧ x.mxe ≠ 1) ∨ ¬ itMayRun s len window ∨ (x.mxe = 1 ∧ ¬ itWhole s) then s
    else match e with
      | .done pct =>
        if x.mxe ≠ 1 then itDone s ptile pct
        else if pct < 100 then inc s itPg it_SLICES 1
        else mxePassed s ptile
      | .interrupted => inc s itPg it_ABANDONED 1
      | .failed test => itFails s ptile test

/-- IT_OVERDUE (R432). -/
def execItOverdue (ptile : Nat) (s : State) : Out :=
  if 1152 ≤ ptile then .fault .noSuchUnit
  else done s <|
    let x := itGet s ptile
    match x.due with
    | none => s
    | some d =>
      let h := (rd s evPg ev_SEC - d) / 3600
      if x.forced ∨ h < rd s itPg it_DEFER_H then s
      else logReq (raiseF (itPut s ptile { x with forced := true }) itPg it_F_OVERDUE) 2 0x000A itPg (b2 ptile ++ b2 h)

/-! ### Fail-safe and lull mode -/

/-- Lull mode may follow a trigger (R447). -/
def lullAfter : FsTrigger → Bool
  | .integrity => false
  | .mgmtMemory => false
  | .rail r => !(r == 5 || r == 6 || r == 7)
  | _ => true

/-- The record of a trigger that no step of its own writes (R447, R473). What failed first the manual leaves to the
check: free values. -/
def fsRecord (s : State) : FsTrigger → State
  | .integrity => logReq (freshFree s).2 4 0x0503 scPg (b1 (freshFree s).1.toNat)
  | .fuses => logReq (raiseF (freshFree s).2 fzPg fz_F_INCONSISTENT) 4 0x080C fzPg (b2 (freshFree s).1.toNat)
  | .mgmtMemory => logReq (freshFree s).2 4 0x080D mgPg (b4 (freshFree s).1.toNat)
  | _ => s

/-- FAIL_SAFE (R447, R448). -/
def execFailSafe (trig : FsTrigger) (s : State) : Out := done s (driveFailSafe (fsRecord s trig) (lullAfter trig))

/-- Lull mode may be entered (R447, R449): the reference is back and no sensor is at its shutdown limit. -/
def lullAllowed (s : State) (memOk : Bool) : Bool :=
  s.failSafe == some true && !s.lull && memOk && rd s ckPg ck_AON_INTERNAL == 0
    && decide (rd s thPg th_MAX_C < rd s thPg th_SHUT_C)

/-- LULL_MODE (R449): the PLLs have relocked, P28 to P31 retrain, each to pass to LULL when its training ends (R321), and E0
serves. -/
def execLullMode (memOk : Bool) (s : State) : Out :=
  done s <|
    if ¬ lullAllowed s memOk then s
    else
      let s := wr (wr s ckPg ck_ROOT_LOCK 1) ckPg ck_LINK_LOCK 1
      let s := forEach (List.range 4) (fun i s => beginTraining s (28 + i)) s
      { wr s (enPg 0) en_SENDING_LF 0 with lull := true }

end Sys2Proof.Machine
end

