-- ==== Sys2Proof/Machine/Stow.lean ====
section
/-! DEFINITION. Stow and resume (R409 to R414). The manual gives the stow area its header and its content, not the places
of the content: they are the model's (log entry 16). -/

namespace Sys2Proof.Machine

/-! ### What a stow saves, as numbers -/

/-- A list of pairs, its length first. -/
def encPairs (l : List (Nat × Nat)) : List Nat := l.length :: l.flatMap (fun x => [x.1, x.2])

/-- The pairs that a list spells. -/
def pairsOf : List Nat → List (Nat × Nat)
  | a :: b :: l => (a, b) :: pairsOf l
  | _ => []

/-- The pairs at the front of a list, and the rest. -/
def decPairs : List Nat → List (Nat × Nat) × List Nat
  | [] => ([], [])
  | n :: r => (pairsOf (r.take (2 * n)), r.drop (2 * n))

/-- The number of a collective's source. -/
def srcNum : CxSrc → Nat
  | .localTile t => 64 + t.toNat
  | .child g => g.toNat
  | .parent => 16
  | .ring => 17

/-- The source that a number names. -/
def numSrc (n : Nat) : CxSrc :=
  if 64 ≤ n then .localTile (BitVec.ofNat 11 (n - 64)) else if n = 16 then .parent else if n = 17 then .ring
  else .child (BitVec.ofNat 4 n)

/-- A list of numbers, its length first, and back. -/
def encNats (l : List Nat) : List Nat := l.length :: l
def decNats : List Nat → List Nat × List Nat
  | [] => ([], [])
  | n :: r => (r.take n, r.drop n)

/-- A group's state, its descriptor and tiles, its buffer and its chunk bitmap (R411). -/
def encGroup (g : CxGroup) : List Nat :=
  [g.gid, leNat g.bytes, g.op, g.attempt, match g.hem with | some h => h + 1 | none => 0,
    b2n g.bad + 2 * b2n g.up + 4 * b2n g.dec]
  ++ encPairs (g.words.map (fun c => (c.1, c.2.toNat))) ++ encPairs (g.got.map (fun c => (srcNum c.1, c.2)))
  ++ encPairs (g.verdicts.map (fun c => (srcNum c.1, b2n c.2))) ++ encNats (g.tiles.map (·.toNat))
  ++ encPairs (g.hdrs.map (fun h => (h.1.toNat, h.2.1 + 65536 * h.2.2)))

/-- The group at the front of a list, and the rest. -/
def decGroup (l : List Nat) : CxGroup × List Nat :=
  let f := fun i => l.getD i 0
  let w := decPairs (l.drop 6)
  let c := decPairs w.2
  let v := decPairs c.2
  let t := decNats v.2
  let e := decPairs t.2
  ({ gid := f 0, bytes := leBytes 64 (f 1), tiles := t.1.map (BitVec.ofNat 11),
     hdrs := e.1.map (fun x => (BitVec.ofNat 11 x.1, x.2 % 65536, x.2 / 65536)), op := f 2, attempt := f 3, hem := if f 4 = 0 then none else some (f 4 - 1),
     words := w.1.foldl (fun m x => smPut (fun _ => cxIdent (f 2)) m x.1 (BitVec.ofNat 128 x.2)) [],
     got := c.1.map (fun x => (numSrc x.1, x.2)), verdicts := v.1.map (fun x => (numSrc x.1, x.2 == 1)),
     bad := bit (f 5) 0, up := bit (f 5) 1, dec := bit (f 5) 2 }, e.2)

/-- The headers of local contributions (R149), as pairs, and back. -/
def encHdrs (l : List CxHdr) : List Nat :=
  encPairs (l.map (fun h => (h.tile.toNat + 2 ^ 11 * h.gid,
    h.attempt + 8 * h.lay + 16 * h.hem + 2 ^ 20 * h.first + 2 ^ 36 * h.count)))
def decHdr (x : Nat × Nat) : CxHdr :=
  { tile := BitVec.ofNat 11 x.1, gid := x.1 / 2 ^ 11, attempt := x.2 % 8, lay := x.2 / 8 % 2, hem := bits x.2 19 4,
    first := bits x.2 35 20, count := x.2 / 2 ^ 36 }

/-- `n` groups. -/
def decGroups : Nat → List Nat → List CxGroup × List Nat
  | 0, l => ([], l)
  | n + 1, l =>
    let g := decGroup l
    let r := decGroups n g.2
    (g.1 :: r.1, r.2)

/-- The flags of an entry as R397 lays them out, with AMAX and PEND (R370). -/
def encNm (e : NmEnt) : Nat := e.amax.toNat + 2 ^ 32 * e.pend.toNat + 2 ^ 64 * nmFlags e

/-- The entry that a number spells. -/
def decNm (v : Nat) : NmEnt :=
  let f := v / 2 ^ 64
  { amax := BitVec.ofNat 32 v, pend := BitVec.ofNat 32 (v / 2 ^ 32), hist := bits f 31 16, pvalid := bit f 15,
    cold := bit f 14, nonfin := bit f 13, drift := bit f 12, d := BitVec.ofNat 4 (bits f 11 8), hr := BitVec.ofNat 3 f }

/-- PSN counters of every port, keyed port * 8 + class (R411). -/
def allPsn (s : State) : List (Nat × Nat) :=
  s.ports.flatMap (fun p => p.2.psn.map (fun c => (p.1 * 8 + c.1, c.2)))

/-- MX_SEQ of the tiles (R123), where it is not 0. -/
def allSeq (s : State) : List (Nat × Nat) :=
  (s.tileList.map (fun t => (t.toNat, rd64 s (mxPg t) mx_SEQ_LO mx_SEQ_HI))).filter (fun x => x.2 != 0)

/-- What a stow saves beside the spools (R411): tracker entries, stream staging, NEXT_PSN, PSN counters, MX_SEQ of the tiles,
the issue count and the collectives. A stow saves MX_SEQ and R179 lets no handler write it back, so that the management core
saves and restores it is the model's choice (log entry 166). -/
def encSaved (s : State) : List Nat :=
  encPairs (s.nm.map (fun c => (c.1, encNm c.2))) ++ encPairs s.streamUse ++ encNats s.lastSeen ++ encHdrs s.cxHdrs ++ encPairs s.nextPsn ++ encPairs (allPsn s)
    ++ encPairs (allSeq s) ++ [issueCount s, s.cx.length] ++ s.cx.flatMap encGroup

/-! ### The area -/

/-- Bytes of the area (R409), and where the model places the spools and the saved numbers in it. -/
def areaBytes : Nat := 6 * 2 ^ 30
def areaSpool (a t : Nat) : Nat := a + 0x100000 + 0x500000 * t
def areaSaved (a : Nat) : Nat := a + 0x158000000

/-- Bytes [b, b + n) of `dst` replaced by bytes [a, a + n) of `src`. -/
def copyBytes (src : SMap Byte) (a n : Nat) (dst : SMap Byte) (b : Nat) : SMap Byte :=
  let base := smDrop dst (fun k => decide (b ≤ k) && decide (k < b + n))
  (src.filter (fun c => decide (a ≤ c.1) && decide (c.1 < a + n))).foldl
    (fun m c => smPut (fun _ => 0) m (b + c.1 - a) c.2) base

/-- The bytes of saved numbers: their count, then 32 bytes each. -/
def savedBytes (ws : List Nat) : List Byte := leBytes 8 ws.length ++ ws.flatMap (leBytes 32)

/-- The numbers that lie at an address. -/
def savedAt (s : State) (a : Nat) : List Nat :=
  (List.range (memNat s.lp a 8)).map (fun i => memNat s.lp (a + 8 + 32 * i) 32)

/-- The shape part of the manifest (R501): X, Y, Z and the modules of the job in rank order. -/
def shapePart (s : State) : List Byte :=
  let mem := (List.range (manMods s)).filter (fun i => manField s (modOff s i + 0xC) 2 ≠ 0xFFFF)
  let ranked := (List.range 0xFFFF).flatMap (fun r => mem.filter (fun i => manField s (modOff s i + 0xC) 2 == r))
  let boltOf := fun i => ((List.range (manBolts s)).find? (fun j =>
    manField s (boltOff j) 2 == manField s (modOff s i + 8) 2)).getD 0
  leBytes 3 (manField s 0x18 3) ++ ranked.flatMap (fun i =>
    leBytes 2 (manField s (modOff s i + 0xC) 2) ++ leBytes 1 (manField s (modOff s i + 0xA) 1)
      ++ leBytes 3 (manField s (boltOff (boltOf i) + 2) 3) ++ leBytes 8 (manField s (modOff s i + 0x10) 8))

/-- BODY_DIGEST of the running image (R222). -/
def bodyDigest (s : State) : List Byte :=
  match s.image with
  | some i => (i.1.drop 0x40).take 64
  | none => []

/-- The ASCII bytes JTSTOWIM. -/
def stowMagic : List Byte := [0x4A#8, 0x54#8, 0x53#8, 0x54#8, 0x4F#8, 0x57#8, 0x49#8, 0x4D#8]

/-- The stow header (R412). -/
def stowHeader (s : State) (k : Nat) (content : List Byte) : List Byte :=
  padTo 256 (stowMagic ++ leBytes 8 (jobId s) ++ leBytes 8 k ++ leBytes 4 (rd s bbPg bb_STEP) ++ leBytes 2 (ownRank s)
    ++ leBytes 2 0 ++ padTo 64 (bodyDigest s) ++ digestBytes (shapePart s) ++ digestBytes content)

/-! ### Requests -/

/-- Two extents of addresses meet. -/
def meets (a n b m : Nat) : Bool := decide (0 < n) && decide (0 < m) && decide (a < b + m) && decide (b < a + n)

/-- The area overlaps what R409 keeps it from. -/
def areaBad (s : State) (a : Nat) : Bool :=
  meets a areaBytes (keepBase s) (keepSize s) || meets a areaBytes (homeBase s) (rd s twPg tw_HOME_SIZE * 2 ^ 30)
    || meets a areaBytes (stageBase s) fwArea || s.regions.any (fun r => meets a areaBytes r.base r.len)
    || (match s.image with
      | some i => (secsOf s (i.2.1 + 0x300)).any (fun x => x.kind == 4 && meets a areaBytes x.dest x.len)
      | none => false)

/-- STOW (R409): refused on a bad area, or when program stitch K - 1 has begun; else the sleeping tiles are woken. -/
def execStow (q : QRef) (s : State) : Out :=
  hostCmd q 0x46 (stateCmd fun s k e =>
    let kk := arg e 0
    let a := arg e 1
    if a % 2 ^ 30 ≠ 0 ∨ ¬ inLp a areaBytes then complete s k e csBadField 0x10
    else if areaBad s a then complete (logReq s 2 0x0812 mgPg (leBytes 8 a)) k e csRefused 1
    else if kk ≤ s.nextStitch then refuseFree (logReq s 2 0x0806 mgPg (leBytes 8 kk)) k e
    else complete (forEach s.tileList (fun t s => ring s t)
      { s with stowReq := some { k := kk, area := a }, stowTold := [] }) k e csOK 0) s

/-- Every tile with a program has taken the STOW cause, has reported, and stays in handler mode (R410, R411). -/
def allStowed (s : State) : Bool :=
  s.tileList.any (fun t => s.hasProgram t)
    && (s.tileList.filter (fun t => s.hasProgram t)).all
      (fun t => s.hmode t && rd s (tlPg t) tl_CAUSE == cStow && s.stowTold.contains t)

/-- A message of the job that is still on its way in the module (R411 step 1). -/
def forJob : NetMsg → Bool
  | .signal _ _ => true
  | .mbox _ _ _ _ => true
  | .lseRead _ _ _ _ => true
  | .lseWrite _ _ _ _ => true
  | .lseRsp _ _ _ _ => true
  | .decision _ _ _ _ _ => true
  | .pkt _ _ _ => true
  | .cxData _ _ _ _ => true
  | _ => false

/-- The network is quiet (R411 step 1): no replay buffer or queue of a port holds a cell, no port is receiving a packet, and
every packet and message of the job has been delivered. -/
def netQuiet (s : State) : Bool :=
  (List.range 64).all (fun p => (portSt s p).replay.isEmpty && (portSt s p).queue.isEmpty && (portSt s p).waiting.isEmpty
      && (portSt s p).partial_.all (fun c => c.2.isNone))
    && !s.net.any forJob && s.lseWait.isEmpty

/-- The module may be saved (R411): the network is quiet, and no step commit is under way: one that is inside steps 2 to 5
of R378 is completed first. -/
def stowReady (s : State) : Bool :=
  allStowed s && netQuiet s && rd s twPg tw_BUSY == 0 && s.stepClosed != some false

/-- Every spool is read through the maintenance port (R274, R411): whether the data is good, and the state. -/
def stowRead (s : State) : Bool × State :=
  (List.range s.ntiles).foldl (fun r t =>
    let q := spoolCheck r.2 (r.2.ptile t) 0 0x500000 .ok portMaint none
    (r.1 && q.1, q.2)) (true, s)

/-- The module's state goes to the area (R411 steps 2 and 3). -/
def saveModule (s : State) (r : StowReq) : State :=
  let ts := List.range s.ntiles
  let lp := copyBytes [] 0 areaBytes s.lp r.area
  let lp := ts.foldl (fun m t => copyBytes s.spool (spKey (s.ptile t) 0) 0x500000 m (areaSpool r.area t)) lp
  let lp := memWrite lp (areaSaved r.area) (savedBytes (encSaved s))
  let hdr := stowHeader s r.k (memRead lp (r.area + 0x100) (areaBytes - 0x100))
  { s with lp := memWrite lp r.area hdr,
           lpBad := s.lpBad.filter (lpKeeps r.area areaBytes),
           lpWeak := s.lpWeak.filter (lpKeeps r.area areaBytes),
           stowReq := none, stowTold := [] }

/-- STOW_SAVE (R411, R412): an uncorrectable spool word is a fault, which abandons the stow (R274, R414). -/
def execStowSave (s : State) : Out :=
  done s <|
    match s.stowReq with
    | none => s
    | some r =>
      if ¬ stowReady s then s
      else
        let q := stowRead s
        if q.1 then logReq (saveModule q.2 r) 0 0x0807 mgPg (leBytes 8 r.k) else abortStow q.2

/-! ### Resume -/

/-- The first field of a stow header that does not match (R413 step 3); 0 for none. -/
def resumeReason (s : State) (a : Nat) : Nat :=
  if memRead s.lp a 8 ≠ stowMagic then 1
  else if memNat s.lp (a + 8) 8 ≠ jobId s then 2
  else if memRead s.lp (a + 0x20) 64 ≠ bodyDigest s then 3
  else if memRead s.lp (a + 0x60) 64 ≠ digestBytes (shapePart s) then 4
  else if memRead s.lp (a + 0xA0) 64 ≠ digestBytes (memRead s.lp (a + 0x100) (areaBytes - 0x100)) then 5
  else 0

/-- The saved numbers are restored (R413 step 4). -/
def restoreSaved (s : State) (ws : List Nat) : State × Nat :=
  let nm := decPairs ws
  let su := decPairs nm.2
  let ls := decNats su.2
  let hs := decPairs ls.2
  let np := decPairs hs.2
  let pp := decPairs np.2
  let sq := decPairs pp.2
  let gs := decGroups (sq.2.getD 1 0) (sq.2.drop 2)
  let s := { s with nm := nm.1.foldl (fun m x => smPut (fun _ => NmEnt.reset) m x.1 (decNm x.2)) [],
                    streamUse := su.1.foldl (fun m x => smPut (fun _ => 0) m x.1 x.2) [],
                    nextPsn := np.1.foldl (fun m x => smPut (fun _ => 0) m x.1 x.2) [], lastSeen := ls.1,
                    cxHdrs := hs.1.map decHdr, cx := gs.1 }
  let s := forEach sq.1 (fun x s => wr64 s (mxPg (BitVec.ofNat 11 x.1)) mx_SEQ_LO mx_SEQ_HI x.2) s
  let s := forEach (List.range 64) (fun p s =>
    let s := if rd s (lkPg p) lk_CFG_ENABLE = 1 then beginTraining s p else s
    setPort s p { portSt s p with
      psn := (pp.1.filter (fun x => x.1 / 8 == p)).foldl (fun m x => smPut (fun _ => 0) m (x.1 % 8) x.2) [],
      keepPsn := true }) s
  (s, sq.2.getD 0 0)

/-- A tile starts in its handler (R413 step 5). -/
def resumeTileAt (k issue : Nat) (t : Tile) (s : State) : State :=
  let p := tlPg t
  let s := startTile s t
  if s.tileOff t then s
  else
    let s := wr (wr (wr (wr s p tl_STATUS_HMODE 1) p tl_CAUSE cStow) p tl_SRC 5) p tl_MULTI 0
    let s := wr64 s p tl_TRAP_INFO_LO tl_TRAP_INFO_HI (2 ^ 63 + k % 2 ^ 48)
    request (s.modTile t (fun ts => { ts with pc := BitVec.ofNat 15 (rd s p tl_TRAP_VEC), issued := issue })) t rowTrap

/-- The module's state comes back from the area (R413 steps 4 and 5): every spool word is written whole, and so is good
again (R274). -/
def resumeModule (s : State) (a t0 : Nat) : State :=
  let kk := memNat s.lp (a + 0x10) 8
  let step := memNat s.lp (a + 0x18) 4
  let sp := (List.range s.ntiles).foldl
    (fun m t => copyBytes s.lp (areaSpool a t) 0x500000 m (spKey (s.ptile t) 0)) s.spool
  let back := fun w => decide (w % 0x100000 < 0xA0000) && (s.ltile (w / 0x100000)).isSome
  let ws := savedAt s (areaSaved a)
  let r := restoreSaved { s with spool := sp, spoolBad := s.spoolBad.filter (fun w => !back w),
                                 spoolWeak := s.spoolWeak.filter (fun w => !back w) } ws
  let s := wr r.1 bbPg bb_STEP step
  let s := forEach s.tileList (resumeTileAt kk r.2) (beginProgram s)
  let s := wr64 (wr64 s gsPg gs_ISSUE_LO gs_ISSUE_HI r.2) gsPg gs_KBASE_LO gs_KBASE_HI kk
  armT0 { s with nextStitch := kk } t0

/-- RESUME (R413): an uncorrectable line of the area completes it with ERR_UE (R280). -/
def execResume (q : QRef) (t0 : BitVec 64) (s : State) : Out :=
  hostCmd q 0x47 (stateCmd fun s k e =>
    let a := arg e 0
    if a % 2 ^ 30 ≠ 0 ∨ ¬ inLp a areaBytes then complete s k e csBadField 0x08
    else needMem s k e a areaBytes fun s =>
      let r := resumeReason s a
      if r ≠ 0 then complete (logReq s 3 0x0809 mgPg (b1 r)) k e csRefused r
      else complete (resumeModule s a t0.toNat) k e csOK 0) s

end Sys2Proof.Machine
end

