-- ==== Sys2Proof/Machine/Manifest.lean ====
section
/-! DEFINITION. The topology manifest (R501 to R503, R7, R22 to R25, R218, R324 to R326): its fields, the wiring that it
implies, its checks, and its acceptance or refusal. -/

namespace Sys2Proof.Machine

/-! ### Fields -/

/-- A field of a manifest. -/
def mf (m : List Byte) (o n : Nat) : Nat := leNat ((m.drop o).take n)

/-- NBOLT and NMOD. -/
def mfBolts (m : List Byte) : Nat := mf m 0x1C 2
def mfMods (m : List Byte) : Nat := mf m 0x1E 2

/-- A field of bolt entry `i` and of module entry `i`. -/
def boltF (m : List Byte) (i o n : Nat) : Nat := mf m (0x100 + 16 * i + o) n
def modF (m : List Byte) (i o n : Nat) : Nat := mf m (0x100 + 16 * mfBolts m + 32 * i + o) n

/-- The bytes before the signature. -/
def mfLen (m : List Byte) : Nat := 256 + 16 * mfBolts m + 32 * mfMods m

/-- A position in the hall: rack, bolt and module. -/
abbrev HallPos := Nat × Nat × Nat

/-- The position of module entry `i`. -/
def modPos (m : List Byte) (i : Nat) : HallPos := (modF m i 0x08 1, modF m i 0x09 1, modF m i 0x0A 1)

/-- RANK of module entry `i`, and whether it is a member of the job. -/
def modRank (m : List Byte) (i : Nat) : Nat := modF m i 0x0C 2
def isMember (m : List Byte) (i : Nat) : Bool := modRank m i != 0xFFFF

/-- The members of the job, and the bolts of the job (those that are no spare). -/
def mfMembers (m : List Byte) : List Nat := (List.range (mfMods m)).filter (isMember m)
def mfJobBolts (m : List Byte) : List Nat := (List.range (mfBolts m)).filter (fun i => !bit (boltF m i 5 1) 0)

/-- A member stands at a position. -/
def memberAt (m : List Byte) (q : HallPos) : Option Nat := (mfMembers m).find? (fun i => modPos m i == q)

/-! ### Wiring -/

/-- The far end of hall group `g` (12 to 15) of a bolt (R325, R501). -/
def hallEnd (m : List Byte) (rack bolt g : Nat) : Option (Nat × Nat) :=
  match (List.range (mfBolts m)).find? (fun i => boltF m i 0 1 == rack && boltF m i 1 1 == bolt) with
  | none => none
  | some i =>
    if boltF m i (8 + 2 * (g - 12)) 2 = 0xFFFF then none
    else some (boltF m i (8 + 2 * (g - 12)) 1, boltF m i (9 + 2 * (g - 12)) 1)

/-- The port at the far end of port `p` (R22, R23, R324, R325). -/
def farPort (p : Nat) : Nat :=
  let i := p % 4
  let g := p / 4
  if g < 7 then 4 * (6 - g) + i
  else if g = 7 then p
  else if g % 2 = 0 then p + 4
  else p - 4

/-- The expected peer of port `p` of a module. -/
def peerPos (m : List Byte) (q : HallPos) (p : Nat) : Option HallPos :=
  let g := p / 4
  let (r, b, x) := q
  if g < 7 then some (r, b, (x + g + 1) % 8)
  else if g = 7 then some (r, b, if x % 2 = 0 then x + 1 else x - 1)
  else if g = 8 then some (r, (b + 1) % 8, x)
  else if g = 9 then some (r, (b + 7) % 8, x)
  else if g = 10 then some (r, (b + 2) % 8, x)
  else if g = 11 then some (r, (b + 6) % 8, x)
  else (hallEnd m r b g).map (fun e => (e.1, e.2, x))

/-- FOREIGN of a module entry names port `p`. -/
def modForeign (m : List Byte) (i p : Nat) : Bool := bit (modF m i 0x10 8) p

/-- The ports of a member that lead to members (R25, R218). -/
def entryJobPorts (m : List Byte) (i : Nat) : List Nat :=
  if ¬ isMember m i then []
  else (List.range 64).filter (fun p => !modForeign m i p &&
    (match peerPos m (modPos m i) p with
      | some q => (memberAt m q).isSome
      | none => false))

/-- The members that a member reaches in one hop. -/
def entryPeers (m : List Byte) (i : Nat) : List Nat :=
  (entryJobPorts m i).filterMap (fun p => match peerPos m (modPos m i) p with
    | some q => memberAt m q
    | none => none)

/-- The members within `n` hops. -/
def reachIn (m : List Byte) : Nat → List Nat → List Nat
  | 0, l => l
  | n + 1, l => reachIn m n (l ++ l.flatMap (entryPeers m)).dedup

/-! ### The checks of R502 -/

/-- MAGIC and HDR_VER (reason 1). -/
def mfMagicOk (m : List Byte) : Bool :=
  m.take 8 == [0x4A#8, 0x54#8, 0x54#8, 0x4F#8, 0x50#8, 0x4F#8, 0x4D#8, 0x46#8] && mf m 8 2 == 1
    && decide (mfLen m + 512 ≤ m.length)

/-- The current manifest in flash (R487). -/
def manArea : Nat := 0x0A720000

/-- The manifest that flash holds, if any. -/
def flashMan (s : State) : Option (List Byte) :=
  let h := memRead s.flash manArea 256
  let m := memRead s.flash manArea (mfLen h + 512)
  if mfMagicOk m then some m else none

/-- The SERIAL stored in flash. -/
def flashSerial (s : State) : Nat := match flashMan s with | some m => mf m 0x0C 4 | none => 0

/-- The entries of a DIE_ID (reason 3). -/
def entriesOf (m : List Byte) (die : Nat) : List Nat := (List.range (mfMods m)).filter (fun i => modF m i 0 8 == die)

/-- The module's own entry. -/
def entryOf (s : State) (m : List Byte) : Nat := (entriesOf m s.fuses.c0.dieId.toNat).headD 0

/-- Reason 4 (R7). -/
def gradesOk (s : State) (m : List Byte) : Bool :=
  mf m 0x0A 1 == s.grade && (mfMembers m).all (fun i => modF m i 0x0B 1 == s.grade)

/-- Reason 5 (R24): whole bolts, or whole twin pairs in one bolt. -/
def wholeOk (m : List Byte) : Bool :=
  let ms := mfMembers m
  let twinIn := ms.all (fun i =>
    let q := modPos m i
    (memberAt m (q.1, q.2.1, if q.2.2 % 2 = 0 then q.2.2 + 1 else q.2.2 - 1)).isSome)
  let oneBolt := ms.all (fun i => ms.all (fun j => (modPos m i).1 == (modPos m j).1 && (modPos m i).2.1 == (modPos m j).2.1))
  let whole := (mfJobBolts m).all (fun b => (List.range 8).all (fun x =>
      (memberAt m (boltF m b 0 1, boltF m b 1 1, x)).isSome)) && decide (ms.length = 8 * (mfJobBolts m).length)
  twinIn && (oneBolt || whole)

/-- The bolt of the job at coordinates of the torus. -/
def boltAtXyz (m : List Byte) (x y z : Nat) : Option Nat :=
  (mfJobBolts m).find? (fun b => boltF m b 2 1 == x && boltF m b 3 1 == y && boltF m b 4 1 == z)

/-- Consecutive bolts of an X ring are one or two apart in one rack (R325, R326). -/
def ringStepOk (m : List Byte) (b c : Nat) : Bool :=
  let d := (boltF m c 1 1 + 8 - boltF m b 1 1 % 8) % 8
  boltF m b 0 1 == boltF m c 0 1 && (d == 1 || d == 2 || d == 6 || d == 7)

/-- Reason 6. -/
def shapeOk (m : List Byte) : Bool :=
  let x := mf m 0x18 1
  let y := mf m 0x19 1
  let z := mf m 0x1A 1
  let bs := mfJobBolts m
  decide (1 ≤ x) && decide (x ≤ 8) && decide (x * y * z = bs.length)
    && bs.all (fun b => boltAtXyz m (boltF m b 2 1) (boltF m b 3 1) (boltF m b 4 1) == some b)
    && (decide (x = 1) || bs.all (fun b =>
      match boltAtXyz m ((boltF m b 2 1 + 1) % x) (boltF m b 3 1) (boltF m b 4 1) with
      | some c => ringStepOk m b c
      | none => false))

/-- Reason 7 (R218): every member within 48 hops of every other. -/
def diameterOk (m : List Byte) : Bool :=
  (mfMembers m).all (fun i =>
    let r := reachIn m 48 [i]
    (mfMembers m).all (fun j => r.contains j))

/-- The module's position: rack and bolt by its entry, its number by the strap (R572). -/
def ownPos (s : State) (m : List Byte) : HallPos := ((modPos m (entryOf s m)).1, (modPos m (entryOf s m)).2.1, s.module)

/-- A trained port has the peer that it should have. -/
def portAsWired (s : State) (m : List Byte) (p : Nat) : Bool :=
  match peerPos m (ownPos s m) p with
  | some (r, b, x) => rd s (lkPg p) lk_PEER_RACK == r && rd s (lkPg p) lk_PEER_BOLT == b && rd s (lkPg p) lk_PEER_MODULE == x
      && rd s (lkPg p) lk_PEER_PORT == farPort p
  | none => false

/-- Reason 8 (R335, R502, R503): a port whose peer no training has learned plays no part in the match. -/
def portsOk (s : State) (m : List Byte) : Bool :=
  let job := entryJobPorts m (entryOf s m)
  (List.range 64).all (fun p => !(portSt s p).learned || portAsWired s m p)
    && job.all (fun p => job.any (fun q => portState s q == stActive && peerPos m (ownPos s m) q == peerPos m (ownPos s m) p))

/-- Reason 9. -/
def mfReservedOk (m : List Byte) : Bool :=
  mf m 0x0B 1 == 0 && mf m 0x1B 1 == 0 && ((m.drop 0x20).take 224).all (· == 0)
    && (List.range (mfBolts m)).all (fun i => boltF m i 5 1 / 2 == 0 && boltF m i 6 2 == 0)
    && (List.range (mfMods m)).all (fun i => modF m i 0x0E 2 == 0 && modF m i 0x18 8 == 0)

/-- A manifest is signed by the owner, whose key it carries (R501, R523). -/
def manSigned (s : State) (m : List Byte) (key : List Byte) : Bool :=
  signedBy (ownerHash s) key (m.take (mfLen m)) ((m.drop (mfLen m)).take 512)

/-- The reason of the first check that fails (R502, R525); 0 for none. -/
def manReason (s : State) (m : List Byte) (key : List Byte) : Nat :=
  if s.sec.owner.isNone then 2
  else if ¬ mfMagicOk m then 1
  else if ¬ manSigned s m key then 1
  else if mf m 0x0C 4 < flashSerial s then 2
  else if (entriesOf m s.fuses.c0.dieId.toNat).length ≠ 1 then 3
  else if ¬ gradesOk s m then 4
  else if ¬ wholeOk m then 5
  else if ¬ shapeOk m then 6
  else if ¬ diameterOk m then 7
  else if ¬ portsOk s m then 8
  else if ¬ mfReservedOk m then 9
  else 0

/-! ### Acceptance and refusal -/

/-- The firmware enables a port, or disables it: a write of LK_CFG. -/
def setEnable (s : State) (p : Nat) (on : Bool) : State :=
  if on then (if rd s (lkPg p) lk_CFG_ENABLE = 1 then s else enablePort (countWrite s (lkPg p)) p)
  else if rd s (lkPg p) lk_CFG_ENABLE = 0 then s else disablePort (countWrite s (lkPg p)) p

/-- The ports that a manifest enables (R503). -/
def manPorts (m : List Byte) (e : Nat) : List Nat :=
  (List.range 64).filter (fun p => modForeign m e p || (entryJobPorts m e).contains p)

/-- A manifest is accepted (R503). -/
def acceptMan (s : State) (m : List Byte) : State :=
  let e := entryOf s m
  let ports := manPorts m e
  let s := flWrite { s with flash := s.flash.filter (fun c => !(decide (manArea ≤ c.1) && decide (c.1 < manArea + 0x400000))) }
    manArea (m.take (mfLen m + 512))
  let s := wr { s with manifest := some (m.take (mfLen m)) } mgPg mg_MAN_SERIAL (mf m 0x0C 4)
  let s := forEach (List.range 64) (fun p s => wr s (lkPg p) lk_CFG_FOREIGN (b2n (modForeign m e p))) s
  forEach (List.range 64) (fun p s => setEnable s p (ports.contains p)) s

/-- A manifest is refused (R503). -/
def refuseMan (s : State) (r : Nat) : State := logReq (raiseF s mgPg mg_F_TOPO_REFUSED) 3 0x0801 mgPg (b1 (0x80 + r))

/-- The SIG_FAIL of a manifest whose signature alone is wrong (R537). -/
def manSig (s : State) (m : List Byte) (key : List Byte) : State :=
  if mfMagicOk m ∧ s.sec.owner.isSome ∧ ¬ manSigned s m key then sigFail s 2 else s

/-- The check of a manifest: its reason and the state after it. -/
def checkMan (s : State) (m : List Byte) (key : List Byte) : Nat × State :=
  let r := manReason s m key
  let s := manSig s m key
  (r, if r = 0 then acceptMan s m else refuseMan s r)

/-- MANIFEST (R502): checked at once after B7, and in a module that will not reach B7; else it waits for B7. Without an owner
key it is refused (R525). -/
def execManifest (q : QRef) (key : List Byte) (s : State) : Out :=
  hostCmd q 0x45 (stateCmd fun s k e =>
    let a := arg e 0
    let n := arg e 1
    if ¬ inLp a n then complete s k e csErrUnmapped 0
    else needMem s k e a n fun s =>
      let m := memRead s.lp a (min n (256 + 16 * 65535 + 32 * 65535 + 512))
      if s.stopped ∨ s.sec.owner.isNone ∨ 8 ≤ rd s mgPg mg_PHASE then
        let c := checkMan s m key
        if c.1 = 0 then complete c.2 k e csOK 0 else complete c.2 k e csRefused (0x80 + c.1)
      else holdCpl { s with manNew := some m } k e 0x45) s

end Sys2Proof.Machine
end

