-- ==== Sys2Proof/Machine/Boot.lean ====
section
/-! DEFINITION. Bring-up (R476 to R491), warm standby (R482), the defect fuses (R484, R485), network recovery (R491) and
the activation of a firmware image (R498). A phase's command runs the whole phase: it takes effect once the phase before
has passed. -/

namespace Sys2Proof.Machine

/-- Bring-up is in phase `n`: the phase before has passed, and nothing has stopped it. -/
def atPhase (s : State) (n : Nat) : Bool :=
  s.entered && !s.stopped && !s.ready && s.failSafe.isNone && s.netRecovery.isNone && rd s mgPg mg_PHASE == n
    && rd s mgPg mg_STANDBY_HELD == 0

/-- A phase has passed after `ms` milliseconds, and the next one is the current phase (R476, R507). -/
def passPhase (s : State) (n ms : Nat) : State := wri (wr s mgPg mg_PHASE (min (n + 1) 8)) mgPg mg_PHASE_MS n ms

/-- A phase has stopped after `ms` milliseconds. -/
def failPhase (s : State) (n ms reason : Nat) : State := stopBring (wri (wr s mgPg mg_PHASE n) mgPg mg_PHASE_MS n ms) n reason

/-! ### B0 -/

/-- PCYCLE at an entry to B0 (R465). -/
def countPower (s : State) : State := if s.freshPower then { inc s evPg ev_PCYCLE 1 with freshPower := false } else s

/-- The count of the always-on domain in steps of 2^-16 s (R463). -/
def countNow (s : State) : Nat := rd s evPg ev_SEC * 65536 + rd s evPg ev_SUBSEC

/-- B0 (R465, R466, R476, R566): with power good and RESET_N high. -/
def execB0 (ms : Nat) (o : B0Obs) (s : State) : Out :=
  done s <|
    if s.entered ∨ ¬ s.pins.pwrOk ∨ ¬ s.pins.resetN ∨ s.pins.heldOff then s
    else
      let s := countPower { s with entered := true, b0At := countNow s }
      match o.badRail with
      | some (r, mv) => failPhase (logReq (raiseF s pwPg pw_F_RAIL_FAULT) 4 0x0602 pwPg (b1 r ++ b2 mv)) 0 ms 0x02
      | none =>
        if o.pllLocked then passPhase (wr (wr s ckPg ck_ROOT_LOCK 1) ckPg ck_LINK_LOCK 1) 0 ms
        else failPhase (logReq (raiseF s ckPg ck_F_PLL_LOSS) 4 0x0802 ckPg (b1 0)) 0 ms 0x02

/-! ### B1 -/

/-- Words of the fuse array in the order of R484: GRADE, DIE_ID, ROW_BAD, SPOOL_REP, WL_BAD. -/
def fuseWords : Nat := 2 + 32 + 512 + 64

/-- A set of columns that has more members than the grade's row spares. -/
def rowTooBad (s : State) (v : BitVec 36) : Bool := decide (s.rowSpares < countBits 36 v.getLsbD)

/-- Fuse word `w` is inconsistent (R485). -/
def fuseWordBad (s : State) (w : Nat) : Bool :=
  let a := s.fuses.c0
  let b := s.fuses.c1
  let row := fun c => smGet (fun _ => (0 : BitVec 36)) c.rowBad (w - 2)
  let crc := fuseCrcBad a w || fuseCrcBad b w
  if w = 0 then crc || a.grade != b.grade || (a.grade != 0x41 && a.grade != 0x42)
  else if w = 1 then crc || a.dieId != b.dieId
  else if w < 34 then crc || row a != row b || rowTooBad s (row a)
  else if w < 546 then crc || a.spoolRep[w - 34]? != b.spoolRep[w - 34]?
      || (match a.spoolRep[w - 34]? with | some e => decide (159 < bits e.toNat 7 0) | none => false)
  else
    let x := (fuseWl a (w - 546)).toNat
    crc || fuseWl a (w - 546) != fuseWl b (w - 546) || (decide (9 ≤ x) && decide (x ≤ 14))

/-- The first failing fuse word (R485). -/
def firstBadFuse (s : State) : Option Nat := (List.range fuseWords).find? (fuseWordBad s)

/-- The valid copy of the operating-time store that holds the larger count (R464). -/
def bestTime (s : State) : Option TimeCopy :=
  match timeCopy s 0, timeCopy s 1 with
  | some a, some b => some (if a.secs < b.secs then b else a)
  | some a, none => some a
  | none, b => b

/-- The last record of the mirror, by SEQ (R469, R470). -/
def mirrorLast (s : State) : Nat := memNat s.flash (mirrorBase + 32 * ((s.mirrorPos + 131071) % 131072)) 4

/-- Valid records of the mirror, by the VALID bit of each place (R462, R470). -/
def mirrorValid (s : State) : Nat :=
  (s.flash.filter (fun c => decide (mirrorBase ≤ c.1) && decide (c.1 < mirrorBase + 0x400000) && c.1 % 32 == 13
    && bit c.2.toNat 5)).length

/-- The registers of the mirror after a loss of the always-on domain (R475). -/
def resumeMirror (s : State) : State :=
  if s.evLost then wr (wr s evPg ev_MIRROR_SEQ (mirrorLast s)) evPg ev_MIRROR_COUNT (mirrorValid s) else s

/-- The counts of the always-on domain resume (R464, R466, R469). -/
def resumeCounts (s : State) : State :=
  let s := resumeMirror s
  let last := max (mirrorLast s) (match bestTime s with | some c => c.seq | none => 0)
  let s := if s.evLost then wr s evPg ev_HEAD_SEQ (max (rd s evPg ev_HEAD_SEQ) last) else s
  match bestTime s with
  | some c =>
    let s := if s.evLost then inc s evPg ev_PCYCLE c.pcycle else s
    let s := { s with evLost := false }
    if rd s evPg ev_CAL = 1 then s else wr s evPg ev_SEC c.secs
  | none =>
    let s := logReq (raiseF { s with evLost := false } evPg ev_F_OPT_BAD) 2 0x080F evPg []
    if rd s evPg ev_CAL = 1 then s
    else
      let n := countNow s - s.b0At
      wr (wr (wr (wr s evPg ev_CAL 1) evPg ev_UNSET 1) evPg ev_SEC (n / 65536)) evPg ev_SUBSEC (n % 65536)

/-- The records of a surviving ring that the mirror does not hold yet, in order of SEQ (R470). -/
def unmirrored (s : State) : List LogRec :=
  ((s.ring.filterMap (·.2)).filter (fun r => decide (3 ≤ r.sev) && decide (rd s evPg ev_MIRROR_SEQ < r.seq))).mergeSort
    (fun a b => decide (a.seq ≤ b.seq))

/-- B1 (R470, R476, R485, R486, R488, R527): the records of a surviving ring that the mirror lacks are mirrored before
anything else is logged; E0 comes up for the ROM. In VOID the ROM stops after B1, and only SMBus and the logbook run. -/
def execB1 (ms : Nat) (s : State) : Out :=
  done s <|
    if ¬ atPhase s 1 then s
    else match firstBadFuse s with
      | some w => failPhase (logReq (raiseF s fzPg fz_F_INCONSISTENT) 4 0x080C fzPg (b2 w)) 1 ms 0x0C
      | none =>
        let s := resumeCounts { s with mirrorQ := unmirrored s, mirrorHold := !(unmirrored s).isEmpty }
        if 65536 ≤ s.repairN then failPhase s 1 ms 0x11
        else
          let s := forEach (List.range 32) (fun y s => mapRow s y) s
          if s.fuses.voided then { wri s mgPg mg_PHASE_MS 1 ms with stopped := true }
          else passPhase (wr (wr s (enPg 0) en_ENABLE 1) ckPg ck_ETH_LOCK 1) 1 ms

/-! ### B2 and network recovery -/

/-- The ASCII bytes JTFWIMAG. -/
def fwMagic : List Byte := [0x4A#8, 0x54#8, 0x46#8, 0x57#8, 0x49#8, 0x4D#8, 0x41#8, 0x47#8]

/-- VERSION of the firmware image in flash (R489). -/
def flashVersion (s : State) : Nat := memNat s.flash 0xC 4

/-- The image's VERSION lies below LC_EPOCH (R526). -/
def belowEpoch (s : State) : Bool := decide (flashVersion s / 2 ^ 24 < s.fuses.epoch)

/-- The check of R490 that fails, 1 to 3; 0 for none. -/
def fwCheck (s : State) (key : List Byte) : Nat :=
  if memRead s.flash 0 8 ≠ fwMagic ∨ memNat s.flash 8 2 ≠ 1 then 1
  else if ¬ vendorSigned s (memRead s.flash) key ∨ belowEpoch s then 2
  else if ¬ fwDigestOk (memRead s.flash) then 3
  else 0

/-- The refusal of an image below the epoch (R526, R539). -/
def noteRollback (s : State) (key : List Byte) : State :=
  if fwCheck s key = 2 ∧ vendorSigned s (memRead s.flash) key then
    logReq (raiseF s scPg sc_F_ROLLBACK) 2 0x0511 scPg (b4 (flashVersion s) ++ b1 s.fuses.epoch)
  else s

/-- Network recovery begins, or begins again (R491): E1 to E3 send local fault, and a fresh bitmap. -/
def startRecovery (s : State) (check : Nat) : State :=
  let s := wr (raiseF s mgPg mg_F_VERIFY_FAIL) (enPg 0) en_ENABLE 1
  let s := forEach [1, 2, 3] (fun n s => wr s (enPg n) en_SENDING_LF 1) s
  { s with netRecovery := some check, rxXfer := none }

/-- The firmware starts at ENTRY (R490), after a recovery without a reset (R491). -/
def startFirmware (s : State) (ms : Nat) : State :=
  let s := if s.netRecovery.isSome then
      forEach [1, 2, 3] (fun n s => wr s (enPg n) en_SENDING_LF 0) (wr s mgPg mg_RECOVERED 1)
    else s
  passPhase (wr { s with netRecovery := none, rxXfer := none, fwEntry := some (memNat s.flash 0x10 4) }
    mgPg mg_FW_VER (flashVersion s)) 2 ms

/-- The four items of the security store are sealed under the die key (R523, R524). -/
def sealsOk (s : State) : Bool := s.sec.seals == List.replicate 4 s.fuses.dieKey

/-- A seal of the security store fails its check (R524). -/
def storeBad (s : State) : State :=
  let s := logReq (raiseF (freshFree s).2 scPg sc_F_STORE_BAD) 4 0x0503 scPg (b1 (freshFree s).1.toNat)
  driveFailSafe s false

/-- The bitmap of the image under recovery is complete (R491 step 4). -/
def imageComplete (s : State) : Bool :=
  match s.rxXfer with
  | some x => (List.range x.count).all (fun n => x.have_.contains n)
  | none => false

/-- B2 (R490, R491, R524, R526): from B1, or again when network recovery has the whole image. -/
def execB2 (ms : Nat) (key : List Byte) (s : State) : Out :=
  done s <|
    if ¬ (atPhase s 2 ∨ (s.netRecovery.isSome ∧ imageComplete s ∧ s.failSafe.isNone)) then s
    else
      let s := noteRollback s key
      let c := fwCheck s key
      if c ≠ 0 then startRecovery s c
      else
        let s := startFirmware s ms
        if sealsOk s then s else storeBad s

/-- RECOVERY_REQ (R491, R497): DIE_ID, the failing check and the ROM version. -/
def execRecoveryReq (s : State) : Out :=
  done s <|
    match s.netRecovery with
    | some c => send s (.recoveryReq s.fuses.c0.dieId.toNat c Config.romVersion.toNat)
    | none => s

/-! ### B3 and B4 -/

/-- A physical tile is retired during bring-up and its row is mapped again (R479); without a spare bring-up stops. -/
def retireIn (phase ms p : Nat) (s : State) : State :=
  if s.stopped ∨ (s.unusableRow (p / 36)).getLsbD (p % 36) then s
  else if 0 < spareLeft s (p / 36) then remapRow (repairWrite s 1 p 0 (nextSeqOf s)) (p / 36)
  else failPhase (logReq s 3 0x000C fzPg (b1 (p / 36) ++ b1 (p % 36))) phase ms 0x0C

/-- The bank rows that the fuses and the repair log list (R276, R484, R488). -/
def listedRows (s : State) : List (Nat × Nat × Nat) :=
  s.fuses.c0.spoolRep.map (fun e => (bits e.toNat 23 13, bits e.toNat 12 8, bits e.toNat 7 0))
    ++ ((repairRecs s).filter (fun r => leNat (r.take 1) == 2)).map (fun r =>
      let w := leNat ((r.drop 4).take 4)
      (leNat ((r.drop 2).take 2), bits w 12 8, bits w 7 0))

/-- A bank row takes a spare of its bank (R276); a bank with none left makes its tile unusable. -/
def takeSpare (ms : Nat) (r : Nat × Nat × Nat) (s : State) : State :=
  let k := r.1 * 32 + r.2.1
  let used := smGet (fun _ => 0) s.spares k
  if used < 4 then { s with spares := smPut (fun _ => 0) s.spares k (used + 1) }
  else if s.stopped ∨ (s.unusableRow (r.1 / 36)).getLsbD (r.1 % 36) then s
  else retireIn 3 ms r.1 (logReq (raiseF s stPg st_F_SPARE_OUT) 3 0x0203 stPg (b2 r.1 ++ b1 r.2.1))

/-- The bank with the fewest free spares (R296). -/
def noteSpares (s : State) : State :=
  let w := s.spares.foldl (fun b c => if b.2 < c.2 then c else b) (0, 0)
  wr (wr (wr s stPg st_MIN_PTILE (w.1 / 32)) stPg st_MIN_SPARE (4 - w.2)) stPg st_REPAIR_PEND 0

/-- Channels that fail training (R282): the mask of 64. -/
def trainMask (l : List Nat) : Nat := (((List.range 64).filter (fun c => l.contains c)).map (fun c => 2 ^ c)).sum

/-- The TRAINED bits of the four LP pages, and TRAIN_FAIL (R282, R297, R298). -/
def noteTraining (s : State) (l : List Nat) : State :=
  forEach (List.range 4) (fun g s =>
    let bad := trainMask l / 2 ^ (16 * g) % 2 ^ 16
    let s := wr (wr s (lpPg g) lp_TRAINED (0xFFFF - bad)) (lpPg g) lp_SELF_REFRESH 0
    if bad = 0 then s else raiseF s (lpPg g) lp_F_TRAIN_FAIL) s

/-- Post-package repair replaces the rows that the repair log records as failed (R282, R488). -/
def repairLp (s : State) : State :=
  let rs := ((repairRecs s).filter (fun r => leNat (r.take 1) == 3)).map (fun r =>
    (leNat ((r.drop 2).take 2), leNat ((r.drop 4).take 4)))
  { s with lpRepaired := rs.dedup, lpTrained := true }

/-- The test of LPDDR5X (R282): a line that it finds uncorrectable is recorded (R280). -/
def testLp (s : State) (ls : List Nat) : State :=
  forEach (ls.filter (· < 2 ^ 33)) (fun l s =>
    lpUe { s with lpBad := if s.lpBad.contains l then s.lpBad else s.lpBad ++ [l] } (l * 64)) s

/-- B3 (R276, R282, R479): training, repair and test of LPDDR5X, then the spare bank rows in the order of their sources. -/
def execB3 (ms : Nat) (o : B3Obs) (s : State) : Out :=
  done s <|
    if ¬ atPhase s 3 then s
    else
      let s := noteTraining s o.trainFail
      match (List.range 64).find? (fun c => o.trainFail.contains c) with
      | some c => failPhase (logReq s 3 0x0206 (lpPg (c / 16)) (leBytes 8 (trainMask o.trainFail))) 3 ms 0x06
      | none =>
        let s := testLp (repairLp s) o.badLines
        let s := noteSpares (forEach (listedRows s ++ o.badRows).dedup (takeSpare ms) { s with spares := [] })
        if s.stopped then s else passPhase s 3 ms

/-- A tile fails the test of B4 (R433, R479). -/
def bringTileFails (ms : Nat) (f : Nat × Nat) (s : State) : State :=
  if s.stopped ∨ 1152 ≤ f.1 ∨ (s.unusableRow (f.1 / 36)).getLsbD (f.1 % 36) then s
  else
    let x := itGet s f.1
    let s := itPut s f.1 { x with state := 3, due := none, forced := false, begun := false }
    let s := wr (wr (raiseF s itPg it_F_TEST_FAIL) itPg it_FAIL_TEST f.2) itPg it_FAIL_TILE f.1
    retireIn 4 ms f.1 (logReq s 3 0x000B itPg (b2 f.1 ++ b2 f.2 ++ b4 x.passStep))

/-- The hold at the entry to B5 (R482). -/
def enterStandby (s : State) : State :=
  if rd s mgPg mg_STANDBY = 0 then s
  else
    let s := forEach (List.range 4) (fun g s => wr s (lpPg g) lp_SELF_REFRESH 1) s
    forEach (List.range 64) (fun p s => wr s (lkPg p) lk_STATUS_STATE stOff) (wr s mgPg mg_STANDBY_HELD 1)

/-- Every tile of the map computes known-answer input `i` by vx.bob with VX_SEED set to its seed (R391); the register that
receives it is the firmware's choice, v0 here (log entry 144). -/
def katTiles (i : Nat) (s : State) : State :=
  let k := katInput i
  forEach s.tileList (fun t s =>
    (wr64 s (vxPg t) vx_SEED_LO vx_SEED_HI k.1.toNat).setV t 0 (bobVec k.1 k.2.1 k.2.2.1 k.2.2.2)) s

/-- The BB engine computes known-answer input `i` (R391); a mismatch with the software evaluation is recorded. -/
def katEngine (o : B4Obs) (i : Nat) (s : State) : State :=
  let s := bbKatOp (wr s bbPg bb_KAT_IDX i)
  if o.katFail.contains i then katFailedOp s else s

/-- Tiles that failed in service where their row had no spare fail again (R20); the test that finds them is not stated: a
free value. -/
def failAgain (ms : Nat) (s : State) : State :=
  forEach s.failed (fun p s => bringTileFails ms (p, (freshFree s).1.toNat % 65536) (freshFree s).2) s

/-- B4 (R20, R391, R479): the bobbin check on the tiles and on the BB engine, and the tile test; failing tiles are
retired. -/
def execB4 (ms : Nat) (o : B4Obs) (s : State) : Out :=
  done s <|
    if ¬ atPhase s 4 then s
    else
      let s := forEach (List.range 4) (fun i s => katEngine o i (katTiles i s)) s
      let s := failAgain ms (forEach o.fails (bringTileFails ms) s)
      if s.stopped then s else enterStandby (passPhase s 4 ms)

/-- The physical tiles that the map of row `y` names. -/
def mapped (s : State) (y : Nat) : List Nat := (rowTiles s y).map (fun t => s.ptile t.toNat)

/-- TILE_REMAP (R20, R444): the soft-retire record, the map, B3 and B4 on the newly used tiles of the row (`o3` and `o4` say
what they find), the program image reloaded, and back to B8. A tile whose row has no spare gets no record and stays fenced
(R20). -/
def execTileRemap (t : Tile) (o3 : B3Obs) (o4 : B4Obs) (s : State) : Out :=
  onTile s t <| done s <|
    let y := t.toNat / s.ncols
    let p := s.ptile t.toNat
    let was := mapped s y
    let s := softRetire s t (nextSeqOf s)
    if ¬ (softRetired s).contains p then s
    else
      let s := resetRow (wr s mgPg mg_PHASE 1) y
      let fresh := (mapped s y).filter (fun q => !was.contains q)
      let s := forEach (o3.badRows.filter (fun r => fresh.contains r.1)) (takeSpare 0) s
      let s := forEach (o4.fails.filter (fun f => fresh.contains f.1)) (bringTileFails 0) s
      if s.stopped then s
      else
        let s := wr s mgPg mg_PHASE 8
        if rowFits s y then reloadRow s y else s

/-- In-field tests in progress are abandoned; their tiles stay due (R482). -/
def abandonTests (s : State) : State :=
  forEach ((s.it.filter (fun x => x.2.state == 1)).map (·.1))
    (fun p s => itPut s p { itGet s p with state := 0, percent := 0 }) s

/-- MG_CTRL.GO (R482, R507): out of standby, a warm bring-up. -/
def mgGoOp (s : State) : State :=
  let s := abandonTests s
  let s := forEach (List.range 4) (fun g s => wr s (lpPg g) lp_SELF_REFRESH 0) s
  wr (wr s mgPg mg_STANDBY_HELD 0) mgPg mg_WARM 1

/-- MG_GO: outside standby it is ignored and sets PG_STATUS[0]. -/
def execMgGo (s : State) : Out :=
  done s (if ¬ locked s mgPg ∧ rd s mgPg mg_STANDBY_HELD = 0 then wrej s mgPg else actWrite s mgPg mgGoOp)

/-! ### B5 to B8 -/

/-- The manifest that bring-up uses: the one delivered, else the one in flash (R480, R502). -/
def bringMan (s : State) : Option (List Byte) := match s.manNew with | some m => some m | none => flashMan s

/-- B5 (R476, R480, R482): every port of the current manifest begins to train, and the phase has passed once no port
trains any more. -/
def execB5 (ms : Nat) (s : State) : Out :=
  done s <|
    if ¬ atPhase s 5 then s
    else
      let ports := match bringMan s with | some m => manPorts m (entryOf s m) | none => []
      let s := forEach (List.range 64) (fun p s => if ports.contains p then setEnable s p true else s) s
      if (List.range 64).any (fun p => portState s p == stTrain) then s else passPhase s 5 ms

/-- The module has time (R352, R355). -/
def hasTime (s : State) : Bool := rd s tmPg tm_TSTATE == tsLocked || rd s tmPg tm_TSTATE == tsPtp

/-- B6 (R352, R476): passed once the module is LOCKED or PTP, stopped after 2 s without. -/
def execB6 (ms : Nat) (s : State) : Out :=
  done s <|
    if ¬ atPhase s 6 then s
    else if hasTime s then passPhase s 6 ms
    else if ms < 2000 then s
    else failPhase (logReq s 3 0x0301 tmPg (b1 (rd s tmPg tm_HOPS) ++ b4 (rd s tmPg tm_OFFSET))) 6 ms 0x01

/-- B7 (R502, R503): the manifest is checked, and the command that delivered it completes. -/
def execB7 (ms : Nat) (key : List Byte) (s : State) : Out :=
  done s <|
    if ¬ atPhase s 7 then s
    else
      let c := checkMan s ((bringMan s).getD []) key
      let held := s.manNew.isSome
      let t := { c.2 with manNew := none }
      if c.1 = 0 then passPhase (if held then finishCmd t csOK 0 else t) 7 ms
      else failPhase (if held then finishCmd t csRefused (0x80 + c.1) else t) 7 ms (0x80 + c.1)

/-- Milliseconds of the bring-up (R507): a warm one starts at B5. -/
def bringMs (s : State) : Nat :=
  (((List.range 9).filter (fun n => rd s mgPg mg_WARM == 0 || decide (5 ≤ n))).map (fun n => rdi s mgPg mg_PHASE_MS n)).sum

/-- B8 (R476, R507). -/
def execB8 (ms : Nat) (s : State) : Out :=
  done s <|
    if ¬ atPhase s 8 then s
    else
      let s := passPhase { s with ready := true } 8 ms
      wr s mgPg mg_BRING_MS (bringMs s)

/-! ### Activation -/

/-- ACTIVATE (R496, R498): the staged image goes to flash and the module makes a cold bring-up. While a program runs the
answer is INCOMPLETE without a missing segment; without a whole and checked transfer the previous image stays. Whatever
the comparison finds, B2 checks the image again. An image that LPDDR5X cannot give whole is not written (R280), which is
the model's choice (log entry 140). -/
def execActivate (port : BitVec 2) (datagram : List Byte) (s : State) : Out :=
  done s <| match takeDgram s port 4 datagram with
    | none => s
    | some d =>
      if programRuns s then
        send s (.datagram port.toNat (xferDatagram 3 d.round d.id 0 d.count (statusBytes d.count (.incomplete []))))
      else match s.rxXfer with
        | none => s
        | some x =>
          if x.id ≠ d.id ∨ ¬ x.digestOk ∨ ¬ takesFirmware s ∨ s.netRecovery.isSome then s
          else
            let r := stageCheck s x
            if ¬ r.1 then r.2
            else
              let image := memRead s.lp (stageBase s) (min (8192 * x.count) fwArea)
              let s := { r.2 with flash := r.2.flash.filter (fun c => decide (fwArea ≤ c.1)) }
              resetModule (writeTime (wr (flWrite s 0 image) mgPg mg_RECOVERED 0))

end Sys2Proof.Machine
end

