-- ==== Sys2Proof/Machine/Security.lean ====
section
/-! DEFINITION. Life-cycle security (R430, R523 to R532): test packages, the firmware epoch, owner records, life-cycle
transitions, debug tokens and challenges, quotes and the identity certificate, and the health of the entropy source.
A signed object carries its signer's key (R523); where in it no rule says, so the key is an operand of the command that
presents the object, and so are the fields of an object to which the manual gives no layout (log entry 170). -/

namespace Sys2Proof.Machine

/-! ### Packages and the epoch -/

/-- Where in-field test content lies in flash, and its size (R487). -/
def itArea : Nat := 0x08000000
def itAreaSize : Nat := 0x02000000

/-- A package is refused (R430): 0 signature, 1 version. -/
def refusePkg (s : State) (version why : Nat) : State :=
  logReq (raiseF s itPg it_F_PKG_REFUSED) 2 0x0502 itPg (b4 version ++ b1 why)

/-- IT_PACKAGE (R430): stored content takes effect at the next round of each tile. -/
def execItPackage (q : QRef) (p : PkgInfo) (s : State) : Out :=
  hostCmd q 0x4D (stateCmd fun s k e =>
    let a := arg e 0
    let n := arg e 1
    let v := p.version.toNat
    if ¬ inLp a n then complete s k e csErrUnmapped 0
    else needMem s k e a n fun s =>
    let bytes := memRead s.lp a (min n itAreaSize)
    let signedPart := bytes.take p.signed
    if ¬ signedBy s.vendorHash p.key signedPart p.sig then refuseFree (refusePkg (sigFail s 3) v 0) k e
    else if v ≤ rd s itPg it_VER then refuseFree (refusePkg s v 1) k e
    else complete { flWrite s itArea bytes with itStored := v, pkgStored := digestBytes signedPart } k e csOK 0) s

/-- FW_EPOCH (R526). -/
def execFwEpoch (q : QRef) (s : State) : Out :=
  doneFuses s <| hostRun q 0x4E (stateCmd fun s k e =>
    let n := arg e 0
    if rd s mgPg mg_FW_VER / 2 ^ 24 < n ∨ n ≤ s.fuses.epoch ∨ 64 < n then refuseFree s k e
    else complete { s with fuses := { s.fuses with epoch := n } } k e csOK 0) s

/-! ### The owner -/

/-- What an owner record signs: its fields in the order of R525, little-endian (log entry 170). -/
def ownerMsg (r : OwnerRec) : List Byte := leBytes 8 r.dieId.toNat ++ b4 r.counter.toNat ++ r.key

/-- The signature of an owner record is by its own new key where no owner key is installed, else by the installed one
(R525). -/
def recordSigned (s : State) (r : OwnerRec) : Bool :=
  signedBy (if s.sec.owner.isNone then digestBytes r.key else ownerHash s) r.signer (ownerMsg r) r.sig

/-- The record is acceptable (R525). -/
def ownerOk (s : State) (r : OwnerRec) : Bool :=
  lcState s == 2 && r.dieId == s.fuses.c0.dieId &&
    (match s.sec.owner with
      | none => true
      | some o => decide (o.counter < r.counter.toNat))

/-- OWNER_SET (R525). -/
def execOwnerSet (q : QRef) (r : OwnerRec) (s : State) : Out :=
  hostCmd q 0x52 (stateCmd fun s k e =>
    if ¬ inLp (arg e 0) 64 then complete s k e csErrUnmapped 0
    else needMem s k e (arg e 0) 64 fun s =>
    if ¬ recordSigned s r then refuseFree (sigFail s 4) k e
    else if ¬ ownerOk s r then refuseFree s k e
    else
      let s := { s with sec := { s.sec with owner := some { key := r.key, counter := r.counter.toNat } } }
      complete (logReq s 1 0x0516 lcPg (b4 r.counter.toNat)) k e csOK 0) s

/-- `n` words of 64 bits from the entropy source (R532). -/
def drawWords : Nat → State → List W64 × State
  | 0, s => ([], s)
  | n + 1, s =>
    let a := drawEntropy s
    let r := drawWords n a.2
    (a.1 :: r.1, r.2)

/-! ### Life cycle -/

/-- The authorisations that a transition of R528 needs; none for a pair of states that the table does not list. -/
def lcAuth (s : State) (from_ to_ : Nat) (owner vendor : Bool) : Option Bool :=
  let own := owner && s.sec.owner.isSome
  if to_ = 4 then (if from_ = 4 then none else some (vendor || (from_ == 2 && own)))
  else match from_, to_ with
    | 0, 1 => some vendor
    | 1, 2 => some vendor
    | 2, 3 => some (own && vendor)
    | 3, 2 => some vendor
    | _, _ => none

/-- A transition is refused (R528, R539). -/
def lcRefused (s : State) (k : Nat) (e : List Byte) (to_ why : Nat) : State :=
  complete (logReq (raiseF s lcPg lc_F_TRANSITION_REFUSED) 2 0x0513 lcPg (b1 to_ ++ b1 why)) k e csRefused why

/-- The return erase (R528). The calendar setting of the operating-time store is what EV_CAL_SEC has set: without it calendar
time is unset again (R466). -/
def returnErase (s : State) : State :=
  let s := { s with sec := { s.sec with owner := none, debugOpened := false }, lp := [], lpBad := [], lpWeak := [],
                    spool := [], spoolBad := [], spoolWeak := [],
                    flash := s.flash.filter (fun c => !(decide (0x0A520000 ≤ c.1) && decide (c.1 < 0x0AB20000))) }
  logReq (wr (wr s evPg ev_CAL_SEC 0) evPg ev_UNSET (rd s evPg ev_CAL)) 1 0x051B lcPg (b1 1)

/-- The actions before the fuse (R528): the identity key is made from words of the entropy source, eight here (log entry
170). -/
def lcActions (s : State) (from_ to_ : Nat) : State :=
  if to_ = 4 then { s with sec := { owner := none, debugOpened := false, idKey := none, seals := [] } }
  else if from_ = 0 then
    let r := drawWords 8 s
    { r.2 with sec := { r.2.sec with idKey := some r.1, seals := List.replicate 4 s.fuses.dieKey } }
  else if from_ = 2 then returnErase s
  else s

/-- The fuses of a transition are blown, and the change is recorded. -/
def lcBlow (s : State) (from_ to_ : Nat) : State :=
  let f := if to_ = 4 then { s.fuses with voided := true, dieKey := 0 } else { s.fuses with lcCount := s.fuses.lcCount + 1 }
  let s := { s with fuses := f }
  logReq s 1 0x0512 lcPg (b1 from_ ++ b1 to_ ++ b1 s.fuses.lcCount)

/-- What an authorisation signs: its fields, little-endian (log entry 170). -/
def authMsg (a : LcAuth) : List Byte := leBytes 8 a.dieId.toNat ++ [a.lcCount, a.target]

/-- An authorisation for a target state is signed by the key with this hash (R523, R528). -/
def authBy (held : List Byte) (to_ : Nat) (a : Option LcAuth) : Bool :=
  a.any (fun a => a.target.toNat == to_ && signedBy held a.key (authMsg a) a.sig)

/-- An authorisation is bound to the die and to LC_COUNT (R528). -/
def authBound (s : State) (a : Option LcAuth) : Bool :=
  a.any (fun a => a.dieId == s.fuses.c0.dieId && a.lcCount.toNat == s.fuses.lcCount)

/-- LC_TRANSITION (R528): a cold bring-up follows the completion. -/
def execLcTransition (q : QRef) (owner vendor : Option LcAuth) (s : State) : Out :=
  doneFuses s <| hostRun q 0x53 (stateCmd fun s k e =>
    if ¬ inLp (arg e 1) 64 then complete s k e csErrUnmapped 0
    else needMem s k e (arg e 1) 64 fun s =>
    let from_ := lcState s
    let to_ := arg e 0 % 256
    let ownerOk := s.sec.owner.isSome && authBy (ownerHash s) to_ owner
    let vendorOk := authBy s.vendorHash to_ vendor
    let bound := authBound s owner && authBound s vendor
    if programRuns s then lcRefused s k e to_ 1
    else match (if arg e 0 < 256 then lcAuth s from_ to_ ownerOk vendorOk else none) with
      | none => lcRefused (freshFree s).2 k e to_ ((freshFree s).1.toNat % 256)
      | some false => lcRefused (sigFail s 5) k e to_ 2
      | some true =>
        if from_ = 2 ∧ to_ = 3 ∧ ¬ bound then lcRefused s k e to_ 3
        else if from_ = 2 ∧ to_ = 3 ∧ 16 ≤ s.fuses.lcCount then lcRefused s k e to_ 4
        else if from_ = 0 ∧ to_ = 1 ∧ rd s scPg sc_ENT_FAILED = 1 then denyFree s k e
        else complete { lcBlow (lcActions s from_ to_) from_ to_ with resetDue := some k } k e csOK 0) s

/-! ### Debug -/

/-- The current challenge. -/
def challengeNow (s : State) : List W32 := (List.range 16).map (fun w => BitVec.ofNat 32 (rdi s lcPg lc_CHALLENGE w))

/-- What a token signs: its fields in the order of R529, little-endian (log entry 170). -/
def tokenMsg (tk : Token) : List Byte :=
  leBytes 8 tk.dieId.toNat ++ b4 tk.pcycle ++ tk.challenge.flatMap (fun w => b4 w.toNat) ++ b4 tk.scope.toNat

/-- A token is signed by the key of the life-cycle state (R523, R527, R529): the owner's in FIELD, else the vendor's. -/
def tokenSigned (s : State) (tk : Token) : Bool :=
  signedBy (if lcState s = 2 then ownerHash s else s.vendorHash) tk.key (tokenMsg tk) tk.sig

/-- Why a token fails (R529, R539): 0 signature, 1 challenge, 2 state; none when it opens debug. -/
def tokenFails (s : State) (tk : Token) : Option Nat :=
  let st := lcState s
  if st = 0 ∨ st = 4 ∨ (st = 2 ∧ s.sec.owner.isNone) then some 2
  else if ¬ tokenSigned s tk then some 0
  else if tk.challenge ≠ challengeNow s ∨ tk.dieId ≠ s.fuses.c0.dieId ∨ tk.pcycle ≠ rd s evPg ev_PCYCLE then some 1
  else none

/-- A token is presented: whether debug opened, and the state after it (R529). -/
def presentToken (s : State) (tk : Token) : Bool × State :=
  match tokenFails s tk with
  | some r => (false, logReq (raiseF s lcPg lc_F_DEBUG_DENIED) 2 0x0515 lcPg (b1 r))
  | none =>
    let s := wr (wr s lcPg lc_DEBUG_OPEN 1) lcPg lc_SCOPE tk.scope.toNat
    (true, logReq { s with sec := { s.sec with debugOpened := true } } 1 0x0514 lcPg (b1 tk.scope.toNat))

/-- DEBUG_TOKEN (R529). -/
def execDebugToken (q : QRef) (tk : Token) (s : State) : Out :=
  hostCmd q 0x54 (fun s k e =>
    if ¬ inLp (arg e 0) 64 then complete s k e csErrUnmapped 0
    else needMem s k e (arg e 0) 64 fun s =>
      let s := if tokenFails s tk = some 0 then sigFail s 6 else s
      let r := presentToken s tk
      if r.1 then complete r.2 k e csOK 0 else denyFree r.2 k e) s

/-- LC_TOKEN (R529): the same through the JTAG data register. -/
def execLcToken (tk : Token) (s : State) : Out := done s (presentToken s tk).2

/-- A fresh challenge (R529); a failed source gives none (R532). -/
def challengeOp (s : State) : State :=
  if rd s scPg sc_ENT_FAILED = 1 then s
  else
    let r := drawWords 8 s
    forEach (List.range 8) (fun i s =>
      let w := (r.1.getD i 0).toNat
      wri (wri s lcPg lc_CHALLENGE (2 * i) (w % 2 ^ 32)) lcPg lc_CHALLENGE (2 * i + 1) (w / 2 ^ 32)) r.2

/-- NEW_CHALLENGE: a write of LC_CTRL.NEW_CHALLENGE. -/
def execNewChallenge (s : State) : Out := done s (actWrite s lcPg challengeOp)

/-- LC_CHALLENGE: a read of the challenge through JTAG draws a fresh one. -/
def execLcChallenge (s : State) : Out := done s (challengeOp s)

/-! ### Entropy -/

/-- ENTROPY_HEALTH (R532): a health test fails; at the third failure in a row the source has failed. -/
def execEntropyHealth (adaptive : Bool) (s : State) : Out :=
  done s <|
    if rd s scPg sc_ENT_FAILED = 1 then s
    else
      let s := wr (inc (raiseF s scPg sc_F_ENTROPY_HEALTH) scPg sc_HEALTH_FAILS 1) scPg sc_ENT_OK 0
      let s := logReq { s with entFails := s.entFails + 1 } 2 0x0517 scPg (b1 (b2n adaptive))
      if s.entFails < 3 then s
      else logReq (raiseF (wr s scPg sc_ENT_FAILED 1) scPg sc_F_ENTROPY_FAIL) 3 0x0518 scPg []

/-! ### Identity -/

/-- SHA-512 of a measurement, or zeros where nothing is present (R530). -/
def measure (x : Option (List Byte)) : List Byte :=
  match x with
  | some bs => digestBytes bs
  | none => List.replicate 64 0

/-- Fuse copy 0 in the field order of R484. -/
def fuseBytes (c : FuseCopy) : List Byte :=
  b1 c.grade.toNat ++ leBytes 8 c.dieId.toNat
    ++ (List.range 32).flatMap (fun y => leBytes 5 (smGet (fun _ => (0 : BitVec 36)) c.rowBad y).toNat)
    ++ c.spoolRep.flatMap (fun e => leBytes 3 e.toNat) ++ (List.range 64).flatMap (fun p => b1 (fuseWl c p).toNat)

/-- M1, the SHA-512 of the signed part of the active test package, or zeros where there is none. -/
def measurePkg (s : State) : List Byte := padTo 64 s.pkgActive

/-- M3 before its digest: the owner key's SHA-512, COUNTER, LC_COUNT and LC_EPOCH. -/
def ownerBytes (s : State) : List Byte :=
  (match s.sec.owner with
    | some o => digestBytes o.key ++ b4 o.counter
    | none => List.replicate 68 0) ++ b1 s.fuses.lcCount ++ b1 s.fuses.epoch

/-- The 512 bytes that a quote signs (R530). -/
def quoteBody (s : State) (nonce m1 : List Byte) : List Byte :=
  [0x4A#8, 0x54#8, 0x51#8, 0x55#8, 0x4F#8, 0x54#8, 0x45#8, 0x31#8] ++ leBytes 8 s.fuses.c0.dieId.toNat
    ++ b4 (rd s evPg ev_PCYCLE) ++ b1 (lcState s)
    ++ b1 (rd s lcPg lc_DEBUG_OPEN + 2 * b2n s.sec.debugOpened + 4 * rd s mgPg mg_RECOVERED)
    ++ b1 s.fuses.epoch ++ b1 s.fuses.lcCount ++ b4 (rd s mgPg mg_FW_VER) ++ b4 (rd s itPg it_VER) ++ padTo 32 nonce
    ++ measure (some (memRead s.flash 0 256)) ++ m1 ++ measure (some (fuseBytes s.fuses.c0)) ++ measure (some (ownerBytes s))
    ++ measure (s.image.map (fun i => i.1)) ++ measure s.manifest ++ (leBytes 64 Config.romDigest.toNat).reverse

/-- A quote (R530). -/
def quoteBytes (s : State) (nonce m1 : List Byte) : List Byte :=
  quoteBody s nonce m1 ++ padTo 512 (Config.identitySign (s.sec.idKey.getD []) (quoteBody s nonce m1))

/-- The nonce: from the command itself in lull mode (R522), else from LPDDR5X. -/
def quoteNonce (s : State) (e : List Byte) : List Byte :=
  if s.lull then leBytes 8 (arg e 0) ++ leBytes 8 (arg e 3) ++ leBytes 8 (arg e 4) ++ leBytes 8 (arg e 5)
  else memRead s.lp (arg e 0) 32

/-- The host key of an argument. -/
def hostKey (e : List Byte) (i : Nat) : W32 := BitVec.ofNat 32 (arg e i)

/-- QUOTE (R522, R530). -/
def execQuote (q : QRef) (s : State) : Out :=
  hostCmd q 0x50 (fun s k e =>
    if ¬ s.lull ∧ ¬ inLp (arg e 0) 32 then complete s k e csErrUnmapped 0
    else needMem s k e (if s.lull then 0 else arg e 0) (if s.lull then 0 else 32) fun s =>
      let bytes := quoteBytes s (quoteNonce s e) (measurePkg s)
      let s := send (inc s scPg sc_QUOTES 1) (.rdmaWrite q.port.toNat (arg e 1) (hostKey e 2) bytes)
      complete s k e csOK 0) s

/-- IDENTITY (R522, R531): the certificate, up to the length that the host gives. -/
def execIdentity (q : QRef) (s : State) : Out :=
  hostCmd q 0x51 (fun s k e =>
    let bytes := match s.sec.idKey with
      | some k => (Config.identityCert s.fuses.c0.dieId k).take (arg e 3)
      | none => []
    complete (send s (.rdmaWrite q.port.toNat (arg e 1) (hostKey e 2) bytes)) k e csOK 0) s

end Sys2Proof.Machine
end

