-- ==== Sys2Proof/Machine/Registers.lean ====
section
/-! DEFINITION. Register commands of the management core (R540 to R550): a write with what its block does, injection,
counter clears, and the reads that latch or clear. -/

namespace Sys2Proof.Machine

/-- `f` when a bit of the written word is 1. -/
def onBit (v b : Nat) (f : State → State) (s : State) : State := if bit v b then f s else s

/-- A write of LK_CFG (R320): ENABLE acts when it changes. -/
def lkCfgAct (s : State) (p was : Nat) : State :=
  let now := rd s (lkPg p) lk_CFG_ENABLE
  if was = now then s else if now = 1 then enablePort s p else disablePort s p

/-- A write of CAL_WL (R317); whether the recalibration passes the write does not say: a free value. -/
def calWlAct (s : State) (p w : Nat) : State :=
  if 8 < w ∨ portState s p ≠ stActive ∨ (portSt s p).failing.isSome ∨ (portSt s p).cal.isSome then s
  else
    calBegin (freshFree s).2 p { todo := [w], bad := if bit (freshFree s).1.toNat 0 then [] else [w], one := true }

/-- A write of EN_CFG: a port that stops is reset (R362) and loses its link. -/
def enCfgAct (s : State) (n was : Nat) : State :=
  if rd s n en_ENABLE = 1 then s
  else
    let s := wr s n en_LINK_UP 0
    if bit was 31 then ethFifoReset s (n - enPg 0) else s

/-- What a tile's TL page does on a write (R166, R260, R434). -/
def tlAct (s : State) (t : Tile) (off v : Nat) : State :=
  if off = 0x040 then onBit v 0 (fun s => runTile s t) s
  else if off = 0x080 then onBit v 0 (fun s => fenceTile s t) s
  else if off = 0x108 then onBit v 0 (fun s => ring s t) s
  else s

/-- What the block of a page does on an accepted write of the word `v` (the WO fields, the fields that act, and BROKEN of
a tack line, which returns to use with every PEND bit clear, R268; a write of PART may complete the condition of a line,
R252);
`was` is the register before. -/
def blockAct (s : State) (n off v was : Nat) : Blk → State
  | .mg => if off = 0x040 then onBit v 31 runAllOp (onBit v 30 mgGoOp s) else s
  | .lc => if off = 0x044 then onBit v 0 challengeOp s else s
  | .ev =>
    if off = 0x040 then onBit v 0 optReinitOp (onBit v 1 evClearOp s)
    else if off = 0x058 then calSecOp s v
    else if off = 0x05C then { s with optSet := true }
    else s
  | .tm =>
    if off = 0x040 then reparent s
    else if off = 0x064 then { s with epoch := some (rd64 s n tm_EPOCH_LO tm_EPOCH_HI) }
    else if off = 0x06C then armT0 s (rd64 s n tm_T0_LO tm_T0_HI)
    else s
  | .nm => if off = 0x040 then onBit v 0 commitOp (onBit v 1 coldOp (onBit v 2 loadOp s)) else s
  | .bb => if off = 0x04C then onBit v 0 bbGoOp (onBit v 1 bbKatOp (onBit v 4 katFailedOp s)) else s
  | .tw => if off = 0x040 then onBit v 1 (fun s => twSeedOp s 0) (onBit v 0 (fun s => twCommitOp s 0) s) else updatePartner s
  | .lp => updatePartner s
  | .it => if off = 0x040 then releaseNow s else s
  | .gs => if off = 0x040 ∧ ¬ bit v 31 then { s with recovery := none } else s
  | .en => if off = 0x040 then enCfgAct s n was else s
  | .lk =>
    if off = 0x040 then lkCfgAct s (n - 0x20) (bits was 31 31)
    else if off = 0x054 then calWlAct s (n - 0x20) (bits v 3 0)
    else s
  | .tk => if off = 0x010 then forEach (List.range 16) (fun k s => onBit v k (fun s => clearPend s k) s) s else s
  | .sy => if off = 0x044 then forEach (List.range 16) (fun k s => tackAnnounce s k) s else s
  | .tl => tlAct s (BitVec.ofNat 11 ((n - 0x1000) / 4)) off v
  | _ => s

/-- A write of CAL_WL on a port whose idle wavelength is marked bad is ignored (R335). -/
def calWlRefused (s : State) (n off : Nat) : Bool :=
  pageBlk n == some .lk && off == 0x054 && wlBad s (n - 0x20) (rd s n lk_STATUS_ROT)

/-- A register write with what its block does: whether it was accepted, and the state after it. Under LOCK a field that
acts stores nothing (R548). -/
def pageWrite (who : Writer) (s : State) (n off v : Nat) : Bool × State :=
  if calWlRefused s n off then (false, wrej s n)
  else
    let r := pageStore who s n off v
    match pageBlk n with
    | some b =>
      if ¬ r.1 ∨ (locked s n ∧ b != .lp ∧ off ≠ 0x010) then r
      else (true, blockAct r.2 n off v (regW s n off) b)
    | none => r

/-- REGISTER_WRITE by the management core (R541): a page that does not exist answers ERR_UNMAPPED. -/
def execRegisterWrite (page : Nat) (off : BitVec 12) (v : W32) (s : State) : Out :=
  done s <|
    if pageExists s page ∧ off.toNat % 4 = 0 ∧ mgmtHolds s page off.toNat = false then
      (pageWrite .mgmt s page off.toNat v.toNat).2
    else s

/-- PG_FAULT_FORCE (R546). -/
def execPgFaultForce (page : Nat) (v : W32) (s : State) : Out :=
  done s <| if pageExists s page then actWrite s page (fun s => forceFaults s page v.toNat) else s

/-- CLR_CNT (R543). -/
def execClrCnt (page : Nat) (s : State) : Out :=
  done s <| if pageExists s page then actWrite s page (fun s => clearCounters s page) else s

/-- READ_LATCH (R365, R457, R550, R556): a read of a _LO half that latches its _HI. -/
def execReadLatch (page : Nat) (off : BitVec 12) (s : State) : Out :=
  done s <| if pageExists s page ∧ off.toNat % 4 = 0 then (pageRead s page off.toNat).2 else s

/-- READ_TO_CLEAR (R457, R543, R556): a read of a maximum clears it. -/
def execReadToClear (page : Nat) (off : BitVec 12) (s : State) : Out :=
  done s <| if pageExists s page ∧ off.toNat % 4 = 0 then (pageRead s page off.toNat).2 else s

end Sys2Proof.Machine
end

