-- ==== Sys2Proof/Machine/Host.lean ====
section
/-! DEFINITION. The host interface (R359, R508 to R522): Ethernet frames, connections, RDMA, doorbells, completions, and the
commands of the data queues and the management queue. -/

namespace Sys2Proof.Machine

/-! ### Ports -/

/-- LINK_UP (R534): the PCS has block lock, outside an Ethernet PLL loss (R359). -/
def execLinkUp (port : BitVec 2) (s : State) : Out :=
  done s <|
    let n := enPg port.toNat
    if rd s n en_ENABLE = 1 ∧ rd s ckPg ck_ETH_LOCK = 1 then wr s n en_LINK_UP 1 else s

/-- LINK_DOWN (R533): block lock is lost, or local or remote fault ordered sets arrive. -/
def execLinkDown (port : BitVec 2) (rxFault : Bool) (s : State) : Out :=
  done s <|
    let n := enPg port.toNat
    wr (raiseF s n (if rxFault then en_F_RX_FAULT else en_F_LINK_DOWN)) n en_LINK_UP 0

/-- ETH_PLL_LOSS (R359): the Ethernet ports stop until relock. -/
def execEthPllLoss (s : State) : Out :=
  done s <|
    let s := logReq (raiseF (wr s ckPg ck_ETH_LOCK 0) ckPg ck_F_ETH_PLL_LOSS) 3 0x080E ckPg []
    forEach (List.range 4) (fun n s => wr s (enPg n) en_LINK_UP 0) s

/-- ETH_PLL_RELOCK (R359): the Ethernet side of its crossings comes out of reset (R362). -/
def execEthPllRelock (s : State) : Out :=
  done s <| forEach (List.range 4) (fun n s => ethFifoReset s n) (wr s ckPg ck_ETH_LOCK 1)

/-! ### Queue pairs -/

/-- The queue of a QPN (R510). -/
def queueOfQpn (port qpn : Nat) : Option Nat :=
  if qpn = 0x10 then some (qKey port 256)
  else if 0x100 ≤ qpn ∧ qpn < 0x200 then some (qKey port (qpn - 0x100))
  else none

/-- A QP enters Error (R510): its unstarted commands complete with QP_ERROR. -/
def qpError (s : State) (port qpn synd : Nat) : State :=
  let n := enPg port
  let s := qpPut s port qpn { qpGet s port qpn with st := .error }
  let s := match queueOfQpn port qpn with | some k => flushQueue s k csQpError 0 | none => s
  let s := if qpn = 0x10 then wr s n en_MQ_CONNECTED 0 else s
  logReq (raiseF s n en_F_QP_ERROR) 2 0x0519 n (b1 port ++ leBytes 3 qpn ++ b1 synd)

/-- A QP enters Error for a cause to which the manual gives no syndrome: a free value. -/
def qpErrorFree (s : State) (port qpn : Nat) : State :=
  qpError (freshFree s).2 port qpn ((freshFree s).1.toNat % 256)

/-- The QP is connected. -/
def qpReady (s : State) (port : BitVec 2) (qpn : Nat) : Bool := (qpGet s port.toNat qpn).st == .ready

/-- The MAC, IPv4 and IPv6 addresses of a port (R534), the words of the last in the order of the table. -/
def macOf (s : State) (p : Nat) : Nat := rd s (enPg p) en_MAC_HI * 2 ^ 32 + rd s (enPg p) en_MAC_LO
def ip4Of (s : State) (p : Nat) : Nat := rd s (enPg p) en_IP4
def ip6Of (s : State) (p : Nat) : Nat :=
  ((rdi s (enPg p) en_IP6 0 * 2 ^ 32 + rdi s (enPg p) en_IP6 1) * 2 ^ 32 + rdi s (enPg p) en_IP6 2) * 2 ^ 32
    + rdi s (enPg p) en_IP6 3

/-- The link-local address of a port (R491): fe80::/64 with the modified EUI-64 of its MAC (log entry 173). -/
def linkLocal (s : State) (p : Nat) : Nat :=
  let m := macOf s p
  0xFE80 * 2 ^ 112 + ((m / 2 ^ 24) ^^^ 0x020000) * 2 ^ 40 + 0xFFFE * 2 ^ 24 + m % 2 ^ 24

/-- An Internet address is the port's own. -/
def ownIp (s : State) (p : Nat) : IpAddr → Bool
  | .v4 a => a.toNat == ip4Of s p
  | .v6 a => a.toNat == ip6Of s p || a.toNat == linkLocal s p

/-- A frame is addressed to the port itself. -/
def ownMac (s : State) (p : Nat) (dst : BitVec 48) : Bool := dst.toNat == macOf s p

/-- A frame is addressed to an IPv6 multicast group. -/
def mac6Group (dst : BitVec 48) : Bool := dst.toNat / 2 ^ 32 == 0x3333

/-- The path MTU of a port in bytes (R509, R534); that the reserved code reads as the largest is the model's choice (log
entry 173). -/
def pathMtu (s : State) (p : Nat) : Nat := 1024 * 2 ^ min (rd s (enPg p) en_MTU) 2

/-- The module supports a packet (R509): RC operations but the atomic ones and those that invalidate a key, a payload within
the path MTU, a CNP, and a management datagram on QP1. -/
def roceSupported (s : State) (p : Nat) (k : RocePkt) : Bool :=
  k.opcode == 0x81#8 || (k.opcode == 0x64#8 && k.qpn == 1)
    || (decide (k.opcode.toNat ≤ 0x11) && decide (k.len ≤ pathMtu s p))

/-- A frame that a port discards (R508). -/
def discard (s : State) (p : Nat) : State := inc s (enPg p) en_RX_DISCARD 1

/-- A RoCEv2 packet to the port's own address (R509). -/
def roceArrives (s : State) (port : BitVec 2) (k : EthKind) (r : RocePkt) : State :=
  let p := port.toNat
  let s := if r.ecn then inc s (enPg p) en_ECN_RX 1 else s
  let s := if r.ecn ∧ rd s (enPg p) en_ECN_EN = 1 then send s (.ethReply p k) else s
  if roceSupported s p r ∨ ¬ qpReady s port r.qpn then s else qpErrorFree s p r.qpn

/-- Flow control pauses the module's priority for so many quanta of 512 bit times at 400 Gb/s, in cycles of the core clock
(R509): 2.88 each. -/
def pauseFor (s : State) (p quanta : Nat) : State :=
  { s with pfcUntil := smPut (fun _ => 0) s.pfcUntil p (s.cycles + (quanta * 288 + 99) / 100) }

/-- ETH_FRAME (R355, R497, R508, R509, R534). A frame with an uncorrectable codeword is lost. -/
def execEthFrame (port : BitVec 2) (f : EthFrame) (s : State) : Out :=
  done s <|
    let p := port.toNat
    if ¬ ethUp s port then s
    else
      let s := inc (inc s (enPg p) en_FEC_CORR f.corr) (enPg p) en_FEC_UNCORR f.uncorr
      let own := ownMac s p f.dst
      let reply := fun (ok : Bool) => if ok then send s (.ethReply p f.kind) else discard s p
      if 0 < f.uncorr then s
      else match f.kind with
        | .arp a => reply ((own || f.dst == BitVec.allOnes 48) && a.toNat == ip4Of s p)
        | .nd a => reply ((own || mac6Group f.dst) && ownIp s p (.v6 a))
        | .icmpEcho d => reply (own && ownIp s p d)
        | .multicast u => if mac6Group f.dst ∧ u = 19028 then s else discard s p
        | .ptp => if rd s tmPg tm_PTP_PORT = p then s else discard s p
        | .roce d r => if own ∧ ownIp s p d then roceArrives s port f.kind r else discard s p
        | .ip d => if own ∧ ownIp s p d then s else discard s p
        | .pfc qs =>
          if rd s (enPg p) en_PFC_EN = 0 ∨ f.dst ≠ 0x0180C2000001#48 then discard s p
          else (match qs.getD (rd s (enPg p) en_PFC_PRIO) none with
            | some q => pauseFor s p q
            | none => s)
        | .other => discard s p

/-- The service of the management QP (R510). -/
def mgmtService : Nat := 0x4A54000000000010

/-- A REQ is accepted (R510). -/
def cmAccepts (s : State) (port : BitVec 2) (qpn : Nat) (service : Nat) : Bool :=
  if qpn = 0x10 then service == mgmtService && !qpReady s port 0x10
  else match queueOfQpn port.toNat qpn with
    | some k => (queueGet s k).isSome
    | none => false

/-- CM_REQ (R509, R510): a REP, or a REJ with reason "consumer reject". -/
def execCmReq (port : BitVec 2) (qpn : Nat) (service : BitVec 64) (s : State) : Out :=
  done s <|
    let p := port.toNat
    if ¬ ethUp s port then s
    else if cmAccepts s port qpn service.toNat then
      send (qpPut s p qpn { st := .connecting, retries := 0, rnr := 0, rate := 0 }) (.cmRep p qpn)
    else send s (.cmRej p qpn)

/-- CM_RTU (R509): the QP is connected. -/
def execCmRtu (port : BitVec 2) (qpn : Nat) (s : State) : Out :=
  done s <|
    let p := port.toNat
    let x := qpGet s p qpn
    if ¬ ethUp s port ∨ x.st ≠ .connecting then s
    else
      let s := qpPut s p qpn { x with st := .ready }
      if qpn = 0x10 then wr s (enPg p) en_MQ_CONNECTED 1 else s

/-- CM_DREQ (R509): the QP is disconnected. -/
def execCmDreq (port : BitVec 2) (qpn : Nat) (s : State) : Out :=
  done s <|
    let p := port.toNat
    let x := qpGet s p qpn
    if ¬ ethUp s port ∨ x.st = .idle then s
    else
      let s := send (qpPut s p qpn { x with st := .idle }) (.cmDrep p qpn)
      if qpn = 0x10 then wr s (enPg p) en_MQ_CONNECTED 0 else s

/-- CNP (R509): the sending rate falls. -/
def execCnp (port : BitVec 2) (qpn : Nat) (s : State) : Out :=
  done s <|
    let p := port.toNat
    if ¬ ethUp s port then s
    else
      let s := inc s (enPg p) en_CNP_RX 1
      let x := qpGet s p qpn
      if rd s (enPg p) en_ECN_EN = 1 ∧ x.st = .ready then qpPut s p qpn { x with rate := x.rate + 1 } else s

/-- TRANSPORT_RETRY (R509): a resend after a timeout or an RNR NAK; the eighth in a row is the Error state. -/
def execTransportRetry (port : BitVec 2) (qpn : Nat) (rnr : Bool) (s : State) : Out :=
  done s <|
    let p := port.toNat
    let x := qpGet s p qpn
    if x.st ≠ .ready then s
    else
      let y := if rnr then { x with rnr := x.rnr + 1 } else { x with retries := x.retries + 1 }
      let s := qpPut s p qpn y
      if 7 < y.rnr ∨ 7 < y.retries then qpErrorFree s p qpn else send s (.retry p qpn)

/-! ### Doorbells -/

/-- A bad TAIL stops the queue (R513). -/
def doorbellBad (s : State) (k tail : Nat) : State :=
  let n := enPg (k / 512)
  let s := flushQueue s k csDoorbellBad tail
  let s := match queueGet s k with
    | some h => queuePut s k (some { h with stopped := true })
    | none => s
  logReq (raiseF s n en_F_DOORBELL_BAD) 2 0x051A n (b1 (k / 512) ++ b1 (if k % 512 = 256 then 0xFF else k % 512) ++ b4 tail)

/-- A doorbell value reaches a queue (R513). -/
def ringQueue (s : State) (k v : Nat) : State :=
  match queueGet s k with
  | none => s
  | some h =>
    if h.stopped then s
    else
      let tail := v % 2 ^ 32
      if 2 ^ 32 ≤ v ∨ 2 ^ h.n < (tail + 2 ^ 32 - h.head) % 2 ^ 32 then doorbellBad s k tail
      else queuePut s k (some { h with tail := tail })

/-- A CONSUMED value reaches a queue (R521). -/
def consumeQueue (s : State) (k v : Nat) : State :=
  match queueGet s k with
  | none => s
  | some h => queuePut s k (some { h with consumed := v % 2 ^ 32 })

/-- A write to a queue's doorbell page arrives on its QP. -/
def doorOpen (s : State) (q : QRef) : Bool :=
  ethUp s q.port && qpReady s q.port (qpnOf (if q.mgmt then 256 else q.q.toNat))

/-- DOORBELL (R513). -/
def execDoorbell (q : QRef) (value : BitVec 64) (s : State) : Out :=
  done s <| if doorOpen s q then ringQueue s (qref q) value.toNat else s

/-- CONSUMED (R521). -/
def execConsumed (q : QRef) (value : BitVec 64) (s : State) : Out :=
  done s <| if doorOpen s q then consumeQueue s (qref q) value.toNat else s

/-! ### RDMA -/

/-- The region that a key names and an access fits (R511). -/
def regionFor (s : State) (key : W32) (a n : Nat) (write : Bool) : Option Region :=
  s.regions.find? (fun r => r.key == key && decide (r.base ≤ a) && decide (a + n ≤ r.base + r.len)
    && (if write then r.write else r.read))

/-- The queue of a QPN has this doorbell key. -/
def doorKey (s : State) (port qpn : Nat) (key : W32) : Option Nat :=
  match queueOfQpn port qpn with
  | none => none
  | some k => match queueGet s k with
    | some h => if h.dbKey = key then some k else none
    | none => none

/-- A write to a doorbell page (R512, R521): bytes 0 to 7 and 8 to 15 act. -/
def doorWrite (s : State) (k o : Nat) (bs : List Byte) : State :=
  let s := if o = 0 ∧ 8 ≤ bs.length then ringQueue s k (leNat (bs.take 8)) else s
  if o ≤ 8 ∧ 16 ≤ o + bs.length then consumeQueue s k (leNat ((bs.drop (8 - o)).take 8)) else s

/-- Module memory that a fail-safe keeps from RDMA (R283, R450). -/
def lpServed (s : State) : Bool := s.failSafe.isNone

/-- An RDMA access error (R511): the syndrome is a free value. -/
def accessError (s : State) (port : BitVec 2) (qpn : Nat) : State :=
  qpErrorFree (send s (.rdmaNak port.toNat qpn)) port.toNat qpn

/-- RDMA_WRITE (R280, R294, R509, R511, R512). A merge that finds an uncorrectable line fails the operation, as an access error
does: the model's choice (log entry 140). The twin-keep region denies it (R294). No rule gives the immediate value of an
RDMA WRITE with immediate a place, so it acts as one without (log entry 173). -/
def execRdmaWrite (port : BitVec 2) (qpn : Nat) (key : W32) (va : BitVec 64) (data : List Byte) (_imm : Option W32)
    (s : State) : Out :=
  done s <|
    if ¬ ethUp s port ∨ ¬ qpReady s port qpn then s
    else match doorKey s port.toNat qpn key with
      | some k => doorWrite s k (va.toNat % 4096) data
      | none =>
        if ¬ lpServed s then s
        else match regionFor s key va.toNat data.length true with
          | some _ =>
            if inKeep s va.toNat data.length then accessError s port qpn
            else
              let r := lpStore s va.toNat data .ok
              if r.1 = rOK then r.2 else accessError r.2 port qpn
          | none => accessError s port qpn

/-- RDMA_READ (R294, R509, R511, R512): a doorbell page reads as nothing that acts. -/
def execRdmaRead (port : BitVec 2) (qpn : Nat) (key : W32) (va : BitVec 64) (len : Nat) (s : State) : Out :=
  done s <|
    if ¬ ethUp s port ∨ ¬ qpReady s port qpn then s
    else match doorKey s port.toNat qpn key with
      | some _ =>
        send (freshFree s).2 (.rdmaReadRsp port.toNat qpn (padTo len (leBytes 8 (freshFree s).1.toNat)))
      | none =>
        if ¬ lpServed s then s
        else match regionFor s key va.toNat len false with
          | some _ =>
            if inKeep s va.toNat len then accessError s port qpn
            else
              let r := lpCheck s va.toNat len .ok
              if r.1 then send r.2 (.rdmaReadRsp port.toNat qpn (memRead s.lp va.toNat len))
              else accessError r.2 port qpn
          | none => accessError s port qpn

/-! ### Queues -/

/-- The first bad field of a queue's definition (R512, R522): byte offset in the layout of QUEUE_CREATE. -/
def badQueue (e : List Byte) (mgmt : Bool) : Option Nat :=
  let a0 := arg e 0
  let n := bits (arg e 2) 4 0
  let m := bits (arg e 2) 12 8
  if ¬ mgmt ∧ (bits a0 7 2 ≠ 0 ∨ 0x10000 ≤ a0) then some 0x08
  else if arg e 1 % 4096 ≠ 0 ∨ ¬ inLp (arg e 1) (64 * 2 ^ n) then some 0x10
  else if n < 4 ∨ 16 < n ∨ m < 4 ∨ 16 < m ∨ bits (arg e 2) 7 5 ≠ 0 ∨ 0x2000 ≤ arg e 2 then some 0x18
  else none

/-- A fresh queue; its doorbell key is the device's own choice, a free value. -/
def newQueue (e : List Byte) (key : W32) : HostQ :=
  { ring := arg e 1, n := bits (arg e 2) 4 0, cpl := arg e 3, m := bits (arg e 2) 12 8, hostKey := hostKey e 4,
    dbKey := key, tail := 0, head := 0, cplCount := 0, consumed := 0, stopped := false, cpls := [] }

/-- MQ_SETUP (R522): a SEND on the management QP defines the port's management queue; one that defines none is ignored. -/
def execMqSetup (port : BitVec 2) (data : List Byte) (s : State) : Out :=
  done s <|
    if ¬ ethUp s port ∨ ¬ qpReady s port 0x10 ∨ data.length ≠ 64 ∨ (badQueue data true).isSome
        ∨ ¬ (s.entered ∧ 2 ≤ rd s mgPg mg_PHASE) then s
    else queuePut (freshFree s).2 (qKey port.toNat 256) (some (newQueue data (BitVec.ofNat 32 (freshFree s).1.toNat)))

/-- The queue that ARG0 of QUEUE_CREATE and QUEUE_DESTROY names. -/
def argQueue (e : List Byte) : Nat := qKey (bits (arg e 0) 1 0) (bits (arg e 0) 15 8)

/-- QUEUE_CREATE (R512, R522): DETAIL returns the doorbell key. -/
def execQueueCreate (q : QRef) (s : State) : Out :=
  hostCmd q 0x40 (fun s k e =>
    match (if (queueGet s (argQueue e)).isSome then some 0x08 else badQueue e false) with
    | some f => complete s k e csBadField f
    | none =>
      let key : W32 := BitVec.ofNat 32 (freshFree s).1.toNat
      complete (queuePut (freshFree s).2 (argQueue e) (some (newQueue e key))) k e csOK key.toNat) s

/-- A queue is gone: its QP can connect no more until it is bound again (R510). -/
def dropQueue (s : State) (k : Nat) : State :=
  let port := k / 512
  let qpn := qpnOf (k % 512)
  qpPut (queuePut s k none) port qpn { qpGet s port qpn with st := .idle }

/-- The QUEUE_DESTROYs of a destroyed queue complete in every queue that holds one. -/
def freeWaiters (s : State) (k : Nat) : State :=
  forEach (s.queues.map (·.1)) (fun j s => match queueGet s j with
    | some h => queuePut s j (some { h with cpls := freeHeld (.queue k) csOK 0 h.cpls })
    | none => s) s

/-- QUEUE_DESTROY (R520): unstarted commands are FLUSHED, and its own completion follows theirs. -/
def execQueueDestroy (q : QRef) (s : State) : Out :=
  hostCmd q 0x41 (fun s k e =>
    let d := argQueue e
    match queueGet s d with
    | none => complete s k e csBadField 0x08
    | some _ =>
      let s := flushQueue s d csFlushed 0
      match queueGet s d with
      | some h =>
        if h.cpls.isEmpty ∨ ¬ qpReady s (BitVec.ofNat 2 (d / 512)) (qpnOf (d % 512)) then complete (freeWaiters (dropQueue s d) d) k e csOK 0
        else pushCpl (queuePut s d (some { h with stopped := true })) k { cplOf e csOK 0 with hold := .queue d }
      | none => s) s

/-! ### Completions -/

/-- The 16 bytes of a completion (R518). -/
def cplBytes (k : Nat) (h : HostQ) (c : Cpl) : List Byte :=
  let phase := if h.cplCount / 2 ^ h.m % 2 = 0 then 2 ^ 15 else 0
  let queue := k / 512 * 2 ^ 14 + (if k % 512 = 256 then 0xFF else k % 512)
  b4 c.tag ++ b2 (c.status + phase) ++ b2 queue ++ b4 c.seq ++ b4 c.detail

/-- Some QUEUE_DESTROY waits for queue `k`. -/
def dying (s : State) (k : Nat) : Bool :=
  s.queues.any (fun x => match x.2 with
    | some h => h.cpls.any (fun c => c.hold == .queue k)
    | none => false)

/-- What follows when a queue has posted its last completion: a destroyed queue goes (R520), and a reset that waited comes
(R522, R528). -/
def afterLast (s : State) (k : Nat) : State :=
  match queueGet s k with
  | none => s
  | some h =>
    if ¬ h.cpls.isEmpty then s
    else if s.resetDue = some k then resetModule (writeTime s)
    else if dying s k then freeWaiters (dropQueue s k) k
    else s

/-- COMPLETION (R518 to R521): the oldest completion of a queue goes to the host's ring, and its NOTIFY after it; a slot
that the host has not consumed makes it wait. -/
def execCompletion (q : QRef) (s : State) : Out :=
  done s <|
    let k := qref q
    match queueGet s k with
    | none => s
    | some h =>
      match h.cpls with
      | [] => s
      | c :: cs =>
        if c.hold ≠ .no ∨ pfcPaused s q.port.toNat ∨ ¬ qpReady s q.port (qpnOf (if q.mgmt then 256 else q.q.toNat)) then s
        else if 2 ^ h.m ≤ (h.cplCount + 2 ^ 32 - h.consumed) % 2 ^ 32 then
          (if c.waited then s
          else
            let s := queuePut s k (some { h with cpls := { c with waited := true } :: cs })
            inc s (enPg q.port.toNat) en_CPL_WAITS 1)
        else
          let a := h.cpl + 16 * (h.cplCount % 2 ^ h.m)
          let s := send s (.rdmaWrite q.port.toNat a h.hostKey (cplBytes k h c))
          let s := if c.notify then send s (.rdmaImm q.port.toNat c.tag) else s
          afterLast (queuePut s k (some { h with cplCount := h.cplCount + 1, cpls := cs })) k

/-! ### Data commands -/

/-- NOP (R517). -/
def execNop (q : QRef) (s : State) : Out := hostCmd q 0x01 (fun s k e => complete s k e csOK 0) s

/-- The checks of a copy (R517, R519): the module address `a` at byte `f` of the entry, the length at byte 0x20. -/
def copyBad (s : State) (a n f : Nat) : Option (Nat × Nat) :=
  if inKeep s a n then some (csBadField, f)
  else if n % 64 ≠ 0 ∨ 2 ^ 32 < n then some (csBadField, 0x20)
  else if ¬ inLp a n then some (csErrUnmapped, 0)
  else none

/-- The queue's QP has seen an answer: its retry counts start again. -/
def answered (s : State) (q : QRef) : State :=
  let qpn := qpnOf (if q.mgmt then 256 else q.q.toNat)
  qpPut s q.port.toNat qpn { qpGet s q.port.toNat qpn with retries := 0, rnr := 0 }

/-- COPY_IN (R517): an RDMA READ of the host's bytes into LPDDR5X. -/
def execCopyIn (q : QRef) (data : List Byte) (syndrome : Nat) (s : State) : Out :=
  hostCmd q 0x02 (fun s k e =>
    let a := arg e 2
    let n := arg e 3
    match copyBad s a n 0x18 with
    | some x => complete s k e x.1 x.2
    | none =>
      let s := send s (.rdmaReadReq q.port.toNat (arg e 0) (hostKey e 1) n)
      if syndrome ≠ 0 then complete s k e csRdmaErr syndrome
      else
        let r := lpStore (answered s q) a (data.take n) .ok
        if r.1 = rOK then complete r.2 k e csOK 0 else complete r.2 k e csErrUe rUe) s

/-- COPY_OUT (R517): an RDMA WRITE, complete once the host has acknowledged every byte. -/
def execCopyOut (q : QRef) (syndrome : Nat) (s : State) : Out :=
  hostCmd q 0x03 (fun s k e =>
    let a := arg e 0
    let n := arg e 3
    match copyBad s a n 0x08 with
    | some x => complete s k e x.1 x.2
    | none =>
      needMem s k e a n fun s =>
        let s := send s (.rdmaWrite q.port.toNat (arg e 1) (hostKey e 2) (memRead s.lp a n))
        if syndrome ≠ 0 then complete s k e csRdmaErr syndrome else complete (answered s q) k e csOK 0) s

/-- SIGNAL as a host command (R185, R517). -/
def execSignalCommand (q : QRef) (s : State) : Out :=
  hostCmd q 0x04 (fun s k e =>
    let w := arg e 0
    if sigWordOk w then complete (post s (.signal (.host q) (BitVec.ofNat 64 w))) k e csOK 0
    else complete s k e csBadField 0x08) s

/-- The stamp of a host queue pair (R255). -/
def hostStamp (s : State) (q : QRef) : W32 :=
  BitVec.ofNat 32 (2 ^ 31 + s.module * 2 ^ 27 + qpnOf (if q.mgmt then 256 else q.q.toNat))

/-- MAILBOX as a host command (R185, R255, R517). -/
def execMailboxCommand (q : QRef) (s : State) : Out :=
  hostCmd q 0x05 (fun s k e =>
    let w := arg e 0
    let a := arg e 1
    if wordRsv w then complete s k e csBadField 0x08
    else if ¬ inLp a 64 then complete s k e csErrUnmapped 0
    else if inKeep s a 64 then complete s k e csBadField 0x10
    else needMem s k e a 64 fun s =>
      complete (post s (.mbox (hostStamp s q) (BitVec.ofNat 64 w) (memRead s.lp a 64) false)) k e csOK 0) s

/-! ### Management commands -/

/-- An extent meets the twin-keep region or the home region (R511). -/
def extentKept (s : State) (a n : Nat) : Bool :=
  meets a n (keepBase s) (keepSize s) || meets a n (homeBase s) (rd s twPg tw_HOME_SIZE * 2 ^ 30)

/-- REGION (R511, R532): DETAIL returns the key. -/
def execRegion (q : QRef) (s : State) : Out :=
  hostCmd q 0x42 (fun s k e =>
    let a := arg e 0
    let n := arg e 1
    if a % 4096 ≠ 0 then complete s k e csBadField 0x08
    else if n % 4096 ≠ 0 then complete s k e csBadField 0x10
    else if 4 ≤ arg e 2 then complete s k e csBadField 0x18
    else if ¬ inLp a n then complete s k e csErrUnmapped 0
    else if extentKept s a n ∨ 1024 ≤ s.regions.length then refuseFree s k e
    else if rd s scPg sc_ENT_FAILED = 1 then denyFree s k e
    else
      let key : W32 := BitVec.ofNat 32 (drawEntropy s).1.toNat
      let s := (drawEntropy s).2
      let r : Region := { key := key, base := a, len := n, read := bit (arg e 2) 0, write := bit (arg e 2) 1 }
      complete { s with regions := s.regions ++ [r] } k e csOK key.toNat) s

/-- REGION_FREE (R511, R522). -/
def execRegionFree (q : QRef) (s : State) : Out :=
  hostCmd q 0x43 (fun s k e =>
    complete { s with regions := s.regions.filter (fun r => r.key != hostKey e 0) } k e csOK 0) s

/-- RESET (R451, R522): the reset comes after its completion is sent. -/
def execReset (q : QRef) (s : State) : Out :=
  hostCmd q 0x48 (fun s k e => complete { s with resetDue := some k } k e csOK 0) s

/-- The register that ARG0 names. -/
def argPage (e : List Byte) : Nat := bits (arg e 0) 15 0
def argOff (e : List Byte) : Nat := bits (arg e 0) 27 16

/-- REG_READ (R522): DETAIL returns the register. -/
def execRegRead (q : QRef) (s : State) : Out :=
  hostCmd q 0x49 (fun s k e =>
    if argOff e % 4 ≠ 0 then complete s k e csBadField 0x08
    else if ¬ pageExists s (argPage e) then complete s k e csErrUnmapped 0
    else
      let r := pageRead s (argPage e) (argOff e)
      complete r.2 k e csOK r.1) s

/-- Fields that the page rules reserve to the management core (R30, R104, R159, R199, R267, R399, R548, R553). -/
def mgmtOnly (s : State) (n off v : Nat) : Bool :=
  off == 0x01C ||
    (match pageBlk n with
      | some .tl => off == 0x040 || off == 0x080 || off == 0x108
      | some .mx => decide (0x050 ≤ off) && decide (off < 0x0A0)
      | some .vx => off == 0x044 || (decide (0x060 ≤ off) && decide (off < 0x0C0))
      | some .bb => off == 0x04C && bit v 4
      | some .lk => off == 0x040 && b2n (bit v 30) != rd s n lk_CFG_FOREIGN
      | _ => false)

/-- A write that REG_WRITE refuses (R522). -/
def hostWriteRefused (s : State) (n off v : Nat) : Bool :=
  n == lcPg || n == scPg || (decide (0x1000 ≤ n) && programRuns s) || mgmtOnly s n off v || mgmtHolds s n off

/-- Host software may inject faults (R547). -/
def forceAllowed (s : State) : Bool := lcState s == 0 || lcState s == 1 || lcState s == 3 || rd s lcPg lc_DEBUG_OPEN == 1

/-- REG_WRITE (R522, R541, R547, R548). -/
def execRegWrite (q : QRef) (s : State) : Out :=
  hostCmd q 0x4A (fun s k e =>
    let n := argPage e
    let off := argOff e
    let v := arg e 1 % 2 ^ 32
    if off % 4 ≠ 0 then complete s k e csBadField 0x08
    else if ¬ pageExists s n then complete s k e csErrUnmapped 0
    else if off = 0x018 ∧ ¬ forceAllowed s then denyFree s k e
    else if hostWriteRefused s n off v then refuseFree (if off = 0x01C ∧ n < 0x1000 then wrej s n else s) k e
    else
      let r := pageWrite .host s n off v
      if r.1 then complete r.2 k e csOK 0 else refuseFree r.2 k e) s

/-- Records in order of SEQ from a first one on. -/
def recsFrom (l : List (Nat × List Byte)) (first n : Nat) : List (List Byte) :=
  (((l.filter (fun r => decide (first ≤ r.1))).mergeSort (fun a b => decide (a.1 ≤ b.1))).take n).map (·.2)

/-- The records of the ring, and of the mirror. -/
def ringRecs (s : State) : List (Nat × List Byte) := s.ring.filterMap (fun c => c.2.map (fun r => (r.seq, recBytes r)))
def mirrorRecs (s : State) : List (Nat × List Byte) :=
  (List.range (rd s evPg ev_MIRROR_COUNT)).map (fun i =>
    let a := mirrorBase + 32 * ((s.mirrorPos + 131072 - 1 - i) % 131072)
    (memNat s.flash a 4, memRead s.flash a 32))

/-- LOG_READ (R470, R472, R522): DETAIL returns the count. -/
def execLogRead (q : QRef) (s : State) : Out :=
  hostCmd q 0x4B (fun s k e =>
    if 2 ≤ arg e 0 then complete s k e csBadField 0x08
    else
      let rs := recsFrom (if arg e 0 = 0 then ringRecs s else mirrorRecs s) (arg e 1) (arg e 4)
      let s := if rs.isEmpty then s else send s (.rdmaWrite q.port.toNat (arg e 2) (hostKey e 3) rs.flatten)
      complete s k e csOK rs.length) s

/-- TWIN_READ (R446, R450): bytes of the region that the module holds for its twin. -/
def execTwinRead (q : QRef) (s : State) : Out :=
  hostCmd q 0x4C (fun s k e =>
    let a := keepBase s + arg e 0
    let n := arg e 1
    if keepSize s < arg e 0 + n ∨ (s.failSafe.isSome ∧ ¬ keepServed s) then complete s k e csErrUnmapped 0
    else needMem s k e a n fun s =>
      complete (send s (.rdmaWrite q.port.toNat (arg e 2) (hostKey e 3) (memRead s.lp a n))) k e csOK 0) s

end Sys2Proof.Machine
end

