-- ==== Sys2Proof/Machine/Electrical.lean ====
section
/-! DEFINITION. Rails and input power (R554 to R556, R564), temperatures and duty-throttling (R557 to R560, R578), optical
engines (R336, R337), power sequencing and pins (R566 to R572), and the SMBus target (R573). Temperatures come in units of
0.0625 degrees, as TH_TEMP holds them. -/

namespace Sys2Proof.Machine

/-! ### Rails -/

/-- The warning window and the fault window of a rail in mV (R564). -/
def warnWindow (r : Nat) : Nat × Nat :=
  match r with
  | 0 => (42000, 56000) | 1 => (3170, 3430) | 2 => (728, 772) | 3 => (728, 772) | 4 => (873, 927)
  | 5 => (776, 824) | 6 => (1019, 1081) | _ => (825, 875)
def faultWindow (r : Nat) : Nat × Nat :=
  match r with
  | 0 => (40000, 60000) | 1 => (3100, 3500) | 2 => (705, 795) | 3 => (705, 795) | 4 => (846, 954)
  | 5 => (752, 848) | 6 => (987, 1113) | _ => (799, 901)

/-- A voltage lies in a window. -/
def inWindow (w : Nat × Nat) (mv : Nat) : Bool := decide (w.1 ≤ mv) && decide (mv ≤ w.2)

/-- The measured voltage of a rail. -/
def setMv (s : State) (r mv : Nat) : State := wri s pwPg pw_MV r (min mv 0xFFFF)

/-- RAIL_WARN (R554). -/
def execRailWarn (r : BitVec 3) (mv : Nat) (s : State) : Out :=
  done s <|
    let s := setMv s r.toNat mv
    if inWindow (warnWindow r.toNat) mv then s
    else logReq (raiseF s pwPg pw_F_RAIL_WARN) 2 0x0601 pwPg (b1 r.toNat ++ b2 mv)

/-- The RAIL_FAULT record. -/
def logRail (s : State) (r mv : Nat) : State := logReq (raiseF s pwPg pw_F_RAIL_FAULT) 4 0x0602 pwPg (b1 r ++ b2 mv)

/-- A low RESET_N, and everything that acts like it (R567): LPDDR5X in self-refresh, all but the always-on domain reset. -/
def resetLow (s : State) : State :=
  forEach (List.range 4) (fun g s => wr s (lpPg g) lp_SELF_REFRESH 1) (resetModule s)

/-- MAIN leaves its fault window (R568): with RESET_N high the module resets, records the fault and stays off. -/
def mainLeaves (s : State) (mv : Nat) : State :=
  let s := { s with pins := { s.pins with main := false, pwrOk := false } }
  if s.pins.resetN then
    let s := resetLow s
    setMv (logRail { s with pins := { s.pins with heldOff := true } } 0 mv) 0 mv
  else setMv s 0 mv

/-- MAIN_FAULT (R568). -/
def execMainFault (mv : Nat) (s : State) : Out :=
  done s <| if inWindow (faultWindow 0) mv ∨ ¬ s.pins.main then s else mainLeaves s mv

/-- RAIL_FAULT (R554, R566): fail-safe, and PWR_OK falls for rails 2 to 7; MAIN acts by R568. -/
def execRailFault (r : BitVec 3) (mv : Nat) (s : State) : Out :=
  done s <|
    if inWindow (faultWindow r.toNat) mv then setMv s r.toNat mv
    else if r = 0 then mainLeaves s mv
    else
      let s := logRail (setMv s r.toNat mv) r.toNat mv
      let s := if 2 ≤ r.toNat then { s with pins := { s.pins with pwrOk := false } } else s
      driveFailSafe s (lullAfter (.rail r))

/-- Input power and its peak (R556). -/
def setPower (s : State) (w : Nat) : State :=
  let w := min w 0xFFFF
  wr (wr s pwPg pw_IN_W w) pwPg pw_PEAK_W (max (rd s pwPg pw_PEAK_W) w)

/-- CAP_THROTTLE (R555). -/
def execCapThrottle (watts : Nat) (s : State) : Out :=
  done s <|
    let s := setPower s watts
    if rd s pwPg pw_CAP_W < watts then raiseF { s with capReq := true } pwPg pw_F_CAP_THROTTLE else s

/-- CAP_RELEASE (R555). -/
def execCapRelease (watts : Nat) (s : State) : Out :=
  done s <|
    let s := setPower s watts
    if watts + 20 < rd s pwPg pw_CAP_W then { s with capReq := false } else s

/-! ### Temperatures -/

/-- A sensor's reading. -/
def tempOf (s : State) (i : Nat) : Int := signed 16 (rdi s thPg th_TEMP i)

/-- Whole degrees of a reading, as an unsigned byte. -/
def wholeC (t : Int) : Nat := clampN 0 255 (t / 16).toNat

/-- The hottest of sensors 0 to 13, the lowest-numbered of equals (R559). -/
def hottest (s : State) : Nat :=
  (List.range 14).foldl (fun b i => if tempOf s b < tempOf s i then i else b) 0

/-- A reading arrives; MAX_C follows. -/
def setTemp (s : State) (i : Nat) (t : Int) : State :=
  let s := wri s thPg th_TEMP i (encInt 16 t)
  wr (wr s thPg th_MAX_C (wholeC (tempOf s (hottest s)))) thPg th_MAX_SENSOR (hottest s)

/-- Readings of all sensors. -/
def setTemps (s : State) (ts : List Int) : State := forEach (List.range 16) (fun i s => setTemp s i (ts.getD i 0)) s

/-- A reading is at or above a limit in degrees. -/
def atLeastC (t : Int) (c : Nat) : Bool := decide ((c : Int) * 16 ≤ t)

/-- TEMP_HIGH (R557): of sensors 0 to 13. -/
def execTempHigh (sensor : BitVec 4) (temp : Int) (s : State) : Out :=
  done s <|
    let i := sensor.toNat
    let s := setTemp s i temp
    if 14 ≤ i ∨ ¬ atLeastC temp (rd s thPg th_WARN_C) then s
    else
      let s := wr (raiseF s thPg th_F_TEMP_HIGH) thPg th_ALERT 1
      let s := { s with pins := { s.pins with thermAlertN := false, smbAlertN := false } }
      logReq s 2 0x0701 thPg (b1 i ++ b1 (wholeC temp))

/-- THERM_ALERT_RELEASE (R557): the readings that have held for 10 ms. -/
def execThermAlertRelease (temps : List Int) (s : State) : Out :=
  done s <|
    let s := setTemps s temps
    if (List.range 14).any (fun i => atLeastC (tempOf s i) (rd s thPg th_WARN_C - 3)) then s
    else { wr s thPg th_ALERT 0 with pins := { s.pins with thermAlertN := true } }

/-- TEMP_SHUTDOWN (R557, R447). -/
def execTempShutdown (sensor : BitVec 4) (temp : Int) (s : State) : Out :=
  done s <|
    let i := sensor.toNat
    let s := setTemp s i temp
    if 14 ≤ i ∨ ¬ atLeastC temp (rd s thPg th_SHUT_C) then s
    else
      driveFailSafe (logReq (raiseF s thPg th_F_SHUTDOWN) 4 0x0703 thPg (b1 i ++ b1 (wholeC temp))) (lullAfter .temperature)

/-- The duty value after 1 ms (R558, R560). -/
def nextDuty (s : State) : Nat :=
  let d := rd s thPg th_DUTY
  let lim := rd s thPg th_THROT_C
  if rd s thPg th_THROT_EN = 0 then 0
  else if s.capReq || (List.range 10).any (fun i => atLeastC (tempOf s i) lim) then min 48 (d + 4)
  else if (List.range 10).all (fun i => !atLeastC (tempOf s i) (lim - 3)) then d - 4
  else d

/-- DUTY_UPDATE (R558). -/
def execDutyUpdate (temps : List Int) (s : State) : Out :=
  done s <|
    let s := setTemps s temps
    let d := nextDuty s
    let s := if rd s thPg th_DUTY = 0 ∧ 0 < d then raiseF s thPg th_F_THROTTLE else s
    wr s thPg th_DUTY d

/-- THROTTLE (R558): once for each second with DUTY above 0. -/
def execThrottle (s : State) : Out :=
  done s <| if rd s thPg th_DUTY = 0 then s else logReq s 1 0x0702 thPg (b4 s.throtLast)

/-- INLET_WARN (R578): once per episode; a reading below 40 degrees that has held for 10 s ends it. -/
def execInletWarn (temp : Int) (s : State) : Out :=
  done s <|
    let s := setTemp s 14 temp
    if atLeastC temp 42 then
      (if s.inletEp then s else logReq { s with inletEp := true } 2 0x0701 thPg (b1 14 ++ b1 (wholeC temp)))
    else if atLeastC temp 40 then s
    else { s with inletEp := false }

/-! ### Optical engines -/

/-- LASER_OK of a wavelength. -/
def laserBad (s : State) (g w : Nat) : State :=
  wr s (oePg g) oe_LASER_OK (setBits (rd s (oePg g) oe_LASER_OK) w w 0)

/-- LASER_FAIL (R314, R336): the engine's laser of W(w) carries that wavelength of its four ports. -/
def execLaserFail (g w : BitVec 4) (s : State) : Out :=
  if 8 < w.toNat then .fault .noSuchUnit
  else done s <|
    let s := laserBad (raiseF s (oePg g.toNat) oe_F_LASER_FAIL) g.toNat w.toNat
    forEach (List.range 4) (fun i s => wavelengthFails s (4 * g.toNat + i) w.toNat) s

/-- LASER_LOW (R336). -/
def execLaserLow (g w : BitVec 4) (s : State) : Out :=
  if 8 < w.toNat then .fault .noSuchUnit
  else done s (laserBad (raiseF s (oePg g.toNat) oe_F_LASER_LOW) g.toNat w.toNat)

/-- RX_LOS (R336). -/
def execRxLos (port : BitVec 6) (w : BitVec 4) (s : State) : Out :=
  if 8 < w.toNat then .fault .noSuchUnit else done s (raiseF s (oePg (port.toNat / 4)) oe_F_RX_LOS)

/-- ENGINE_TEMP_HIGH (R336): the record's sensor number of an engine the manual does not give: a free value. -/
def execEngineTempHigh (g : BitVec 4) (temp : Nat) (s : State) : Out :=
  done s <|
    let n := oePg g.toNat
    let s := wr s n oe_TEMP (min temp 255)
    if temp ≤ rd s n oe_TEMP_LIMIT then s
    else logReq (raiseF (freshFree s).2 n oe_F_TEMP_HIGH) 2 0x0701 n (b1 (freshFree s).1.toNat ++ b1 (min temp 255))

/-! ### Power and pins -/

/-- STBY_VALID (R566): the always-on domain starts, with nothing held (R464, R469). -/
def execStbyValid (s : State) : Out :=
  done s <|
    if s.pins.stby then s
    else { s with pins := { s.pins with stby := true }, freshPower := true, evLost := true }

/-- MAIN_APPLIED (R566): MAIN is in its window; memories that lost power start again. -/
def execMainApplied (mv : Nat) (s : State) : Out :=
  done s <|
    let s := setMv s 0 mv
    if s.pins.main ∨ ¬ s.pins.stby ∨ ¬ inWindow (faultWindow 0) mv then s
    else
      let s := wr (wr s lcPg lc_DEBUG_OPEN 0) lcPg lc_SCOPE 0
      { s with pins := { s.pins with main := true }, freshPower := true, lp := [], lpBad := [], lpWeak := [],
               spool := [], spoolBad := [], spoolWeak := [] }

/-- PWR_OK (R566): high exactly while MAIN and rails 2 to 7 lie in their fault windows. -/
def execPwrOk (mvs : List Nat) (s : State) : Out :=
  done s <|
    let s := forEach (List.range 8) (fun r s => setMv s r (mvs.getD r 0)) s
    let ok := s.pins.main && [0, 2, 3, 4, 5, 6, 7].all (fun r => inWindow (faultWindow r) (mvs.getD r 0))
    { s with pins := { s.pins with pwrOk := ok } }

/-- RESET_N (R464, R566 to R569): a fall resets the module after the operating-time store is written. A rise lets B0 begin,
and one after a low with PWR_OK high ends the hold of R568. -/
def execResetN (high : Bool) (s : State) : Out :=
  done s <|
    if high then
      { s with pins := { s.pins with resetN := true, heldOff := s.pins.heldOff && (s.pins.resetN || !s.pins.pwrOk) } }
    else
      let s := if s.pins.resetN then resetLow (writeTime s) else s
      { s with pins := { s.pins with resetN := false } }

/-- STBY_LOSS (R569, R544): the whole module resets, the always-on domain with it, and the rails go off. -/
def execStbyLoss (s : State) : Out :=
  done s <|
    if ¬ s.pins.stby then s
    else
      let s := resetModule s
      let t : State := {
        s with
        regs := State.reset.regs, ring := [], logQ := [], mirrorQ := [], irqs := [], hostIrqs := [], smbSlot := 0,
        freshPower := true, evLost := true, optSet := false, entered := false,
        pins := { s.pins with stby := false, main := false, pwrOk := false, faultN := true, thermAlertN := true,
                              smbAlertN := true, heldOff := false } }
      fuseWls (withMac t)

/-- TWIN_PRESENT (R572): a high level marks the twin as unhealthy. -/
def execTwinPresent (high : Bool) (s : State) : Out :=
  done s (updatePartner { s with pins := { s.pins with twinPresent := high } })

/-! ### SMBus -/

/-- The SMBus target answers while STBY is valid (R573). -/
def smbReply (s : State) (bs : List Byte) : Out := done s (if s.pins.stby then send s (.smb bs) else s)

/-- SMB_STATUS: command 0x00. -/
def execSmbStatus (s : State) : Out :=
  smbReply s (b1 (b2n s.failSafe.isSome * 128 + b2n s.lull * 64 + b2n s.pins.pwrOk * 32 + b2n s.pins.twinPresent * 16
    + (if s.entered then rd s mgPg mg_PHASE else 0xF)))

/-- SMB_POWER: command 0x01. -/
def execSmbPower (s : State) : Out := smbReply s (b2 (rd s pwPg pw_IN_W))

/-- SMB_TEMPERATURE: command 0x02. -/
def execSmbTemperature (s : State) : Out := smbReply s (b1 (rd s thPg th_MAX_C) ++ b1 (wholeC (tempOf s 14)))

/-- SMB_HEAD_SEQ: command 0x03. -/
def execSmbHeadSeq (s : State) : Out := smbReply s (b4 (rd s evPg ev_HEAD_SEQ))

/-- SMB_LOG_SLOT: command 0x04; the ring has 2,048 slots, and what a higher number reads is a free value. -/
def execSmbLogSlot (s : State) : Out :=
  if s.smbSlot < 2048 then smbReply s (slotBytes s s.smbSlot)
  else
    let bs := (List.range 4).flatMap (fun i => leBytes 8 (Config.free (s.freeIdx + i)).toNat)
    done s (if s.pins.stby then send { s with freeIdx := s.freeIdx + 4 } (.smb bs) else s)

/-- SMB_DIE_ID: command 0x05. -/
def execSmbDieId (s : State) : Out := smbReply s (leBytes 8 s.fuses.c0.dieId.toNat)

/-- SMB_SLOT_SELECT: command 0x84. -/
def execSmbSlotSelect (slot : BitVec 16) (s : State) : Out :=
  done s (if s.pins.stby then { s with smbSlot := slot.toNat } else s)

end Sys2Proof.Machine
end

