-- ==== Sys2Proof/Machine/Dispatch.lean ====
section
/-! DEFINITION. The one dispatch: every command to its meaning. -/

namespace Sys2Proof.Machine

/-- What a command does to everything but the queue. -/
def exec (i : Instr) (s : State) : Host.Outcome State Fault Refusal :=
  match i with
  | .cAdd t o => Sys2Proof.Machine.execCAdd t o s
  | .cSub t o => Sys2Proof.Machine.execCSub t o s
  | .cAnd t o => Sys2Proof.Machine.execCAnd t o s
  | .cOr t o => Sys2Proof.Machine.execCOr t o s
  | .cXor t o => Sys2Proof.Machine.execCXor t o s
  | .cShl t o => Sys2Proof.Machine.execCShl t o s
  | .cShr t o => Sys2Proof.Machine.execCShr t o s
  | .cSar t o => Sys2Proof.Machine.execCSar t o s
  | .cMul t o => Sys2Proof.Machine.execCMul t o s
  | .cMulhu t o => Sys2Proof.Machine.execCMulhu t o s
  | .cMulh t o => Sys2Proof.Machine.execCMulh t o s
  | .cDivu t o => Sys2Proof.Machine.execCDivu t o s
  | .cRemu t o => Sys2Proof.Machine.execCRemu t o s
  | .cMin t o => Sys2Proof.Machine.execCMin t o s
  | .cMax t o => Sys2Proof.Machine.execCMax t o s
  | .cMinu t o => Sys2Proof.Machine.execCMinu t o s
  | .cMaxu t o => Sys2Proof.Machine.execCMaxu t o s
  | .cSel t o => Sys2Proof.Machine.execCSel t o s
  | .cSextb t o => Sys2Proof.Machine.execCSextb t o s
  | .cSexth t o => Sys2Proof.Machine.execCSexth t o s
  | .cSextw t o => Sys2Proof.Machine.execCSextw t o s
  | .cClz t o => Sys2Proof.Machine.execCClz t o s
  | .cPopc t o => Sys2Proof.Machine.execCPopc t o s
  | .cAddi t o => Sys2Proof.Machine.execCAddi t o s
  | .cAndi t o => Sys2Proof.Machine.execCAndi t o s
  | .cOri t o => Sys2Proof.Machine.execCOri t o s
  | .cXori t o => Sys2Proof.Machine.execCXori t o s
  | .cShi t o => Sys2Proof.Machine.execCShi t o s
  | .cMovz t o => Sys2Proof.Machine.execCMovz t o s
  | .cMovk t o => Sys2Proof.Machine.execCMovk t o s
  | .cGetu t o => Sys2Proof.Machine.execCGetu t o s
  | .cCmp t o => Sys2Proof.Machine.execCCmp t o s
  | .cCmpi t o => Sys2Proof.Machine.execCCmpi t o s
  | .predicateAnd t o => Sys2Proof.Machine.execPredicateAnd t o s
  | .predicateOr t o => Sys2Proof.Machine.execPredicateOr t o s
  | .predicateXor t o => Sys2Proof.Machine.execPredicateXor t o s
  | .predicateAndn t o => Sys2Proof.Machine.execPredicateAndn t o s
  | .predicateNot t o => Sys2Proof.Machine.execPredicateNot t o s
  | .cLdb t o ecc => Sys2Proof.Machine.execCLdb t o ecc s
  | .cLdh t o ecc => Sys2Proof.Machine.execCLdh t o ecc s
  | .cLdw t o ecc => Sys2Proof.Machine.execCLdw t o ecc s
  | .cLdd t o ecc => Sys2Proof.Machine.execCLdd t o ecc s
  | .cStb t o ecc => Sys2Proof.Machine.execCStb t o ecc s
  | .cSth t o ecc => Sys2Proof.Machine.execCSth t o ecc s
  | .cStw t o ecc => Sys2Proof.Machine.execCStw t o ecc s
  | .cStd t o ecc => Sys2Proof.Machine.execCStd t o ecc s
  | .cLld t o => Sys2Proof.Machine.execCLld t o s
  | .cLst t o => Sys2Proof.Machine.execCLst t o s
  | .cLldw t o => Sys2Proof.Machine.execCLldw t o s
  | .cLstw t o => Sys2Proof.Machine.execCLstw t o s
  | .cLfence t o => Sys2Proof.Machine.execCLfence t o s
  | .cBr t o => Sys2Proof.Machine.execCBr t o s
  | .cJal t o => Sys2Proof.Machine.execCJal t o s
  | .cJr t o => Sys2Proof.Machine.execCJr t o s
  | .cTret t o => Sys2Proof.Machine.execCTret t o s
  | .cTrap t o => Sys2Proof.Machine.execCTrap t o s
  | .cHalt t o => Sys2Proof.Machine.execCHalt t o s
  | .cSleep t o => Sys2Proof.Machine.execCSleep t o s
  | .pgRd t o => Sys2Proof.Machine.execPgRd t o s
  | .pgWr t o => Sys2Proof.Machine.execPgWr t o s
  | .cRdv t o => Sys2Proof.Machine.execCRdv t o s
  | .dmGo t o ecc => Sys2Proof.Machine.execDmGo t o ecc s
  | .dmFence t o => Sys2Proof.Machine.execDmFence t o s
  | .sySig t o => Sys2Proof.Machine.execSySig t o s
  | .sySigi t o => Sys2Proof.Machine.execSySigi t o s
  | .syWait t o => Sys2Proof.Machine.execSyWait t o s
  | .syWaitTimeout t => Sys2Proof.Machine.execSyWaitTimeout t s
  | .syTackArrive t o => Sys2Proof.Machine.execSyTackArrive t o s
  | .syTackWait t o => Sys2Proof.Machine.execSyTackWait t o s
  | .syTackArriveWait t o => Sys2Proof.Machine.execSyTackArriveWait t o s
  | .syRealign t o ecc => Sys2Proof.Machine.execSyRealign t o ecc s
  | .realignTimeout t => Sys2Proof.Machine.execRealignTimeout t s
  | .realignOverdue t => Sys2Proof.Machine.execRealignOverdue t s
  | .mbSend t o ecc => Sys2Proof.Machine.execMbSend t o ecc s
  | .mbRecv t o => Sys2Proof.Machine.execMbRecv t o s
  | .mxOpen t o => Sys2Proof.Machine.execMxOpen t o s
  | .mxMma t o upset => Sys2Proof.Machine.execMxMma t o upset s
  | .mxClose t o upset => Sys2Proof.Machine.execMxClose t o upset s
  | .mxSt t o upset => Sys2Proof.Machine.execMxSt t o upset s
  | .mxLa t o ecc => Sys2Proof.Machine.execMxLa t o ecc s
  | .mxLt t o ecc => Sys2Proof.Machine.execMxLt t o ecc s
  | .mxStt t o ecc => Sys2Proof.Machine.execMxStt t o ecc s
  | .mxTag t o => Sys2Proof.Machine.execMxTag t o s
  | .mxDrop t o => Sys2Proof.Machine.execMxDrop t o s
  | .decision t gid kind hem attempt => Sys2Proof.Machine.execDecision t gid kind hem attempt s
  | .basteCheck t err => Sys2Proof.Machine.execBasteCheck t err s
  | .vxAdd t o upset => Sys2Proof.Machine.execVxAdd t o upset s
  | .vxSub t o upset => Sys2Proof.Machine.execVxSub t o upset s
  | .vxMul t o upset => Sys2Proof.Machine.execVxMul t o upset s
  | .vxDiv t o upset => Sys2Proof.Machine.execVxDiv t o upset s
  | .vxFma t o upset => Sys2Proof.Machine.execVxFma t o upset s
  | .vxMin t o => Sys2Proof.Machine.execVxMin t o s
  | .vxMax t o => Sys2Proof.Machine.execVxMax t o s
  | .vxSqrt t o upset => Sys2Proof.Machine.execVxSqrt t o upset s
  | .vxRcp t o upset => Sys2Proof.Machine.execVxRcp t o upset s
  | .vxRsqrt t o upset => Sys2Proof.Machine.execVxRsqrt t o upset s
  | .vxExp2 t o upset => Sys2Proof.Machine.execVxExp2 t o upset s
  | .vxLog2 t o upset => Sys2Proof.Machine.execVxLog2 t o upset s
  | .vxAbs t o => Sys2Proof.Machine.execVxAbs t o s
  | .vxNeg t o => Sys2Proof.Machine.execVxNeg t o s
  | .vxIadd t o upset => Sys2Proof.Machine.execVxIadd t o upset s
  | .vxIsub t o upset => Sys2Proof.Machine.execVxIsub t o upset s
  | .vxImul t o upset => Sys2Proof.Machine.execVxImul t o upset s
  | .vxAnd t o => Sys2Proof.Machine.execVxAnd t o s
  | .vxOr t o => Sys2Proof.Machine.execVxOr t o s
  | .vxXor t o => Sys2Proof.Machine.execVxXor t o s
  | .vxShl t o => Sys2Proof.Machine.execVxShl t o s
  | .vxShr t o => Sys2Proof.Machine.execVxShr t o s
  | .vxCmp t o => Sys2Proof.Machine.execVxCmp t o s
  | .vxSel t o => Sys2Proof.Machine.execVxSel t o s
  | .vxCvt t o => Sys2Proof.Machine.execVxCvt t o s
  | .vxCut t o ecc => Sys2Proof.Machine.execVxCut t o ecc s
  | .vxUncut t o ecc => Sys2Proof.Machine.execVxUncut t o ecc s
  | .vxLd t o ecc => Sys2Proof.Machine.execVxLd t o ecc s
  | .vxSt t o => Sys2Proof.Machine.execVxSt t o s
  | .vxLdt t o => Sys2Proof.Machine.execVxLdt t o s
  | .vxLdc t o => Sys2Proof.Machine.execVxLdc t o s
  | .vxWrt t o => Sys2Proof.Machine.execVxWrt t o s
  | .vxWrc t o => Sys2Proof.Machine.execVxWrc t o s
  | .vxBcast t o => Sys2Proof.Machine.execVxBcast t o s
  | .vxBob t o => Sys2Proof.Machine.execVxBob t o s
  | .vxVred t o upset => Sys2Proof.Machine.execVxVred t o upset s
  | .vxTred t o upset => Sys2Proof.Machine.execVxTred t o upset s
  | .vxTamax t o => Sys2Proof.Machine.execVxTamax t o s
  | .vxRdiff t o upset => Sys2Proof.Machine.execVxRdiff t o upset s
  | .vxGacc t o upset => Sys2Proof.Machine.execVxGacc t o upset s
  | .vxGtacc t o upset => Sys2Proof.Machine.execVxGtacc t o upset s
  | .vxGdot t o upset => Sys2Proof.Machine.execVxGdot t o upset s
  | .vxGrd t o upset => Sys2Proof.Machine.execVxGrd t o upset s
  | .vxGcvt t o upset => Sys2Proof.Machine.execVxGcvt t o upset s
  | .vxGcomb t o upset ecc => Sys2Proof.Machine.execVxGcomb t o upset ecc s
  | .vxGdec t o ecc => Sys2Proof.Machine.execVxGdec t o ecc s
  | .vxEvt t o => Sys2Proof.Machine.execVxEvt t o s
  | .vxPick t o => Sys2Proof.Machine.execVxPick t o s
  | .vxUset t o => Sys2Proof.Machine.execVxUset t o s
  | .vxSrctx t o => Sys2Proof.Machine.execVxSrctx t o s
  | .vxTrk t o => Sys2Proof.Machine.execVxTrk t o s
  | .trapEntry t fetch => Sys2Proof.Machine.execTrapEntry t fetch s
  | .programStart t => Sys2Proof.Machine.execProgramStart t s
  | .globalStall t row => Sys2Proof.Machine.execGlobalStall t row s
  | .stallResume => Sys2Proof.Machine.execStallResume s
  | .dmaTransferStart t ecc => Sys2Proof.Machine.execDmaTransferStart t ecc s
  | .dmaTransferComplete t rsp remote ecc => Sys2Proof.Machine.execDmaTransferComplete t rsp remote ecc s
  | .tileWake t => Sys2Proof.Machine.execTileWake t s
  | .wake t => Sys2Proof.Machine.execWake t s
  | .fence t => Sys2Proof.Machine.execFence t s
  | .stitchBoundary => Sys2Proof.Machine.execStitchBoundary s
  | .passBoundary => Sys2Proof.Machine.execPassBoundary s
  | .programStitchStart => Sys2Proof.Machine.execProgramStitchStart s
  | .restStitch => Sys2Proof.Machine.execRestStitch s
  | .hold port h n => Sys2Proof.Machine.execHold port h n s
  | .load q key => Sys2Proof.Machine.execLoad q key s
  | .signal src word => Sys2Proof.Machine.execSignal src word s
  | .lostNotice module x => Sys2Proof.Machine.execLostNotice module x s
  | .tackLineComplete k => Sys2Proof.Machine.execTackLineComplete k s
  | .tack module k gen => Sys2Proof.Machine.execTack module k gen s
  | .mailbox port stamp word data rcv => Sys2Proof.Machine.execMailbox port stamp word data rcv s
  | .doldrums => Sys2Proof.Machine.execDoldrums s
  | .scrub ptile off ecc synd => Sys2Proof.Machine.execScrub ptile off ecc synd s
  | .refresh pkg rate doubled waits => Sys2Proof.Machine.execRefresh pkg rate doubled waits s
  | .lseRead src addr size tag ecc => Sys2Proof.Machine.execLseRead src addr size tag ecc s
  | .lseWrite src addr data tag ecc => Sys2Proof.Machine.execLseWrite src addr data tag ecc s
  | .lseResp t tag rsp data => Sys2Proof.Machine.execLseResp t tag rsp data s
  | .frame port f => Sys2Proof.Machine.execFrame port f s
  | .tryTimeout port => Sys2Proof.Machine.execTryTimeout port s
  | .failoverComplete port => Sys2Proof.Machine.execFailoverComplete port s
  | .wavelengthFail port w => Sys2Proof.Machine.execWavelengthFail port w s
  | .rotationStep port => Sys2Proof.Machine.execRotationStep port s
  | .portEnable port => Sys2Proof.Machine.execPortEnable port s
  | .portDisable port => Sys2Proof.Machine.execPortDisable port s
  | .trainingComplete port tr => Sys2Proof.Machine.execTrainingComplete port tr s
  | .calibration port bad => Sys2Proof.Machine.execCalibration port bad s
  | .calWl port w ok => Sys2Proof.Machine.execCalWl port w ok s
  | .stream port hdr data whole => Sys2Proof.Machine.execStream port hdr data whole s
  | .streamCredit port data => Sys2Proof.Machine.execStreamCredit port data s
  | .cxData src gid attempt chunk hem data last upset => Sys2Proof.Machine.execCxData src gid attempt chunk hem data last upset s
  | .verdict src gid attempt overflow => Sys2Proof.Machine.execVerdict src gid attempt overflow s
  | .abort src gid => Sys2Proof.Machine.execAbort src gid s
  | .rcv port m => Sys2Proof.Machine.execRcv port m s
  | .mgt port data => Sys2Proof.Machine.execMgt port data s
  | .announce port data => Sys2Proof.Machine.execAnnounce port data s
  | .announceSend => Sys2Proof.Machine.execAnnounceSend s
  | .echoReq port data => Sys2Proof.Machine.execEchoReq port data s
  | .echoAck port data => Sys2Proof.Machine.execEchoAck port data s
  | .echoPathClose port w => Sys2Proof.Machine.execEchoPathClose port w s
  | .echoMeasurement port own1 own2 peer => Sys2Proof.Machine.execEchoMeasurement port own1 own2 peer s
  | .filterPeriod offset freq refPpb => Sys2Proof.Machine.execFilterPeriod offset freq refPpb s
  | .holdoverExpiry => Sys2Proof.Machine.execHoldoverExpiry s
  | .ptpFallback => Sys2Proof.Machine.execPtpFallback s
  | .ptpMessage port m => Sys2Proof.Machine.execPtpMessage port m s
  | .time1pps => Sys2Proof.Machine.execTime1pps s
  | .asymExpiry port => Sys2Proof.Machine.execAsymExpiry port s
  | .t0Arm value => Sys2Proof.Machine.execT0Arm value s
  | .pllLoss link => Sys2Proof.Machine.execPllLoss link s
  | .refLoss => Sys2Proof.Machine.execRefLoss s
  | .recoveredClockLost g => Sys2Proof.Machine.execRecoveredClockLost g s
  | .ethPllLoss => Sys2Proof.Machine.execEthPllLoss s
  | .fifoResync x => Sys2Proof.Machine.execFifoResync x s
  | .xingErr x => Sys2Proof.Machine.execXingErr x s
  | .observation entry x => Sys2Proof.Machine.execObservation entry x s
  | .nmCommit => Sys2Proof.Machine.execNmCommit s
  | .nmLoad => Sys2Proof.Machine.execNmLoad s
  | .coldAll => Sys2Proof.Machine.execColdAll s
  | .stepBoundary => Sys2Proof.Machine.execStepBoundary s
  | .bbGo => Sys2Proof.Machine.execBbGo s
  | .bbKat => Sys2Proof.Machine.execBbKat s
  | .katFailed => Sys2Proof.Machine.execKatFailed s
  | .stow q => Sys2Proof.Machine.execStow q s
  | .stowSave => Sys2Proof.Machine.execStowSave s
  | .resume q t0 => Sys2Proof.Machine.execResume q t0 s
  | .itDue ptile => Sys2Proof.Machine.execItDue ptile s
  | .itSlice ptile len window e => Sys2Proof.Machine.execItSlice ptile len window e s
  | .itOverdue ptile => Sys2Proof.Machine.execItOverdue ptile s
  | .jobHold from_ => Sys2Proof.Machine.execJobHold from_ s
  | .drainComplete => Sys2Proof.Machine.execDrainComplete s
  | .recoveryRestart t0 => Sys2Proof.Machine.execRecoveryRestart t0 s
  | .tileRemap t o3 o4 => Sys2Proof.Machine.execTileRemap t o3 o4 s
  | .moduleReplacement spare twin => Sys2Proof.Machine.execModuleReplacement spare twin s
  | .plannedDetach => Sys2Proof.Machine.execPlannedDetach s
  | .twCommit rsp => Sys2Proof.Machine.execTwCommit rsp s
  | .twSeed rsp => Sys2Proof.Machine.execTwSeed rsp s
  | .failSafe trig => Sys2Proof.Machine.execFailSafe trig s
  | .lullMode memOk => Sys2Proof.Machine.execLullMode memOk s
  | .recordAcceptance => Sys2Proof.Machine.execRecordAcceptance s
  | .mirror flashOk => Sys2Proof.Machine.execMirror flashOk s
  | .timeStoreWrite => Sys2Proof.Machine.execTimeStoreWrite s
  | .evClear => Sys2Proof.Machine.execEvClear s
  | .optReinit => Sys2Proof.Machine.execOptReinit s
  | .calSec v => Sys2Proof.Machine.execCalSec v s
  | .evRecW0Read => Sys2Proof.Machine.execEvRecW0Read s
  | .b0 ms o => Sys2Proof.Machine.execB0 ms o s
  | .b1 ms => Sys2Proof.Machine.execB1 ms s
  | .b2 ms key => Sys2Proof.Machine.execB2 ms key s
  | .b3 ms o => Sys2Proof.Machine.execB3 ms o s
  | .b4 ms o => Sys2Proof.Machine.execB4 ms o s
  | .b5 ms => Sys2Proof.Machine.execB5 ms s
  | .b6 ms => Sys2Proof.Machine.execB6 ms s
  | .b7 ms key => Sys2Proof.Machine.execB7 ms key s
  | .b8 ms => Sys2Proof.Machine.execB8 ms s
  | .mgGo => Sys2Proof.Machine.execMgGo s
  | .runAll => Sys2Proof.Machine.execRunAll s
  | .recoveryReq => Sys2Proof.Machine.execRecoveryReq s
  | .segment m => Sys2Proof.Machine.execSegment m s
  | .endRound m => Sys2Proof.Machine.execEndRound m s
  | .status t st => Sys2Proof.Machine.execStatus t st s
  | .statusWindow => Sys2Proof.Machine.execStatusWindow s
  | .activate port datagram => Sys2Proof.Machine.execActivate port datagram s
  | .manifest q key => Sys2Proof.Machine.execManifest q key s
  | .ethFrame port f => Sys2Proof.Machine.execEthFrame port f s
  | .linkDown port rxFault => Sys2Proof.Machine.execLinkDown port rxFault s
  | .cmReq port qpn service => Sys2Proof.Machine.execCmReq port qpn service s
  | .cmRtu port qpn => Sys2Proof.Machine.execCmRtu port qpn s
  | .cmDreq port qpn => Sys2Proof.Machine.execCmDreq port qpn s
  | .rdmaWrite port qpn key va data imm => Sys2Proof.Machine.execRdmaWrite port qpn key va data imm s
  | .rdmaRead port qpn key va len => Sys2Proof.Machine.execRdmaRead port qpn key va len s
  | .cnp port qpn => Sys2Proof.Machine.execCnp port qpn s
  | .mqSetup port data => Sys2Proof.Machine.execMqSetup port data s
  | .doorbell q value => Sys2Proof.Machine.execDoorbell q value s
  | .consumed q value => Sys2Proof.Machine.execConsumed q value s
  | .completion q => Sys2Proof.Machine.execCompletion q s
  | .nop q => Sys2Proof.Machine.execNop q s
  | .copyIn q data syndrome => Sys2Proof.Machine.execCopyIn q data syndrome s
  | .copyOut q syndrome => Sys2Proof.Machine.execCopyOut q syndrome s
  | .signalCommand q => Sys2Proof.Machine.execSignalCommand q s
  | .mailboxCommand q => Sys2Proof.Machine.execMailboxCommand q s
  | .queueCreate q => Sys2Proof.Machine.execQueueCreate q s
  | .queueDestroy q => Sys2Proof.Machine.execQueueDestroy q s
  | .region q => Sys2Proof.Machine.execRegion q s
  | .regionFree q => Sys2Proof.Machine.execRegionFree q s
  | .reset q => Sys2Proof.Machine.execReset q s
  | .regRead q => Sys2Proof.Machine.execRegRead q s
  | .regWrite q => Sys2Proof.Machine.execRegWrite q s
  | .logRead q => Sys2Proof.Machine.execLogRead q s
  | .twinRead q => Sys2Proof.Machine.execTwinRead q s
  | .itPackage q p => Sys2Proof.Machine.execItPackage q p s
  | .fwEpoch q => Sys2Proof.Machine.execFwEpoch q s
  | .quote q => Sys2Proof.Machine.execQuote q s
  | .identity q => Sys2Proof.Machine.execIdentity q s
  | .ownerSet q r => Sys2Proof.Machine.execOwnerSet q r s
  | .lcTransition q owner vendor => Sys2Proof.Machine.execLcTransition q owner vendor s
  | .debugToken q tk => Sys2Proof.Machine.execDebugToken q tk s
  | .lcToken tk => Sys2Proof.Machine.execLcToken tk s
  | .newChallenge => Sys2Proof.Machine.execNewChallenge s
  | .entropyHealth adaptive => Sys2Proof.Machine.execEntropyHealth adaptive s
  | .registerWrite page off v => Sys2Proof.Machine.execRegisterWrite page off v s
  | .pgFaultForce page v => Sys2Proof.Machine.execPgFaultForce page v s
  | .clrCnt page => Sys2Proof.Machine.execClrCnt page s
  | .readLatch page off => Sys2Proof.Machine.execReadLatch page off s
  | .readToClear page off => Sys2Proof.Machine.execReadToClear page off s
  | .railWarn r mv => Sys2Proof.Machine.execRailWarn r mv s
  | .railFault r mv => Sys2Proof.Machine.execRailFault r mv s
  | .capThrottle watts => Sys2Proof.Machine.execCapThrottle watts s
  | .capRelease watts => Sys2Proof.Machine.execCapRelease watts s
  | .tempHigh sensor temp => Sys2Proof.Machine.execTempHigh sensor temp s
  | .thermAlertRelease temps => Sys2Proof.Machine.execThermAlertRelease temps s
  | .tempShutdown sensor temp => Sys2Proof.Machine.execTempShutdown sensor temp s
  | .dutyUpdate temps => Sys2Proof.Machine.execDutyUpdate temps s
  | .throttle => Sys2Proof.Machine.execThrottle s
  | .inletWarn temp => Sys2Proof.Machine.execInletWarn temp s
  | .laserFail g w => Sys2Proof.Machine.execLaserFail g w s
  | .laserLow g w => Sys2Proof.Machine.execLaserLow g w s
  | .rxLos port w => Sys2Proof.Machine.execRxLos port w s
  | .engineTempHigh g temp => Sys2Proof.Machine.execEngineTempHigh g temp s
  | .stbyValid => Sys2Proof.Machine.execStbyValid s
  | .mainApplied mv => Sys2Proof.Machine.execMainApplied mv s
  | .pwrOk mvs => Sys2Proof.Machine.execPwrOk mvs s
  | .resetN high => Sys2Proof.Machine.execResetN high s
  | .mainFault mv => Sys2Proof.Machine.execMainFault mv s
  | .stbyLoss => Sys2Proof.Machine.execStbyLoss s
  | .twinPresent high => Sys2Proof.Machine.execTwinPresent high s
  | .smbStatus => Sys2Proof.Machine.execSmbStatus s
  | .smbPower => Sys2Proof.Machine.execSmbPower s
  | .smbTemperature => Sys2Proof.Machine.execSmbTemperature s
  | .smbHeadSeq => Sys2Proof.Machine.execSmbHeadSeq s
  | .smbLogSlot => Sys2Proof.Machine.execSmbLogSlot s
  | .smbDieId => Sys2Proof.Machine.execSmbDieId s
  | .smbSlotSelect slot => Sys2Proof.Machine.execSmbSlotSelect slot s
  | .frameSend port phase => Sys2Proof.Machine.execFrameSend port phase s
  | .signalResponse t word rsp => Sys2Proof.Machine.execSignalResponse t word rsp s
  | .mailboxResponse t word status => Sys2Proof.Machine.execMailboxResponse t word status s
  | .cxCtrl src gid kind hem attempt => Sys2Proof.Machine.execCxCtrl src gid kind hem attempt s
  | .stepCommitted => Sys2Proof.Machine.execStepCommitted s
  | .linkUp port => Sys2Proof.Machine.execLinkUp port s
  | .ethPllRelock => Sys2Proof.Machine.execEthPllRelock s
  | .refclk100Return => Sys2Proof.Machine.execRefclk100Return s
  | .transportRetry port qpn rnr => Sys2Proof.Machine.execTransportRetry port qpn rnr s
  | .lcChallenge => Sys2Proof.Machine.execLcChallenge s

end Sys2Proof.Machine
end

