-- ==== Sys2Proof/Machine/Engines.lean ====
section
/-! DEFINITION. The queues of the two engines (R95, R100, R127, R190): what a queued instruction does when its engine
reaches it, and the queues of a tile in one cycle. -/

namespace Sys2Proof.Machine

/-- The engine of an instruction and its effect at its index; none for a command that is no engine instruction. -/
def engineRun (i : Instr) : Option (Engine × (State → Nat → State)) :=
  match i with
  | .mxOpen t o => some (.mx, runMxOpen t o)
  | .mxMma t o u => some (.mx, runMxMma t o u)
  | .mxClose t o u => some (.mx, runMxClose t o u)
  | .mxSt t o u => some (.mx, runMxSt t o u)
  | .mxLa t o e => some (.mx, runMxLa t o e)
  | .mxLt t o e => some (.mx, runMxLt t o e)
  | .mxStt t o e => some (.mx, runMxStt t o e)
  | .mxTag t o => some (.mx, runMxTag t o)
  | .mxDrop t o => some (.mx, runMxDrop t o)
  | .vxAdd t o u => some (.vx, (insVxAdd t o u).run)
  | .vxSub t o u => some (.vx, (insVxSub t o u).run)
  | .vxMul t o u => some (.vx, (insVxMul t o u).run)
  | .vxDiv t o u => some (.vx, (insVxDiv t o u).run)
  | .vxFma t o u => some (.vx, (insVxFma t o u).run)
  | .vxMin t o => some (.vx, (insVxMin t o).run)
  | .vxMax t o => some (.vx, (insVxMax t o).run)
  | .vxSqrt t o u => some (.vx, (insVxSqrt t o u).run)
  | .vxRcp t o u => some (.vx, (insVxRcp t o u).run)
  | .vxRsqrt t o u => some (.vx, (insVxRsqrt t o u).run)
  | .vxExp2 t o u => some (.vx, (insVxExp2 t o u).run)
  | .vxLog2 t o u => some (.vx, (insVxLog2 t o u).run)
  | .vxAbs t o => some (.vx, (insVxAbs t o).run)
  | .vxNeg t o => some (.vx, (insVxNeg t o).run)
  | .vxIadd t o u => some (.vx, (insVxIadd t o u).run)
  | .vxIsub t o u => some (.vx, (insVxIsub t o u).run)
  | .vxImul t o u => some (.vx, (insVxImul t o u).run)
  | .vxAnd t o => some (.vx, (insVxAnd t o).run)
  | .vxOr t o => some (.vx, (insVxOr t o).run)
  | .vxXor t o => some (.vx, (insVxXor t o).run)
  | .vxShl t o => some (.vx, (insVxShl t o).run)
  | .vxShr t o => some (.vx, (insVxShr t o).run)
  | .vxCmp t o => some (.vx, (insVxCmp t o).run)
  | .vxSel t o => some (.vx, (insVxSel t o).run)
  | .vxCvt t o => some (.vx, (insVxCvt t o).run)
  | .vxCut t o e => some (.vx, (insVxCut t o e).run)
  | .vxUncut t o e => some (.vx, (insVxUncut t o e).run)
  | .vxLd t o e => some (.vx, (insVxLd t o e).run)
  | .vxSt t o => some (.vx, (insVxSt t o).run)
  | .vxLdt t o => some (.vx, (insVxLdt t o).run)
  | .vxLdc t o => some (.vx, (insVxLdc t o).run)
  | .vxWrt t o => some (.vx, (insVxWrt t o).run)
  | .vxWrc t o => some (.vx, (insVxWrc t o).run)
  | .vxBcast t o => some (.vx, (insVxBcast t o).run)
  | .vxBob t o => some (.vx, (insVxBob t o).run)
  | .vxVred t o u => some (.vx, (insVxVred t o u).run)
  | .vxTred t o u => some (.vx, (insVxTred t o u).run)
  | .vxTamax t o => some (.vx, (insVxTamax t o).run)
  | .vxRdiff t o u => some (.vx, (insVxRdiff t o u).run)
  | .vxGacc t o u => some (.vx, (insVxGacc t o u).run)
  | .vxGtacc t o u => some (.vx, (insVxGtacc t o u).run)
  | .vxGdot t o u => some (.vx, (insVxGdot t o u).run)
  | .vxGrd t o u => some (.vx, (insVxGrd t o u).run)
  | .vxGcvt t o u => some (.vx, (insVxGcvt t o u).run)
  | .vxGcomb t o u e => some (.vx, (insVxGcomb t o u e).run)
  | .vxGdec t o e => some (.vx, (insVxGdec t o e).run)
  | .vxEvt t o => some (.vx, (insVxEvt t o).run)
  | .vxPick t o => some (.vx, (insVxPick t o).run)
  | .vxUset t o => some (.vx, (insVxUset t o).run)
  | .vxSrctx t o => some (.vx, (insVxSrctx t o).run)
  | .vxTrk t o => some (.vx, (insVxTrk t o).run)
  | _ => none

/-- A tile's scalar registers as a queued instruction read them at issue (R165). -/
def TileSt.asIssued (ts : TileSt) (q : QEnt) : TileSt :=
  { q.vals.foldl (fun ts x => ts.writeG q.inHandler x.1 x.2) ts with ord := q.ord }

/-- After a queued instruction: the registers that it read and did not write hold again what the core has put into them
since, and the issue order goes on from where it was. -/
def TileSt.afterIssued (ts old : TileSt) (q : QEnt) : TileSt :=
  { q.vals.foldl (fun ts x =>
      if ts.readG q.inHandler x.1 = x.2 then ts.writeG q.inHandler x.1 (old.readG q.inHandler x.1) else ts) ts
    with ord := old.ord }

/-- A queued instruction takes effect, in the mode in which it was issued. -/
def runQueued (s : State) (t : Tile) (q : QEnt) (run : State → Nat → State) : State :=
  let old := s.tile t
  let hm := rd s (tlPg t) tl_STATUS_HMODE
  let s := run (wr (s.modTile t (fun ts => ts.asIssued q)) (tlPg t) tl_STATUS_HMODE (b2n q.inHandler)) q.pc
  wr (s.modTile t (fun ts => ts.afterIssued old q)) (tlPg t) tl_STATUS_HMODE hm

/-- The queued instruction that comes first in issue order: the accesses of both engines keep that order (R95). -/
def firstQueued (ts : TileSt) : Option (Engine × QEnt) :=
  match ts.mxQ, ts.vxQ with
  | [], [] => none
  | m :: _, [] => some (.mx, m)
  | [], v :: _ => some (.vx, v)
  | m :: _, v :: _ => if m.ord < v.ord then some (.mx, m) else some (.vx, v)

/-- An instruction leaves its queue for its engine (R123, R160). -/
def TileSt.dequeue (ts : TileSt) (e : Engine) : TileSt :=
  match e with
  | .mx => { ts with mxQ := ts.mxQ.tail, mxBusy := true, vxBusy := false }
  | .vx => { ts with vxQ := ts.vxQ.tail, vxBusy := true, mxBusy := false }

/-- One cycle of a tile's engines: what was executing retires, a progress event (R263), and the next instruction in issue
order takes effect. -/
def drainTile (s : State) (t : Tile) : State :=
  let ts := s.tile t
  if enginesIdle ts then s
  else match firstQueued ts with
    | none => progress (s.modTile t (fun ts => { ts with mxBusy := false, vxBusy := false }))
    | some (e, q) =>
      let s := progress (s.modTile t (fun ts => ts.dequeue e))
      match q.ins with
      | .reserved w => runQueued s t q (fun s pc => reservedMinor s t e pc w)
      | .op i =>
        match engineRun i with
        | some r => runQueued s t q r.2
        | none => s

/-- One cycle of every tile's engines. -/
def drainEngines (s : State) : State :=
  forEach ((listedTiles s).filter (fun t => enginesRun s t)) (fun t s => drainTile s t) s

end Sys2Proof.Machine
end

