-- ==== Sys2Proof/Machine/Tick.lean ====
section
/-! DEFINITION. One CCLK cycle in which no command arrives: what counts with time alone. -/

namespace Sys2Proof.Machine

/-- Operating time advances while PWR_OK is high, and calendar time while the always-on domain has power (R463, R464, R466,
R567): SUBSEC in steps of 2^-16 s. -/
def tickTime (s : State) : State :=
  if ¬ s.pins.stby ∨ (¬ s.pins.pwrOk ∧ rd s evPg ev_CAL = 0) then s
  else
    let a := s.aonAcc + 65536
    if a < 2250000000 then { s with aonAcc := a }
    else
      let n := rd s evPg ev_SUBSEC + 1
      let s := wr { s with aonAcc := a - 2250000000 } evPg ev_SUBSEC n
      if n < 65536 then s else incWrap s evPg ev_SEC 1


/-- The stall net is raised (R206, R208, R263): a request stands on it, or the thermal row withholds a running program. -/
def netRaised (s : State) : Bool := !s.netReq.isEmpty || (programRuns s && dutyCycle s)

/-- A stall cycle of the chip (R210): the net withholds issue and the ease gate does not. -/
def isStall (s : State) : Bool := programRuns s && netRaised s && !gateShut s

/-- One cycle of the core clock (R180, R210, R262, R263, R340, R558): its counts, the engines, and a message that the
management core takes (log entry 127). -/
def tickCore (s : State) : State :=
  let duty := dutyCycle s
  let stall := isStall s
  let raised := netRaised s
  let s := if duty then
      wr64 { s with throtNow := s.throtNow + 1 } thPg th_THROT_CYC_LO th_THROT_CYC_HI
        (rd64 s thPg th_THROT_CYC_LO th_THROT_CYC_HI + 1)
    else s
  let s := if stall then
      { s with stallCycles := s.stallCycles + 1, stitchStall := s.stitchStall + 1 }
    else s
  let s := if raised then { s with dlCount := s.dlCount + 1 } else s
  takeMgmt <| drainEngines { s with
           cycles := s.cycles + 1,
           hallTime := if s.cycles % 2 = 1 then (s.hallTime + s.rate) % 2 ^ 112 else s.hallTime }

/-- The spool words or LPDDR5X lines among the struck ones that exist. -/
def struck (lp bad : Bool) (l : List (Bool × Bool × Nat)) : List Nat :=
  (l.filter (fun x => x.1 == lp && x.2.1 == bad
    && (if lp then decide (x.2.2 < 2 ^ 33) else decide (x.2.2 / 0x100000 < 1152) && decide (x.2.2 % 0x100000 < 0xA0000)))).map (·.2.2)

/-- A list with what it does not hold yet. -/
def addNew (a b : List Nat) : List Nat := a ++ b.filter (fun x => !a.contains x)

/-- Disturbances strike spool words and LPDDR5X lines (R270, R273, R274, R279, R280): which, and in which cycle, are free
values (log entry 164). What they do is found by the reads that follow. -/
def strikeTick (s : State) : State :=
  let l := Config.strikes s.ticks
  { s with spoolBad := addNew s.spoolBad (struck false true l), spoolWeak := addNew s.spoolWeak (struck false false l),
           lpBad := addNew s.lpBad (struck true true l), lpWeak := addNew s.lpWeak (struck true false l) }

/-- One CCLK cycle: without the root PLL's lock only the always-on domain runs (R358, R359). -/
def tick (s : State) : State :=
  let s := strikeTick (tickTime { s with ticks := s.ticks + 1 })
  if rd s ckPg ck_ROOT_LOCK = 1 then calTick (twTick (tickCore s)) else s

end Sys2Proof.Machine
end

