-- ==== Sys2Proof/Safety.lean ====
section
/-! DEFINITION. Safe runs, in the terms the claims use: what it means that a command answers, runs an instruction or
changes one register alone. -/

namespace Sys2Proof.Claims

open Machine

/-- A step answers a next state. -/
def Steps (s s' : State) : Prop := Machine.step s = .next s'

/-- The command answers a next state, of which `P` holds. -/
def Gives (c : Instr) (s : State) (P : State → Prop) : Prop := ∃ s', Machine.exec c s = .next s' ∧ P s'

/-- The command answers exactly `s'`, with the queue and the fuses as they were. -/
def Answers (c : Instr) (s s' : State) : Prop := Machine.exec c s = .next (settle s s')

/-- The control core of tile `t` issues its next instruction now (R165): the tile exists (R4), nothing withholds issue
and the index lies in the instruction store (R162). -/
def Ready (s : State) (t : Tile) : Prop :=
  t.toNat < s.ntiles ∧ canIssue s t = true ∧ (s.tile t).pc.toNat < 0x4000

/-- No register of the list waits for a response (R176). -/
def Here (s : State) (t : Tile) (rs : List (BitVec 5)) : Prop :=
  rs.any (regBusy (s.tile t) (s.hmode t)) = false

/-- The state from which an engine acts: the state after issue, with the engine executing. -/
def issuedTo (s : State) (t : Tile) (e : Engine) : State := (advance s t).modTile t (fun ts => ts.begin_ e)

/-- An engine instruction may issue (R95, R100, R127, R165): the tile exists, nothing withholds issue, the index lies in
the instruction store, the registers `rs` hold values, no DMA transfer holds the tile registers `us`, and the engine's
queue has room. -/
structure EngineReady (s : State) (t : Tile) (e : Engine) (us : List (Nat × Bool)) (rs : List (BitVec 5)) : Prop where
  core : Ready s t
  regs : Here s t rs
  dma : dmaClash (s.tile t) us = false
  room : ((s.tile t).queueOf e).length < 4

/-- An engine instruction may issue, and takes effect at once: neither engine works. -/
def Executes (s : State) (t : Tile) (e : Engine) (us : List (Nat × Bool)) (rs : List (BitVec 5)) : Prop :=
  EngineReady s t e us rs ∧ enginesIdle (s.tile t) = true

/-- The state after an engine instruction joins its engine's queue, with the values of its scalar operands. -/
def queued (s : State) (t : Tile) (e : Engine) (c : Instr) (rs : List (BitVec 5)) : State :=
  (advance s t).modTile t (fun ts => ts.enqueue e
    { ins := .op c, pc := (s.tile t).pc.toNat, ord := (s.tile t).ord + 1, inHandler := s.hmode t,
      vals := rs.map (fun r => (r, s.g t r)) })

/-- While an engine works the instruction waits in its queue of four (R100, R127); a full queue, or a DMA transfer that
holds a tile register it names, withholds it by the engine's row or the operand row of the stall net (R95, R208). -/
def Queues (s : State) (t : Tile) (e : Engine) (c : Instr) (rs : List (BitVec 5)) : Prop :=
  Ready s t → Here s t rs →
    (dmaClash (s.tile t) (tregUses c) = true → Answers c s (withhold s t rowOperand (.tregs (tregUses c))))
      ∧ (dmaClash (s.tile t) (tregUses c) = false →
          (4 ≤ ((s.tile t).queueOf e).length → Answers c s (withhold s t rowEngine (.full e)))
            ∧ (((s.tile t).queueOf e).length < 4 → enginesIdle (s.tile t) = false → Answers c s (queued s t e c rs)))

/-- Everything outside tile `t` and the counts of issue is as before: the other tiles, every byte of every spool, of
LPDDR5X and of flash, the logbook queue, the messages, the stall requests, the fuses and every register but SY_ISSUE of
the tile and GS_ISSUE. -/
def OnlyTile (s s' : State) (t : Tile) : Prop :=
  (∀ u, u ≠ t → s'.tile u = s.tile u) ∧ (∀ a, memByte s'.spool a = memByte s.spool a)
    ∧ (∀ a, memByte s'.lp a = memByte s.lp a) ∧ (∀ a, memByte s'.flash a = memByte s.flash a)
    ∧ s'.logQ = s.logQ ∧ s'.net = s.net ∧ s'.netReq = s.netReq ∧ s'.fuses = s.fuses ∧ s'.pending = s.pending
    ∧ ∀ page off, ¬ (page = syPg t ∧ off = sy_ISSUE.off) → ¬ (page = gsPg ∧ (off = gs_ISSUE_LO.off ∨ off = gs_ISSUE_HI.off)) →
        off < 0x1000 → regW s' page off = regW s page off

/-- Scalar register `d` receives `v` (g0 ignores the write), the index advances by one, and nothing else of the machine
changes but the counts of issue (R161, R162, R171). -/
def Puts (c : Instr) (s : State) (t : Tile) (d : BitVec 5) (v : W64) : Prop :=
  Gives c s fun s' =>
    (∀ r, s'.g t r = if r = d then (if d = 0 then 0 else v) else s.g t r) ∧ (∀ i, s'.p t i = s.p t i)
      ∧ (s'.tile t).pc = (s.tile t).pc + 1 ∧ (∀ a, memByte (s'.tile t).dstore a = memByte (s.tile t).dstore a)
      ∧ OnlyTile s s' t

/-- Predicate `d` receives `v` (p0 ignores the write), the index advances by one, and nothing else changes but the counts
of issue (R161, R172, R173). -/
def PutsP (c : Instr) (s : State) (t : Tile) (d : BitVec 3) (v : Bool) : Prop :=
  Gives c s fun s' =>
    (∀ i, s'.p t i = if i = d then (if d = 0 then true else v) else s.p t i) ∧ (∀ r, s'.g t r = s.g t r)
      ∧ (s'.tile t).pc = (s.tile t).pc + 1 ∧ (∀ a, memByte (s'.tile t).dstore a = memByte (s.tile t).dstore a)
      ∧ OnlyTile s s' t

/-- The ranges of R526 and R527: LC_EPOCH is at most 64 and LC_COUNT at most 16. -/
def LifeFuses (s : State) : Prop := s.fuses.epoch ≤ 64 ∧ s.fuses.lcCount ≤ 16

/-- A guarded instruction of the control core runs: the core issues, the registers it names hold values and pG is 1. -/
def Runs (s : State) (t : Tile) (rs : List (BitVec 5)) (pG : BitVec 3) : Prop :=
  Ready s t ∧ Here s t rs ∧ s.p t pG = true

/-- The bytes from `a` on of the tile's data store receive `bs`, the index advances by one, and nothing else changes but
the counts of issue (R175). -/
def Stores (c : Instr) (s : State) (t : Tile) (a : Nat) (bs : List Byte) : Prop :=
  Gives c s fun s' =>
    (∀ x, memByte (s'.tile t).dstore x
        = if a ≤ x ∧ x < a + bs.length then bs.getD (x - a) 0 else memByte (s.tile t).dstore x)
      ∧ (∀ r, s'.g t r = s.g t r) ∧ (∀ i, s'.p t i = s.p t i) ∧ (s'.tile t).pc = (s.tile t).pc + 1 ∧ OnlyTile s s' t

/-- A loose access waits for its response under the tile's next tag (R176, R286). -/
def withLoose (s : State) (t : Tile) (kind : LooseKind) (a : BitVec 48) (size : Nat) : State :=
  (advance s t).modTile t (fun ts =>
    { ts with tagNo := (s.tile t).tagNo + 1,
              loose := ts.loose ++ [{ tag := (s.tile t).tagNo, kind := kind, addr := a, size := size,
                                      pc := (s.tile t).pc.toNat, ord := ts.ord, inHandler := s.hmode t }] })

/-- What a vector instruction leaves alone on its tile and everywhere else: the scalar and predicate registers, the tile
registers, the accumulators, the data store, the other tiles, every byte of the spools, of LPDDR5X and of flash, and
the messages. -/
def VectorFrame (s s' : State) (t : Tile) : Prop :=
  (∀ r, s'.g t r = s.g t r) ∧ (∀ i, s'.p t i = s.p t i) ∧ (s'.tile t).treg = (s.tile t).treg
    ∧ (s'.tile t).scl = (s.tile t).scl ∧ (s'.tile t).acc = (s.tile t).acc ∧ (s'.tile t).dstore = (s.tile t).dstore
    ∧ (∀ u, u ≠ t → s'.tile u = s.tile u) ∧ (∀ a, memByte s'.spool a = memByte s.spool a)
    ∧ (∀ a, memByte s'.lp a = memByte s.lp a) ∧ (∀ a, memByte s'.flash a = memByte s.flash a) ∧ s'.net = s.net
    ∧ (s'.tile t).pc = (s.tile t).pc + 1

/-- What every instruction of the MXE leaves alone: the predicate and vector registers, the data store, the other tiles, every
byte of LPDDR5X and of flash, and the messages. -/
def MatrixRest (s s' : State) (t : Tile) : Prop :=
  (∀ i, s'.p t i = s.p t i) ∧ (s'.tile t).v = (s.tile t).v ∧ (s'.tile t).dstore = (s.tile t).dstore
    ∧ (∀ u, u ≠ t → s'.tile u = s.tile u) ∧ (∀ a, memByte s'.lp a = memByte s.lp a)
    ∧ (∀ a, memByte s'.flash a = memByte s.flash a) ∧ s'.net = s.net

/-- What one that writes no scalar register, no tile register and no byte of a spool leaves alone. -/
def MatrixFrame (s s' : State) (t : Tile) : Prop :=
  MatrixRest s s' t ∧ (∀ r, s'.g t r = s.g t r) ∧ (s'.tile t).treg = (s.tile t).treg ∧ (s'.tile t).scl = (s.tile t).scl
    ∧ ∀ a, memByte s'.spool a = memByte s.spool a

/-- The registers of every accumulator of the tile but `n` are as before. -/
def OtherAccs (s s' : State) (t : Tile) (n : Nat) : Prop :=
  ∀ m, m < 4 → m ≠ n → accState s' t m = accState s t m ∧ accHem s' t m = accHem s t m ∧ accAttempt s' t m = accAttempt s t m
    ∧ accLay s' t m = accLay s t m ∧ accScope s' t m = accScope s t m ∧ accGroup s' t m = accGroup s t m
    ∧ accDecKind s' t m = accDecKind s t m ∧ rdi s' (mxPg t) mx_ACC_RESTART m = rdi s (mxPg t) mx_ACC_RESTART m

/-- The SAT and INVALID events of the tile are sticky (R133): `sat` and `inv` join them. -/
def EventsJoin (s s' : State) (t : Tile) (sat inv : Bool) : Prop :=
  rd s' (vxPg t) vx_EVENT_SAT = max (rd s (vxPg t) vx_EVENT_SAT) (b2n sat)
    ∧ rd s' (vxPg t) vx_EVENT_INVALID = max (rd s (vxPg t) vx_EVENT_INVALID) (b2n inv)

/-- Vector register `d` receives `x`, the events `sat` and `inv` join the sticky ones, the index advances, and nothing else
but the counts of issue changes (R124, R133). -/
def PutsV (c : Instr) (s : State) (t : Tile) (d : BitVec 4) (x : BitVec 4096) (sat inv : Bool) : Prop :=
  Gives c s fun s' => (∀ r, s'.v t r = if r = d then x else s.v t r) ∧ EventsJoin s s' t sat inv ∧ VectorFrame s s' t

/-- Vector register `d` receives the results `cs` in format `f` with their events. -/
def PutsCvs (c : Instr) (s : State) (t : Tile) (d : BitVec 4) (f : Nat) (cs : List Cv) : Prop :=
  PutsV c s t d (vPack f (cs.map (·.bits))) (anySat cs) (anyInv cs)

/-- Summary register `u` receives `v`, an INVALID event joins the sticky one, the index advances, and no vector register
and nothing of `VectorFrame` changes (R133, R155). -/
def PutsU (c : Instr) (s : State) (t : Tile) (u : BitVec 3) (v : Nat) (inv : Bool) : Prop :=
  Gives c s fun s' => (∀ k : BitVec 3, readU s' t k.toNat = if k = u then v % 2 ^ 64 else readU s t k.toNat)
    ∧ EventsJoin s s' t false inv ∧ (s'.tile t).v = (s.tile t).v ∧ VectorFrame s s' t

/-- The `n` bytes of LPDDR5X at `a` lie in lines that read without an error, corrected or not (R280). -/
def LpGood (s : State) (a n : Nat) : Prop := lpIsBad s a n = false ∧ s.lpWeak.filter (lpTouch a n) = []

/-- The `n` bytes at offset `o` of the spool of physical tile `p` lie in words that read without an error (R273, R274). -/
def SpGood (s : State) (p o n : Nat) : Prop := spIsBad s p o n = false ∧ spWeakIn s p o n = []

/-- The local read at offset `o` of the tile's spool finds an uncorrectable word: it is recorded, and the tile is fenced
(R274). -/
def localUe (s : State) (t : Tile) (o : Nat) : State :=
  let p := s.ptile t.toNat
  fenceTile (spoolUe { s with spoolBad := s.spoolBad ++ [p * 0x100000 + o / 8] } p o portLocal none) t

/-- No word of any spool holds an error. -/
def SpClean (s : State) : Prop := s.spoolBad = [] ∧ s.spoolWeak = []

/-- The memories, their bad and weak words and lines, and the tiles are as before. -/
def SameMem (s s' : State) : Prop :=
  s'.spool = s.spool ∧ s'.spoolBad = s.spoolBad ∧ s'.spoolWeak = s.spoolWeak ∧ s'.lp = s.lp ∧ s'.lpBad = s.lpBad
    ∧ s'.lpWeak = s.lpWeak ∧ s'.flash = s.flash ∧ s'.tiles = s.tiles

/-- The memories and their bad and weak words and lines are as before, and so is every tile but for the responses that its DMA
transfers keep of packets that failed (R184, R232, R319). -/
def SameStore (s s' : State) : Prop :=
  s'.spool = s.spool ∧ s'.spoolBad = s.spoolBad ∧ s'.spoolWeak = s.spoolWeak ∧ s'.lp = s.lp ∧ s'.lpBad = s.lpBad
    ∧ s'.lpWeak = s.lpWeak ∧ s'.flash = s.flash ∧ ∀ t, { s'.tile t with dma := [] } = { s.tile t with dma := [] }

/-- Every register outside the list, of pages and offsets, is as before. -/
def OtherRegs (s s' : State) (rs : List (Nat × Nat)) : Prop :=
  ∀ page off, (page, off) ∉ rs → off < 0x1000 → regW s' page off = regW s page off

/-- The registers that a fault bit of a page changes: PG_FAULT, and FORCED of PG_STATUS (R544, R546). -/
def flagRegs (page : Nat) : List (Nat × Nat) := [(page, pg_FAULT.off), (page, pg_FORCED.off)]

/-- The registers that a request to log changes when the queue of sixteen is full (R467, R471): the request that is
dropped may be of another severity than the one that came. -/
def logRegs (_sev : Nat) : List (Nat × Nat) :=
  (evPg, ev_QDROP.off) :: (List.range 5).map (fun v => (evPg, ev_DROP.off + 4 * v)) ++ flagRegs evPg

/-- A PG_FAULT bit is set (R544). -/
def Flag (s' : State) (page : Nat) (f : Fld) : Prop := bit (regW s' page pg_FAULT.off) f.lo = true

/-- A request to log joins the queue of sixteen, in its place among those of its cycle; of a full queue the last is
dropped (R467). -/
def Logs (s s' : State) (sev code source : Nat) (payload : List Byte) : Prop :=
  s'.logQ = (pushLog s.logQ { sev := sev, code := code, source := source, payload := payload, cycle := aonCycle s }).1

/-- The FATAL record of a fault that drives fail-safe joins the queue, and after it the STOW_ABORT of a stow that fail-safe
abandons (R414). -/
def LogsFatal (s s' : State) (code source : Nat) (payload : List Byte) : Prop :=
  let q := (pushLog s.logQ { sev := 4, code := code, source := source, payload := payload, cycle := aonCycle s }).1
  (s.failSafe.isSome = true ∨ s.stowReq = none → s'.logQ = q)
    ∧ ∀ r, s.failSafe = none → s.stowReq = some r → s'.logQ = (pushLog q
        { sev := 3, code := 0x0808, source := mgPg, payload := leBytes 8 r.k, cycle := aonCycle s }).1

/-- The head entry of a queue is the command `op`, in order, accepted and well-formed (R513 to R517, R522), in a line that
reads (R280). -/
structure EntryRuns (s : State) (q : QRef) (op : Nat) (h : HostQ) (e : List Byte) : Prop where
  queue : queueGet s (qref q) = some h
  served : hostServes s q = true
  running : h.stopped = false
  waiting : unstarted h ≠ 0
  entry : ringEntry s h h.head = e
  readable : LpGood s (h.ring + 64 * (h.head % 2 ^ h.n)) 64
  order : leNat ((e.drop 0x38).take 4) = h.head
  opcode : leNat (e.take 1) = op
  known : (opsOf s q.mgmt).contains op = true
  free : fenced h e = false
  clean : badEntry e = none
  tailed : badTail e = false

/-- The state after the fetch of the head entry. -/
def taken (s : State) (q : QRef) (h : HostQ) : State :=
  queuePut s (qref q) (some { h with head := (h.head + 1) % 2 ^ 32 })

/-- The command at the head of queue `q` runs and completes with a status and DETAIL (R518): the head moves on, the
completion joins the queue's, and `P` holds of the state after it. -/
def Posts (c : Instr) (s : State) (q : QRef) (h : HostQ) (e : List Byte) (status detail : Nat) (P : State → Prop) : Prop :=
  Gives c s fun s' => queueGet s' (qref q)
      = some { h with head := (h.head + 1) % 2 ^ 32, cpls := h.cpls ++ [cplOf e status detail] } ∧ P s'

end Sys2Proof.Claims
end

