-- ==== Sys2Proof/Certificates/Slice0/Obligations.lean ====
section
/-! DEFINITION. The statements about the JT-860 model: the step and the queue, each family of commands, and the
invariants that every step keeps. -/

open Sys2Proof Sys2Proof.Machine Sys2Proof.Claims

/-! ### The step -/

/-- A step takes the command at the front of the queue and answers what the command answers on the rest.

The model's choices in it are those of log entry 4. -/
def Obligations.StepRunsFrontCommand : Prop :=
  ∀ (s : State) (c : Instr) (rest : List Instr),
    Machine.step { s with pending := c :: rest } = Machine.exec c { s with pending := rest }

/-- With no command waiting a step is one CCLK cycle: it answers a next state, whose queue is empty still. Where no engine
executes or holds an instruction, no message waits for the management core and the TW engine rests, or where the root
PLL is not locked, the memories, the tiles and the messages are as before, and the cycle is counted exactly under the
root PLL's lock (the model's choice, log entries 5, 124 and 164). -/
def Obligations.EmptyQueueStepIsOneCycle : Prop :=
  ∀ s : State, s.pending = [] → ∃ s', Machine.step s = .next s' ∧ s'.pending = [] ∧ s'.fuses = s.fuses
    ∧ (rd s ckPg ck_ROOT_LOCK = 0
          ∨ ((∀ t, enginesIdle (s.tile t) = true) ∧ s.mgmtBox = [] ∧ s.mgmtRcv = [] ∧ s.twRun = none) →
        s'.spool = s.spool ∧ s'.lp = s.lp ∧ s'.flash = s.flash ∧ s'.tiles = s.tiles ∧ s'.net = s.net
          ∧ s'.ticks = s.ticks + 1 ∧ s'.cycles = s.cycles + rd s ckPg ck_ROOT_LOCK)

/-- The queue is first in, first out: whatever the front command is, a step that answers a next state leaves exactly the
commands behind it. -/
def Obligations.QueueIsFirstInFirstOut : Prop :=
  ∀ (s s' : State) (c : Instr) (rest : List Instr), s.pending = c :: rest → Machine.step s = .next s' → s'.pending = rest

/-- No ordinary data ends a run: a command answers a next state, or its operand names a tile or a unit that the module does
not have (R4). What such an operand stops with is stated for commands of each kind: the control core, the two engines, the
trap, the program, the fence, the doorbell and the waits of a tile, and the spools, field tests, wavelengths and crossings.

The model's choices in it are those of log entry 112. -/
def Obligations.CommandsStopOnlyOnMissingUnits : Prop :=
  (∀ (s : State) (c : Instr), (∃ s', Machine.exec c s = .next s') ∨ Machine.exec c s = .fault .noSuchTile
      ∨ Machine.exec c s = .fault .noSuchUnit)
    ∧ (∀ (s : State) (t : Tile) (o : ROp) (d : DropOp) (v : VselOp), s.ntiles ≤ t.toNat →
        ∀ c ∈ [Instr.cAdd t o, .mxDrop t d, .vxSel t v, .trapEntry t .ok, .programStart t, .fence t, .wake t, .syWaitTimeout t],
          Machine.exec c s = .fault .noSuchTile)
    ∧ ∀ s : State,
        (∀ (p off : Nat) (e : Ecc) (y : BitVec 8), 1152 ≤ p ∨ 0x500000 ≤ off →
            Machine.exec (.scrub p off e y) s = .fault .noSuchUnit)
          ∧ (∀ (p n w : Nat) (e : SliceEnd), 1152 ≤ p →
              ∀ c ∈ [Instr.itDue p, .itSlice p n w e, .itOverdue p], Machine.exec c s = .fault .noSuchUnit)
          ∧ (∀ (g w : BitVec 4) (p : BitVec 6), 9 ≤ w.toNat →
              ∀ c ∈ [Instr.laserFail g w, .laserLow g w, .rxLos p w], Machine.exec c s = .fault .noSuchUnit)
          ∧ ∀ x : BitVec 8, 16 ≤ x.toNat →
              ∀ c ∈ [Instr.fifoResync x, .xingErr x], Machine.exec c s = .fault .noSuchUnit

/-- R5: no step changes the fused grade, which the FZ page reports. -/
def Obligations.GradeIsFused : Prop :=
  (∀ (s s' : State), Machine.step s = .next s' → s'.fuses.c0 = s.fuses.c0 ∧ s'.fuses.c1 = s.fuses.c1)
    ∧ ∀ s : State, bits (pageRead s fzPg 0x040).1 23 16 = s.fuses.c0.grade.toNat

/-- Every step keeps LC_EPOCH and LC_COUNT in their ranges, lowers neither, and clears no VOID (R526, R527, R528). -/
def Obligations.LifeCycleFusesStayInRange : Prop :=
  ∀ s s' : State, LifeFuses s → Machine.step s = .next s' →
    LifeFuses s' ∧ s.fuses.epoch ≤ s'.fuses.epoch ∧ s.fuses.lcCount ≤ s'.fuses.lcCount
      ∧ (s.fuses.voided = true → s'.fuses.voided = true)

/-- The fuses that State.reset stands for are in those ranges (log entry 1). -/
def Obligations.ResetLifeCycleFuses : Prop :=
  LifeFuses Machine.State.reset

/-! ### The control core -/

/-- R171, the functions of major 0x01 on two registers.

R171, the functions of one register, the select and the moves: pG of c.sel selects and does not guard.

R155 and R171, c.getu: once no vx instruction before it has its summary register to write.

R171, the immediate forms: the 13-bit immediate is sign-extended. -/
def Obligations.ScalarInstructions : Prop :=
  (∀ (s : State) (t : Tile) (o : ROp), Ready s t → Here s t [o.gD, o.gA, o.gB] → s.p t o.pG = true →
      let a := s.g t o.gA
      let b := s.g t o.gB
      Puts (.cAdd t o) s t o.gD (a + b) ∧ Puts (.cSub t o) s t o.gD (a - b) ∧ Puts (.cAnd t o) s t o.gD (a &&& b)
        ∧ Puts (.cOr t o) s t o.gD (a ||| b) ∧ Puts (.cXor t o) s t o.gD (a ^^^ b)
        ∧ Puts (.cShl t o) s t o.gD (BitVec.ofNat 64 (a.toNat * 2 ^ (b.toNat % 64)))
        ∧ Puts (.cShr t o) s t o.gD (BitVec.ofNat 64 (a.toNat / 2 ^ (b.toNat % 64)))
        ∧ Puts (.cSar t o) s t o.gD (BitVec.ofInt 64 (a.toInt / 2 ^ (b.toNat % 64)))
        ∧ Puts (.cMul t o) s t o.gD (BitVec.ofNat 64 (a.toNat * b.toNat))
        ∧ Puts (.cMulhu t o) s t o.gD (BitVec.ofNat 64 (a.toNat * b.toNat / 2 ^ 64))
        ∧ Puts (.cMulh t o) s t o.gD (BitVec.ofInt 64 (a.toInt * b.toInt / 2 ^ 64))
        ∧ Puts (.cDivu t o) s t o.gD (if b = 0 then 0xFFFFFFFFFFFFFFFF#64 else BitVec.ofNat 64 (a.toNat / b.toNat))
        ∧ Puts (.cRemu t o) s t o.gD (if b = 0 then a else BitVec.ofNat 64 (a.toNat % b.toNat))
        ∧ Puts (.cMin t o) s t o.gD (if a.toInt ≤ b.toInt then a else b)
        ∧ Puts (.cMax t o) s t o.gD (if b.toInt ≤ a.toInt then a else b)
        ∧ Puts (.cMinu t o) s t o.gD (if a.toNat ≤ b.toNat then a else b)
        ∧ Puts (.cMaxu t o) s t o.gD (if b.toNat ≤ a.toNat then a else b))
  ∧ (∀ (s : State) (t : Tile) (o : ROp) (u : UOp) (x : RfOp), Ready s t →
      let a := s.g t o.gA
      (Here s t [o.gD, o.gA, o.gB] →
          Puts (.cSel t o) s t o.gD (if s.p t o.pG then s.g t o.gA else s.g t o.gB))
        ∧ (Here s t [o.gD, o.gA] → s.p t o.pG = true →
            Puts (.cSextb t o) s t o.gD (BitVec.ofInt 64 (a.setWidth 8).toInt)
              ∧ Puts (.cSexth t o) s t o.gD (BitVec.ofInt 64 (a.setWidth 16).toInt)
              ∧ Puts (.cSextw t o) s t o.gD (BitVec.ofInt 64 (a.setWidth 32).toInt)
              ∧ (∃ n ≤ 64, a.toNat < 2 ^ (64 - n) ∧ (n < 64 → 2 ^ (63 - n) ≤ a.toNat)
                  ∧ Puts (.cClz t o) s t o.gD (BitVec.ofNat 64 n))
              ∧ Puts (.cPopc t o) s t o.gD (BitVec.ofNat 64 ((List.range 64).countP (fun i => a.getLsbD i))))
        ∧ (Here s t [u.gD] → s.p t u.pG = true →
            Puts (.cMovz t u) s t u.gD (BitVec.ofNat 64 (u.imm.toNat * 2 ^ (16 * u.pos.toNat)))
              ∧ ∃ v : W64, Puts (.cMovk t u) s t u.gD v ∧ ∀ i < 64, v.getLsbD i =
                  if 16 * u.pos.toNat ≤ i ∧ i < 16 * u.pos.toNat + 16 then u.imm.getLsbD (i - 16 * u.pos.toNat)
                  else (s.g t u.gD).getLsbD i)
        ∧ (Here s t [x.gD] → s.p t x.pG = true → x.gA.toNat < 8 → x.fn = 0 →
            (summaryQueued (s.tile t) x.gA.toNat = false →
                Puts (.cGetu t x) s t x.gD (BitVec.ofNat 64 (readU s t x.gA.toNat)))
              ∧ (summaryQueued (s.tile t) x.gA.toNat = true →
                Answers (.cGetu t x) s (withhold s t rowOperand (.summary x.gA.toNat)))))
  ∧ (∀ (s : State) (t : Tile) (o : IOp), Ready s t → Here s t [o.gD, o.gA] → s.p t o.pG = true →
      let a := s.g t o.gA
      let n := o.imm.toNat % 64
      Puts (.cAddi t o) s t o.gD (BitVec.ofInt 64 (a.toInt + o.imm.toInt))
        ∧ Puts (.cAndi t o) s t o.gD (a &&& o.imm.signExtend 64) ∧ Puts (.cOri t o) s t o.gD (a ||| o.imm.signExtend 64)
        ∧ Puts (.cXori t o) s t o.gD (a ^^^ o.imm.signExtend 64)
        ∧ (o.imm.toNat < 64 → Puts (.cShi t o) s t o.gD (a <<< n))
        ∧ (64 ≤ o.imm.toNat ∧ o.imm.toNat < 128 → Puts (.cShi t o) s t o.gD (a >>> n))
        ∧ (128 ≤ o.imm.toNat ∧ o.imm.toNat < 192 → Puts (.cShi t o) s t o.gD (a.sshiftRight n))
        ∧ (192 ≤ o.imm.toNat ∧ o.imm.toNat < 256 → Puts (.cShi t o) s t o.gD (a.rotateRight n))
        ∧ (256 ≤ o.imm.toNat → Machine.exec (.cShi t o) s
            = .next (settle s (precise s t cIllegal (BitVec.ofNat 64 (o.enc 6))))))

/-- R172 and R173: comparisons and predicate logic. -/
def Obligations.ComparesAndPredicates : Prop :=
  ∀ (s : State) (t : Tile), Ready s t →
    (∀ o : CmpOp, Here s t [o.gA, o.gB] → s.p t o.pG = true → o.rsv = 0 → o.fn.toNat < 8 →
        let a := s.g t o.gA
        let b := s.g t o.gB
        (o.fn = 0 → PutsP (.cCmp t o) s t o.pD (decide (a = b)))
          ∧ (o.fn = 1 → PutsP (.cCmp t o) s t o.pD (decide (a ≠ b)))
          ∧ (o.fn = 2 → PutsP (.cCmp t o) s t o.pD (decide (a.toInt < b.toInt)))
          ∧ (o.fn = 3 → PutsP (.cCmp t o) s t o.pD (decide (b.toInt ≤ a.toInt)))
          ∧ (o.fn = 4 → PutsP (.cCmp t o) s t o.pD (decide (a.toNat < b.toNat)))
          ∧ (o.fn = 5 → PutsP (.cCmp t o) s t o.pD (decide (b.toNat ≤ a.toNat)))
          ∧ (o.fn = 6 → PutsP (.cCmp t o) s t o.pD (decide (a &&& b ≠ 0))))
      ∧ (∀ (o : CmpOp) (f : Nat), Here s t [o.gA, o.gB] → s.p t o.pG = true → o.rsv = 0 →
          (o.fn.toNat / 8 = 1 ∧ f = 6 ∨ o.fn.toNat / 8 = 2 ∧ f = 7) →
          let x := decVal f (s.g t o.gA).toNat
          let y := decVal f (s.g t o.gB).toNat
          let nan := x = .nan ∨ y = .nan
          (o.fn.toNat % 8 = 0 → PutsP (.cCmp t o) s t o.pD (decide (¬ nan) && !valLt x y && !valLt y x))
            ∧ (o.fn.toNat % 8 = 1 → PutsP (.cCmp t o) s t o.pD (decide nan || valLt x y || valLt y x))
            ∧ (o.fn.toNat % 8 = 2 → PutsP (.cCmp t o) s t o.pD (decide (¬ nan) && valLt x y))
            ∧ (o.fn.toNat % 8 = 3 → PutsP (.cCmp t o) s t o.pD (decide (¬ nan) && !valLt x y)))
      ∧ (∀ o : CmpiOp, Here s t [o.gA] → s.p t o.pG = true → o.rsv = 0 →
          let a := s.g t o.gA
          let b := (o.imm.setWidth 10).signExtend 64
          (o.imm.toNat / 1024 = 0 → PutsP (.cCmpi t o) s t o.pD (decide (a = b)))
            ∧ (o.imm.toNat / 1024 = 1 → PutsP (.cCmpi t o) s t o.pD (decide (a ≠ b)))
            ∧ (o.imm.toNat / 1024 = 2 → PutsP (.cCmpi t o) s t o.pD (decide (a.toInt < b.toInt)))
            ∧ (o.imm.toNat / 1024 = 3 → PutsP (.cCmpi t o) s t o.pD (decide (b.toInt ≤ a.toInt)))
            ∧ (o.imm.toNat / 1024 = 4 → PutsP (.cCmpi t o) s t o.pD (decide (a.toNat < b.toNat)))
            ∧ (o.imm.toNat / 1024 = 5 → PutsP (.cCmpi t o) s t o.pD (decide (b.toNat ≤ a.toNat)))
            ∧ (o.imm.toNat / 1024 = 6 → PutsP (.cCmpi t o) s t o.pD (decide (a &&& b ≠ 0))))
      ∧ (∀ o : PredOp, s.p t o.pG = true → o.rsv1 = 0 → o.rsv2 = 0 → o.rsv3 = 0 →
          let a := s.p t o.pA
          let b := s.p t o.pB
          PutsP (.predicateAnd t o) s t o.pD (a && b) ∧ PutsP (.predicateOr t o) s t o.pD (a || b)
            ∧ PutsP (.predicateXor t o) s t o.pD (xor a b) ∧ PutsP (.predicateAndn t o) s t o.pD (a && !b)
            ∧ PutsP (.predicateNot t o) s t o.pD (!a))

/-- R175: loads of 1, 2, 4 and 8 bytes from the data store at gA + sext(IMM13), zero-extended.

R175: stores of the low 1, 2, 4 and 8 bytes of gS to the data store at gA + sext(IMM13), least significant first.

R163: a misaligned access of the data store, or one beyond its 64 KiB, raises the precise DADDR cause with the address
and moves nothing; R164: an uncorrectable word fences the tile instead, and R208: a corrected one withholds the access.

The model's choices in it are those of log entries 8 and 27. -/
def Obligations.DataStoreAccesses : Prop :=
  (∀ (s : State) (t : Tile) (o : IOp) (e : Ecc), Runs s t [o.gD, o.gA] o.pG → e = .ok →
      let a := (s.g t o.gA + o.imm.signExtend 64).toNat
      let v := fun n => BitVec.ofNat 64 (leNat (memRead (s.tile t).dstore a n))
      (a + 1 ≤ 0x10000 → Puts (.cLdb t o e) s t o.gD (v 1))
        ∧ (a % 2 = 0 → a + 2 ≤ 0x10000 → Puts (.cLdh t o e) s t o.gD (v 2))
        ∧ (a % 4 = 0 → a + 4 ≤ 0x10000 → Puts (.cLdw t o e) s t o.gD (v 4))
        ∧ (a % 8 = 0 → a + 8 ≤ 0x10000 → Puts (.cLdd t o e) s t o.gD (v 8)))
  ∧ (∀ (s : State) (t : Tile) (o : IOp) (e : Ecc), Runs s t [o.gD, o.gA] o.pG → e = .ok →
      let a := (s.g t o.gA + o.imm.signExtend 64).toNat
      let v := (s.g t o.gD).toNat
      (a + 1 ≤ 0x10000 → Stores (.cStb t o e) s t a (leBytes 1 v))
        ∧ (a % 2 = 0 → a + 2 ≤ 0x10000 → Stores (.cSth t o e) s t a (leBytes 2 v))
        ∧ (a % 4 = 0 → a + 4 ≤ 0x10000 → Stores (.cStw t o e) s t a (leBytes 4 v))
        ∧ (a % 8 = 0 → a + 8 ≤ 0x10000 → Stores (.cStd t o e) s t a (leBytes 8 v)))
  ∧ (∀ (s : State) (t : Tile) (o : IOp) (e : Ecc), Runs s t [o.gD, o.gA] o.pG →
      let a := s.g t o.gA + o.imm.signExtend 64
      let all := fun (n : Nat) (c d : Instr) =>
        ((a.toNat % n ≠ 0 ∨ 0x10000 < a.toNat + n) →
            Answers c s (precise s t cDaddr a) ∧ Answers d s (precise s t cDaddr a))
          ∧ (a.toNat % n = 0 → a.toNat + n ≤ 0x10000 →
              (e = .uncorrectable → Answers c s (storeUe s t 1 (a.toNat / 8)) ∧ Answers d s (storeUe s t 1 (a.toNat / 8)))
                ∧ (e = .corrected → Answers c s (withhold s t rowEcc .passing) ∧ Answers d s (withhold s t rowEcc .passing)))
      all 1 (.cLdb t o e) (.cStb t o e) ∧ all 2 (.cLdh t o e) (.cSth t o e) ∧ all 4 (.cLdw t o e) (.cStw t o e)
        ∧ all 8 (.cLdd t o e) (.cStd t o e))

/-- R176: a loose load or store of 8 or 4 bytes at an aligned bolt address joins the outstanding accesses and leaves for
its endpoint; a misaligned address raises DADDR before issue; c.lfence passes once no loose store is outstanding and
no vx.trk waits to send its own (R371), and is withheld until then.

R176 and R177: the response OK of a loose load brings its data to gD; any other response brings 0 and the BUS cause.

The model's choices in it are those of log entries 8 and 13. -/
def Obligations.LooseAccessesAndResponses : Prop :=
  (∀ (s : State) (t : Tile) (o : IOp) (f : RfOp), Runs s t [o.gD, o.gA] o.pG → (s.tile t).loose.length < 16 →
      let a : BitVec 48 := (s.g t o.gA + o.imm.signExtend 64).setWidth 48
      let tag := (s.tile t).tagNo
      let kind := LooseKind.load o.gD (s.hmode t && decide (28 ≤ o.gD.toNat))
      let me := Party.tile (BitVec.ofNat 3 s.module) t
      let v := (s.g t o.gD).toNat
      (a.toNat % 8 = 0 →
          Answers (.cLld t o) s (post (withLoose s t kind a 8) (.lseRead me a 8 tag))
            ∧ Answers (.cLst t o) s (post (withLoose s t .store a 8) (.lseWrite me a (leBytes 8 v) tag)))
        ∧ (a.toNat % 4 = 0 →
            Answers (.cLldw t o) s (post (withLoose s t kind a 4) (.lseRead me a 4 tag))
              ∧ Answers (.cLstw t o) s (post (withLoose s t .store a 4) (.lseWrite me a (leBytes 4 v) tag)))
        ∧ (a.toNat % 8 ≠ 0 → Answers (.cLld t o) s (precise s t cDaddr (a.setWidth 64))
            ∧ Answers (.cLst t o) s (precise s t cDaddr (a.setWidth 64)))
        ∧ (a.toNat % 4 ≠ 0 → Answers (.cLldw t o) s (precise s t cDaddr (a.setWidth 64))
            ∧ Answers (.cLstw t o) s (precise s t cDaddr (a.setWidth 64)))
        ∧ (s.p t f.pG = true → f.fn = 0 →
            ((∀ l ∈ (s.tile t).loose, l.kind ≠ .store ∧ l.kind ≠ .trk) → trkQueued (s.tile t) = false →
                Answers (.cLfence t f) s (advance s t))
              ∧ ((∃ l ∈ (s.tile t).loose, l.kind = .store ∨ l.kind = .trk) ∨ trkQueued (s.tile t) = true →
                Answers (.cLfence t f) s (withhold s t rowDma .lfence))))
  ∧ (∀ (s : State) (t : Tile) (l : Loose) (gD : BitVec 5) (bank : Bool) (data : List Byte), t.toNat < s.ntiles →
      (s.tile t).loose.find? (fun x => x.tag == l.tag) = some l → l.kind = .load gD bank →
      (∀ r d, .lseRsp (.tile (BitVec.ofNat 3 s.module) t) l.tag r d ∉ s.net) →
      (∀ p h d, .pkt p h d ∈ s.net → h.type = tyLseResp → h.addr / 2 ^ 48 ≠ l.tag % 65536) → s.lseWait = [] →
      (Gives (.lseResp t l.tag 0 data) s fun s' =>
          (s'.tile t).readG bank gD = (if gD = 0 then 0 else BitVec.ofNat 64 (leNat (data.take l.size)))
            ∧ (s'.tile t).loose = (s.tile t).loose.erase l ∧ (s'.tile t).causes = (s.tile t).causes
            ∧ (s'.tile t).dstore = (s.tile t).dstore ∧ s'.spool = s.spool ∧ s'.lp = s.lp)
        ∧ (∀ r : BitVec 8, r ≠ 0 → s.hasProgram t = true → Gives (.lseResp t l.tag r data) s fun s' =>
            (s'.tile t).readG bank gD = 0 ∧ (s'.tile t).causes = (s.tile t).causes ++
                [{ code := cBus, src := 0, kind := .deferred, pc := l.pc,
                   info := BitVec.ofNat 64 (l.addr.toNat + r.toNat * 2 ^ 48), ord := l.ord, inHandler := l.inHandler }]
              ∧ s'.spool = s.spool ∧ s'.lp = s.lp))

/-- R174: the branches; a target outside the store raises IADDR at the branch (R162).

The model's choices in it are those of log entry 26. -/
def Obligations.Branches : Prop :=
  ∀ (s : State) (t : Tile), Ready s t →
    let pc : Int := (s.tile t).pc.toNat
    (∀ o : BrOp,
        (s.p t o.pG = (o.n == 1) → Answers (.cBr t o) s (advance s t))
          ∧ (s.p t o.pG ≠ (o.n == 1) → 0 ≤ pc + o.off.toInt → pc + o.off.toInt ≤ 0x3FFF →
              Gives (.cBr t o) s fun s' => (s'.tile t).pc.toNat = (pc + o.off.toInt).toNat ∧ (∀ r, s'.g t r = s.g t r)
                ∧ (∀ i, s'.p t i = s.p t i) ∧ (s'.tile t).dstore = (s.tile t).dstore ∧ OnlyTile s s' t)
          ∧ (s.p t o.pG ≠ (o.n == 1) → pc + o.off.toInt < 0 ∨ 0x3FFF < pc + o.off.toInt →
              Answers (.cBr t o) s (precise s t cIaddr (BitVec.ofInt 64 (pc + o.off.toInt)))))
      ∧ (∀ o : JOp, Here s t [o.gD] →
          (0 ≤ pc + o.off.toInt → pc + o.off.toInt ≤ 0x3FFF →
              Gives (.cJal t o) s fun s' => (s'.tile t).pc.toNat = (pc + o.off.toInt).toNat
                ∧ (∀ r, s'.g t r = if r = o.gD then (if o.gD = 0 then 0 else BitVec.ofInt 64 (pc + 1)) else s.g t r)
                ∧ (∀ i, s'.p t i = s.p t i) ∧ (s'.tile t).dstore = (s.tile t).dstore ∧ OnlyTile s s' t)
            ∧ (pc + o.off.toInt < 0 ∨ 0x3FFF < pc + o.off.toInt →
                Answers (.cJal t o) s (precise s t cIaddr (BitVec.ofInt 64 (pc + o.off.toInt)))))
      ∧ (∀ o : RfOp, Here s t [o.gA] → s.p t o.pG = true → o.fn = 0 →
          ((s.g t o.gA).toNat ≤ 0x3FFF →
              Gives (.cJr t o) s fun s' => (s'.tile t).pc.toNat = (s.g t o.gA).toNat ∧ (∀ r, s'.g t r = s.g t r)
                ∧ (∀ i, s'.p t i = s.p t i) ∧ (s'.tile t).dstore = (s.tile t).dstore ∧ OnlyTile s s' t)
            ∧ (0x3FFF < (s.g t o.gA).toNat → Answers (.cJr t o) s (precise s t cIaddr (s.g t o.gA))))

/-- R192: trap entry for one pending precise cause saves the index, the cause, its source and information and the
predicates, sets HMODE, goes to TRAP_VEC and holds the others by the trap row of the stall net.

R195: c.tret in handler mode restores PC from TRAP_PC and p1 to p7 from TRAP_PRED and clears HMODE; outside handler
mode it raises PRIV (R194).

R166, R169, R187 and R194: c.trap raises the precise SOFT cause with its immediate; c.halt stops issue and sends the
halt notice; c.sleep, outside handler mode, leaves the tile in retention after its issue cycle, and in it raises PRIV.

The model's choices in it are those of log entry 8. -/
def Obligations.TrapsAndReturns : Prop :=
  (∀ (s : State) (t : Tile) (c : Cause), t.toNat < s.ntiles → rd s (tlPg t) tl_STATUS_RUNNING = 1 → s.hmode t = false →
      rd s (tlPg t) tl_CTRL_TRAP_EN = 1 → (s.tile t).causes = [c] → c.kind = .precise → (s.tile t).loose = [] →
      enginesDrained (s.tile t) = true → c.pc < 0x4000 → c.code < 256 → c.src < 16 → ∀ e : Ecc,
      Gives (.trapEntry t e) s fun s' =>
        rd s' (tlPg t) tl_TRAP_PC = c.pc ∧ rd s' (tlPg t) tl_CAUSE = c.code ∧ rd s' (tlPg t) tl_SRC = c.src
          ∧ rd s' (tlPg t) tl_MULTI = 0 ∧ rd64 s' (tlPg t) tl_TRAP_INFO_LO tl_TRAP_INFO_HI = c.info.toNat
          ∧ rd s' (tlPg t) tl_PRED = (s.tile t).p.toNat / 2 ∧ s'.hmode t = true
          ∧ (s'.tile t).pc.toNat = rd s (tlPg t) tl_TRAP_VEC ∧ (s'.tile t).causes = [] ∧ s'.netReq.contains (t, rowTrap) = true
          ∧ s'.spool = s.spool ∧ s'.lp = s.lp ∧ s'.flash = s.flash)
  ∧ (∀ (s : State) (t : Tile) (o : RfOp), Runs s t [] o.pG → o.fn = 0 →
      (s.hmode t = true → Gives (.cTret t o) s fun s' =>
          (s'.tile t).pc.toNat = rd s (tlPg t) tl_TRAP_PC
            ∧ (∀ i : BitVec 3, i ≠ 0 → s'.p t i = (rd s (tlPg t) tl_PRED).testBit (i.toNat - 1)) ∧ s'.hmode t = false
            ∧ (s'.tile t).g = (s.tile t).g ∧ (s'.tile t).dstore = (s.tile t).dstore
            ∧ s'.spool = s.spool ∧ s'.lp = s.lp ∧ s'.flash = s.flash)
        ∧ (s.hmode t = false → Answers (.cTret t o) s (precise s t cPriv (BitVec.ofNat 64 (o.enc 0x23)))))
  ∧ (∀ (s : State) (t : Tile), Ready s t →
      (∀ o : TrapOp, s.p t o.pG = true → o.rsv = 0 → Answers (.cTrap t o) s (precise s t cSoft (o.imm.setWidth 64)))
        ∧ (∀ o : RfOp, s.p t o.pG = true → o.fn = 0 →
            (Gives (.cHalt t o) s fun s' => rd s' (tlPg t) tl_STATUS_RUNNING = 0 ∧ rd s' (tlPg t) tl_STATUS_HALTED = 1
                ∧ s'.hmode t = false ∧ s'.net = s.net ++ [.halted t] ∧ (∀ r ∈ s'.netReq, r.1 ≠ t)
                ∧ (s'.tile t).dstore = (s.tile t).dstore ∧ s'.spool = s.spool ∧ s'.lp = s.lp)
              ∧ (s.hmode t = false → Gives (.cSleep t o) s fun s' =>
                  rd s' (tlPg t) tl_STATUS_RUNNING = 0 ∧ rd s' (tlPg t) tl_STATUS_SLEEP = 1
                    ∧ (s'.tile t).pc = (s.tile t).pc + 1 ∧ (∀ r ∈ s'.netReq, r.1 ≠ t)
                    ∧ (s'.tile t).dstore = (s.tile t).dstore ∧ s'.spool = s.spool ∧ s'.lp = s.lp)
              ∧ (s.hmode t = true → Answers (.cSleep t o) s (precise s t cPriv (BitVec.ofNat 64 (o.enc 0x26))))))

/-- R178, R179 and R180, once the engines hold nothing: pg.rd reads its own page, and a byte offset that is no register reads 0; pg.wr stores where the
table of R179 allows and raises PRIV anywhere else; c.rdv reads the variant source of its SEL.

The model's choices in it are those of log entries 8 and 25. -/
def Obligations.PageAndVariantAccess : Prop :=
  ∀ (s : State) (t : Tile),
    (∀ o : POp, Runs s t [o.gD, o.gA] o.pG → o.rsv = 0 → enginesDrained (s.tile t) = true →
        let off := (4 * o.word.toNat + (s.g t o.gA).toNat) % 4096
        let pg := 0x1000 + 4 * t.toNat + o.sel.toNat
        (off % 4 = 0 → Answers (.pgRd t o) s
            ((advance (pageRead s pg off).2 t).setG t o.gD (BitVec.ofNat 64 (pageRead s pg off).1)))
          ∧ (off % 4 ≠ 0 → Answers (.pgRd t o) s ((advance s t).setG t o.gD 0))
          ∧ (pgWrOk (s.hmode t) o.sel off = true → Answers (.pgWr t o) s
              (advance (pageStore .tile s pg off ((s.g t o.gD).toNat % 2 ^ 32)).2 t))
          ∧ (pgWrOk (s.hmode t) o.sel off = false → Answers (.pgWr t o) s
              (precise s t cPriv (BitVec.ofNat 64 (o.enc 0x29)))))
      ∧ (∀ o : IOp, Runs s t [o.gD] o.pG →
          (o.imm = 2 → Puts (.cRdv t o) s t o.gD (BitVec.ofNat 64 s.cycles))
            ∧ (o.imm = 3 → Puts (.cRdv t o) s t o.gD (BitVec.ofNat 64 s.stallCycles))
            ∧ (o.imm = 4 → Puts (.cRdv t o) s t o.gD (BitVec.ofNat 64 (rd64 s thPg th_THROT_CYC_LO th_THROT_CYC_HI)))
            ∧ (o.imm = 6 → Puts (.cRdv t o) s t o.gD (BitVec.ofNat 64 (rd64 s tmPg tm_STITCH_LO tm_STITCH_HI)))
            ∧ (o.imm = 0 → Gives (.cRdv t o) s fun s' =>
                s'.g t o.gD = (if o.gD = 0 then 0 else BitVec.ofNat 64 (s.hallTime / 2 ^ 48))
                  ∧ (s'.tile t).rdv = some (BitVec.ofNat 17 (s.hallTime / 2 ^ 32 % 2 ^ 16 + rd s tmPg tm_LOCKED * 2 ^ 16)))
            ∧ (o.imm = 1 → ∀ v, (s.tile t).rdv = some v → Gives (.cRdv t o) s fun s' =>
                s'.g t o.gD = (if o.gD = 0 then 0 else v.setWidth 64) ∧ (s'.tile t).rdv = none)
            ∧ (o.imm = 5 → Gives (.cRdv t o) s fun s' =>
                s'.g t o.gD = (if o.gD = 0 ∨ rd s scPg sc_ENT_FAILED = 1 then 0 else Config.entropy s.entIdx)))

/-- R165, R168 and R170: a guard of 0 leaves only the issue cycle of a guarded instruction; a nonzero reserved field raises
ILLEGAL with the instruction word and has no other effect.

R92, R101, R106, R120, R128, R157 and R581: so does an engine instruction with a reserved bit or an illegal field; after
that check a format that it does not take raises FMT, and after both a bad address of the spool ADDR.

The model's choices in it are those of log entries 7, 8, 15 and 121. -/
def Obligations.GuardsAndReservedFields : Prop :=
  (∀ (s : State) (t : Tile), Ready s t →
    (∀ (o : ROp) (i : IOp) (f : RfOp) (e : Ecc), s.p t o.pG = false → s.p t i.pG = false → s.p t f.pG = false →
        ∀ c ∈ [Instr.cAdd t o, .cSub t o, .cMul t o, .cDivu t o, .cAddi t i, .cShi t i, .cLdd t i e, .cStd t i e, .cLld t i,
          .cLst t i, .cLfence t f, .cJr t f, .cTret t f, .cHalt t f, .cSleep t f, .dmGo t f e, .dmFence t f, .sySig t f,
          .syWait t f, .syRealign t f e, .mbSend t f e, .mbRecv t f], Answers c s (advance s t))
      ∧ (∀ (o : PredOp), s.p t o.pG = true → o.rsv1 ≠ 0 ∨ o.rsv2 ≠ 0 ∨ o.rsv3 ≠ 0 →
          Answers (.predicateAnd t o) s (precise s t cIllegal (BitVec.ofNat 64 (o.enc 0)))
            ∧ Answers (.predicateNot t o) s (precise s t cIllegal (BitVec.ofNat 64 (o.enc 4))))
      ∧ (∀ (o : CmpOp), Here s t [o.gA, o.gB] → s.p t o.pG = true →
          o.rsv ≠ 0 ∨ o.fn.toNat = 7 ∨ 24 ≤ o.fn.toNat ∨ (8 ≤ o.fn.toNat ∧ 4 ≤ o.fn.toNat % 8) →
          Answers (.cCmp t o) s (precise s t cIllegal (BitVec.ofNat 64 o.enc)))
      ∧ (∀ (f : RfOp), s.p t f.pG = true → f.fn ≠ 0 →
          Answers (.cTret t f) s (precise s t cIllegal (BitVec.ofNat 64 (f.enc 0x23)))
            ∧ Answers (.cHalt t f) s (precise s t cIllegal (BitVec.ofNat 64 (f.enc 0x25)))
            ∧ Answers (.dmFence t f) s (precise s t cIllegal (BitVec.ofNat 64 (f.enc 0x33)))))
  ∧ (∀ (s : State) (t : Tile) (u : Option Upset) (e : Ecc),
      let traps := fun (c : Instr) (code word : Nat) =>
        Answers c s (mxTrap (issuedTo s t .mx) t code (s.tile t).pc.toNat word)
      (∀ o : OpenOp, Executes s t .mx [] [o.gS, o.gT] → o.rsv ≠ 0 ∨ o.hsrc = 3 → traps (.mxOpen t o) cIllegal o.enc)
        ∧ (∀ o : MmaOp, Executes s t .mx [(o.tA.toNat, false), (o.tB.toNat, false)] [] → o.rsv ≠ 0 →
            traps (.mxMma t o u) cIllegal o.enc)
        ∧ (∀ o : CloseOp, Executes s t .mx [] [o.gD] → o.rsv ≠ 0 → traps (.mxClose t o u) cIllegal o.enc)
        ∧ (∀ o : MxStOp, Executes s t .mx [] [o.gA, o.gC, o.gD] →
            (o.rsv ≠ 0 ∨ accRows (s.g t o.gC) = none → traps (.mxSt t o u) cIllegal o.enc)
              ∧ ∀ r, o.rsv = 0 → accRows (s.g t o.gC) = some r →
                  rawOk (s.g t o.gA).toNat r.2 (accLay s t o.aD.toNat) = false → traps (.mxSt t o u) cAddr o.enc)
        ∧ (∀ o : MxLaOp, Executes s t .mx [] [o.gA, o.gC] →
            (o.rsv ≠ 0 ∨ s.hmode t = false ∨ accRows (s.g t o.gC) = none → traps (.mxLa t o e) cIllegal o.enc)
              ∧ ∀ r, o.rsv = 0 → s.hmode t = true → accRows (s.g t o.gC) = some r →
                  rawOk (s.g t o.gA).toNat r.2 (accLay s t o.aD.toNat) = false → traps (.mxLa t o e) cAddr o.enc)
        ∧ (∀ o : LtOp, Executes s t .mx [(o.tD.toNat, true)] [o.gA, o.gP] →
            let f := o.fmt.toNat
            let x := ltAddr (s.g t o.gA) (s.g t o.gP)
            (o.rsv ≠ 0 ∨ (o.t = 1 ∧ (32 < fmtW f ∨ isJ f = true ∨ o.bdir = 1)) → traps (.mxLt t o e) cIllegal o.enc)
              ∧ (o.rsv = 0 → o.t = 0 → badDir f o.bdir.toNat = true → traps (.mxLt t o e) cFmt o.enc)
              ∧ (o.rsv = 0 → o.t = 0 → badDir f o.bdir.toNat = false →
                  ltAddrOk x 64 (kLen f * fmtW f / 8) (sclBlocks f) = false → traps (.mxLt t o e) cAddr o.enc)
              ∧ (o.rsv = 0 → o.t = 1 → fmtW f ≤ 32 → isJ f = false → o.bdir = 0 →
                  ltAddrOk x (kLen f) (8 * fmtW f) (sclBlocks f) = false → traps (.mxLt t o e) cAddr o.enc))
        ∧ (∀ o : SttOp, Executes s t .mx [(o.tS.toNat, false)] [o.gA, o.gP] →
            let f := o.fmt.toNat
            let bad := badDir f o.bdir.toNat || tagFmt s t o.tS.toNat != f || tagBdir s t o.tS.toNat != o.bdir.toNat
            (o.rsv1 ≠ 0 ∨ o.rsv2 ≠ 0 → traps (.mxStt t o e) cIllegal o.enc)
              ∧ (o.rsv1 = 0 → o.rsv2 = 0 → bad = true → traps (.mxStt t o e) cFmt o.enc)
              ∧ (o.rsv1 = 0 → o.rsv2 = 0 → bad = false →
                  ltAddrOk (ltAddr (s.g t o.gA) (s.g t o.gP)) 64 (kLen f * fmtW f / 8) (sclBlocks f) = false →
                  traps (.mxStt t o e) cAddr o.enc))
        ∧ (∀ o : TagOp, Executes s t .mx [(o.tD.toNat, true)] [] →
            (o.rsv ≠ 0 → traps (.mxTag t o) cIllegal o.enc)
              ∧ (o.rsv = 0 → badDir o.fmt.toNat o.bdir.toNat = true → traps (.mxTag t o) cFmt o.enc))
        ∧ ∀ o : DropOp, Executes s t .mx [] [] → o.rsv ≠ 0 → traps (.mxDrop t o) cIllegal o.enc)
  ∧ ∀ (s : State) (t : Tile) (u : Option Upset) (e : Ecc),
      let traps := fun (c : Instr) (code word : Nat) =>
        Answers c s (vxTrap (issuedTo s t .vx) t code (s.tile t).pc.toNat word)
      (Executes s t .vx [] [] →
          (∀ o : VfOp, ∀ c ∈ [(Instr.vxAdd t o u, 0), (.vxSub t o u, 1), (.vxMul t o u, 2), (.vxDiv t o u, 3),
              (.vxFma t o u, 4), (.vxMin t o, 5), (.vxMax t o, 6)],
              (3 < o.rm.toNat → traps c.1 cIllegal (o.enc c.2))
                ∧ (o.rm.toNat ≤ 3 → o.f ≠ 6 → o.f ≠ 7 → traps c.1 cFmt (o.enc c.2)))
            ∧ (∀ o : VuOp, ∀ c ∈ [(Instr.vxSqrt t o u, 7), (.vxRcp t o u, 8), (.vxRsqrt t o u, 9), (.vxExp2 t o u, 10),
              (.vxLog2 t o u, 11), (.vxAbs t o, 12), (.vxNeg t o, 13)],
              (3 < o.rm.toNat ∨ o.rsv ≠ 0 → traps c.1 cIllegal (o.enc c.2))
                ∧ (o.rm.toNat ≤ 3 → o.rsv = 0 → o.f ≠ 6 → o.f ≠ 7 → traps c.1 cFmt (o.enc c.2)))
            ∧ (∀ o : ViOp, ∀ c ∈ [(Instr.vxIadd t o u, 14), (.vxIsub t o u, 15), (.vxImul t o u, 16), (.vxAnd t o, 17),
              (.vxOr t o, 18), (.vxXor t o, 19), (.vxShl t o, 20), (.vxShr t o, 21)],
              (o.rsv ≠ 0 → traps c.1 cIllegal (o.enc c.2))
                ∧ (o.rsv = 0 → o.f ≠ 10 → o.f ≠ 11 → o.f ≠ 14 → o.f ≠ 15 → traps c.1 cFmt (o.enc c.2)))
            ∧ (∀ o : VcmpOp, (3 < o.cc.toNat ∨ o.rsv ≠ 0 → traps (.vxCmp t o) cIllegal o.enc)
                ∧ (o.cc.toNat ≤ 3 → o.rsv = 0 → badF o.f = true → badI o.f = true → traps (.vxCmp t o) cFmt o.enc))
            ∧ (∀ o : VselOp, o.rsv ≠ 0 → traps (.vxSel t o) cIllegal o.enc)
            ∧ ∀ o : VcvtOp,
                let part := o.p.toNat * min (fmtW o.fs.toNat) (fmtW o.fd.toNat)
                let w := max (fmtW o.fs.toNat) (fmtW o.fd.toNat)
                (badRmCvt o.rm = true ∨ w ≤ part → traps (.vxCvt t o) cIllegal o.enc)
                  ∧ (badRmCvt o.rm = false → part < w → isJ o.fs.toNat = true ∨ isJ o.fd.toNat = true →
                      traps (.vxCvt t o) cFmt o.enc))
        ∧ (∀ o : VldOp, Executes s t .vx [] [o.gA] → ∀ c ∈ [(Instr.vxLd t o e, 0x20), (.vxSt t o, 0x21)],
            (o.rsv ≠ 0 → traps c.1 cIllegal (o.enc c.2))
              ∧ (o.rsv = 0 → (s.g t o.gA).toNat % 64 ≠ 0 ∨ 0x500000 < (s.g t o.gA).toNat + 512 →
                  traps c.1 cAddr (o.enc c.2)))
        ∧ (∀ o : VbcastOp, Executes s t .vx [] [o.gS] → (o.rsv ≠ 0 → traps (.vxBcast t o) cIllegal o.enc)
            ∧ (o.rsv = 0 → badJ o.f = true → traps (.vxBcast t o) cFmt o.enc))
        ∧ (∀ (b : VbobOp) (r : VsrctxOp) (v : VevtOp) (w : VusetOp) (k : VtrkOp) (m : VtamaxOp) (a : VgaccOp) (d : VgtaccOp)
              (g : VgdotOp) (h : VgrdOp) (p : VgcombOp) (x : VgdecOp),
            (Executes s t .vx [] [b.gR, b.gE] → b.rsv ≠ 0 → traps (.vxBob t b) cIllegal b.enc)
              ∧ (Executes s t .vx [] [r.gR, r.gE] → r.rsv ≠ 0 → traps (.vxSrctx t r) cIllegal r.enc)
              ∧ (Executes s t .vx [] [] → v.rsv ≠ 0 → traps (.vxEvt t v) cIllegal v.enc)
              ∧ (Executes s t .vx [] [w.gS] → w.rsv ≠ 0 → traps (.vxUset t w) cIllegal w.enc)
              ∧ (Executes s t .vx [] [k.gE] → k.rsv ≠ 0 → traps (.vxTrk t k) cIllegal k.enc)
              ∧ (Executes s t .vx [(m.tS.toNat, false)] [] → m.rsv ≠ 0 → traps (.vxTamax t m) cIllegal m.enc)
              ∧ (Executes s t .vx [] [a.gC] → a.rsv ≠ 0 → traps (.vxGacc t a u) cIllegal a.enc)
              ∧ (Executes s t .vx [(d.tS.toNat, false)] [d.gC] → d.rsv ≠ 0 → traps (.vxGtacc t d u) cIllegal d.enc)
              ∧ (Executes s t .vx [] [g.gC] → g.rsv ≠ 0 → traps (.vxGdot t g u) cIllegal g.enc)
              ∧ (Executes s t .vx [] [h.gC] → h.rsv ≠ 0 → traps (.vxGrd t h u) cIllegal h.enc)
              ∧ (Executes s t .vx [] [p.gA] → p.rsv ≠ 0 → traps (.vxGcomb t p u e) cIllegal p.enc)
              ∧ (Executes s t .vx [] [x.gL] → x.rsv ≠ 0 → traps (.vxGdec t x e) cIllegal x.enc))
        ∧ (∀ o : VtOp,
            (Executes s t .vx [(o.t.toNat, false)] [o.gR] → o.rsv ≠ 0 →
                traps (.vxLdt t o) cIllegal (o.enc 0x22) ∧ traps (.vxLdc t o) cIllegal (o.enc 0x23))
              ∧ (Executes s t .vx [(o.t.toNat, true)] [o.gR] → o.rsv ≠ 0 →
                traps (.vxWrt t o) cIllegal (o.enc 0x24) ∧ traps (.vxWrc t o) cIllegal (o.enc 0x25)))
        ∧ (∀ o : VpickOp, Executes s t .vx [] [o.gI] → (o.rsv ≠ 0 → traps (.vxPick t o) cIllegal o.enc)
            ∧ (o.rsv = 0 → badJ o.f = true → traps (.vxPick t o) cFmt o.enc))
        ∧ (∀ o : VtrkOp, Executes s t .vx [] [o.gE] → o.rsv = 0 → badJ o.f = true → traps (.vxTrk t o) cFmt o.enc)
        ∧ (∀ o : VgaccOp, Executes s t .vx [] [o.gC] → o.rsv = 0 → badF o.f = true → traps (.vxGacc t o u) cFmt o.enc)
        ∧ (∀ o : VrdiffOp, Executes s t .vx [] [] → (o.rsv ≠ 0 → traps (.vxRdiff t o u) cIllegal o.enc)
            ∧ (o.rsv = 0 → badF o.f = true → traps (.vxRdiff t o u) cFmt o.enc))
        ∧ (∀ o : VgcvtOp, Executes s t .vx [] [o.gC] →
            (badRmCvt o.rm = true ∨ o.rsv ≠ 0 → traps (.vxGcvt t o u) cIllegal o.enc)
              ∧ (badRmCvt o.rm = false → o.rsv = 0 → badJ o.fd = true → traps (.vxGcvt t o u) cFmt o.enc))
        ∧ (∀ o : VcutOp, Executes s t .vx [(o.tD.toNat, true)] [o.gC] →
            (badRmCvt o.rm = true → traps (.vxCut t o e) cIllegal o.enc)
              ∧ (badRmCvt o.rm = false → 4 < o.fd.toNat → traps (.vxCut t o e) cFmt o.enc))
        ∧ (∀ o : VuncutOp, Executes s t .vx [(o.tS.toNat, false)] [o.gC] →
            (badRmCvt o.rm = true ∨ o.rsv ≠ 0 → traps (.vxUncut t o e) cIllegal o.enc)
              ∧ (badRmCvt o.rm = false → o.rsv = 0 → isJ (tagFmt s t o.tS.toNat) = false → traps (.vxUncut t o e) cFmt o.enc))
        ∧ (∀ o : VvredOp, Executes s t .vx [] [] →
            (3 < o.rm.toNat ∨ 4 < o.op.toNat ∨ o.rsv ≠ 0 → traps (.vxVred t o u) cIllegal o.enc)
              ∧ (o.rm.toNat ≤ 3 → o.op.toNat ≤ 4 → o.rsv = 0 → badF o.f = true → traps (.vxVred t o u) cFmt o.enc))
        ∧ ∀ o : VtredOp, Executes s t .vx [(o.tS.toNat, false)] [] →
            (3 < o.rm.toNat ∨ 4 < o.op.toNat ∨ o.rsv ≠ 0 → traps (.vxTred t o u) cIllegal o.enc)
              ∧ (o.rm.toNat ≤ 3 → o.op.toNat ≤ 4 → o.rsv = 0 → tagFmt s t o.tS.toNat ≠ 6 →
                  traps (.vxTred t o u) cFmt o.enc)

/-! ### DMA, synchronisation, mailboxes and memory -/

/-- R182 and R183: dm.go puts the 64-byte descriptor that it reads at issue at the end of the queue, under the next tag,
and with the place of its instruction in issue order; R164, R208: what the read of the store finds acts as for any
access. dm.fence passes an empty queue and waits for one that is not; a start makes the first waiting descriptor active,
and one that fails its checks fails with DESC_BAD; a stall of the chip starts none (R26, R193, R206).

R184: the oldest active transfer moves its lines in order, then sends its SIG signal and leaves the queue; its LOC_CTR is
signalled once its source has been read (R183, R239). Lines for another module wait for their responses, and a response
other than OK raises the DMA cause instead.

A transfer of one line between two data-store addresses copies its 64 bytes and leaves every other byte (R183).

The model's choices in it are those of log entries 13, 14, 27 and 124. -/
def Obligations.DmaCopies : Prop :=
  (∀ (s : State) (t : Tile) (o : RfOp),
      (Runs s t [o.gA] o.pG → o.fn = 0 →
          let a := (s.g t o.gA).toNat
          ((s.tile t).dma.length < 8 → a % 64 = 0 → a < 0x10000 →
              (Gives (.dmGo t o .ok) s fun s' =>
                  (s'.tile t).dma = (s.tile t).dma ++
                    [{ desc := a, pc := (s.tile t).pc.toNat, ord := (s.tile t).ord + 1,
                       bytes := memRead (s.tile t).dstore a 64, active := false, sent := 0, tag := (s.tile t).tagNo,
                       rsp := 0, read := false, told := false }]
                  ∧ (s'.tile t).tagNo = (s.tile t).tagNo + 1 ∧ (s'.tile t).pc = (s.tile t).pc + 1
                  ∧ (∀ r, s'.g t r = s.g t r) ∧ (∀ i, s'.p t i = s.p t i)
                  ∧ (s'.tile t).dstore = (s.tile t).dstore ∧ OnlyTile s s' t)
                ∧ Answers (.dmGo t o .corrected) s (withhold s t rowEcc .passing)
                ∧ Answers (.dmGo t o .uncorrectable) s (storeUe s t 1 (a / 8)))
            ∧ (∀ e : Ecc, (s.tile t).dma.length < 8 → a % 64 ≠ 0 ∨ 0x10000 ≤ a →
                Answers (.dmGo t o e) s (precise s t cDaddr (s.g t o.gA)))
            ∧ (∀ e : Ecc, 8 ≤ (s.tile t).dma.length → Answers (.dmGo t o e) s (withhold s t rowDma .dmaFull)))
        ∧ (Runs s t [] o.pG → o.fn = 0 →
            ((s.tile t).dma = [] → Answers (.dmFence t o) s (advance s t))
              ∧ ((s.tile t).dma ≠ [] → Answers (.dmFence t o) s (withhold s t rowDma .dmFence)))
        ∧ (t.toNat < s.ntiles → ∀ ecc : Ecc,
            (nextDma (s.tile t) = none ∨ enginesRun s t = false → Answers (.dmaTransferStart t ecc) s s)
              ∧ ∀ e, nextDma (s.tile t) = some e → s.tileOff t = false → enginesRun s t = true →
                  engineClash (s.tile t) e = false → ((s.tile t).dma.filter (·.active)).length < 2 →
                  let d := parseDma e.bytes
                  (d.fails = true → Answers (.dmaTransferStart t ecc) s (dmaFail s t e rDescBad))
                    ∧ (d.fails = false →
                        Answers (.dmaTransferStart t ecc) s
                          (dmaBegin (dmaSet s t e { e with active := true }) t { e with active := true } ecc))
                    ∧ (d.fails = false → d.dstSp ≠ 4 → d.srcFar s = false → d.dstFar s = false →
                        Answers (.dmaTransferStart t ecc) s (dmaSet s t e { e with active := true }))))
  ∧ (∀ (s : State) (t : Tile) (e : DmaEnt) (remote : List Byte) (ecc : Ecc), t.toNat < s.ntiles →
      (s.tile t).dma.find? (·.active) = some e →
      let d := parseDma e.bytes
      let s0 := dmaCredits s t e
      let r := dmaRun (dmaSet s0 t e { e with sent := 1 }) t { e with sent := 1 } remote ecc
      (e.rsp = 0 → e.sent = 1 → d.dstSp ≠ 4 → Answers (.dmaTransferComplete t 0 remote ecc) s (dmaSignals s0 t e))
        ∧ (e.rsp = 0 → e.sent ≠ 1 → d.dstSp ≠ 4 → (r.2.tile t).off = false →
            (r.1 = rOK → Answers (.dmaTransferComplete t 0 remote ecc) s
                (if d.dstFar s0 = true then r.2 else dmaSignals r.2 t e))
              ∧ (r.1 ≠ rOK → Answers (.dmaTransferComplete t 0 remote ecc) s (dmaFail r.2 t e r.1)))
        ∧ (∀ rsp : BitVec 8, rsp ≠ 0 ∨ e.rsp ≠ 0 →
            let x := if d.dstSp = 4 then s0 else dmaPartial s0 t e remote ecc
            (x.tile t).off = false → Answers (.dmaTransferComplete t rsp remote ecc) s
              (dmaFail x t e (if e.rsp ≠ 0 then e.rsp else rsp.toNat)))
        ∧ (∀ x ∈ ((dmaSignals s t e).tile t).dma, x.ord ≠ e.ord))
  ∧ (∀ (s : State) (t : Tile) (d : DmaDesc) (a b i tag : Nat) (remote : List Byte), d.srcSp = 3 → d.dstSp = 3 →
      let r := dmaMove t d tag remote [(a, b, i)] .ok s
      r.1 = rOK ∧ r.2.1 = true ∧ memRead (r.2.2.tile t).dstore b 64 = memRead (s.tile t).dstore a 64
        ∧ (∀ x, x < b ∨ b + 64 ≤ x → memByte (r.2.2.tile t).dstore x = memByte (s.tile t).dstore x)
        ∧ r.2.2.spool = s.spool ∧ r.2.2.lp = s.lp ∧ r.2.2.regs = s.regs)

/-- R185, R237, R239: sy.sig posts its word, and sy.sigi adds to a counter of the own tile, which stays at 65,535.

R237, R239 and R240: a signal for this module whose turn it is, and which no FOREIGN port brings (R25), adds its COUNT to
the counter it names when the tile is not OFF, and a sending tile of this module that is not OFF gets the response OK; the response of a posted signal that is OK ends its wait.

R241: sy.wait subtracts and issues with OK when the counter holds enough, issues with OWNER_LOST when it does not and
its owner is lost, and is withheld otherwise; once T cycles have passed it issues with TIMEOUT, as soon as no other
request stands (R207), and not before.

R227 to R229: sy.realign compares once PROD_CNT of every listed counter has arrived, is withheld until then, and
compares 65,536 cycles later all the same, and not before.

The model's choices in it are those of log entries 13, 38 and 39. -/
def Obligations.SignalsAndWaits : Prop :=
  (∀ (s : State) (t : Tile),
      (∀ o : RfOp, Runs s t [o.gA] o.pG → o.gD = 0 → o.gB = 0 → o.fn = 0 →
          let w := s.g t o.gA
          (sigWordOk w.toNat = true → ∃ n, Answers (.sySig t o) s (post ((advance s t).modTile t (fun ts =>
              { ts with sigs := ts.sigs ++ [{ word := w, pc := (s.tile t).pc.toNat, ord := n, dma := none }] }))
                (.signal (.tile (BitVec.ofNat 3 s.module) t) w)))
            ∧ (sigWordOk w.toNat = false → Answers (.sySig t o) s (indexCause s t w.toNat)))
        ∧ (∀ o : SigiOp, Runs s t [] o.pG → o.rsv = 0 → o.n ≠ 0 → o.ctr.toNat < 48 →
            Gives (.sySigi t o) s fun s' =>
              syCount s' t o.ctr.toNat = min (syCount s t o.ctr.toNat + o.n.toNat) 65535
                ∧ rdi s' (syPg t) sy_PC_PROD_CNT o.ctr.toNat = (rdi s (syPg t) sy_PC_PROD_CNT o.ctr.toNat + o.n.toNat) % 2 ^ 16
                ∧ (s'.tile t).pc = (s.tile t).pc + 1 ∧ (s'.tile t).dstore = (s.tile t).dstore
                ∧ s'.spool = s.spool ∧ s'.lp = s.lp))
  ∧ ((∀ (s : State) (src : Sender) (w : BitVec 64), wordModule w.toNat = s.module → wordDest w.toNat = false →
        wordTile w.toNat < s.ntiles → wordCtr w.toNat < 48 →
        let u : Tile := BitVec.ofNat 11 (wordTile w.toNat)
        let c := wordCtr w.toNat
        s.tileOff u = false → signalTurn s src w = true →
        senderModule s src = s.module ∨ rd s (lkPg (boltPort s (senderModule s src) 0)) lk_CFG_FOREIGN = 0 →
        Gives (.signal src w) s fun s' =>
          syCount s' u c = min (syCount s u c + wordCount w.toNat) 65535
            ∧ rdi s' (syPg u) sy_PC_PROD_CNT c = (rdi s (syPg u) sy_PC_PROD_CNT c + wordCount w.toNat) % 2 ^ 16
            ∧ (∀ t, src = .tile (BitVec.ofNat 3 s.module) t → (s.tile t).off = false → .signalRsp t w rOK ∈ s'.net)
            ∧ s'.spool = s.spool ∧ s'.lp = s.lp ∧ s'.flash = s.flash)
      ∧ ∀ (s : State) (t : Tile) (w : BitVec 64) (x : SigWait), t.toNat < s.ntiles →
          (s.tile t).sigs.find? (fun y => y.word == w) = some x → (∀ r, .signalRsp t w r ∉ s.net) →
          Answers (.signalResponse t w 0) s ((progress s).modTile t (fun ts => { ts with sigs := ts.sigs.erase x })))
  ∧ (∀ (s : State) (t : Tile) (o : RfOp),
      let a := (s.g t o.gA).toNat
      let b := (s.g t o.gB).toNat
      let c := o.fn.toNat % 64
      (Runs s t [o.gD, o.gA, o.gB] o.pG → s.hmode t = false → o.fn.toNat < 48 → a < 2 ^ 16 → b < 2 ^ 48 →
          (a ≤ syCount s t c → Answers (.syWait t o) s (sySubtract (waitIssue s t o.gD 0) t c a))
            ∧ (syCount s t c < a → syLost s t c = true → Answers (.syWait t o) s (waitIssue s t o.gD 2))
            ∧ (syCount s t c < a → syLost s t c = false → Answers (.syWait t o) s
                (request (s.modTile t (fun ts =>
                  { ts with wait := some { ctr := c, n := a, timeout := b, gD := o.gD, since := s.cycles } }))
                  t rowSync)))
        ∧ (t.toNat < s.ntiles → ∀ w, (s.tile t).wait = some w →
            let s1 := unrequest s t rowSync
            (w.timeout = 0 ∨ s.cycles < w.since + w.timeout → Answers (.syWaitTimeout t) s s)
              ∧ (w.timeout ≠ 0 → w.since + w.timeout ≤ s.cycles →
                  (chipIssues s1 = true → s.hmode t = false → syCount s t w.ctr < w.n → syLost s t w.ctr = false →
                      Answers (.syWaitTimeout t) s (waitIssue s1 t w.gD 1))
                    ∧ (chipIssues s1 = false ∨ s.hmode t = true → Answers (.syWaitTimeout t) s s1))))
  ∧ (∀ (s : State) (t : Tile),
      (∀ o : RfOp, Runs s t [o.gA] o.pG → o.gD = 0 → o.gB = 0 → o.fn = 0 → s.hmode t = false →
          let a := (s.g t o.gA).toNat
          let es := raEntries (s.tile t) a
          a % 8 = 0 → a < 0x10000 → a + 8 + 8 * min 48 (bits (memNat (s.tile t).dstore a 1) 5 0) ≤ 0x10000 →
          (raBad (s.tile t) a = false →
              (raReady s t es = true → Answers (.syRealign t o .ok) s (raAct s t a))
                ∧ (raReady s t es = false → Answers (.syRealign t o .ok) s
                    (request (s.modTile t (fun ts => { ts with realign := some (a, s.cycles) })) t rowSync)))
            ∧ (raBad (s.tile t) a = true →
                Answers (.syRealign t o .ok) s (precise s t cIllegal (BitVec.ofNat 64 (o.enc 0x38))))
            ∧ Answers (.syRealign t o .corrected) s (withhold s t rowEcc .passing)
            ∧ Answers (.syRealign t o .uncorrectable) s (storeUe s t 1 (a / 8)))
        ∧ (t.toNat < s.ntiles → ∀ x, (s.tile t).realign = some x →
            let s1 := unrequest s t rowSync
            (s.cycles < x.2 + 65536 → Answers (.realignTimeout t) s s)
              ∧ (x.2 + 65536 ≤ s.cycles → chipIssues s1 = true → s.hmode t = false →
                  Answers (.realignTimeout t) s (raAct s1 t x.1)))
        ∧ (t.toNat < s.ntiles → 2 ^ 21 ≤ rd s (syPg t) sy_ISSUE → Answers (.realignOverdue t) s
            (logReq s 2 0x0006 (syPg t) (b2 t.toNat ++ b4 (rd s (syPg t) sy_ISSUE)))))

/-- R249, R251: a sy.tack that its line accepts sets PEND, waits for it, or both; one that the line does not accept raises
the SYNC cause. R168, R170 and R194: a guard of 0 leaves only the issue cycle, a reserved field raises ILLEGAL and the
handler PRIV. What a PEND that is set changes is that bit and, on a bolt-scope line, the TACK that leaves by a port.

R248, R252 and R253: a line completes when its condition holds, which takes every participant's PEND on an unbroken line:
its PEND bits clear and GEN advances modulo 256, and before that nothing changes; the TACK of a module of the mask is kept
under its GEN, and one from outside is counted and logged; a port that carries no sequenced cells hears none (R320).

The model's choices in it are those of log entries 128 and 159. -/
def Obligations.TackLinesAndInstructions : Prop :=
  (∀ (s : State) (t : Tile) (o : TackOp), Ready s t →
      let k := o.k.toNat
      let ok := lineBroken s k = false ∧ tackPart s t k = true ∧ (o.b == 1) = lineBolt s k
      let s1 := setPend (advance s t) t k
      let waits := fun (x : State) (own : Bool) =>
        request (x.modTile t (fun ts => { ts with tackWait := some (o.k, own) })) t rowSync
      (∀ c ∈ [(Instr.syTackArrive t o, 0), (.syTackWait t o, 1), (.syTackArriveWait t o, 2)],
          (s.p t o.pG = false → Answers c.1 s (advance s t))
            ∧ (s.p t o.pG = true → o.rsv1 ≠ 0 ∨ o.rsv2 ≠ 0 →
                Answers c.1 s (precise s t cIllegal (BitVec.ofNat 64 (o.enc c.2))))
            ∧ (s.p t o.pG = true → o.rsv1 = 0 → o.rsv2 = 0 → s.hmode t = true →
                Answers c.1 s (precise s t cPriv (BitVec.ofNat 64 (o.enc c.2))))
            ∧ (s.p t o.pG = true → o.rsv1 = 0 → o.rsv2 = 0 → s.hmode t = false → ¬ ok → Answers c.1 s (tackCause s t k)))
        ∧ (s.p t o.pG = true → o.rsv1 = 0 → o.rsv2 = 0 → s.hmode t = false → ok →
            (tackPend s t k = false →
                Answers (.syTackArrive t o) s s1 ∧ Answers (.syTackWait t o) s (advance s t)
                  ∧ Answers (.syTackArriveWait t o) s (waits s1 false))
              ∧ (tackPend s t k = true →
                Answers (.syTackWait t o) s (waits s true) ∧ Answers (.syTackArrive t o) s (tackCause s t k)
                  ∧ Answers (.syTackArriveWait t o) s (tackCause s t k)))
        ∧ tackPend s1 t k = true ∧ (∀ u j, j < 16 → (u, j) ≠ (t, k) → tackPend s1 u j = tackPend s u j)
        ∧ (s1.tile t).pc = (s.tile t).pc + 1 ∧ (∀ r, s1.g t r = s.g t r) ∧ (∀ i, s1.p t i = s.p t i)
        ∧ (s1.tile t).dstore = (s.tile t).dstore ∧ (∀ u, u ≠ t → s1.tile u = s.tile u)
        ∧ s1.spool = s.spool ∧ s1.lp = s.lp ∧ s1.flash = s.flash ∧ s1.net = s.net
        ∧ (lineBolt s k = false → s1.ports = s.ports))
  ∧ (∀ (s : State) (k : BitVec 4),
      let s1 := completeLine s k.toNat
      (lineReady s k.toNat = true → lineBroken s k.toNat = false
          ∧ ∀ t : Tile, tackPart s t k.toNat = true → tackPend s t k.toNat = true)
        ∧ (lineReady s k.toNat = false → Answers (.tackLineComplete k) s s)
        ∧ (lineReady s k.toNat = true → s.xfer = none ∨ k ≠ 0 → Answers (.tackLineComplete k) s s1)
        ∧ (∀ x, lineReady s k.toNat = true → s.xfer = some x → k = 0 → Answers (.tackLineComplete k) s (finishLoad s1 x))
        ∧ (∀ t : Tile, tackPend s1 t k.toNat = false
            ∧ ∀ j < 16, j ≠ k.toNat → tackPend s1 t j = tackPend s t j)
        ∧ rdi s1 tkPg tk_LINE_GEN k.toNat = (rdi s tkPg tk_LINE_GEN k.toNat + 1) % 256
        ∧ (∀ j < 16, j ≠ k.toNat → rdi s1 tkPg tk_LINE_GEN j = rdi s tkPg tk_LINE_GEN j) ∧ SameMem s s1)
  ∧ ∀ (s : State) (k : BitVec 4) (m : BitVec 3) (gen : BitVec 8), (∀ p h d, .pkt p h d ∉ s.net) →
      let q := routePort s 64 (boltPort s m.toNat 0)
      (portUp s q = true → rd s (lkPg q) lk_CFG_FOREIGN = 0 →
          (lineBolt s k.toNat = true → m.toNat ∈ linePeers s k.toNat → Gives (.tack m k gen) s fun s' =>
              (smGet (fun _ => (0 : BitVec 8)) s'.tackGot (k.toNat * 256 + gen.toNat)).getLsbD m.toNat = true
                ∧ s'.regs = s.regs ∧ SameMem s s')
            ∧ (lineBolt s k.toNat = false ∨ m.toNat ∉ linePeers s k.toNat → Answers (.tack m k gen) s
                (logReq (inc (progress s) tkPg tk_STRAY 1) 2 0x0008 tkPg (b1 k.toNat ++ b1 m.toNat))))
        ∧ (portUp s q = false → Answers (.tack m k gen) s s)

/-- R256 and R258: mb.send posts 64 bytes of the data store; mb.recv takes the oldest message it may take into the data
store, with its stamp and a predicate of 1, and answers 0 when there is none.

R240, R255 to R262: a message for a tile that is not OFF and has a free slot takes the lowest one (the fourth is kept
from tiles), with the module of its port in the stamp; one for the management core joins its slots. A status reaches the
oldest mb.send of the tile to that target.

R260: a doorbell rings a sleeping tile, and the tile then wakes at the next program stitch.

The model's choices in it are those of log entry 13. -/
def Obligations.MailboxesAndDoorbells : Prop :=
  (∀ (s : State) (t : Tile) (o : RfOp),
      (Runs s t [o.gD, o.gA, o.gB] o.pG → o.fn = 0 →
          let w := s.g t o.gA
          let b := (s.g t o.gB).toNat
          wordRsv w.toNat = false → b % 64 = 0 → b < 0x10000 →
          Answers (.mbSend t o .corrected) s (withhold s t rowEcc .passing)
            ∧ Answers (.mbSend t o .uncorrectable) s (storeUe s t 1 (b / 8)) ∧
          Answers (.mbSend t o .ok) s (post ((advance s t).modTile t (fun ts => { ts with sends := ts.sends ++ [(w, o.gD, s.hmode t)] }))
            (.mbox (tileStamp s t) w (memRead (s.tile t).dstore b 64) false)))
        ∧ (Runs s t [o.gD, o.gA] o.pG → o.gB = 0 → o.fn.toNat < 8 →
            let a := (s.g t o.gA).toNat
            let pD := BitVec.ofNat 3 o.fn.toNat
            a % 64 = 0 → a < 0x10000 →
            (∀ x, recvMsg (s.tile t) (s.hmode t) = some x → Gives (.mbRecv t o) s fun s' =>
                (s'.tile t).slots = (s.tile t).slots.erase x
                  ∧ (∀ i, memByte (s'.tile t).dstore i = if a ≤ i ∧ i < a + 64 then (padTo 64 x.2.data).getD (i - a) 0
                      else memByte (s.tile t).dstore i)
                  ∧ s'.g t o.gD = (if o.gD = 0 then 0 else x.2.stamp.setWidth 64) ∧ s'.p t pD = true
                  ∧ (s'.tile t).pc = (s.tile t).pc + 1 ∧ s'.spool = s.spool ∧ s'.lp = s.lp)
              ∧ (recvMsg (s.tile t) (s.hmode t) = none → Answers (.mbRecv t o) s
                  (((advance s t).modTile t (fun ts => ts.writeP pD false)).setG t o.gD 0))))
  ∧ (∀ (s : State) (port : Option (BitVec 6)) (stamp : W32) (w : BitVec 64) (data : List Byte),
      wordModule w.toNat = s.module → mailTurn s port stamp w data false = true →
      (∀ p, port = some p → rd s (lkPg p.toNat) lk_CFG_FOREIGN = 0) →
      let st := stampAt s port stamp
      (∀ n, wordDest w.toNat = false → wordTile w.toNat < s.ntiles →
          let t : Tile := BitVec.ofNat 11 (wordTile w.toNat)
          s.tileOff t = false → freeSlot (s.tile t) = some n →
          (st.toNat / 2 ^ 30 = 0 → ((s.tile t).slots.filter (fun x => !x.2.nonTile)).length < 3) →
          Gives (.mailbox port stamp w data false) s fun s' =>
            (s'.tile t).slots = (s.tile t).slots ++ [(n, { stamp := st, data := data })] ∧ s'.spool = s.spool ∧ s'.lp = s.lp)
        ∧ (wordDest w.toNat = true → s.mgmtBox.length < 56 →
            Gives (.mailbox port stamp w data false) s fun s' => s'.mgmtBox = s.mgmtBox ++ [{ stamp := st, data := data }])
        ∧ (∀ (t : Tile) (w : BitVec 64) (st : BitVec 3) (x : W64 × BitVec 5 × Bool), t.toNat < s.ntiles →
            (s.tile t).sends.find? (fun y => y.1 == w) = some x → (∀ r, .mboxRsp t w r ∉ s.net) →
            Gives (.mailboxResponse t w st) s fun s' => (s'.tile t).sends = (s.tile t).sends.erase x
              ∧ (s'.tile t).readG x.2.2 x.2.1 = (if x.2.1 = 0 then 0 else BitVec.ofNat 64 st.toNat)
              ∧ (s'.tile t).dstore = (s.tile t).dstore ∧ s'.regs = s.regs ∧ s'.spool = s.spool ∧ s'.lp = s.lp))
  ∧ (∀ (s : State) (t : Tile), t.toNat < s.ntiles → rd s (tlPg t) tl_STATUS_SLEEP = 1 →
      (Gives (.wake t) s fun s' => (s'.tile t).rung = true ∧ (s'.tile t).dstore = (s.tile t).dstore
          ∧ s'.spool = s.spool ∧ s'.lp = s.lp)
        ∧ ((s.tile t).rung = true → s.tileOff t = false → Gives (.tileWake t) s fun s' =>
            rd s' (tlPg t) tl_STATUS_SLEEP = 0 ∧ rd s' (tlPg t) tl_STATUS_RUNNING = 1
              ∧ (s'.tile t).issued = s.nextStitch * s.stitchW ∧ (s'.tile t).g = (s.tile t).g
              ∧ (s'.tile t).dstore = (s.tile t).dstore ∧ s'.spool = s.spool ∧ s'.lp = s.lp))

/-- R287 and R288: in its turn among the requests of its source to the line, an LSE_READ of good LPDDR5X of this module answers its bytes and OK; an LSE_WRITE stores its bytes and
no other; both for a tile of this module outside the twin-keep region, with no fail-safe.

R269, R270 and R284: an LSE_WRITE of 8 or 64 bytes to a spool of this module stores them at the physical tile of the
map, and the LSE_READ of the same address then answers them.

R275, R276 and R274: the scrub of a powered spool counts a corrected word and fences the tile of an uncorrectable one;
R281: a refresh report sets the package's rate code and DERATE and counts the requests that waited.

R280 and R273: a read that meets a line or a word with a correctable error answers the bytes, counts the correction and
leaves the error no more.

The model's choices in it are those of log entries 13, 31, 32 and 164. -/
def Obligations.MemoryIsServed : Prop :=
  (∀ (s : State) (t : Tile) (addr : BitVec 48) (tag : Nat), modOf addr.toNat = s.module → s.failSafe = none →
      let me := Party.tile (BitVec.ofNat 3 s.module) t
      let a := locOf addr.toNat
      a < 0x8000000000 → (s.tile t).off = false →
      (∀ size, inKeep s a size = false → lseTurn s me addr.toNat (isRead me addr size tag) = true →
          (LpGood s a size →
              Gives (.lseRead me addr size tag .ok) s fun s' => .lseRsp me tag 0 (memRead s.lp a size) ∈ s'.net
                ∧ s'.lp = s.lp ∧ s'.spool = s.spool ∧ s'.regs = s.regs)
            ∧ ∀ l, lpIsBad s a size = false → s.lpWeak.filter (lpTouch a size) = [l] →
              Gives (.lseRead me addr size tag .ok) s fun s' => .lseRsp me tag 0 (memRead s.lp a size) ∈ s'.net
                ∧ rd s' (lpPgOf (l * 64)) lp_CE_CNT = min (rd s (lpPgOf (l * 64)) lp_CE_CNT + 1) lp_CE_CNT.max
                ∧ l ∉ s'.lpWeak ∧ s'.lp = s.lp ∧ s'.spool = s.spool)
        ∧ (∀ data, data.length = 4 ∨ data.length = 8 ∨ data.length = 64 → s.lull = false → LpGood s a data.length →
            inKeep s a data.length = false → lseTurn s me addr.toNat (isWrite me addr data tag) = true →
            Gives (.lseWrite me addr data tag .ok) s fun s' => .lseRsp me tag 0 [] ∈ s'.net
              ∧ (∀ x, memByte s'.lp x = if a ≤ x ∧ x < a + data.length then data.getD (x - a) 0 else memByte s.lp x)
              ∧ s'.spool = s.spool ∧ s'.regs = s.regs))
  ∧ (∀ (s : State) (src : Party) (a t o : Nat) (data : List Byte), decodeAddr s a = .spool t o →
      data.length = 8 ∨ data.length = 64 → o % 8 = 0 → s.tileOff (BitVec.ofNat 11 t) = false →
      let w := serveWrite s src a data .ok
      w.1 = rOK ∧ (∀ x, memByte w.2.spool x =
          if spKey (s.ptile t) o ≤ x ∧ x < spKey (s.ptile t) o + data.length then data.getD (x - spKey (s.ptile t) o) 0
          else memByte s.spool x)
        ∧ w.2.lp = s.lp ∧ (serveRead w.2 src a data.length .ok).1 = rOK
        ∧ (serveRead w.2 src a data.length .ok).2.1 = data)
  ∧ (∀ (s : State),
      (∀ (p off : Nat) (synd : BitVec 8) (t : Nat), p < 1152 → off < 0x500000 → rd s stPg st_SCRUB_EN = 1 →
          s.ltile p = some t → SpGood s p (off / 64 * 64) 64 →
          Answers (.scrub p off .corrected synd) s (spoolCorrect s p off portScrub (some synd))
            ∧ Answers (.scrub p off .uncorrectable synd) s
                (fenceTile (spoolUe { s with spoolBad := s.spoolBad ++ [p * 0x100000 + off / 8] } p off portScrub (some synd))
                  (BitVec.ofNat 11 t)))
        ∧ ∀ (pkg : BitVec 4) (rate : BitVec 8) (d : Bool) (waits : Nat),
            let n := lpPg (pkg.toNat / 4)
            let k := pkg.toNat % 4
            Gives (.refresh pkg rate d waits) s fun s' =>
              bits (rd s' n lp_REF_RATE) (8 * k + 7) (8 * k) = rate.toNat ∧ rd s' n lp_DERATE = b2n d
                ∧ rd s' n lp_REF_WAITS = min (rd s n lp_REF_WAITS + waits) lp_REF_WAITS.max
                ∧ (d = true → bit (regW s' n pg_FAULT.off) lp_F_HOT.lo = true) ∧ s'.lp = s.lp ∧ s'.spool = s.spool)

/-! ### Programs, stitches and loss -/

/-- R166 and R236: a program start of a tile that is not OFF sets RUNNING, begins at index 0 in user mode with g1 to g31 at
0 and p1 to p7 at 0, and zeroes the counters of its SY block with their LOST flags.

R206 and R207: a running tile raises a request of a row of R208; while a request stands no tile outside handler mode
issues; the resumption drops the requests whose condition has cleared, and no other. R193: the hold of a handler stands.

R263 and R264: at the end of a doldrums window of 2^WEXP cycles the DL block captures the stall rows, the lowest stalled
tile and its index, counts the episode and logs it, once per episode.

The model's choices in it are those of log entries 12 and 42. -/
def Obligations.ProgramsStartAndStall : Prop :=
  (∀ (s : State) (t : Tile), t.toNat < s.ntiles → s.tileOff t = false →
      Gives (.programStart t) s fun s' =>
        (s'.tile t).pc = 0 ∧ (∀ r, s'.g t r = 0) ∧ (∀ i : BitVec 3, i ≠ 0 → s'.p t i = false)
          ∧ rd s' (tlPg t) tl_STATUS_RUNNING = 1 ∧ rd s' (tlPg t) tl_STATUS_HALTED = 0 ∧ s'.hmode t = false
          ∧ (∀ c < 48, syCount s' t c = 0 ∧ rdi s' (syPg t) sy_PC_PROD_CNT c = 0 ∧ rdi s' (syPg t) sy_PC_CONS_CNT c = 0
              ∧ rdi s' (syPg t) sy_OWN_LOST c = 0)
          ∧ s'.spool = s.spool ∧ s'.lp = s.lp ∧ s'.flash = s.flash)
  ∧ ((∀ (s : State) (t : Tile) (row : BitVec 4), t.toNat < s.ntiles → row.toNat ≤ 10 → rd s (tlPg t) tl_STATUS_RUNNING = 1 →
        Gives (.globalStall t row) s fun s' => (t, row.toNat) ∈ s'.netReq ∧ (∀ r ∈ s.netReq, r ∈ s'.netReq)
          ∧ (∀ u, s'.hmode u = false → canIssue s' u = false) ∧ s'.tiles = s.tiles ∧ s'.regs = s.regs ∧ s'.spool = s.spool
          ∧ s'.lp = s.lp)
      ∧ ∀ s : State,
          let s1 := { s with netReq := s.netReq.filter (fun r => !rowOver s r) }
          (chipIssues s1 = false ∨ (∀ t, (s.tile t).wait = none ∧ (s.tile t).realign = none ∧ (s.tile t).tackWait = none) →
              Answers .stallResume s s1)
            ∧ (∀ t, s.hmode t = true → (t, rowTrap) ∈ s.netReq → (t, rowTrap) ∈ s1.netReq)
            ∧ (∀ t row h, (t, row) ∈ s.netReq → row ≤ rowDma → (s.tile t).held = some (row, h) → holdOver s t h = false →
                (t, row) ∈ s1.netReq)
            ∧ (∀ t row, row ≤ rowDma → (s.tile t).held = none → (t, row) ∉ s1.netReq))
  ∧ (∀ (s : State) (t : Tile) (ts : List Tile), stallTiles s = t :: ts → rd s dlPg dl_ENABLE = 1 →
      (s.dlFired = false → 2 ^ rd s dlPg dl_WEXP ≤ s.dlCount → Gives .doldrums s fun s' =>
          s'.dlFired = true ∧ rd s' dlPg dl_TILE = t.toNat ∧ rd s' dlPg dl_STALL_SRC = stallRows s
            ∧ rd s' dlPg dl_EPISODES = min (rd s dlPg dl_EPISODES + 1) dl_EPISODES.max
            ∧ Logs s s' 2 0x0009 dlPg (b2 (stallRows s) ++ b2 t.toNat ++ b2 (s.tile t).pc.toNat)
            ∧ s'.tiles = s.tiles ∧ s'.netReq = s.netReq ∧ s'.spool = s.spool ∧ s'.lp = s.lp)
        ∧ (s.dlFired = true ∨ s.dlCount < 2 ^ rd s dlPg dl_WEXP → Answers .doldrums s s))

/-- R434, R245 and R251: fencing a tile that is not fenced sets FENCED and OFF, stops its issue, drops its work and its stall
requests, breaks every tack line that it takes part in and sends the LOST notice; a fenced tile is not fenced again.

R245 and R253: a LOST notice marks LOST on every counter whose owner word names the party; LOST(m, all) also breaks the
bolt-scope lines and aborts the collectives that the module belongs to.

The model's choices in it are those of log entry 36. -/
def Obligations.FencesAndLoss : Prop :=
  (∀ (s : State) (t : Tile), t.toNat < s.ntiles →
      (rd s (tlPg t) tl_STATUS_FENCED = 0 →
          Gives (.fence t) s fun s' => rd s' (tlPg t) tl_STATUS_FENCED = 1 ∧ rd s' (tlPg t) tl_STATUS_RUNNING = 0
            ∧ (s'.tile t).off = true ∧ (s'.tile t).causes = [] ∧ (s'.tile t).dma = [] ∧ (∀ r ∈ s'.netReq, r.1 ≠ t)
            ∧ (∀ k < 16, tackPart s t k = true → lineBroken s' k = true)
            ∧ .lost (BitVec.ofNat 3 s.module) (some t) ∈ s'.net ∧ s'.spool = s.spool ∧ s'.lp = s.lp)
        ∧ (rd s (tlPg t) tl_STATUS_FENCED = 1 → Answers (.fence t) s s))
  ∧ (∀ (s : State) (m : BitVec 3) (u : Tile), (∀ x, .lost m x ∉ s.net) →
      let s0 := progress s
      Answers (.lostNotice m (some u)) s (markLost s0 m.toNat (some u))
        ∧ Answers (.lostNotice m none) s
            (abortWhere (breakLinesOf (markLost s0 m.toNat none) m.toNat)
              (cxHasModule (markLost s0 m.toNat none) m.toNat) 0))

/-- R356: a boundary cycle is the first CCLK cycle at or after B(h); R213 and R217: a due rest stitch counts in Q and is
taken from the agreed list, and a due program stitch opens the next stitch of issue.

R214, R215 and R356: once the boundary cycle that was passed has come, and not before, a chip that keeps up records the
hall index, clears BEHIND and sends nothing.

R216 and R217: the first HOLD for an index from a job port raises N of that index, agrees the missing rest stitches and
is forwarded on every other job port; a later copy whose n is not larger is discarded, as is one for an index more than
three beyond the current one.

The model's choices in it are those of log entry 43. -/
def Obligations.StitchesRunAndHold : Prop :=
  (∀ (s : State),
      (∀ t0, s.t0 = some t0 → 0 < s.rate →
          let due := 2 * (boundaryOf t0 (nextHall s) * 2 ^ 32) - hallTwice s
          Gives .passBoundary s fun s' => ∃ c, s'.passed = some c ∧ s.cycles ≤ c ∧ due ≤ (c - s.cycles) * s.rate
            ∧ (∀ d, d < c - s.cycles → d * s.rate < due) ∧ s'.regs = s.regs ∧ s'.tiles = s.tiles)
        ∧ (restDue s = true → restCount s + 1 < 2 ^ 64 → Gives .restStitch s fun s' =>
            restCount s' = restCount s + 1 ∧ s'.resting = true ∧ s'.rests = takeRest (hallStitch s) s.rests
              ∧ s'.tiles = s.tiles ∧ s'.spool = s.spool ∧ s'.lp = s.lp)
        ∧ (stitchDue s = true → Gives .programStitchStart s fun s' => s'.nextStitch = s.nextStitch + 1
            ∧ s'.spool = s.spool ∧ s'.lp = s.lp ∧ s'.net = s.net))
  ∧ (∀ s : State, s.t0.isSome = true →
      (∀ c, s.passed = some c → c ≤ s.cycles → programRuns s = false → nextHall s < 2 ^ 64 → Gives .stitchBoundary s fun s' =>
          hallStitch s' = nextHall s ∧ s'.begun = true ∧ s'.resting = false ∧ s'.stitchStall = 0 ∧ s'.passed = none
            ∧ rd s' gsPg gs_BEHIND = 0 ∧ rd s' gsPg gs_DEFICIT = 0 ∧ s'.net = s.net ∧ s'.rests = s.rests
            ∧ s'.tiles = s.tiles ∧ s'.spool = s.spool ∧ s'.lp = s.lp)
        ∧ ((∀ c, s.passed = some c → s.cycles < c) → Answers .stitchBoundary s s))
  ∧ (∀ (s : State) (port : BitVec 6) (h : BitVec 32) (n : BitVec 4), s.net = [] → rd s (lkPg port.toNat) lk_CFG_FOREIGN = 0 →
      let i := holdIndex s h.toNat
      (holdKnown s i < n.toNat → i ≤ hallStitch s + 3 → s.begun = false →
          Answers (.hold port h n) s (floodHold (agreeRest (keepHold s i n.toNat) i n.toNat) h.toNat n.toNat (some port.toNat)))
        ∧ (n.toNat ≤ holdKnown s i ∨ hallStitch s + 3 < i → Answers (.hold port h n) s s)
        ∧ ∀ (x : State) (m : Nat), smGet (fun _ => 0) (agreeRest x i m).holdN i = max (smGet (fun _ => 0) x.holdN i) m
            ∧ restsAhead (agreeRest x i m) = restsAhead x + (m - smGet (fun _ => 0) x.holdN i))

/-! ### The grid and the matrix engine -/

/-- R69: grid_add adds values modulo 2^96 and tallies up to 0xFFFF_FFFE, the invalid tally absorbs every other one, and the
operation is associative and commutative in both layouts, so that any tree, chain or split of additions over the same
terms gives the same word. -/
def Obligations.GridAdditionIsOrderFree : Prop :=
  (∀ x y : Nat, gTally 0 x ≠ 0xFFFFFFFF → gTally 0 y ≠ 0xFFFFFFFF →
      gVal 0 (gridAdd 0 x y) = (gVal 0 x + gVal 0 y) % 2 ^ 96
        ∧ gTally 0 (gridAdd 0 x y) = min (gTally 0 x + gTally 0 y) 0xFFFFFFFE)
    ∧ (∀ x y : Nat, gTally 0 x = 0xFFFFFFFF ∨ gTally 0 y = 0xFFFFFFFF → gTally 0 (gridAdd 0 x y) = 0xFFFFFFFF)
    ∧ ∀ lay < 2, (∀ x y : Nat, gridAdd lay x y = gridAdd lay y x)
      ∧ (∀ x y z : Nat, gridAdd lay (gridAdd lay x y) z = gridAdd lay x (gridAdd lay y z))
      ∧ ∀ (l m : List Nat) (x : Nat), l.Perm m → l.foldl (gridAdd lay) x = m.foldl (gridAdd lay) x

/-- R71 and R72: a group that does not overflow is done; one that does is raised by 16 with the next attempt while ATTEMPT
is below 4 and the raise stays at or below 0x7FFF, and is exhausted otherwise.

R149 and R150: vx.gcomb adds a partial packet of the accumulator's group, attempt and hem and counts it, discards a stale
one, makes the group invalid on another hem, and raises MX_STATE for a packet that does not fit or that is of a later attempt.

R151: vx.gdec, when the partials of its list are in, decides the group, applies the decision to the accumulator and sends
it to the listed tiles; another count of partials, or an accumulator that is not OPEN with SCOPE LOCAL, raises MX_STATE,
and a bad list address ADDR (log entry 123).

The model's choices in it are those of log entries 7, 29, 41 and 123. -/
def Obligations.GridRaisesAndDecides : Prop :=
  (∀ hem attempt : Nat, gridDecide false hem attempt = (.done, hem, attempt)
      ∧ (attempt < 4 → hemInt hem + 16 ≤ 0x7FFF →
          (gridDecide true hem attempt).1 = .raise ∧ hemInt (gridDecide true hem attempt).2.1 = hemInt hem + 16
            ∧ (gridDecide true hem attempt).2.2 = attempt + 1)
      ∧ (4 ≤ attempt ∨ 0x7FFF < hemInt hem + 16 → (gridDecide true hem attempt).1 = .exhausted))
  ∧ (∀ (s : State) (t : Tile), SpClean s →
      (∀ o : VgcombOp, Executes s t .vx [] [o.gA] → o.rsv = 0 →
          let n := o.aD.toNat
          let a := (s.g t o.gA).toNat
          let p := s.ptile t.toNat
          let lay := accLay s t n
          let h := partialHdr (memRead s.spool (spKey p a) 64)
          partialFits s t n h = true → a + 64 + h.count * gBytes lay ≤ 0x500000 →
          (h.attempt = accAttempt s t n → h.hem = accHem s t n → Gives (.vxGcomb t o none .ok) s fun s' =>
              (∀ i < h.count, (s'.tile t).readAcc n (h.first + i) = gridAdd lay ((s.tile t).readAcc n (h.first + i))
                  (memNat s.spool (spKey p (a + 64 + i * gBytes lay)) (gBytes lay)) % 2 ^ 128)
                ∧ rdi s' (vxPg t) vx_ACC_PCNT n = min (rdi s (vxPg t) vx_ACC_PCNT n + 1) 127
                ∧ s'.spool = s.spool ∧ s'.lp = s.lp ∧ (s'.tile t).pc = (s.tile t).pc + 1)
            ∧ (h.attempt < accAttempt s t n → Answers (.vxGcomb t o none .ok) s (inc (issuedTo s t .vx) (vxPg t) vx_STALE 1))
            ∧ (h.attempt = accAttempt s t n → h.hem ≠ accHem s t n → Gives (.vxGcomb t o none .ok) s fun s' =>
                (∀ i < 4096, (s'.tile t).readAcc n i = gInvalid lay)
                  ∧ Logs s s' 3 0x0403 (vxPg t) (leBytes 3 h.gid ++ b2 (accHem s t n) ++ b2 h.hem)
                  ∧ s'.spool = s.spool ∧ s'.lp = s.lp ∧ (s'.tile t).pc = (s.tile t).pc + 1)
            ∧ (accAttempt s t n < h.attempt → Answers (.vxGcomb t o none .ok) s
                (vxTrap (issuedTo s t .vx) t cState (s.tile t).pc.toNat o.enc)))
        ∧ (∀ o : VgcombOp, Executes s t .vx [] [o.gA] → o.rsv = 0 →
            let a := (s.g t o.gA).toNat
            (0x500000 < a + 64 → Answers (.vxGcomb t o none .ok) s (vxTrap (issuedTo s t .vx) t cAddr (s.tile t).pc.toNat o.enc))
              ∧ (a + 64 ≤ 0x500000 → partialFits s t o.aD.toNat (partialHdr (memRead s.spool (spKey (s.ptile t.toNat) a) 64)) = false →
                Answers (.vxGcomb t o none .ok) s (vxTrap (issuedTo s t .vx) t cState (s.tile t).pc.toNat o.enc)))
        ∧ ∀ o : VgdecOp, Executes s t .vx [] [o.gL] → o.rsv = 0 →
            let n := o.aD.toNat
            let a := (s.g t o.gL).toNat
            let p := s.ptile t.toNat
            let k := memNat s.spool (spKey p a) 2
            let d := gridDecide (accOver s t n) (accHem s t n) (accAttempt s t n)
            let tiles := (List.range k).map (fun i => memNat s.spool (spKey p (a + 2 + 2 * i)) 2)
            let fits := 1 ≤ k ∧ k ≤ 64 ∧ rdi s (vxPg t) vx_ACC_PCNT n = k ∧ accState s t n = accOpen ∧ accScope s t n = 0
            (spoolOk64 a 130 = false →
                Answers (.vxGdec t o .ok) s (vxTrap (issuedTo s t .vx) t cAddr (s.tile t).pc.toNat o.enc))
              ∧ (spoolOk64 a 130 = true → ¬ fits → Answers (.vxGdec t o .ok) s (vxTrap (issuedTo s t .vx) t cState (s.tile t).pc.toNat o.enc))
              ∧ (spoolOk64 a 130 = true → fits → Gives (.vxGdec t o .ok) s fun s' =>
                s'.net = s.net ++ (tiles.filter (· < s.ntiles)).map (fun x =>
                    .decision (BitVec.ofNat 11 x) (BitVec.ofNat 24 (accGroup s t n)) d.1 (BitVec.ofNat 16 d.2.1)
                      (BitVec.ofNat 3 (accAttempt s t n)))
                  ∧ rdi s' (vxPg t) vx_ACC_PCNT n = 0 ∧ readU s' t o.uD.toNat = gdecU d.1 d.2.2 d.2.1 % 2 ^ 64
                  ∧ (d.1 = .done → accState s' t n = accDone ∧ ∀ i, (s'.tile t).readAcc n i = (s.tile t).readAcc n i)
                  ∧ (d.1 = .raise → accState s' t n = accOpen ∧ hemInt (accHem s' t n) = hemInt (accHem s t n) + 16
                      ∧ accAttempt s' t n = accAttempt s t n + 1 ∧ ∀ i < 4096, (s'.tile t).readAcc n i = 0)
                  ∧ (d.1 = .exhausted → accState s' t n = accDone
                      ∧ ∀ i < 4096, (s'.tile t).readAcc n i = gInvalid (accLay s t n))
                  ∧ s'.spool = s.spool ∧ s'.lp = s.lp ∧ (s'.tile t).pc = (s.tile t).pc + 1))

/-- R106: mx.open of an idle or done accumulator zeroes its words, opens it with attempt 0 and the layout, scope and group
of the instruction, takes HEM from gS, or by hem_start from two tracker entries or from two exponents, as HSRC says, drops a
latched decision and keeps the next index as its restart; R105: mx.drop makes it idle, and an open of an open accumulator
raises MX_STATE.

R105, R107 and R108: mx.close with SCOPE LOCAL acts on the group's own overflow: done, raised or exhausted; with SCOPE PART,
from OPEN or CLOSING, it acts on a latched decision or waits for one; in any other state it raises MX_STATE. A decision of
the group's attempt resolves the close that waits, or is latched by the open accumulator; one of another attempt, one for
an idle or done accumulator and one that names no accumulator are dropped and counted. R114: a disturbance that the read-out
of a close with SCOPE LOCAL detects is the residue fault.

R95, R100: while an engine works an MXE instruction waits in the engine's queue of four, and a full queue withholds it.

The model's choices in it are those of log entries 7, 29 and 120. -/
def Obligations.MatrixOpensAndCloses : Prop :=
  (∀ (s : State) (t : Tile),
      (∀ o : OpenOp, Executes s t .mx [] [o.gS, o.gT] → o.rsv = 0 → o.hsrc ≠ 3 →
          let n := o.aD.toNat
          let g := (s.g t o.gS).toNat
          (accState s t n = accIdle ∨ accState s t n = accDone → Gives (.mxOpen t o) s fun s' =>
              accState s' t n = accOpen ∧ accAttempt s' t n = 0 ∧ accLay s' t n = o.layout.toNat
                ∧ accScope s' t n = o.scope.toNat
                ∧ accHem s' t n = (openHem s t o.hsrc.toNat o.layout.toNat o.h.toInt g).1
                ∧ (o.hsrc = 0 → accHem s' t n = g % 2 ^ 16)
                ∧ (o.hsrc = 1 → accHem s' t n = encInt 16 (hemStart (trackExp s t (bits g 11 0)).1
                    (trackExp s t (bits g 23 12)).1 (bits g 48 24) o.h.toInt o.layout.toNat))
                ∧ (o.hsrc = 2 → accHem s' t n
                    = encInt 16 (hemStart (signed 16 g) (signed 16 (bits g 31 16)) (bits g 56 32) o.h.toInt o.layout.toNat))
                ∧ accGroup s' t n = (s.g t o.gT).toNat % 2 ^ 24 ∧ accDecKind s' t n = 0
                ∧ rdi s' (mxPg t) mx_ACC_RESTART n = ((s.tile t).pc.toNat + 1) % 2 ^ 14
                ∧ (∀ i < 4096, (s'.tile t).readAcc n i = 0)
                ∧ (∀ m i, m ≠ n → m < 4 → i < 4096 → (s'.tile t).readAcc m i = (s.tile t).readAcc m i)
                ∧ OtherAccs s s' t n ∧ MatrixFrame s s' t
                ∧ (s'.tile t).pc = (s.tile t).pc + 1 ∧ s'.spool = s.spool ∧ s'.lp = s.lp)
            ∧ (accState s t n = accOpen ∨ accState s t n = accClosing →
                Answers (.mxOpen t o) s (mxTrap (issuedTo s t .mx) t cState (s.tile t).pc.toNat o.enc)))
        ∧ ∀ o : DropOp, Executes s t .mx [] [] → o.rsv = 0 → Gives (.mxDrop t o) s fun s' => accState s' t o.aD.toNat = accIdle
            ∧ accDecKind s' t o.aD.toNat = 0 ∧ (s'.tile t).acc = (s.tile t).acc
            ∧ (∀ i, (s'.tile t).readAcc o.aD.toNat i = (s.tile t).readAcc o.aD.toNat i)
            ∧ OtherAccs s s' t o.aD.toNat ∧ MatrixFrame s s' t ∧ (s'.tile t).pc = (s.tile t).pc + 1 ∧ s'.spool = s.spool ∧ s'.lp = s.lp)
  ∧ (∀ (s : State) (t : Tile),
      let latchedHem := fun n => (smGet (fun _ => 0) (s.tile t).decHem n : BitVec 16).toNat
      let numDue := fun (s' : State) (pc : Nat) => s.hasProgram t = true →
        ∃ c ∈ (s'.tile t).causes, c.code = cNum ∧ c.src = 1 ∧ c.kind = .deferred ∧ c.pc = pc
      (∀ o : CloseOp, Executes s t .mx [] [o.gD] → o.rsv = 0 →
          let n := o.aD.toNat
          let pc := (s.tile t).pc.toNat
          (accScope s t n = 0 → accState s t n = accOpen → accOver s t n = false → Gives (.mxClose t o none) s fun s' =>
              accState s' t n = accDone ∧ s'.g t o.gD = (if o.gD = 0 then 0 else BitVec.ofInt 64 (hemInt (accHem s t n)))
                ∧ (∀ i, (s'.tile t).readAcc n i = (s.tile t).readAcc n i) ∧ (s'.tile t).pc = (s.tile t).pc + 1
                ∧ (∀ r, r ≠ o.gD → s'.g t r = s.g t r) ∧ OtherAccs s s' t n ∧ MatrixRest s s' t
                ∧ s'.spool = s.spool ∧ s'.lp = s.lp)
            ∧ (∀ u : Upset, accScope s t n = 0 → accState s t n = accOpen → u.idx < 4096 → u.err % 7 ≠ 0 →
                Answers (.mxClose t o (some u)) s (mxResidue (issuedTo s t .mx) t pc))
            ∧ (accScope s t n = 0 → accState s t n = accOpen → accOver s t n = true → accAttempt s t n < 4 →
                hemInt (accHem s t n) + 16 ≤ 0x7FFF → Gives (.mxClose t o none) s fun s' =>
                accState s' t n = accOpen ∧ accAttempt s' t n = accAttempt s t n + 1
                  ∧ accHem s' t n = (accHem s t n + 16) % 2 ^ 16 ∧ (∀ i < 4096, (s'.tile t).readAcc n i = 0)
                  ∧ (s'.tile t).pc.toNat = rdi s (mxPg t) mx_ACC_RESTART n ∧ OtherAccs s s' t n ∧ MatrixFrame s s' t
                  ∧ Logs s s' 1 0x0401 (mxPg t) (leBytes 3 (accGroup s t n) ++ b2 (accHem s t n) ++ b1 (accAttempt s t n + 1))
                  ∧ s'.spool = s.spool ∧ s'.lp = s.lp)
            ∧ (accScope s t n = 0 → accState s t n = accOpen → accOver s t n = true →
                4 ≤ accAttempt s t n ∨ 0x7FFF < hemInt (accHem s t n) + 16 → Gives (.mxClose t o none) s fun s' =>
                accState s' t n = accDone ∧ s'.g t o.gD = (if o.gD = 0 then 0 else BitVec.ofInt 64 (hemInt (accHem s t n)))
                  ∧ (∀ i < 4096, (s'.tile t).readAcc n i = gInvalid (accLay s t n)) ∧ numDue s' pc
                  ∧ Logs s s' 3 0x0402 (mxPg t) (leBytes 3 (accGroup s t n) ++ b2 (accHem s t n))
                  ∧ (s'.tile t).pc = (s.tile t).pc + 1 ∧ s'.spool = s.spool ∧ s'.lp = s.lp)
            ∧ (accScope s t n = 1 → accState s t n = accOpen ∨ accState s t n = accClosing →
                (accDecKind s t n = 0 → Gives (.mxClose t o none) s fun s' =>
                    (s'.tile t).closeWait = some (o.aD, o.gD) ∧ accState s' t n = accClosing
                      ∧ (t, rowClose) ∈ s'.netReq ∧ s'.spool = s.spool ∧ s'.lp = s.lp)
                  ∧ (accDecKind s t n = 1 → Gives (.mxClose t o none) s fun s' =>
                    accState s' t n = accDone ∧ accDecKind s' t n = 0
                      ∧ s'.g t o.gD = (if o.gD = 0 then 0 else BitVec.ofInt 64 (hemInt (accHem s t n)))
                      ∧ (s'.tile t).pc = (s.tile t).pc + 1 ∧ s'.spool = s.spool ∧ s'.lp = s.lp)
                  ∧ (accDecKind s t n = 2 → Gives (.mxClose t o none) s fun s' =>
                    accState s' t n = accOpen ∧ accDecKind s' t n = 0 ∧ accHem s' t n = latchedHem n
                      ∧ accAttempt s' t n = raiseAttempt (accAttempt s t n) (rdi s (mxPg t) mx_ACC_GRP_DEC_ATTEMPT n) % 8
                      ∧ (∀ i < 4096, (s'.tile t).readAcc n i = 0)
                      ∧ (s'.tile t).pc.toNat = rdi s (mxPg t) mx_ACC_RESTART n ∧ s'.spool = s.spool ∧ s'.lp = s.lp)
                  ∧ (accDecKind s t n = 3 → Gives (.mxClose t o none) s fun s' =>
                    accState s' t n = accDone ∧ accDecKind s' t n = 0 ∧ numDue s' pc
                      ∧ s'.g t o.gD = (if o.gD = 0 then 0 else BitVec.ofInt 64 (hemInt (latchedHem n)))
                      ∧ (∀ i < 4096, (s'.tile t).readAcc n i = gInvalid (accLay s t n))
                      ∧ (s'.tile t).pc = (s.tile t).pc + 1 ∧ s'.spool = s.spool ∧ s'.lp = s.lp))
            ∧ (accState s t n = accIdle ∨ accState s t n = accDone ∨ (accScope s t n = 0 ∧ accState s t n = accClosing) →
                Answers (.mxClose t o none) s (mxTrap (issuedTo s t .mx) t cState pc o.enc)))
        ∧ (∀ (gid : BitVec 24) (kind : DecKind) (hem : BitVec 16) (a : BitVec 3), t.toNat < s.ntiles →
            .decision t gid kind hem a ∉ s.net →
            (s.tileOff t = true → Answers (.decision t gid kind hem a) s s)
              ∧ (s.tileOff t = false →
                (decAccs s t gid.toNat = [] → Answers (.decision t gid kind hem a) s (inc s (mxPg t) mx_DEC_DROP 1))
                  ∧ (decAccs s t gid.toNat ≠ [] → Answers (.decision t gid kind hem a) s
                    (forEach (decAccs s t gid.toNat) (fun n x => decideAcc x t n (decCode kind) hem.toNat a.toNat) s))
                  ∧ ∀ n, decAccs s t gid.toNat = [n] →
                    (accState s t n = accIdle ∨ accState s t n = accDone
                        ∨ sameAttempt (accAttempt s t n) (decCode kind) a.toNat = false →
                      Answers (.decision t gid kind hem a) s (inc s (mxPg t) mx_DEC_DROP 1))
                      ∧ (accState s t n = accOpen → sameAttempt (accAttempt s t n) (decCode kind) a.toNat = true →
                        (s.tile t).closeWait = none → Gives (.decision t gid kind hem a) s fun s' =>
                          accDecKind s' t n = decCode kind ∧ rdi s' (mxPg t) mx_ACC_GRP_DEC_ATTEMPT n = a.toNat
                            ∧ smGet (fun _ => 0) (s'.tile t).decHem n = hem ∧ accState s' t n = accOpen
                            ∧ (s'.tile t).g = (s.tile t).g ∧ (s'.tile t).acc = (s.tile t).acc
                            ∧ s'.spool = s.spool ∧ s'.lp = s.lp)))
        ∧ ∀ (gid : BitVec 24) (hem : BitVec 16) (a : BitVec 3) (aD : BitVec 2) (gD : BitVec 5), t.toNat < s.ntiles →
            s.tileOff t = false → decAccs s t gid.toNat = [aD.toNat] → accAttempt s t aD.toNat = a.toNat →
            accState s t aD.toNat = accClosing → (s.tile t).closeWait = some (aD, gD) →
            (∀ kind, .decision t gid kind hem a ∉ s.net) →
            (Gives (.decision t gid .done hem a) s fun s' =>
                accState s' t aD.toNat = accDone ∧ (s'.tile t).closeWait = none
                  ∧ s'.g t gD = (if gD = 0 then 0 else BitVec.ofInt 64 (hemInt (accHem s t aD.toNat)))
                  ∧ s'.spool = s.spool ∧ s'.lp = s.lp)
              ∧ (Gives (.decision t gid .raise hem a) s fun s' =>
                accState s' t aD.toNat = accOpen ∧ (s'.tile t).closeWait = none
                  ∧ accAttempt s' t aD.toNat = (a.toNat + 1) % 8 ∧ accHem s' t aD.toNat = hem.toNat
                  ∧ (∀ i < 4096, (s'.tile t).readAcc aD.toNat i = 0)
                  ∧ (s'.tile t).pc.toNat = rdi s (mxPg t) mx_ACC_RESTART aD.toNat ∧ s'.spool = s.spool ∧ s'.lp = s.lp)
              ∧ (Gives (.decision t gid .exhausted hem a) s fun s' =>
                accState s' t aD.toNat = accDone ∧ (s'.tile t).closeWait = none
                  ∧ s'.g t gD = (if gD = 0 then 0 else BitVec.ofInt 64 (hemInt hem.toNat))
                  ∧ (∀ i < 4096, (s'.tile t).readAcc aD.toNat i = gInvalid (accLay s t aD.toNat))
                  ∧ numDue s' ((s.tile t).pc.toNat - 1) ∧ s'.spool = s.spool ∧ s'.lp = s.lp))
  ∧ ∀ (s : State) (t : Tile) (o : OpenOp) (m : MmaOp) (c : CloseOp) (x : MxStOp) (l : MxLaOp) (f : LtOp) (r : SttOp)
      (g : TagOp) (d : DropOp) (u : Option Upset) (e : Ecc),
      Queues s t .mx (.mxOpen t o) [o.gS, o.gT] ∧ Queues s t .mx (.mxMma t m u) []
        ∧ Queues s t .mx (.mxClose t c u) [c.gD] ∧ Queues s t .mx (.mxSt t x u) [x.gA, x.gC, x.gD]
        ∧ Queues s t .mx (.mxLa t l e) [l.gA, l.gC] ∧ Queues s t .mx (.mxLt t f e) [f.gA, f.gP]
        ∧ Queues s t .mx (.mxStt t r e) [r.gA, r.gP] ∧ Queues s t .mx (.mxTag t g) [] ∧ Queues s t .mx (.mxDrop t d) []

/-- R96, R115 and R581: an undisturbed mx.mma whose tags agree adds to every element its own contribution, counts in MX_SEQ
and leaves the other accumulators and the tile registers alone; one into an accumulator that is not OPEN raises
MX_STATE, and one whose tags differ MX_FMT, and neither counts. R114: a disturbance that the residue detects is its fault.

R117: the partner's check of a sample empties the bay and clears BASTE_OUT of the origin; equal digests change nothing
else, and differing ones are flagged on both tiles, captured there and recorded.

The model's choices in it are those of log entries 7 and 30. -/
def Obligations.MatrixMultipliesAndBastes : Prop :=
  (∀ (s : State) (t : Tile) (o : MmaOp), Executes s t .mx [(o.tA.toNat, false), (o.tB.toNat, false)] [] → o.rsv = 0 →
      let n := o.aD.toNat
      let pc := (s.tile t).pc.toNat
      (mmaFmtOk s t o = true → accState s t n = accOpen → Gives (.mxMma t o none) s fun s' =>
          (∀ i < 4096, (s'.tile t).readAcc n i = gridAdd (accLay s t n) ((s.tile t).readAcc n i)
              (mmaElem (accLay s t n) (hemInt (accHem s t n)) (tileReg s t o.tA.toNat) (tileReg s t o.tB.toNat)
                (o.kbm1.toNat + 1) (i / 64) (i % 64)) % 2 ^ 128)
            ∧ (∀ m i, m ≠ n → m < 4 → i < 4096 → (s'.tile t).readAcc m i = (s.tile t).readAcc m i)
            ∧ (∀ r, s'.g t r = s.g t r) ∧ (∀ i, s'.p t i = s.p t i) ∧ (s'.tile t).v = (s.tile t).v
            ∧ (s'.tile t).scl = (s.tile t).scl ∧ (s'.tile t).dstore = (s.tile t).dstore ∧ (s'.tile t).pc = (s.tile t).pc + 1
            ∧ (∀ u, u ≠ t → u ≠ partner s t → s'.tile u = s.tile u) ∧ s'.net = s.net ∧ s'.flash = s.flash
            ∧ rd64 s' (mxPg t) mx_SEQ_LO mx_SEQ_HI = (rd64 s (mxPg t) mx_SEQ_LO mx_SEQ_HI + 1) % 2 ^ 64
            ∧ (s'.tile t).treg = (s.tile t).treg ∧ s'.spool = s.spool ∧ s'.lp = s.lp)
        ∧ (∀ u : Upset, mmaFmtOk s t o = true → accState s t n = accOpen → u.idx < 4096 → u.err % 7 ≠ 0 →
            Answers (.mxMma t o (some u)) s (mxResidue (nextSeq (issuedTo s t .mx) t).2 t pc))
        ∧ (mmaFmtOk s t o = true → accState s t n ≠ accOpen →
            Answers (.mxMma t o none) s (mxTrap (issuedTo s t .mx) t cState pc o.enc))
        ∧ (mmaFmtOk s t o = false → Answers (.mxMma t o none) s (mxTrap (issuedTo s t .mx) t cFmt pc o.enc)))
  ∧ (∀ (s : State) (t : Tile) (x : Sample), t.toNat < s.ntiles → (s.tile t).bay = some x →
      let d := mmaDigest x.layout (mmaWords x.layout x.hem x.a x.b x.kb)
      let s1 := wr (s.modTile t (fun ts => { ts with bay := none })) (mxPg x.origin) mx_STATUS_BASTE_OUT 0
      (d % 2 ^ 64 = x.digest → Answers (.basteCheck t 0) s s1)
        ∧ (d % 2 ^ 64 ≠ x.digest → Gives (.basteCheck t 0) s fun s' =>
            (∀ u, u = t ∨ u = x.origin → Flag s' (mxPg u) mx_F_BASTE_MISMATCH
                ∧ rd s' (mxPg u) mx_ERR_CODE = mx_F_BASTE_MISMATCH.lo
                ∧ rd64 s' (mxPg u) mx_DIG_LOCAL_LO mx_DIG_LOCAL_HI = x.digest % 2 ^ 64
                ∧ rd64 s' (mxPg u) mx_DIG_REMOTE_LO mx_DIG_REMOTE_HI = d % 2 ^ 64)
              ∧ rd s' (mxPg x.origin) mx_ERR_PC = x.pc % 2 ^ 14 ∧ rd s' (mxPg x.origin) mx_STATUS_BASTE_OUT = 0
              ∧ (s'.tile t).bay = none ∧ Logs s s' 3 0x0002 (mxPg t) (b2 x.origin.toNat ++ b2 t.toNat ++ b4 x.seq)
              ∧ s'.spool = s.spool ∧ s'.lp = s.lp))

/-- R92, R101, R102, R110 and R112: with legal fields and addresses mx.lt fills the register from good spool words and sets
its tag, mx.stt writes the register's rows, mx.tag sets the tag alone, mx.st writes raw words and gives HEM, and
mx.la in the handler loads them. R274: a word that a load cannot read is recorded and fences the tile. R114: a disturbance that the read-out of mx.st detects is the residue fault.

The model's choices in it are those of log entries 7 and 41. -/
def Obligations.MatrixLoadsAndStores : Prop :=
  ∀ (s : State) (t : Tile),
    let s1 := issuedTo s t .mx
    (∀ o : TagOp, Executes s t .mx [(o.tD.toNat, true)] [] → o.rsv = 0 → badDir o.fmt.toNat o.bdir.toNat = false →
        Gives (.mxTag t o) s fun s' => tagFmt s' t o.tD.toNat = o.fmt.toNat ∧ tagBdir s' t o.tD.toNat = o.bdir.toNat
          ∧ (s'.tile t).treg = (s.tile t).treg ∧ (s'.tile t).scl = (s.tile t).scl
          ∧ (s'.tile t).acc = (s.tile t).acc ∧ MatrixFrame s s' t
          ∧ (s'.tile t).pc = (s.tile t).pc + 1 ∧ s'.spool = s.spool ∧ s'.lp = s.lp)
      ∧ (∀ (o : LtOp), Executes s t .mx [(o.tD.toNat, true)] [o.gA, o.gP] → o.rsv = 0 → badDir o.fmt.toNat o.bdir.toNat = false →
          SpClean s →
          let x := ltAddr (s.g t o.gA) (s.g t o.gP)
          let f := o.fmt.toNat
          (o.t = 0 ∧ ltAddrOk x 64 (kLen f * fmtW f / 8) (sclBlocks f) = true)
              ∨ (o.t = 1 ∧ fmtW f ≤ 32 ∧ isJ f = false ∧ o.bdir = 0 ∧ ltAddrOk x (kLen f) (8 * fmtW f) (sclBlocks f) = true) →
          Answers (.mxLt t o .ok) s (setTag (s1.modTile t (ltFill s1 t o x)) t o.tD.toNat o.fmt.toNat o.bdir.toNat)
            ∧ Answers (.mxLt t o .uncorrectable) s (localUe s1 t x.eb))
      ∧ (∀ o : SttOp, Executes s t .mx [(o.tS.toNat, false)] [o.gA, o.gP] → o.rsv1 = 0 → o.rsv2 = 0 →
          badDir o.fmt.toNat o.bdir.toNat = false →
          tagFmt s t o.tS.toNat = o.fmt.toNat → tagBdir s t o.tS.toNat = o.bdir.toNat →
          let x := ltAddr (s.g t o.gA) (s.g t o.gP)
          let f := o.fmt.toNat
          let nb := sclBlocks f
          ltAddrOk x 64 (kLen f * fmtW f / 8) nb = true →
          Answers (.mxStt t o .ok) s (localWrites s1 t .ok ((List.range 64).flatMap (fun i =>
            (x.eb + i * x.ep, packBytes f ((List.range (kLen f)).map
                (kElem (s.tile t).treg o.tS.toNat f o.bdir.toNat i))) ::
              (if nb = 0 then []
                else [(x.sb + i * x.sp, (List.range nb).map
                  (fun b => BitVec.ofNat 8 (kScl (s.tile t).scl o.tS.toNat i b)))])))))
      ∧ (∀ (o : MxStOp) (f c : Nat), Executes s t .mx [] [o.gA, o.gC, o.gD] → o.rsv = 0 → accRows (s.g t o.gC) = some (f, c) →
          let n := o.aD.toNat
          let w := gBytes (accLay s t n)
          let a := (s.g t o.gA).toNat
          rawOk a c (accLay s t n) = true → Gives (.mxSt t o none) s fun s' =>
            (∀ i < 64 * c, memNat s'.spool (spKey (s.ptile t.toNat) (a + i * w)) w
                = (s.tile t).readAcc n (64 * f + i) % 256 ^ w)
              ∧ (∀ k, k < spKey (s.ptile t.toNat) a ∨ spKey (s.ptile t.toNat) a + 64 * c * w ≤ k →
                  memByte s'.spool k = memByte s.spool k)
              ∧ s'.g t o.gD = (if o.gD = 0 then 0 else BitVec.ofInt 64 (hemInt (accHem s t n)))
              ∧ (∀ r, r ≠ o.gD → s'.g t r = s.g t r) ∧ MatrixRest s s' t ∧ (s'.tile t).acc = (s.tile t).acc
              ∧ (s'.tile t).treg = (s.tile t).treg ∧ (s'.tile t).pc = (s.tile t).pc + 1 ∧ s'.lp = s.lp)
      ∧ (∀ (o : MxStOp) (f c : Nat) (u : Upset), Executes s t .mx [] [o.gA, o.gC, o.gD] → o.rsv = 0 → accRows (s.g t o.gC) = some (f, c) →
          rawOk (s.g t o.gA).toNat c (accLay s t o.aD.toNat) = true → u.idx < 64 * c → u.err % 7 ≠ 0 →
          Answers (.mxSt t o (some u)) s (mxResidue s1 t (s.tile t).pc.toNat))
      ∧ ∀ (o : MxLaOp) (f c : Nat), s.hmode t = true → Executes s t .mx [] [o.gA, o.gC] → o.rsv = 0 →
          accRows (s.g t o.gC) = some (f, c) → SpClean s →
          let n := o.aD.toNat
          let w := gBytes (accLay s t n)
          let a := (s.g t o.gA).toNat
          rawOk a c (accLay s t n) = true → Answers (.mxLa t o .uncorrectable) s (localUe s1 t a) ∧ Gives (.mxLa t o .ok) s fun s' =>
            (∀ i < 64 * c, (s'.tile t).readAcc n (64 * f + i) = memNat s.spool (spKey (s.ptile t.toNat) (a + i * w)) w)
              ∧ (∀ m i, m < 4 → i < 4096 → ¬ (m = n ∧ 64 * f ≤ i ∧ i < 64 * f + 64 * c) →
                (s'.tile t).readAcc m i = (s.tile t).readAcc m i)
              ∧ MatrixFrame s s' t ∧ (s'.tile t).pc = (s.tile t).pc + 1 ∧ s'.spool = s.spool ∧ s'.lp = s.lp

/-! ### The vector engine -/

/-- R124 and R37: elements packed into a vector register read back, and a register is what its elements spell, in every
format of 8, 16, 32 and 64 bits. -/
def Obligations.VectorElementsRoundTrip : Prop :=
  ∀ f : Nat, f < 16 → fmtW f = 8 ∨ fmtW f = 16 ∨ fmtW f = 32 ∨ fmtW f = 64 →
    (∀ es : List Nat, es.length = vCount f → (∀ e ∈ es, e < 2 ^ fmtW f) → vElems (vPack f es) f = es)
      ∧ ∀ x : BitVec 4096, vPack f (vElems x f) = x

/-- R129 to R131: the floating instructions act element by element on binary32 or binary64, each result rounded once by RM
and saturated where SAT asks, with the events SAT and INVALID; a result is checked by residue (R156).

R129, R130 and R158: the functions of one floating source; vx.abs and vx.neg act on the sign bit and make a NaN
canonical.

R95, R127: while an engine works a VXE instruction waits in the engine's queue of four, and a full queue withholds it.

The model's choices in it are those of log entries 7, 17 and 21. -/
def Obligations.VectorFloats : Prop :=
  (∀ (s : State) (t : Tile) (o : VfOp), Executes s t .vx [] [] → o.f = 6 ∨ o.f = 7 → o.rm.toNat < 4 →
      let f := o.f.toNat
      let rm := o.rm.toNat
      let each := fun (op : Val → Val → Val → Res) => (List.range (vCount f)).map (fun i =>
        finish f (op (decVal f (vElem (s.v t o.vA) f i)) (decVal f (vElem (s.v t o.vB) f i)) (decVal f (vElem (s.v t o.vD) f i)))
          rm (o.sat == 1))
      PutsCvs (.vxAdd t o none) s t o.vD f (each (fun a b _ => addVal rm a b))
        ∧ PutsCvs (.vxSub t o none) s t o.vD f (each (fun a b _ => addVal rm a (negVal b)))
        ∧ PutsCvs (.vxMul t o none) s t o.vD f (each (fun a b _ => mulVal a b))
        ∧ PutsCvs (.vxDiv t o none) s t o.vD f (each (fun a b _ => divVal a b))
        ∧ PutsCvs (.vxFma t o none) s t o.vD f (each (fun a b d => fmaVal rm a b d))
        ∧ PutsCvs (.vxMin t o) s t o.vD f (each (fun a b _ => .val (minVal a b)))
        ∧ PutsCvs (.vxMax t o) s t o.vD f (each (fun a b _ => .val (maxVal a b)))
        ∧ ∀ u : Upset, u.idx < vCount f → u.err % 7 ≠ 0 →
            let r := vxResidue (issuedTo s t .vx) t (s.tile t).pc.toNat
            Answers (.vxAdd t o (some u)) s r ∧ Answers (.vxSub t o (some u)) s r ∧ Answers (.vxMul t o (some u)) s r
              ∧ Answers (.vxDiv t o (some u)) s r ∧ Answers (.vxFma t o (some u)) s r)
  ∧ (∀ (s : State) (t : Tile) (o : VuOp), Executes s t .vx [] [] → o.f = 6 ∨ o.f = 7 → o.rm.toNat < 4 → o.rsv = 0 →
      let f := o.f.toNat
      let each := fun (op : Nat → Cv) => (List.range (vCount f)).map (fun i => op (vElem (s.v t o.vA) f i))
      let sat := o.sat == 1
      PutsCvs (.vxSqrt t o none) s t o.vD f (each (fun a => sqrtOp f (decVal f a) o.rm.toNat sat))
        ∧ PutsCvs (.vxRcp t o none) s t o.vD f (each (fun a => rcpOp f (decVal f a) o.rm.toNat sat))
        ∧ PutsCvs (.vxRsqrt t o none) s t o.vD f (each (fun a => rsqrtOp f (decVal f a) o.rm.toNat sat))
        ∧ PutsCvs (.vxExp2 t o none) s t o.vD f (each (fun a => exp2Op f (decVal f a) o.rm.toNat sat))
        ∧ PutsCvs (.vxLog2 t o none) s t o.vD f (each (fun a => log2Op f (decVal f a) o.rm.toNat sat))
        ∧ PutsCvs (.vxAbs t o) s t o.vD f
            (each (fun a => cvOk (if decVal f a = .nan then canonNaN f else a % 2 ^ (fmtW f - 1))))
        ∧ PutsCvs (.vxNeg t o) s t o.vD f
            (each (fun a => cvOk (if decVal f a = .nan then canonNaN f else (a + 2 ^ (fmtW f - 1)) % 2 ^ fmtW f)))
        ∧ ∀ u : Upset, u.idx < vCount f → u.err % 7 ≠ 0 →
            let r := vxResidue (issuedTo s t .vx) t (s.tile t).pc.toNat
            Answers (.vxSqrt t o (some u)) s r ∧ Answers (.vxRcp t o (some u)) s r ∧ Answers (.vxRsqrt t o (some u)) s r
              ∧ Answers (.vxExp2 t o (some u)) s r ∧ Answers (.vxLog2 t o (some u)) s r)
  ∧ ∀ (s : State) (t : Tile) (o : VfOp) (x : VuOp) (u : Option Upset),
      ∀ c ∈ [Instr.vxAdd t o u, .vxSub t o u, .vxMul t o u, .vxDiv t o u, .vxFma t o u, .vxMin t o, .vxMax t o, .vxSqrt t x u,
        .vxRcp t x u, .vxRsqrt t x u, .vxExp2 t x u, .vxLog2 t x u, .vxAbs t x, .vxNeg t x], Queues s t .vx c []

/-- R132: integer and logical instructions modulo 2^w, shifts by the low bits of the amount, comparisons to all ones or
zeros, and the lane select.

R134 to R136: vector loads and stores of 512 bytes of the own spool, the transfers between lanes and cells, the
broadcast and the bobbin. R273 and R274: a word that a load corrects is counted, and one that it cannot read is recorded and
fences the tile.

R156: a detected disturbance of an adder or multiplier is a residue mismatch; R95, R127: while an engine works each waits in
the queue of four.

The model's choices in it are those of log entries 7, 41 and 49. -/
def Obligations.VectorIntegersAndMoves : Prop :=
  (∀ (s : State) (t : Tile),
      (∀ o : ViOp, Executes s t .vx [] [] → o.f = 10 ∨ o.f = 11 ∨ o.f = 14 ∨ o.f = 15 → o.rsv = 0 →
          let f := o.f.toNat
          let w := fmtW f
          let puts := fun (c : Instr) (op : Nat → Nat → Nat) =>
            PutsV c s t o.vD (vPack f ((List.range (vCount f)).map (fun i =>
              op (vElem (s.v t o.vA) f i) (vElem (s.v t o.vB) f i) % 2 ^ w))) false false
          (∀ u : Upset, u.idx < vCount f → u.err % 7 ≠ 0 →
              let r := vxResidue (issuedTo s t .vx) t (s.tile t).pc.toNat
              Answers (.vxIadd t o (some u)) s r ∧ Answers (.vxIsub t o (some u)) s r ∧ Answers (.vxImul t o (some u)) s r) ∧
          puts (.vxIadd t o none) (fun a b => a + b) ∧ puts (.vxIsub t o none) (fun a b => a + 2 ^ w - b)
            ∧ puts (.vxImul t o none) (fun a b => a * b) ∧ puts (.vxAnd t o) (fun a b => a &&& b)
            ∧ puts (.vxOr t o) (fun a b => a ||| b) ∧ puts (.vxXor t o) (fun a b => a ^^^ b)
            ∧ puts (.vxShl t o) (fun a b => a * 2 ^ (b % w))
            ∧ (o.f = 14 ∨ o.f = 15 → puts (.vxShr t o) (fun a b => a / 2 ^ (b % w)))
            ∧ (o.f = 10 ∨ o.f = 11 → puts (.vxShr t o) (fun a b => encInt w (signed w a / (2 ^ (b % w) : Nat)))))
        ∧ (∀ o : VcmpOp, Executes s t .vx [] [] → o.f = 6 ∨ o.f = 7 ∨ o.f = 10 ∨ o.f = 11 ∨ o.f = 14 ∨ o.f = 15 → o.cc.toNat < 4 → o.rsv = 0 →
            let f := o.f.toNat
            PutsV (.vxCmp t o) s t o.vD (vPack f ((List.range (vCount f)).map (fun i =>
              if vCond o.cc.toNat (decVal f (vElem (s.v t o.vA) f i)) (decVal f (vElem (s.v t o.vB) f i))
              then 2 ^ fmtW f - 1 else 0))) false false)
        ∧ ∀ o : VselOp, Executes s t .vx [] [] → o.rsv = 0 → PutsV (.vxSel t o) s t o.vD (vPack 6 ((List.range 128).map (fun i =>
            if vElem (s.v t o.vC) 6 i ≠ 0 then vElem (s.v t o.vA) 6 i else vElem (s.v t o.vB) 6 i))) false false)
  ∧ (∀ (s : State) (t : Tile), SpClean s →
      (∀ o : VldOp, Executes s t .vx [] [o.gA] → o.rsv = 0 →
          let a := (s.g t o.gA).toNat
          let k := spKey (s.ptile t.toNat) a
          a % 64 = 0 → a + 512 ≤ 0x500000 →
          PutsV (.vxLd t o .ok) s t o.v (BitVec.ofNat 4096 (leNat (memRead s.spool k 512))) false false
            ∧ Answers (.vxLd t o .uncorrectable) s (localUe (issuedTo s t .vx) t a)
            ∧ (Gives (.vxLd t o .corrected) s fun s' => s'.v t o.v = BitVec.ofNat 4096 (leNat (memRead s.spool k 512))
                ∧ rd s' stPg st_CE_CNT = min (rd s stPg st_CE_CNT + 1) (2 ^ 32 - 1))
            ∧ Gives (.vxSt t o) s fun s' =>
                (∀ x, memByte s'.spool x = if k ≤ x ∧ x < k + 512 then (leBytes 512 (s.v t o.v).toNat).getD (x - k) 0
                  else memByte s.spool x)
                  ∧ (s'.tile t).v = (s.tile t).v ∧ (∀ r, s'.g t r = s.g t r) ∧ s'.lp = s.lp
                  ∧ (s'.tile t).pc = (s.tile t).pc + 1)
        ∧ (∀ o : VtOp, Executes s t .vx [(o.t.toNat, true)] [o.gR] → o.rsv = 0 →
            let r := (s.g t o.gR).toNat % 32
            let m := o.t.toNat
            let cells := fun (cell : Nat → Nat) => vPack 6 ((List.range 128).map (fun l =>
              (smGet (fun _ => 0) (s.tile t).treg (cell l) : W32).toNat))
            let stored := fun (c : Instr) (cell : Nat → Nat) => Gives c s fun s' =>
              (∀ l < 128, (smGet (fun _ => 0) (s'.tile t).treg (cell l) : W32).toNat = vElem (s.v t o.v) 6 l)
                ∧ (∀ k, (∀ l < 128, k ≠ cell l) → (smGet (fun _ => 0) (s'.tile t).treg k : W32)
                    = smGet (fun _ => 0) (s.tile t).treg k)
                ∧ (s'.tile t).v = (s.tile t).v ∧ s'.spool = s.spool ∧ s'.lp = s.lp ∧ (s'.tile t).pc = (s.tile t).pc + 1
            PutsV (.vxLdt t o) s t o.v (cells (fun l => cellKey m (2 * r + l / 64) (l % 64))) false false
              ∧ PutsV (.vxLdc t o) s t o.v (cells (fun l => cellKey m (l % 64) (2 * r + l / 64))) false false
              ∧ stored (.vxWrt t o) (fun l => cellKey m (2 * r + l / 64) (l % 64))
              ∧ stored (.vxWrc t o) (fun l => cellKey m (l % 64) (2 * r + l / 64)))
        ∧ (∀ o : VbcastOp, Executes s t .vx [] [o.gS] → o.rsv = 0 → badJ o.f = false →
            PutsV (.vxBcast t o) s t o.vD (vPack o.f.toNat (List.replicate (vCount o.f.toNat) (s.g t o.gS).toNat)) false false)
        ∧ ∀ o : VbobOp, Executes s t .vx [] [o.gR, o.gE] → o.rsv = 0 →
            let r := s.g t o.gR
            PutsV (.vxBob t o) s t o.vD (BitVec.ofNat 4096 (packCells.leCat 128 ((List.range 32).map (fun j =>
              (bobbin (vxSeed s t) (r.extractLsb' 0 32) (r.extractLsb' 32 32) (s.g t o.gE + BitVec.ofNat 64 j)).toNat))))
              false false)
  ∧ ∀ (s : State) (t : Tile) (o : ViOp) (c : VcmpOp) (x : VselOp) (l : VldOp) (m : VtOp) (b : VbcastOp) (r : VbobOp)
      (u : Option Upset) (e : Ecc),
      (∀ i ∈ [Instr.vxIadd t o u, .vxIsub t o u, .vxImul t o u, .vxAnd t o, .vxOr t o, .vxXor t o, .vxShl t o, .vxShr t o,
          .vxCmp t c, .vxSel t x], Queues s t .vx i [])
        ∧ (∀ i ∈ [Instr.vxLd t l e, .vxSt t l], Queues s t .vx i [l.gA])
        ∧ (∀ i ∈ [Instr.vxLdt t m, .vxLdc t m, .vxWrt t m, .vxWrc t m], Queues s t .vx i [m.gR])
        ∧ Queues s t .vx (.vxBcast t b) [b.gS] ∧ Queues s t .vx (.vxBob t r) [r.gR, r.gE]

/-- R137 and R138: a register conversion takes the part that P names element by element with its random bytes; R139 to
R141: with a legal descriptor vx.cut fills a tile register with cut rows of the spool and sets its tag, and vx.uncut
writes rows of the spool.

R142, R143, R152, R154 and R155: reductions by a fixed tree, exact maxima and the drift measure into a summary register,
and the instructions that move a summary register. R95, R127: while an engine works each waits in the queue of four.

The model's choices in it are those of log entries 7 and 41. -/
def Obligations.VectorConversionsAndSummaries : Prop :=
  (∀ (s : State) (t : Tile),
      (∀ o : VcvtOp, Executes s t .vx [] [] →
          let fs := o.fs.toNat
          let fd := o.fd.toNat
          let n := 4096 / max (fmtW fs) (fmtW fd)
          let so := if fmtW fs < fmtW fd then o.p.toNat * n else 0
          let d0 := if fmtW fd < fmtW fs then o.p.toNat * n else 0
          let dst := vElems (s.v t o.vD) fd
          let cs := (List.range n).map (fun i => cvtElem fs fd ((vElems (s.v t o.vS) fs).getD (so + i) 0) o.rm.toNat (o.sat == 1)
            (srCtx s t o.rm.toNat (o.p.toNat * n + i)))
          badRmCvt o.rm = false → o.p.toNat * min (fmtW fs) (fmtW fd) < max (fmtW fs) (fmtW fd) → isJ fs = false → isJ fd = false →
          PutsV (.vxCvt t o) s t o.vD (vPack fd (dst.take d0 ++ cs.map (·.bits) ++ dst.drop (d0 + n))) (anySat cs) (anyInv cs))
        ∧ (∀ o : VsrctxOp, Executes s t .vx [] [o.gR, o.gE] → o.rsv = 0 → Gives (.vxSrctx t o) s fun s' =>
            rd s' (vxPg t) vx_SR_STREAM = (s.g t o.gR).toNat % 2 ^ 32 ∧ rd s' (vxPg t) vx_SR_STEP = (s.g t o.gR).toNat / 2 ^ 32
              ∧ rd64 s' (vxPg t) vx_SR_BASE_LO vx_SR_BASE_HI = (s.g t o.gE).toNat ∧ (s'.tile t).v = (s.tile t).v
              ∧ VectorFrame s s' t)
        ∧ (∀ (o : VcutOp) (d : CutDesc), Executes s t .vx [(o.tD.toNat, true)] [o.gC] → badRmCvt o.rm = false → o.fd.toNat < 5 → SpClean s →
            let a := (s.g t o.gC).toNat
            let p := s.ptile t.toNat
            let fs := o.fs.toNat
            let fd := o.fd.toNat
            let n := kLen fd
            let nb := if isJ fs then n / 32 else 0
            let s1 := issuedTo s t .vx
            let rows := (List.range 64).map (fun i => rowBlocks s1 t d fd o.rm.toNat (o.sat == 1) i (rowSrc s1 p d fs n i))
            spoolOk64 a 64 = true → cutDesc (memRead s.spool (spKey p a) 64) = some d → cutOk d (n * fmtW fs / 8) nb = true →
            Answers (.vxCut t o .ok) s (raiseEvents (setTag (s1.modTile t (fun ts => (rows.zipIdx).foldl (fun ts x =>
                setKScl (setKVec ts o.tD.toNat fd o.bdir.toNat x.2 (x.1.flatMap (·.codes))) o.tD.toNat x.2 (x.1.map (·.scale))) ts))
              t o.tD.toNat fd o.bdir.toNat) t (rows.any (fun r => r.any (·.sat))) (rows.any (fun r => r.any (·.inv)))))
        ∧ ∀ (o : VuncutOp) (d : CutDesc), Executes s t .vx [(o.tS.toNat, false)] [o.gC] → badRmCvt o.rm = false → o.rsv = 0 → SpClean s →
            let a := (s.g t o.gC).toNat
            let p := s.ptile t.toNat
            let s1 := issuedTo s t .vx
            let r := tileReg s1 t o.tS.toNat
            let fd := o.fd.toNat
            let n := kLen r.fmt
            let rows := (List.range 64).map (fun i =>
              uncutRow s1 t d fd o.rm.toNat (o.sat == 1) i ((List.range n).map (r.src i)))
            isJ r.fmt = true → spoolOk64 a 64 = true → cutDesc (memRead s.spool (spKey p a) 64) = some d →
            cutOk d (n * fmtW fd / 8) (if isJ fd then n / 32 else 0) = true →
            Answers (.vxUncut t o .ok) s (raiseEvents (localWrites s1 t .ok ((rows.zipIdx).flatMap (fun x =>
                (d.base + x.2 * d.pitch, x.1.1) :: (if isJ fd then [(d.sbase + x.2 * d.spitch, x.1.2.1)] else [])))) t
              (rows.any (fun x => x.2.2.1)) (rows.any (fun x => x.2.2.2))))
  ∧ (∀ (s : State) (t : Tile),
      (∀ o : VvredOp, Executes s t .vx [] [] → o.rm.toNat < 4 → o.op.toNat < 5 → o.rsv = 0 → o.f = 6 ∨ o.f = 7 →
          let op := o.op.toNat
          let f := o.f.toNat
          let g := redFmt op f
          let r := tree op g o.rm.toNat (if f = 6 then 7 else 6) ((vElems (s.v t o.vS) f).map (redIn op f))
          (o.acc = 0 → PutsU (.vxVred t o none) s t o.uD r.1 r.2)
            ∧ (o.acc = 1 → let c := redOp op g o.rm.toNat (readU s t o.uD.toNat % 2 ^ fmtW g) r.1
                PutsU (.vxVred t o none) s t o.uD c.bits (r.2 || c.inv)))
        ∧ (∀ o : VtredOp, Executes s t .vx [(o.tS.toNat, false)] [] → o.rm.toNat < 4 → o.op.toNat < 5 → o.rsv = 0 → tagFmt s t o.tS.toNat = 6 →
            let op := o.op.toNat
            let g := redFmt op 6
            let rs := (List.range 64).map (fun r =>
              tree op g o.rm.toNat 6 ((lineCells (s.tile t) o.tS.toNat o.dir.toNat r).map (redIn op 6)))
            PutsV (.vxTred t o none) s t o.vD (vPack g (rs.map (·.1) ++ (if g = 7 then [] else (lanes (s.v t o.vD)).drop 64)))
              false (rs.any (·.2)))
        ∧ (∀ o : VtamaxOp, Executes s t .vx [(o.tS.toNat, false)] [] → o.rsv = 0 →
            let r := tileReg s t o.tS.toNat
            let vs := (List.range 64).flatMap (fun i => (List.range (kLen r.fmt)).map (fun k => absVal (srcVal (r.src i k))))
            let m := decVal 7 (cvtVal 7 (vs.foldl maxVal (.zero false)) rmRUP false 0).bits
            let m := if o.acc = 1 then maxVal m (decVal 7 (readU s t o.uD.toNat)) else m
            PutsU (.vxTamax t o) s t o.uD (cvtVal 7 m rmRUP false 0).bits (vs.contains .nan))
        ∧ (∀ o : VrdiffOp, Executes s t .vx [] [] → o.rsv = 0 → o.f = 6 ∨ o.f = 7 →
            let f := o.f.toNat
            let vs := (List.range (vCount f)).map (fun i =>
              rdiffElem 0 (decVal f (vElem (s.v t o.vA) f i)) (decVal f (vElem (s.v t o.vB) f i)))
            let m := decVal 6 (cvtVal 6 (vs.foldl maxVal (.zero false)) rmRUP false 0).bits
            let m := if o.acc = 1 then maxVal m (decVal 6 (readU s t o.uD.toNat)) else m
            PutsU (.vxRdiff t o none) s t o.uD (cvtVal 6 m rmRUP false 0).bits false)
        ∧ (∀ o : VevtOp, Executes s t .vx [] [] → o.rsv = 0 → Gives (.vxEvt t o) s fun s' =>
            readU s' t o.uD.toNat = rd s (vxPg t) vx_EVENT_SAT + 2 * rd s (vxPg t) vx_EVENT_INVALID
              ∧ rd s' (vxPg t) vx_EVENT_SAT = 0 ∧ rd s' (vxPg t) vx_EVENT_INVALID = 0 ∧ (s'.tile t).v = (s.tile t).v
              ∧ VectorFrame s s' t)
        ∧ (∀ o : VpickOp, Executes s t .vx [] [o.gI] → o.rsv = 0 → badJ o.f = false →
            let i := (s.g t o.gI).toNat % 512
            i < vCount o.f.toNat → PutsU (.vxPick t o) s t o.uD (vElem (s.v t o.vS) o.f.toNat i) false)
        ∧ (∀ o : VusetOp, Executes s t .vx [] [o.gS] → o.rsv = 0 → PutsU (.vxUset t o) s t o.uD (s.g t o.gS).toNat false)
        ∧ ∀ o : VtrkOp, Executes s t .vx [] [o.gE] → o.rsv = 0 → badJ o.f = false → Gives (.vxTrk t o) s fun s' =>
            let v := absVal (decVal o.f.toNat (readU s t o.uS.toNat))
            s'.net = s.net ++ [.observation t (s.tile t).tagNo (BitVec.ofNat 12 (s.g t o.gE).toNat)
                (BitVec.ofNat 32 (cvtVal 6 v rmRUP false 0).bits)]
              ∧ (s'.tile t).loose.length = (s.tile t).loose.length + 1 ∧ (s'.tile t).pc = (s.tile t).pc + 1
              ∧ s'.spool = s.spool ∧ s'.lp = s.lp)
  ∧ ∀ (s : State) (t : Tile) (o : VcvtOp) (x : VsrctxOp) (c : VcutOp) (n : VuncutOp) (v : VvredOp) (r : VtredOp)
      (m : VtamaxOp) (d : VrdiffOp) (a : VevtOp) (p : VpickOp) (w : VusetOp) (k : VtrkOp) (u : Option Upset) (e : Ecc),
      (∀ i ∈ [Instr.vxCvt t o, .vxVred t v u, .vxTred t r u, .vxTamax t m, .vxRdiff t d u, .vxEvt t a], Queues s t .vx i [])
        ∧ Queues s t .vx (.vxSrctx t x) [x.gR, x.gE] ∧ Queues s t .vx (.vxCut t c e) [c.gC]
        ∧ Queues s t .vx (.vxUncut t n e) [n.gC] ∧ Queues s t .vx (.vxPick t p) [p.gI]
        ∧ Queues s t .vx (.vxUset t w) [w.gS] ∧ Queues s t .vx (.vxTrk t k) [k.gE]

/-- R145 and R147: the grid instructions add exact terms at the words they name of an open accumulator, vx.grd reads raw
words and vx.gcvt their values. R95, R127: while an engine works each waits in the queue of four.

The model's choices in it are those of log entry 7. -/
def Obligations.VectorGridMode : Prop :=
  (∀ (s : State) (t : Tile),
    let s1 := issuedTo s t .vx
    let pc := (s.tile t).pc.toNat
    (∀ o : VgaccOp, Executes s t .vx [] [o.gC] → o.rsv = 0 → o.f = 6 ∨ o.f = 7 →
        let f := o.f.toNat
        let n := o.aD.toNat
        let w := (s.g t o.gC).toNat % 4096
        (o.m = 1 → accState s t n = accOpen → Gives (.vxGacc t o none) s fun s' =>
            (s'.tile t).readAcc n w = ((List.range (vCount f)).map (fun i =>
                accTerm s t n (decVal f (vElem (s.v t o.vS) f i)))).foldl
                  (fun a x => gridAdd (accLay s t n) a x % 2 ^ 128) ((s.tile t).readAcc n w)
              ∧ (∀ i < 4096, i ≠ w → (s'.tile t).readAcc n i = (s.tile t).readAcc n i)
              ∧ (s'.tile t).v = (s.tile t).v ∧ s'.spool = s.spool ∧ s'.lp = s.lp)
          ∧ (o.m = 0 → w + vCount f ≤ 4096 → accState s t n = accOpen → Gives (.vxGacc t o none) s fun s' =>
              (∀ i < vCount f, (s'.tile t).readAcc n (w + i)
                  = gridAdd (accLay s t n) ((s.tile t).readAcc n (w + i))
                      (accTerm s t n (decVal f (vElem (s.v t o.vS) f i))) % 2 ^ 128)
                ∧ (∀ i < 4096, i < w ∨ w + vCount f ≤ i → (s'.tile t).readAcc n i = (s.tile t).readAcc n i)
                ∧ (s'.tile t).v = (s.tile t).v ∧ s'.spool = s.spool ∧ s'.lp = s.lp)
          ∧ (o.m = 0 → 4096 < w + vCount f → Answers (.vxGacc t o none) s (vxTrap s1 t cIllegal pc o.enc)))
      ∧ (∀ o : VgtaccOp, Executes s t .vx [(o.tS.toNat, false)] [o.gC] → o.rsv = 0 → tagFmt s t o.tS.toNat = 6 →
          let n := o.aD.toNat
          let w := (s.g t o.gC).toNat % 4096
          w + 64 ≤ 4096 → accState s t n = accOpen → Answers (.vxGtacc t o none) s (s1.modTile t (fun ts =>
            (((List.range 64).flatMap (fun r => (lineCells (s.tile t) o.tS.toNat o.dir.toNat r).map (fun c =>
              (w + r, accTerm s t n (decVal 6 c))))).zipIdx).foldl
                (fun ts x => accAdd ts (accLay s t n) n x.1.1 x.1.2) ts)))
      ∧ (∀ o : VgdotOp, Executes s t .vx [] [o.gC] → o.rsv = 0 →
          let n := o.aD.toNat
          let w := (s.g t o.gC).toNat % 4096
          let f := if o.w = 0 then 6 else 7
          accState s t n = accOpen → Answers (.vxGdot t o none) s (s1.modTile t (fun ts =>
            (((List.range (vCount f)).map (fun i => (w, accTerm s t n
              (match mulVal (decVal f (vElem (s.v t o.vA) f i)) (decVal f (vElem (s.v t o.vB) f i)) with
                | .val v => v
                | _ => .nan)))).zipIdx).foldl (fun ts x => accAdd ts (accLay s t n) n x.1.1 x.1.2) ts)))
      ∧ (∀ o : VgrdOp, Executes s t .vx [] [o.gC] → o.rsv = 0 →
          let n := o.aS.toNat
          let w := (s.g t o.gC).toNat % 4096
          let k := if accLay s t n = 0 then 32 else 64
          w + k ≤ 4096 → PutsV (.vxGrd t o none) s t o.vD (BitVec.ofNat 4096 (packCells.leCat (8 * gBytes (accLay s t n))
            ((List.range k).map (fun j => (s.tile t).readAcc n (w + j))))) false false)
      ∧ ∀ o : VgcvtOp, Executes s t .vx [] [o.gC] → badRmCvt o.rm = false → o.rsv = 0 → badJ o.fd = false →
          let n := o.aS.toNat
          let fd := o.fd.toNat
          let w := (s.g t o.gC).toNat % 4096
          w + vCount fd ≤ 4096 → PutsCvs (.vxGcvt t o none) s t o.vD fd ((List.range (vCount fd)).map (fun j =>
            cvtVal fd ((gridValue (accLay s t n) (hemInt (accHem s t n)) ((s.tile t).readAcc n (w + j))).getD .nan)
              o.rm.toNat (o.sat == 1) (srCtx s t o.rm.toNat j))))
  ∧ ∀ (s : State) (t : Tile) (a : VgaccOp) (b : VgtaccOp) (d : VgdotOp) (r : VgrdOp) (c : VgcvtOp) (m : VgcombOp) (g : VgdecOp)
      (u : Option Upset) (e : Ecc),
      Queues s t .vx (.vxGacc t a u) [a.gC] ∧ Queues s t .vx (.vxGtacc t b u) [b.gC] ∧ Queues s t .vx (.vxGdot t d u) [d.gC]
        ∧ Queues s t .vx (.vxGrd t r u) [r.gC] ∧ Queues s t .vx (.vxGcvt t c u) [c.gC]
        ∧ Queues s t .vx (.vxGcomb t m u e) [m.gA] ∧ Queues s t .vx (.vxGdec t g e) [g.gL]

/-! ### Zynten ports, frames, packets and collectives -/

/-- R312, R320, R335 and R481: enabling a port that is off begins its training; training that locks every wavelength the
fuses do not name makes the port ACTIVE, or LULL in lull mode, with the peer it found; one that does not, or that finds a
round trip above 1,000 ns, is tried again, and at the third attempt makes it DOWN; disabling a port turns it off, and one in
FAILSAFE or LULL keeps its state. R480: a trained port runs with the settings found; a job port with a valid entry in the
cache runs with those of the entry, and one without writes its entry. No other memory changes, and no tile but for the
failed responses that a transfer keeps.

The model's choices in it are those of log entries 50 and 172. -/
def Obligations.PortsTrain : Prop :=
  ∀ (s : State) (port : BitVec 6),
    let p := port.toNat
    let n := lkPg p
    (locked s n = false → portState s p = stOff → Gives (.portEnable port) s fun s' =>
        portState s' p = stTrain ∧ rd s' n lk_CFG_ENABLE = 1 ∧ portSt s' p = PortSt.reset
          ∧ rd s' n lk_STATUS_ROT = (fusedWl s p).getD 8 ∧ rd s' n lk_STATUS_PEER_FAULT = 0
          ∧ (∀ q, q ≠ p → portSt s' q = portSt s q) ∧ SameMem s s')
      ∧ (locked s n = false → portState s p ≠ stOff → portState s p ≠ stFailsafe → portState s p ≠ stLull →
          Gives (.portDisable port) s fun s' => portState s' p = stOff ∧ rd s' n lk_CFG_ENABLE = 0 ∧ SameStore s s')
      ∧ (locked s n = false → portState s p = stOff ∨ portState s p = stFailsafe ∨ portState s p = stLull →
          Gives (.portDisable port) s fun s' => portState s' p = portState s p ∧ rd s' n lk_CFG_ENABLE = 0
            ∧ s'.ports = s.ports ∧ SameMem s s')
      ∧ ∀ tr : Training, portState s p = stTrain → tr.rack < 256 → tr.bolt < 8 → tr.module < 8 → tr.port < 64 →
          ((∀ w, w < 9 → fusedWl s p ≠ some w → w ∈ tr.locked) →
            (tr.rtt ≤ 1000 → Gives (.trainingComplete port tr) s fun s' =>
                portState s' p = (if s.lull = true then stLull else stActive) ∧ rd s' n lk_PEER_RACK = tr.rack ∧ rd s' n lk_PEER_BOLT = tr.bolt
                  ∧ rd s' n lk_PEER_MODULE = tr.module ∧ rd s' n lk_PEER_PORT = tr.port ∧ rd s' n lk_RTT = tr.rtt
                  ∧ bit (rd s' ckPg ck_RX_LOCK) (p / 4) = true
                  ∧ (rd s n lk_CFG_FOREIGN = 1 ∨ eqValid s p tr.txPower = false → (portSt s' p).eq = tr.eq)
                  ∧ (rd s n lk_CFG_FOREIGN = 0 → eqValid s p tr.txPower = true →
                      (portSt s' p).eq = (List.range 9).map (eqSetting s p))
                  ∧ (rd s n lk_CFG_FOREIGN = 1 ∨ eqValid s p tr.txPower = true → s'.flash = s.flash)
                  ∧ (rd s n lk_CFG_FOREIGN = 0 → eqValid s p tr.txPower = false → ∀ a, memByte s'.flash a =
                      if eqBase p ≤ a ∧ a < eqBase p + 116 then (eqBytes (rd s mgPg mg_FW_VER) tr).getD (a - eqBase p) 0
                      else memByte s.flash a)
                  ∧ SameMem { s with flash := s'.flash } s')
              ∧ (1000 < tr.rtt → Gives (.trainingComplete port tr) s fun s' =>
                Flag s' n lk_F_REACH ∧ (tr.attempts < 3 → portState s' p = stTrain)
                  ∧ (3 ≤ tr.attempts → portState s' p = stDown ∧ Flag s' n lk_F_PORT_DOWN) ∧ SameMem s s'))
            ∧ ((∃ w, w < 9 ∧ fusedWl s p ≠ some w ∧ w ∉ tr.locked) →
                (tr.attempts < 3 → Answers (.trainingComplete port tr) s s)
                  ∧ (3 ≤ tr.attempts → Gives (.trainingComplete port tr) s fun s' =>
                    portState s' p = stDown ∧ Flag s' n lk_F_PORT_DOWN ∧ SameMem s s'))

/-- R314 and R317: on a port that is ACTIVE or LULL an idle wavelength that fails is marked bad and recorded; another one
becomes idle by rotation first, by single steps; a second one that fails meanwhile takes the port DOWN (R320). On an ACTIVE
port a calibration, or CAL_WL, makes a wavelength idle and tests it, inside the windows of R221 alone: one that fails stays
idle, marked bad; else the idle index goes on by announced steps; outside them a calibration under way waits.

R314 and R336: a laser that fails or weakens clears its LASER_OK bit and sets its flag, a dark receiver sets RX_LOS, and
an engine above its limit is recorded; a failing laser fails its wavelength on the engine's four ports.

The model's choices in it are those of log entries 48, 103 and 145. -/
def Obligations.WavelengthsAndLasers : Prop :=
  (∀ (s : State) (port : BitVec 6) (w : BitVec 4), portUp s port.toNat = true → w.toNat < 9 →
      let p := port.toNat
      let n := lkPg p
      let r := rd s n lk_STATUS_ROT
      (wlBad s p w.toNat = true → Answers (.wavelengthFail port w) s s)
        ∧ (wlBad s p w.toNat = false →
          (wlBad s p r = false → (portSt s p).failing = none → w.toNat = r → Gives (.wavelengthFail port w) s fun s' =>
                wlBad s' p r = true ∧ Flag s' n lk_F_WL_SPARED ∧ rd s' n lk_STATUS_ROT = r ∧ portState s' p = portState s p
                  ∧ Logs s s' 1 0x0101 n (b1 p ++ b1 r ++ b1 r)
                  ∧ OtherRegs s s' ([(n, lk_STATUS_ROT.off)] ++ flagRegs n ++ logRegs 1) ∧ SameMem s s')
            ∧ (wlBad s p r = false → (portSt s p).failing = none → w.toNat ≠ r → Gives (.wavelengthFail port w) s fun s' =>
                (portSt s' p).failing = some w.toNat ∧ (portSt s' p).rotStep = some (rotToward r w.toNat)
                  ∧ (portSt s' p).cal = none ∧ ((portSt s p).cal = none → s'.regs = s.regs) ∧ SameMem s s')
            ∧ (wlBad s p r = false → ∀ f, (portSt s p).failing = some f →
                (f = w.toNat → Answers (.wavelengthFail port w) s s)
                  ∧ (f ≠ w.toNat → Gives (.wavelengthFail port w) s fun s' =>
                    portState s' p = stDown ∧ Flag s' n lk_F_PORT_DOWN ∧ SameStore s s')))
        ∧ (∀ i, (portSt s p).rotStep = some i → i < 9 →
            Gives (.rotationStep port) s fun s' => rd s' n lk_STATUS_ROT = i
              ∧ ((portSt s p).failing = some i → wlBad s' p i = true ∧ (portSt s' p).failing = none)
              ∧ (∀ f, (portSt s p).failing = some f → f ≠ i → (portSt s' p).rotStep = some (rotToward i f))
              ∧ (∀ c, (portSt s p).failing = none → (portSt s p).cal = some c →
                  let todo := c.todo.dropWhile (· == i)
                  (calWindow s = true → i ∈ c.bad → c.one = false ∨ todo = [] →
                      wlBad s' p i = true ∧ (portSt s' p).cal = none ∧ rd s' n lk_STATUS_CAL_ACTIVE = 0)
                    ∧ (calWindow s = true → i ∉ c.bad →
                      rd s' n lk_STATUS_WL_BAD = rd s n lk_STATUS_WL_BAD
                        ∧ (todo = [] → (portSt s' p).cal = none ∧ rd s' n lk_STATUS_CAL_ACTIVE = 0)
                        ∧ ∀ t ts, todo = t :: ts → (portSt s' p).rotStep = some (rotToward i t)
                          ∧ (portSt s' p).cal = some { c with todo := todo })
                    ∧ (calWindow s = false → (portSt s' p).cal = some c ∧ (portSt s' p).rotStep = none
                        ∧ rd s' n lk_STATUS_CAL_ACTIVE = 0 ∧ rd s' n lk_STATUS_WL_BAD = rd s n lk_STATUS_WL_BAD))
              ∧ SameMem s s')
        ∧ (portState s p = stActive → rd s n lk_CFG_CAL_EN = 1 → wlBad s p r = false → (portSt s p).failing = none → (portSt s p).cal = none →
            r < 9 → ∀ bad : List Nat,
            (calWindow s = true → Gives (.calibration port bad) s fun s' =>
              rd s' n lk_STATUS_ROT = r
                ∧ (r ∈ bad → wlBad s' p r = true ∧ Flag s' n lk_F_WL_SPARED ∧ rd s' n lk_STATUS_CAL_ACTIVE = 0
                    ∧ (portSt s' p).cal = none)
                ∧ (r ∉ bad → rd s' n lk_STATUS_WL_BAD = rd s n lk_STATUS_WL_BAD ∧ rd s' n lk_STATUS_CAL_ACTIVE = 1
                    ∧ (∃ c, (portSt s' p).cal = some c ∧ c.bad = bad)
                    ∧ ((portSt s' p).rotStep = some (rotToward r 0) ∨ (portSt s' p).rotStep = some (rotToward r 8)))
                ∧ SameMem s s')
              ∧ (calWindow s = false → Answers (.calibration port bad) s s))
        ∧ (locked s n = false →
            (portState s p = stActive → wlBad s p r = false → (portSt s p).failing = none → (portSt s p).cal = none → ∀ ok,
                Gives (.calWl port w ok) s fun s' =>
                  rd s' n lk_STATUS_ROT = r
                    ∧ (calWindow s = false → (portSt s' p).cal.isSome = true ∧ rd s' n lk_STATUS_CAL_ACTIVE = 0
                        ∧ rd s' n lk_STATUS_WL_BAD = rd s n lk_STATUS_WL_BAD)
                    ∧ (calWindow s = true → w.toNat = r → rd s' n lk_STATUS_CAL_ACTIVE = 0 ∧ (ok = false → wlBad s' p r = true)
                        ∧ (ok = true → rd s' n lk_STATUS_WL_BAD = rd s n lk_STATUS_WL_BAD))
                    ∧ (calWindow s = true → w.toNat ≠ r → rd s' n lk_STATUS_WL_BAD = rd s n lk_STATUS_WL_BAD
                        ∧ rd s' n lk_STATUS_CAL_ACTIVE = 1 ∧ (portSt s' p).rotStep = some (rotToward r w.toNat))
                    ∧ SameMem s s')
              ∧ (wlBad s p r = true → ∀ ok, Gives (.calWl port w ok) s fun s' =>
                rd s' n pg_WREJ = 1 ∧ OtherRegs s s' [(n, pg_WREJ.off)] ∧ SameMem s s')))
  ∧ (∀ (s : State) (g w : BitVec 4), w.toNat < 9 →
      (Gives (.laserFail g w) s fun s' => bit (rd s' (oePg g.toNat) oe_LASER_OK) w.toNat = false
          ∧ Flag s' (oePg g.toNat) oe_F_LASER_FAIL
          ∧ ((∀ i, i < 4 → wlBad s (4 * g.toNat + i) (rd s (lkPg (4 * g.toNat + i)) lk_STATUS_ROT) = false
                ∧ (portSt s (4 * g.toNat + i)).failing = none) →
              ∀ i, i < 4 → portState s (4 * g.toNat + i) = stActive → wlBad s (4 * g.toNat + i) w.toNat = false →
                (w.toNat = rd s (lkPg (4 * g.toNat + i)) lk_STATUS_ROT → wlBad s' (4 * g.toNat + i) w.toNat = true)
                  ∧ (w.toNat ≠ rd s (lkPg (4 * g.toNat + i)) lk_STATUS_ROT →
                    (portSt s' (4 * g.toNat + i)).failing = some w.toNat)) ∧ SameStore s s')
        ∧ (Gives (.laserLow g w) s fun s' => bit (rd s' (oePg g.toNat) oe_LASER_OK) w.toNat = false
          ∧ Flag s' (oePg g.toNat) oe_F_LASER_LOW
          ∧ OtherRegs s s' ([(oePg g.toNat, oe_LASER_OK.off)] ++ flagRegs (oePg g.toNat)) ∧ SameMem s s')
        ∧ (∀ p : BitVec 6, Gives (.rxLos p w) s fun s' => Flag s' (oePg (p.toNat / 4)) oe_F_RX_LOS
          ∧ OtherRegs s s' (flagRegs (oePg (p.toNat / 4))) ∧ SameMem s s')
        ∧ (∀ t : Nat, t < 256 → rd s (oePg g.toNat) oe_TEMP_LIMIT < t → Gives (.engineTempHigh g t) s fun s' =>
          Flag s' (oePg g.toNat) oe_F_TEMP_HIGH ∧ rd s' (oePg g.toNat) oe_TEMP = t
            ∧ (∃ b, Logs s s' 2 0x0701 (oePg g.toNat) (b1 b ++ b1 t)) ∧ SameMem s s')
        ∧ (∀ t : Nat, t < 256 → t ≤ rd s (oePg g.toNat) oe_TEMP_LIMIT → Answers (.engineTempHigh g t) s (wr s (oePg g.toNat) oe_TEMP t)))

/-- R315: a wavelength that fails while the idle wavelength is already marked bad leaves the port without a spare: the port
sets WL_NO_SPARE and enters DOWN. -/
def Obligations.WavelengthWithoutSpareIsDown : Prop :=
  ∀ (s : State) (port : BitVec 6) (w : BitVec 4), w.toNat < 9 →
    let p := port.toNat
    let n := lkPg p
    portState s p = stActive → wlBad s p (rd s n lk_STATUS_ROT) = true → wlBad s p w.toNat = false →
    Gives (.wavelengthFail port w) s fun s' =>
      portState s' p = stDown ∧ Flag s' n lk_F_WL_NO_SPARE ∧ Flag s' n lk_F_PORT_DOWN ∧ SameStore s s'

/-- R310, R311 and R318: a try timeout resends from the oldest unacknowledged cell and counts; at the limit the port goes
DOWN; a failover that has delivered everything and has every response of its requests ends, and not before.

R303, R304, R305, R310, R314 and R362: a frame with a bad codeword or FCS counts and makes a NAK due, and the fourth in a row
with the same wavelength fails that wavelength; a good one frees the cells that its ACK covers, and its next cell in order
moves the receive sequence on, whether the decoder handed it on or the light of the nine wavelengths is given; a crossing
that resynchronises discards what arrives, and a second PORT_RETIRE in a row takes the port DOWN. A frame that leaves fills
its 175 slots and carries the acknowledgement and the credits; a port that is DOWN sends PORT_RETIRE, one that is disabled
too in its last frames, one in TRAIN the training light without a fused wavelength, one in fail-safe IDLE-FAULT.

R323: a stream packet writes its bytes into the entry's window and no other byte of LPDDR5X, and SIG follows when every byte
of the transfer is there; credits come back to the sender's count on a port that is up.

R307, R442, R443, R445 and R450: recovery packets hold the job, carry LOST notices on, read and write the twin-keep region
for the twin, bring its answers and the data of the home region, and relay home sections; of a peer in lull mode those about
the region alone are served; management packets reach the management core's slots; a FOREIGN port drops them.

The model's choices in it are those of log entries 13, 33, 45, 51, 54, 126, 135, 136, 141, 147, 153 and 154. -/
def Obligations.FramesAndPackets : Prop :=
  (∀ (s : State) (port : BitVec 6),
      let p := port.toNat
      let n := lkPg p
      let x := portSt s p
      (∀ (c : Cell) (cs : List Cell), x.replay = c :: cs → portState s p = stActive ∨ portState s p = stLull →
          (x.tries + 1 < rd s n lk_CFG_TRY_LIMIT → Gives (.tryTimeout port) s fun s' =>
              portSt s' p = { x with tries := x.tries + 1, resend := some c.seq }
                ∧ rd s' n lk_TIMEOUT = min (rd s n lk_TIMEOUT + 1) (2 ^ 32 - 1) ∧ portState s' p = portState s p
                ∧ OtherRegs s s' [(n, lk_TIMEOUT.off)] ∧ SameMem s s')
            ∧ (rd s n lk_CFG_TRY_LIMIT ≤ x.tries + 1 → Gives (.tryTimeout port) s fun s' =>
              portState s' p = stDown ∧ Flag s' n lk_F_RETRY_LIMIT ∧ Flag s' n lk_F_PORT_DOWN ∧ SameStore s s'))
        ∧ (x.failover = false ∨ carriesOrigin s p = true ∨ lseOpen s p = true → Answers (.failoverComplete port) s s)
        ∧ (x.failover = true → carriesOrigin s p = false → lseOpen s p = false → Gives (.failoverComplete port) s fun s' =>
            (portSt s' p).failover = false ∧ (portSt s' p).waiting = [] ∧ s'.regs = s.regs ∧ SameStore s s'))
  ∧ (∀ (s : State) (port : BitVec 6) (h : Heard),
      let p := port.toNat
      let n := lkPg p
      let x := portSt s p
      let r := rd s n lk_STATUS_ROT
      let f := hear r h
      (portUp s p = true → fifoBusy s 5 (p / 4) = true → Gives (.frame port h) s fun s' =>
          portSt s' p = { x with nakDue := true } ∧ s'.regs = s.regs ∧ SameMem s s')
        ∧ (portUp s p = true → fifoBusy s 5 (p / 4) = false →
          (f.badPos ≠ [] ∨ f.fcsOk = false →
              ((∀ w, w < 9 → x.badRun.getD w 0 < 3) → Gives (.frame port h) s fun s' =>
                  portSt s' p = { x with nakDue := true, badRun := countRuns x.badRun r f.badPos }
                    ∧ rd s' n lk_BAD_FRAME = min (rd s n lk_BAD_FRAME + 1) (2 ^ 32 - 1)
                    ∧ rd s' n lk_CORR_SYM = min (rd s n lk_CORR_SYM + f.corrected) (2 ^ 32 - 1)
                    ∧ OtherRegs s s' [(n, lk_BAD_FRAME.off), (n, lk_CORR_SYM.off)] ∧ SameMem s s')
                ∧ ∀ w, w < 9 → w ≠ r → (if w < r then w else w - 1) ∈ f.badPos → x.badRun.getD w 0 = 3 →
                  (∀ v, v < 9 → v ≠ w → x.badRun.getD v 0 < 3) → wlBad s p r = false → wlBad s p w = false →
                  x.failing = none → Gives (.frame port h) s fun s' =>
                    (portSt s' p).failing = some w ∧ (portSt s' p).rotStep = some (rotToward r w)
                      ∧ (portSt s' p).nakDue = true ∧ SameMem s s')
            ∧ (f.badPos = [] → f.fcsOk = true → f.fcb.idleFault = false → f.fcb.portRetire = true → 1 ≤ x.retireRun →
                Gives (.frame port h) s fun s' => portState s' p = stDown ∧ SameStore s s')
            ∧ (f.badPos = [] → f.fcsOk = true → f.fcb.idleFault = false → f.fcb.portRetire = false →
                ((∀ c ∈ f.cells, c.cls = .null) → Gives (.frame port h) s fun s' =>
                    (portSt s' p).replay = x.replay.filter (fun c => !seqGe f.fcb.ack c.seq)
                      ∧ (portSt s' p).rxSeq = x.rxSeq ∧ (portSt s' p).rxFrame = f.fcb.frameNo
                      ∧ portState s' p = portState s p ∧ SameMem s s')
                  ∧ (∀ c : Cell, f.cells.filter (fun c => c.cls != .null) = [c] → c.tail = false →
                      (c.seq = x.rxSeq → Gives (.frame port h) s fun s' =>
                          (portSt s' p).rxSeq = (x.rxSeq + 1) % 65536 ∧ portState s' p = portState s p ∧ SameMem s s')
                        ∧ (c.seq ≠ x.rxSeq → seqGe x.rxSeq c.seq = true → Gives (.frame port h) s fun s' =>
                          (portSt s' p).rxSeq = x.rxSeq ∧ rd s' n lk_DUP_CELL = min (rd s n lk_DUP_CELL + 1) (2 ^ 32 - 1)
                            ∧ SameMem s s')
                        ∧ (c.seq ≠ x.rxSeq → seqGe x.rxSeq c.seq = false → Gives (.frame port h) s fun s' =>
                          (portSt s' p).rxSeq = x.rxSeq ∧ (portSt s' p).nakDue = true ∧ SameMem s s'))))
        ∧ (∀ phase : BitVec 16,
            (portUp s p = true → Gives (.frameSend port phase) s fun s' =>
                (∃ b cs, s'.net = s.net ++ [.frame p b cs (frameLight b cs)] ∧ cs.length = 175 ∧ b.frameNo = x.frameNo
                    ∧ b.ack = (x.rxSeq + 65535) % 65536 ∧ b.nakValid = x.nakDue ∧ b.credit = x.freed
                    ∧ b.portRetire = false ∧ b.idleFault = false ∧ b.tstate = rd s tmPg tm_TSTATE ∧ b.hops = rd s tmPg tm_HOPS)
                  ∧ (portSt s' p).frameNo = (x.frameNo + 1) % 65536 ∧ (portSt s' p).nakDue = false ∧ SameMem s s')
              ∧ (portState s p = stDown → Gives (.frameSend port phase) s fun s' =>
                (∃ b, s'.net = s.net ++ [.frame p b [] (frameLight b [])] ∧ b.portRetire = true) ∧ s'.regs = s.regs
                  ∧ SameMem s s')
              ∧ (portState s p = stOff → 0 < x.retiring → Gives (.frameSend port phase) s fun s' =>
                (∃ b, s'.net = s.net ++ [.frame p b [] (frameLight b [])] ∧ b.portRetire = true)
                  ∧ (portSt s' p).retiring = x.retiring - 1 ∧ s'.regs = s.regs ∧ SameMem s s')
              ∧ (portState s p = stOff → x.retiring = 0 → Answers (.frameSend port phase) s s)
              ∧ (portState s p = stTrain → Answers (.frameSend port phase) s (send s (.training p (trainLight (fusedWl s p)))))
              ∧ (portState s p = stFailsafe → Answers (.frameSend port phase) s
                (send s (.frame p { Fcb.zero with idleFault := true } [] idleLight)))))
  ∧ ((∀ (s : State) (port : BitVec 6) (h : PktHdr) (data : List Byte) (whole : Bool) (a : Nat), h.type = tyStream →
        .pkt port.toNat h data ∈ s.net →
        let e := streamAt s (h.addr % 4096)
        let off := h.addr / 4096 % 2 ^ 20
        e.kind = 1 → off + data.length ≤ e.size → decodeAddr s (e.land + off) = .lp a → LpGood s a data.length →
        inKeep s a data.length = false → s.failSafe = none → Gives (.stream port h data whole) s fun s' =>
          (∀ x, memByte s'.lp x = if a ≤ x ∧ x < a + data.length then data.getD (x - a) 0 else memByte s.lp x)
            ∧ (h.flags % 2 = 1 → whole = true → e.sig ≠ 0 → .signal .mgmt e.sig ∈ s'.net)
            ∧ (h.flags % 2 = 1 → whole = false → h.addr % 4096 ∈ s'.lastSeen)
            ∧ s'.regs = s.regs ∧ s'.spool = s.spool ∧ s'.flash = s.flash ∧ s'.tiles = s.tiles)
      ∧ ∀ (s : State) (port : BitVec 6) (data : List Byte), data.length = 4 → (∀ t ∈ listedTiles s, (s.tile t).dma = []) →
          rd s (lkPg port.toNat) lk_CFG_FOREIGN = 0 →
          let k := leNat data % 4096
          (portUp s port.toNat = true → Gives (.streamCredit port data) s fun s' =>
            streamUsed s' k = streamUsed s k - leNat data / 4096 ∧ (∀ j, j ≠ k → streamUsed s' j = streamUsed s j)
              ∧ s'.regs = s.regs ∧ SameMem s s')
            ∧ (portUp s port.toNat = false → (∀ q h d, .pkt q h d ∉ s.net) → Answers (.streamCredit port data) s s))
  ∧ (∀ (s : State) (port : BitVec 6) (data : List Byte), portUp s port.toNat = true →
      (∀ q h d, .pkt q h d ∉ s.net) →
      let p := port.toNat
      let n := lkPg p
      let twin := rd s n lk_PEER_MODULE = s.twin
      let stamp : W32 := BitVec.ofNat 32 (2 ^ 30 + rd s n lk_PEER_MODULE * 2 ^ 27)
      let s0 := progress s
      (rd s n lk_CFG_FOREIGN = 0 →
          ((portSt s p).peerLull = true → ∀ m, aboutRegion m = false → Answers (.rcv port m) s s)
            ∧ ((portSt s p).peerLull = false →
              (rd s gsPg gs_JOB_HOLD = 0 → s.recovery = none → Gives (.rcv port .jobHold) s fun s' =>
                  rd s' gsPg gs_JOB_HOLD = 1 ∧ s'.stowReq = none ∧ (∃ r, s'.recovery = some r ∧ r.drained = false)
                    ∧ SameMem s s')
                ∧ (rd s gsPg gs_JOB_HOLD = 1 → Answers (.rcv port .jobHold) s s0)
                ∧ (∀ m t, Answers (.rcv port (.lost m t)) s (send s0 (.lost m t)))
                ∧ (∀ bolt module : BitVec 3, ∀ off : Nat,
                    let far := bolt.toNat ≠ bits (ownId s) 23 21
                    let go := fun q => Answers (.rcv port (.homePart bolt module off data)) s
                      (sendRcv s0 q (.homePart bolt module off data))
                    (far → go (rackPort s bolt.toNat)) ∧ (¬ far → module.toNat = s.twin → go (boltPort s s.twin 0))
                      ∧ (¬ far → module.toNat ≠ s.twin → module.toNat = s.module → s.failSafe = none →
                        off + data.length ≤ rd s twPg tw_HOME_SIZE * 2 ^ 30 → LpGood s (homeBase s + off) data.length →
                        Gives (.rcv port (.homePart bolt module off data)) s fun s' =>
                          (∀ x, memByte s'.lp x = if homeBase s + off ≤ x ∧ x < homeBase s + off + data.length
                            then data.getD (x - (homeBase s + off)) 0 else memByte s.lp x)
                            ∧ s'.regs = s.regs ∧ s'.spool = s.spool ∧ s'.flash = s.flash ∧ s'.tiles = s.tiles))
                ∧ (s.mgmtRcv.length < 8 → Gives (.rcv port (.other data)) s fun s' =>
                    s'.mgmtRcv = s.mgmtRcv ++ [{ stamp := stamp, data := data }] ∧ s'.regs = s.regs ∧ SameMem s s'))
            ∧ (∀ off len, lpSilent s (keepBase s + off) len = false →
                (off + len ≤ keepSize s → len ≤ 4032 → twin → LpGood s (keepBase s + off) len →
                    Answers (.rcv port (.regionRead off len)) s
                      (sendRcv s0 p (.regionData off 0 (memRead s.lp (keepBase s + off) len))))
                  ∧ (keepSize s < off + len ∨ 4032 < len ∨ ¬ twin → Answers (.rcv port (.regionRead off len)) s
                      (sendRcv s0 p (.regionData off 3 []))))
            ∧ (∀ off r, s.twRun = some r → r.wait.contains off = true → twin →
                (Answers (.rcv port (.regionAck off 0)) s { s0 with twRun := some { r with wait := r.wait.erase off } })
                  ∧ ∀ rsp, rsp ≠ 0 → Gives (.rcv port (.regionAck off rsp)) s fun s' =>
                    s'.twRun = none ∧ Flag s' twPg tw_F_WRITE_FAIL ∧ rd s' twPg tw_BUSY = 0 ∧ rd s' twPg tw_STAGE = 0
                      ∧ SameMem s s')
            ∧ (∀ off, s.homeFetch = some off → twin → data ≠ [] → s.failSafe = none →
                LpGood s (homeBase s + off) data.length →
                let w := (lpStore s0 (homeBase s + off) data .ok).2
                Answers (.rcv port (.regionData off 0 data)) s (fetchHome w (off + data.length))
                  ∧ ∀ x, memByte w.lp x = if homeBase s + off ≤ x ∧ x < homeBase s + off + data.length
                      then data.getD (x - (homeBase s + off)) 0 else memByte s.lp x)
            ∧ (∀ off, s.lull = false → twin → rd s (lpPg 0) lp_FREEZE = 0 → off + data.length ≤ keepSize s →
                LpGood s (keepBase s + off) data.length →
                let w := (lpStore s0 (keepBase s + off) data .ok).2
                Answers (.rcv port (.regionWrite off data)) s (sendRcv (updatePartner w) p (.regionAck off 0))
                  ∧ w.regs = s.regs ∧ w.spool = s.spool ∧ w.flash = s.flash ∧ w.tiles = s.tiles
                  ∧ ∀ x, memByte w.lp x = if keepBase s + off ≤ x ∧ x < keepBase s + off + data.length
                      then data.getD (x - (keepBase s + off)) 0 else memByte s.lp x)
            ∧ (∀ off, ¬ twin ∨ rd s (lpPg 0) lp_FREEZE = 1 ∨ keepSize s < off + data.length ∨ s.lull = true →
                Answers (.rcv port (.regionWrite off data)) s (sendRcv s0 p (.regionAck off 3)))
            ∧ (∀ m : RcvMsg, carries s p .rcv = true → (portSt s p).failover = false →
                rd s n lk_STATUS_TAKEOVER_VALID = 0 → ∃ h : PktHdr, h.type = tyRcv ∧ h.len = (rcvBytes m).length
                  ∧ (portSt (sendRcv s p m) p).queue = (portSt s p).queue ++ mkCells .rcv h (rcvBytes m))
            ∧ (portState s p = stActive → (portSt s p).peerLull = false → s.mgmtBox.length < 56 → data.length ≤ 4096 →
                Gives (.mgt port data) s fun s' =>
                  s'.mgmtBox = s.mgmtBox ++ [{ stamp := stamp, data := data }] ∧ s'.regs = s.regs ∧ SameMem s s')
            ∧ (portState s p ≠ stActive ∨ (portSt s p).peerLull = true → Answers (.mgt port data) s s))
        ∧ (rd s n lk_CFG_FOREIGN = 1 → ∀ m, Gives (.rcv port m) s fun s' =>
            rd s' n lk_FOREIGN_DROP = min (rd s n lk_FOREIGN_DROP + 1) (2 ^ 32 - 1) ∧ Flag s' n lk_F_FOREIGN
              ∧ Logs s s' 2 0x0501 n (b1 p ++ b1 2) ∧ s'.mgmtRcv = s.mgmtRcv ∧ SameMem s s'))

/-- R69, R70, R327, R331, R332 and R339: a chunk that an open group expects is combined, element by element, and leaves the
group waiting while parts are missing; a second copy and a stale one change only their counters; one of another hem makes
the group invalid; a tile's contribution to a grid reduction goes by the header that opens it; a verdict is noted; a raise
starts the next attempt with empty buffers, an exhausted decision and a done reduction free the group, an all-reduce that is
done awaits its total, and each reaches the listed tiles; a CXU that is disabled, and the port group of another job, change
no group, and a port that carries no sequenced cells brings nothing (R320).

R331 and R333: an ABORT frees the group, tells its tiles, counts and is recorded.

The model's choices in it are those of log entries 62, 131, 132 and 133. -/
def Obligations.CollectivesCombineOrAbort : Prop :=
  (∀ (s : State) (gid : BitVec 24) (g : CxGroup), cxFind s gid.toNat = some g → g.op = g.d.op →
      let d := g.d
      let own := fun (src : CxSrc) => (∀ q h x, .pkt q h x ∉ s.net) ∧ ∀ q, srcGroup d src = some q →
        portUp s (groupPort s q) = true ∧ rd s (lkPg (groupPort s q)) lk_CFG_FOREIGN = 0
      (∀ (src : CxSrc) (k : BitVec 3) (chunk : Nat) (hem : BitVec 16) (data : List Byte) (last : Bool),
          (rd s cxPg cx_ENABLE = 1 → own src → srcKnown d src = true → src ≠ .parent → g.op ≠ 8 →
              ((∀ t, src ≠ .localTile t) ∨ isGr g.op = false) →
              (k.toNat < g.attempt → Gives (.cxData src gid k chunk hem data last none) s fun s' =>
                  s'.cx = s.cx ∧ rd s' cxPg cx_STALE = min (rd s cxPg cx_STALE + 1) (2 ^ 32 - 1)
                    ∧ OtherRegs s s' [(cxPg, cx_STALE.off)] ∧ SameMem s s')
                ∧ (k.toNat = g.attempt → g.got.contains (src, chunk) = true →
                    Gives (.cxData src gid k chunk hem data last none) s fun s' =>
                      cxFind s' gid.toNat = some g ∧ rd s' cxPg cx_DUP = min (rd s cxPg cx_DUP + 1) (2 ^ 32 - 1)
                        ∧ Flag s' cxPg cx_F_DUP ∧ SameMem s s')
                ∧ (k.toNat = g.attempt → g.got.contains (src, chunk) = false → outside g d src chunk data = false →
                    (isGr g.op = true → g.hem = some hem.toNat) →
                    let b := chunkBase g d src chunk
                    let g' := { joinChunk g d src b ((chunkVals d data).take (srcEnd g d src - b)) with
                                got := g.got ++ [(src, chunk)] }
                    g.up = true ∨ localDone s g' d = false ∨ childrenDone g' d = false →
                    Gives (.cxData src gid k chunk hem data last none) s fun s' =>
                      cxFind s' gid.toNat = some g' ∧ s'.regs = s.regs ∧ SameMem s s')
                ∧ (k.toNat = g.attempt → g.got.contains (src, chunk) = false → outside g d src chunk data = false →
                    isGr g.op = true → g.hem ≠ some hem.toNat → Gives (.cxData src gid k chunk hem data last none) s fun s' =>
                      cxFind s' gid.toNat = some { g with bad := true } ∧ Flag s' cxPg cx_F_HEM_MISMATCH
                        ∧ Logs s s' 3 0x0403 cxPg (leBytes 3 g.gid ++ b2 (g.hem.getD 0) ++ b2 hem.toNat) ∧ SameMem s s'))
            ∧ (∀ t : Tile, rd s cxPg cx_ENABLE = 1 → src = .localTile t → isGr g.op = true →
                .cxData src gid chunk data ∉ s.net → (∀ q h x, .pkt q h x ∉ s.net) →
                (∀ h, chunk = 0 → parseHdr t d data = some h →
                    Answers (.cxData src gid k chunk hem data last none) s
                      (contribute
                        { progress s with cxHdrs := s.cxHdrs.filter (fun x => !(x.tile == t && x.gid == d.gid)) ++ [h] }
                        g src h.attempt 0 h.hem (some (t, h.first, h.count)) (data.drop 64) none))
                  ∧ (chunk = 0 → parseHdr t d data = none → Gives (.cxData src gid k chunk hem data last none) s fun s' =>
                    s'.cx = s.cx ∧ Flag s' cxPg cx_F_BUF_OVER ∧ SameMem s s')
                  ∧ (chunk ≠ 0 → s.cxHdrs.any (fun x => x.tile == t && x.gid == d.gid) = false →
                    Answers (.cxData src gid k chunk hem data last none) s s))
            ∧ (rd s cxPg cx_ENABLE = 0 → own src → Gives (.cxData src gid k chunk hem data last none) s fun s' =>
                s'.cx = s.cx ∧ s'.regs = s.regs ∧ SameMem s s')
            ∧ (∀ q, srcGroup d src = some q → (∀ q h x, .pkt q h x ∉ s.net) → .cxData src gid chunk data ∉ s.net →
                (portUp s (groupPort s q) = true → rd s (lkPg (groupPort s q)) lk_CFG_FOREIGN = 1 →
                    Gives (.cxData src gid k chunk hem data last none) s fun s' =>
                      s'.cx = s.cx ∧ Flag s' (lkPg (groupPort s q)) lk_F_FOREIGN ∧ SameMem s s')
                  ∧ (portUp s (groupPort s q) = false → Answers (.cxData src gid k chunk hem data last none) s s)))
        ∧ (∀ b v i : Nat, g.bad = false →
            cxGet (joinChunk g d (.child 0) b [v]) d.lay i
              = if i = b then cxCombine g.op d.lay (cxGet g d.lay b) v % 2 ^ 128 else cxGet g d.lay i)
        ∧ (rd s cxPg cx_ENABLE = 1 →
            (∀ (src : CxSrc) (k : BitVec 3) (ov : Bool), own src → k.toNat = g.attempt → g.op = 8 → srcKnown d src = true →
                g.verdicts.any (fun v => v.1 == src) = false → g.up = true → Gives (.verdict src gid k ov) s fun s' =>
                  cxFind s' gid.toNat = some { g with verdicts := g.verdicts ++ [(src, ov)] } ∧ s'.regs = s.regs
                    ∧ SameMem s s')
              ∧ (own .parent → ∀ (k : BitVec 3) (hem : BitVec 16), d.op ≠ 0 →
                (k.toNat = g.attempt → Gives (.cxCtrl .parent gid .raise hem k) s fun s' =>
                    cxFind s' gid.toNat = some (nextAttempt g (g.attempt + 1) hem.toNat) ∧ s'.regs = s.regs ∧ SameMem s s'
                      ∧ ∀ t ∈ g.tiles, .decision t (BitVec.ofNat 24 g.gid) .raise hem k ∈ s'.net)
                  ∧ (Gives (.cxCtrl .parent gid .exhausted hem k) s fun s' =>
                    cxFind s' gid.toNat = none ∧ s'.regs = s.regs ∧ SameMem s s'
                      ∧ ∀ t ∈ g.tiles, .decision t (BitVec.ofNat 24 g.gid) .exhausted hem k ∈ s'.net)
                  ∧ (d.op = 7 → srcDone g .parent (edgeChunks d) = false →
                    Gives (.cxCtrl .parent gid .done hem k) s fun s' =>
                      cxFind s' gid.toNat = some { g with dec := true } ∧ s'.regs = s.regs ∧ SameMem s s'
                        ∧ ∀ t ∈ g.tiles, .decision t (BitVec.ofNat 24 g.gid) .done hem k ∈ s'.net)
                  ∧ (d.op = 6 → d.root = false → Gives (.cxCtrl .parent gid .done hem k) s fun s' =>
                    cxFind s' gid.toNat = none ∧ s'.regs = s.regs ∧ SameMem s s'
                      ∧ ∀ t ∈ g.tiles, .decision t (BitVec.ofNat 24 g.gid) .done hem k ∈ s'.net))))
  ∧ (∀ (s : State) (src : CxSrc) (gid : BitVec 24) (g : CxGroup), cxFind s gid.toNat = some g → rd s cxPg cx_ENABLE = 1 →
      (∀ q h x, .pkt q h x ∉ s.net) →
      (∀ q, srcGroup g.d src = some q → portUp s (groupPort s q) = true ∧ rd s (lkPg (groupPort s q)) lk_CFG_FOREIGN = 0) →
      Gives (.abort src gid) s fun s' =>
        cxFind s' gid.toNat = none ∧ Flag s' cxPg cx_F_ABORT ∧ rd s' cxPg cx_LAST_GROUP = gid.toNat
          ∧ rd s' cxPg cx_ABORTS = min (rd s cxPg cx_ABORTS + 1) (2 ^ 32 - 1)
          ∧ (∃ c, Logs s s' 3 0x0106 cxPg (leBytes 3 g.gid ++ b1 g.d.op ++ b1 c)) ∧ SameMem s s'
          ∧ ∀ t ∈ g.tiles,
              .decision t (BitVec.ofNat 24 g.gid) .exhausted (BitVec.ofNat 16 (g.hem.getD 0)) (BitVec.ofNat 3 g.attempt) ∈ s'.net)

/-! ### Hall time -/

/-- R350, R351 and R353: an ANNOUNCE on a port that is up becomes its offer; when that offer is the one candidate of a
module that is no root, the module follows it; an announcement leaves by every port that is up.

R214 and R357: a write of TM_T0 at least 2 µs ahead arms the origin and clears the stitch and rest counts; a later one
disarms it and sets T0_LATE.

The model's choices in it are those of log entries 55, 56 and 60. -/
def Obligations.TimeParentsAndOrigin : Prop :=
  ((∀ (s : State) (port : BitVec 6) (data : List Byte), portUp s port.toNat = true →
        let a := announceOf data
        let s1 := { s with offers := smPut (fun _ => none) s.offers port.toNat (some a) }
        Gives (.announce port data) s fun s' => smGet (fun _ => none) s'.offers port.toNat = some a ∧ s'.hallTime = s.hallTime
          ∧ SameMem s s'
          ∧ (rd s tmPg tm_ROOT_EN = 0 → (allOffers s1).filter (isCandidate s1) = [(port.toNat, a)] →
              rd s' tmPg tm_PARENT_VALID = 1 ∧ rd s' tmPg tm_PARENT_PORT = port.toNat ∧ rd s' tmPg tm_ROOT_ID = a.rootId
                ∧ rd s' tmPg tm_HOPS = min (a.hops + 1) 63))
      ∧ ∀ s : State, (∀ p, p < 64 → (portSt s p).failover = false ∧ rd s (lkPg p) lk_STATUS_TAKEOVER_VALID = 0) →
          Gives .announceSend s fun s' => SameMem s s' ∧ s'.hallTime = s.hallTime ∧ ∀ p, p < 64 →
            (portUp s p = true → ∃ h : PktHdr, h.type = tyTime ∧ h.addr = 1
              ∧ (portSt s' p).queue = (portSt s p).queue ++ mkCells .tim h (announceData (reparent s) p))
            ∧ (portUp s p = false → portSt s' p = portSt s p))
  ∧ (∀ (s : State) (v : BitVec 64), (programRuns s = true → Answers (.t0Arm v) s s) ∧ (programRuns s = false →
      locked s tmPg = false →
      (s.hallTime + 2000 * 2 ^ 48 ≤ v.toNat * 2 ^ 48 → Gives (.t0Arm v) s fun s' =>
          s'.t0 = some v.toNat ∧ rd64 s' tmPg tm_STITCH_LO tm_STITCH_HI = 0 ∧ rd64 s' gsPg gs_REST_LO gs_REST_HI = 0
            ∧ s'.rests = [] ∧ s'.begun = false ∧ rd64 s' tmPg tm_T0_LO tm_T0_HI = v.toNat ∧ SameMem s s')
        ∧ (v.toNat * 2 ^ 48 < s.hallTime + 2000 * 2 ^ 48 → Gives (.t0Arm v) s fun s' =>
          s'.t0 = none ∧ Flag s' tmPg tm_F_T0_LATE ∧ rd64 s' tmPg tm_T0_LO tm_T0_HI = v.toNat ∧ SameMem s s')))

/-- R346 to R348 and R353: an echo request, whose data name a wavelength, opens or ends that wavelength's echo path, for at
most 500 µs; a measurement of 4,096 pulses on each fibre whose two results for one fibre differ by more than 20 ps clears
VALID, and one that agrees stores half the difference of the mean delays; VALID ends with the wavelength.

R340, R345, R349, R351, R352 and R355: with a source of time the end of a filter period, whose offset lies within the
samples that came, removes the frequency error from RATE, inside ±100 ppm, and slews by at most 0.1 ppm; hall time steps
only outside a program and beyond 1 µs; LOCKED falls beyond 5 ps; holdover ends; the IEEE 1588 fallback begins, and the
messages of its domain over UDP on its port give its samples; at the active root an edge of TIME_1PPS takes the epoch, and
its distance from a whole second is the servo's sample.

R358 to R362: the loss of a PLL or of the reference drops the lock bits, is recorded and drives fail-safe;
the return of the reference, a relock and a resynchronisation change one register, a relock resets the Ethernet side of
its FIFOs, and a resynchronisation makes its FIFOs live and counts them; the loss of a
recovered clock puts the group's ports DOWN; the loss of the Ethernet PLL takes the four links.

The model's choices in it are those of log entries 57, 58, 61, 81, 148, 149, 154, 163, 169 and 174. -/
def Obligations.TimeIsKept : Prop :=
  (∀ (s : State) (port : BitVec 6),
      let p := port.toNat
      let w := rd s (lkPg p) lk_STATUS_ROT
      (portUp s p = true → ∀ data : List Byte, fieldAt data 0 1 ≤ 8 → Gives (.echoReq port data) s fun s' =>
          (portSt s' p).echo = (portSt s p).echo.filter (fun x => x.1 != fieldAt data 0 1)
              ++ (if fieldAt data 1 1 = 1 then [(fieldAt data 0 1, min (fieldAt data 2 2) 500)] else [])
            ∧ s'.regs = s.regs ∧ SameMem s s')
        ∧ (∀ data : List Byte, portUp s p = false ∨ 8 < fieldAt data 0 1 → Gives (.echoReq port data) s fun s' =>
            s'.ports = s.ports ∧ s'.regs = s.regs ∧ SameMem s s')
        ∧ (∀ data : List Byte, Gives (.echoAck port data) s fun s' =>
            s'.ports = s.ports ∧ s'.regs = s.regs ∧ SameMem s s')
        ∧ (∀ v : BitVec 4, Gives (.echoPathClose port v) s fun s' =>
            portSt s' p = { portSt s p with echo := (portSt s p).echo.filter (fun x => x.1 != v.toNat) } ∧ s'.regs = s.regs
              ∧ s'.net = s.net ∧ SameMem s s')
        ∧ (∀ own1 own2 peer : List (Nat × Nat),
            let apart := (echoSum own1 - echoSum own2).natAbs * 1000
            let half := divEven ((echoSum own2 - echoSum peer) * 1000) (2 * 4096 * 2 ^ 16)
            let whole := own1.length = 4096 ∧ own2.length = 4096 ∧ peer.length = 4096
            (portUp s p = false ∨ wlBad s p w = true → Answers (.echoMeasurement port own1 own2 peer) s s)
              ∧ (portUp s p = true → wlBad s p w = false → ¬ whole → Gives (.echoMeasurement port own1 own2 peer) s fun s' =>
                s'.regs = s.regs ∧ SameMem s s')
              ∧ (portUp s p = true → wlBad s p w = false → whole → 20 * 4096 * 2 ^ 16 < apart → Gives (.echoMeasurement port own1 own2 peer) s fun s' =>
                rdi s' tmPg tm_VALID p = 0 ∧ Flag s' tmPg tm_F_ASYM_FAIL ∧ rdi s' tmPg tm_ASYM p = rdi s tmPg tm_ASYM p
                  ∧ SameMem s s')
              ∧ (portUp s p = true → wlBad s p w = false → whole → apart ≤ 20 * 4096 * 2 ^ 16 →
                Gives (.echoMeasurement port own1 own2 peer) s fun s' =>
                  rdi s' tmPg tm_VALID p = 1 ∧ (-32768 ≤ half → half ≤ 32767 → rdi s' tmPg tm_ASYM p = encInt 16 half)
                    ∧ SameMem s s'))
        ∧ (rdi s tmPg tm_VALID p = 1 → wlBad s p w = true → Gives (.asymExpiry port) s fun s' =>
            rdi s' tmPg tm_VALID p = 0 ∧ Flag s' tmPg tm_F_ASYM_FAIL ∧ SameMem s s')
        ∧ (rdi s tmPg tm_VALID p = 0 ∨ wlBad s p w = false → Answers (.asymExpiry port) s s))
  ∧ (∀ s : State,
      (∀ offset freq ppb : Int,
          (∀ lo hi : Int, rd s tmPg tm_TSTATE ≠ tsFree → rd s tmPg tm_TSTATE ≠ tsHoldover → periodOver s = true →
              s.filt.span = some (lo, hi) → let v := max lo (min hi offset)
              Gives (.filterPeriod offset freq ppb) s fun s' =>
              rateNominal - rateSpan ≤ s'.rate ∧ s'.rate ≤ rateNominal + rateSpan
                ∧ (∃ e : Int, e.natAbs ≤ rateNominal / 10000000
                    ∧ s'.rate = clampN (rateNominal - rateSpan) (rateNominal + rateSpan) (rateFixed s.rate freq + e).toNat)
                ∧ rd s' tmPg tm_OFFSET = encInt 32 v
                ∧ (within v 1000000 = true ∨ programRuns s = true → s'.hallTime = s.hallTime)
                ∧ (within v 1000000 = false → programRuns s = false →
                    (s'.hallTime : Int) = ((s.hallTime : Int) - v * 2 ^ 32) % 2 ^ 112)
                ∧ (rd s tmPg tm_TSTATE = tsLocked → within v 5 = false →
                    rd s' tmPg tm_TSTATE = tsAcquire ∧ rd s' tmPg tm_LOCKED = 0) ∧ SameMem s s')
            ∧ (rd s tmPg tm_TSTATE = tsFree ∨ rd s tmPg tm_TSTATE = tsHoldover ∨ periodOver s = false ∨ s.filt.span = none →
              Gives (.filterPeriod offset freq ppb) s fun s' =>
              s'.rate = s.rate ∧ s'.hallTime = s.hallTime ∧ rd s' tmPg tm_TSTATE = rd s tmPg tm_TSTATE ∧ SameMem s s'))
        ∧ (rd s tmPg tm_TSTATE = tsHoldover → Gives .holdoverExpiry s fun s' =>
            rd s' tmPg tm_TSTATE = tsFree ∧ rd s' tmPg tm_LOCKED = 0 ∧ s'.rate = s.rate ∧ SameMem s s')
        ∧ (rd s tmPg tm_PTP_EN = 1 → hasRoot s = false → s.ptpSlave = false → Gives .ptpFallback s fun s' =>
            s'.ptpSlave = true ∧ rd s' tmPg tm_TSTATE = tsAcquire ∧ s'.hallTime = s.hallTime ∧ SameMem s s')
        ∧ (∀ (port : BitVec 2) (m : PtpMsg),
            let mine := s.ptpSlave = true ∧ rd s tmPg tm_PTP_PORT = port.toNat ∧ rd s tmPg tm_PTP_DOMAIN = m.domain.toNat
              ∧ m.udp = true
            let now := stampNow s m.phase
            let asks := fun (s' : State) (x : Ptp) => s'.ptp = x ∧ s'.regs = s.regs ∧ s'.hallTime = s.hallTime ∧ SameMem s s'
              ∧ s'.net = s.net ++ [.delayReq port.toNat m.domain.toNat m.seq]
            (mine → ∀ t1, m.kind = .sync (some t1) → Gives (.ptpMessage port m) s fun s' =>
                asks s' { seq := m.seq, t1 := some t1, t2 := some now, t3 := some now })
              ∧ (mine → m.kind = .sync none → Gives (.ptpMessage port m) s fun s' =>
                s'.ptp = { seq := m.seq, t1 := none, t2 := some now, t3 := none } ∧ s'.regs = s.regs ∧ s'.net = s.net
                  ∧ s'.hallTime = s.hallTime ∧ SameMem s s')
              ∧ (mine → ∀ t1 t2, m.kind = .followUp t1 → s.ptp = { seq := m.seq, t1 := none, t2 := some t2, t3 := none } →
                Gives (.ptpMessage port m) s fun s' =>
                  asks s' { seq := m.seq, t1 := some t1, t2 := some t2, t3 := some now })
              ∧ (mine → ∀ t1 t2 t3 t4, m.kind = .delayResp t4 →
                s.ptp = { seq := m.seq, t1 := some t1, t2 := some t2, t3 := some t3 } →
                let v := halfEven (((t2 : Int) - t1) - ((t4 : Int) - t3))
                Gives (.ptpMessage port m) s fun s' =>
                  s'.ptpSample = some v ∧ (∃ lo hi, s'.filt.span = some (lo, hi) ∧ lo ≤ v ∧ v ≤ hi) ∧ s'.regs = s.regs
                    ∧ s'.hallTime = s.hallTime ∧ SameMem s s')
              ∧ (¬ mine → Answers (.ptpMessage port m) s s))
        ∧ (Gives .time1pps s fun s' => s'.ppsSeen = true ∧ SameMem s s'
            ∧ (∀ e, s.epoch = some e → rd (reparent { s with ppsSeen := true }) tmPg tm_ACTIVE_ROOT = 1 →
                programRuns s = false → s'.hallTime = e * 2 ^ 48 ∧ s'.epoch = none)
            ∧ (s.epoch = none → s'.hallTime = s.hallTime
                ∧ (rd (reparent { s with ppsSeen := true }) tmPg tm_ACTIVE_ROOT = 1 →
                    s'.filt = { frames := 0, span := some (edgeOffset s / 2 ^ 32, edgeOffset s / 2 ^ 32) })
                ∧ (-2147483648 ≤ ppsDiff s → ppsDiff s ≤ 2147483647 → rd s' tmPg tm_PPS_DIFF = encInt 32 (ppsDiff s)))))
  ∧ (∀ s : State,
      (∀ link : Bool, Gives (.pllLoss link) s fun s' =>
          rd s' ckPg (if link then ck_LINK_LOCK else ck_ROOT_LOCK) = 0 ∧ Flag s' ckPg ck_F_PLL_LOSS ∧ s'.failSafe.isSome = true
            ∧ LogsFatal s s' 0x0802 ckPg (b1 (b2n link)) ∧ s'.lp = s.lp ∧ s'.spool = s.spool ∧ s'.flash = s.flash)
        ∧ (Gives .refLoss s fun s' =>
          rd s' ckPg ck_AON_INTERNAL = 1 ∧ rd s' ckPg ck_ROOT_LOCK = 0 ∧ rd s' ckPg ck_LINK_LOCK = 0
            ∧ Flag s' ckPg ck_F_REF_LOSS ∧ s'.failSafe.isSome = true ∧ LogsFatal s s' 0x0803 ckPg []
            ∧ s'.lp = s.lp ∧ s'.spool = s.spool ∧ s'.flash = s.flash)
        ∧ (∀ x : BitVec 8, x.toNat < 16 →
            let k := (s.fifos.filter (fun f => f.row == x.toNat)).length
              + (if x.toNat = 15 ∧ fifoBusy s 15 0 = false then 1 else 0)
            Gives (.fifoResync x) s fun s' => rd s' ckPg ck_RESYNC_CNT = min (rd s ckPg ck_RESYNC_CNT + k) (2 ^ 32 - 1)
              ∧ (∀ u, fifoBusy s' x.toNat u = false) ∧ (∀ r u, r ≠ x.toNat → fifoBusy s' r u = fifoBusy s r u)
              ∧ OtherRegs s s' [(ckPg, ck_RESYNC_CNT.off)] ∧ SameMem s s')
        ∧ (Gives .refclk100Return s fun s' => rd s' ckPg ck_AON_INTERNAL = 0 ∧ rd s' ckPg ck_ROOT_LOCK = rd s ckPg ck_ROOT_LOCK
            ∧ OtherRegs s s' [(ckPg, ck_AON_INTERNAL.off)] ∧ SameMem s s')
        ∧ (Gives .ethPllRelock s fun s' => rd s' ckPg ck_ETH_LOCK = 1
            ∧ (∀ r ∈ [11, 12, 13], ∀ u < 4, fifoBusy s' r u = true)
            ∧ OtherRegs s s' [(ckPg, ck_ETH_LOCK.off)] ∧ SameMem s s')
        ∧ (Gives .ethPllLoss s fun s' => rd s' ckPg ck_ETH_LOCK = 0 ∧ Flag s' ckPg ck_F_ETH_PLL_LOSS
            ∧ Logs s s' 3 0x080E ckPg [] ∧ (∀ n, n < 4 → rd s' (enPg n) en_LINK_UP = 0) ∧ s'.failSafe = s.failSafe ∧ SameMem s s')
        ∧ ∀ g : BitVec 4, Gives (.recoveredClockLost g) s fun s' => bit (rd s' ckPg ck_RX_LOCK) g.toNat = false
            ∧ (∀ i, i < 4 → portUp s (4 * g.toNat + i) = true ∨ portState s (4 * g.toNat + i) = stTrain →
                portState s' (4 * g.toNat + i) = stDown ∧ Flag s' (lkPg (4 * g.toNat + i)) lk_F_PORT_DOWN) ∧ SameStore s s')

/-- R363: a crossing whose pointers disagree sets XING_ERR, raises the FATAL record, and the module enters fail-safe.

The model's choices in it are those of log entry 112. -/
def Obligations.CrossingErrorIsFatal : Prop :=
  ∀ (s : State) (x : BitVec 8), x.toNat < 16 → Gives (.xingErr x) s fun s' =>
    rd s' ckPg ck_XING_ID = x.toNat ∧ Flag s' ckPg ck_F_XING_ERR ∧ s'.failSafe.isSome = true
      ∧ LogsFatal s s' 0x0804 ckPg (b1 x.toNat) ∧ s'.lp = s.lp ∧ s'.spool = s.spool ∧ s'.flash = s.flash

/-! ### Numerics and the twin -/

/-- R371 and R379: an observation raises the pending maximum of its entry alone, a NaN or an infinity counting as plus
infinity; one that comes after the step has closed is counted and recorded besides, and before the commit it waits for it.

R373, R374, R377, R386 and R397: a commit moves every entry on, writes the table image, entry by entry, and no other byte
of LPDDR5X, and then applies the observations that waited; the only drift entry with an observation is the drift watch's
largest; a load takes every entry from a good image and changes none from a bad one, from a line that does not read or in
self-refresh (R283); COLD_ALL makes every entry cold; while BUSY each of them is ignored.

The model's choices in it are those of log entry 67. -/
def Obligations.ScaleTracker : Prop :=
  (∀ (s : State) (e : BitVec 12) (x : W32), Gives (.observation e x) s fun s' =>
      let n := nmGet s e.toNat
      let waits := rd s nmPg nm_BUSY = 1 ∨ s.stepClosed = some false
      (waits → (∀ i, nmGet s' i = nmGet s i) ∧ s'.lateObs = s.lateObs ++ [(e.toNat, x)])
        ∧ (¬ waits → (nmGet s' e.toNat).pvalid = true
          ∧ (nmGet s' e.toNat).pend = (if infCode 6 ≤ x.toNat % 2 ^ 31 then inf32
              else if n.pvalid = true ∧ x.toNat ≤ n.pend.toNat then n.pend else x)
          ∧ (nmGet s' e.toNat).amax = n.amax ∧ (nmGet s' e.toNat).cold = n.cold ∧ s'.lateObs = s.lateObs)
        ∧ (∀ i, i ≠ e.toNat → nmGet s' i = nmGet s i)
        ∧ rd s' nmPg nm_OBS_CNT = min (rd s nmPg nm_OBS_CNT + 1) (2 ^ 32 - 1) ∧ SameMem s s'
        ∧ (rd s nmPg nm_BUSY = 1 ∨ s.stepClosed.isSome = true →
            Flag s' nmPg nm_F_LATE_OBS ∧ Logs s s' 2 0x0405 nmPg (b2 e.toNat)
              ∧ rd s' nmPg nm_LATE_CNT = min (rd s nmPg nm_LATE_CNT + 1) (2 ^ 32 - 1))
        ∧ (rd s nmPg nm_BUSY = 0 → s.stepClosed = none → OtherRegs s s' [(nmPg, nm_OBS_CNT.off)] ∧ s'.logQ = s.logQ))
  ∧ (∀ s : State, locked s nmPg = false → rd s nmPg nm_BUSY = 0 →
      (lpSilent s (nmTable s) 65536 = false → Gives .nmCommit s fun s' =>
          (∀ i, nmGet s' i = (s.lateObs.filter (fun o => o.1 == i)).foldl (fun e o => nmObserve e o.2) (nmCommitEnt (nmGet s i)))
          ∧ s'.lateObs = []
          ∧ (∀ i, i < 4096 → (∀ j, ((nmGet s j).drift = true ∧ (nmGet s j).pvalid = true) ↔ j = i) →
              rd s' nmPg nm_DW_MAX = (nmCommitEnt (nmGet s i)).amax.toNat ∧ rd s' nmPg nm_DW_ENTRY = i)
          ∧ (∀ i, i < 4096 → memRead s'.lp (nmTable s + 16 * i) 16 = nmImage (nmCommitEnt (nmGet s i)))
          ∧ (∀ a, a < nmTable s ∨ nmTable s + 65536 ≤ a → memByte s'.lp a = memByte s.lp a)
          ∧ rd s' nmPg nm_COMMITS = (rd s nmPg nm_COMMITS + 1) % 2 ^ 32 ∧ rd s' nmPg nm_OBS_CNT = 0
          ∧ s'.spool = s.spool ∧ s'.flash = s.flash ∧ s'.tiles = s.tiles)
        ∧ (lpSilent s (nmTable s) 65536 = true → Gives .nmCommit s fun s' =>
          (∀ i, nmGet s' i = (s.lateObs.filter (fun o => o.1 == i)).foldl (fun e o => nmObserve e o.2) (nmCommitEnt (nmGet s i)))
          ∧ s'.lateObs = [] ∧ SameMem s s')
        ∧ (lpSilent s (nmTable s) 65536 = true → Gives .nmLoad s fun s' =>
            s'.nm = s.nm ∧ rd s' nmPg nm_LOAD_ERR = 1 ∧ SameMem s s')
        ∧ (lpSilent s (nmTable s) 65536 = false → lpIsBad s (nmTable s) 65536 = true → Gives .nmLoad s fun s' =>
            s'.nm = s.nm ∧ rd s' nmPg nm_LOAD_ERR = 1 ∧ SameMem s s')
        ∧ (lpSilent s (nmTable s) 65536 = false → LpGood s (nmTable s) 65536 → (∀ i, i < 4096 → nmImageOk (nmAt s i) = true) →
            Gives .nmLoad s fun s' => (∀ i, i < 4096 → nmGet s' i = nmFromImage (nmAt s i))
              ∧ rd s' nmPg nm_LOAD_ERR = 0 ∧ rd s' nmPg nm_COMMITS = 0 ∧ SameMem s s')
        ∧ (lpSilent s (nmTable s) 65536 = false → LpGood s (nmTable s) 65536 → (∃ i, i < 4096 ∧ nmImageOk (nmAt s i) = false) →
            Gives .nmLoad s fun s' => s'.nm = s.nm ∧ rd s' nmPg nm_LOAD_ERR = 1 ∧ SameMem s s')
        ∧ (Gives .coldAll s fun s' => (∀ i, nmGet s' i =
              { nmGet s i with amax := 0, hist := 0, nonfin := false, cold := true })
            ∧ rd s' nmPg nm_COMMITS = 0 ∧ SameMem s s'))
  ∧ (∀ s : State, locked s nmPg = false → rd s nmPg nm_BUSY = 1 →
      ∀ c ∈ [Instr.nmCommit, .nmLoad, .coldAll], Answers c s (wrej s nmPg))

/-- R391 and R399: GO and KAT run the bobbin function on the page's inputs, or on a known-answer input, and leave its 128
bits in the result registers; a reported mismatch is flagged and recorded.

R378, R428 and R439: at a step boundary an outstanding baste sample makes the commit wait; otherwise BB_STEP moves on,
and with the twin engine on the step is committed at home, whose record then stands at its place. With the engine off the
module has committed the step and enters the barrier; a module in fail-safe computes nothing (R448).

The model's choices in it are those of log entry 68. -/
def Obligations.BobbinsAndSteps : Prop :=
  (∀ s : State, locked s bbPg = false →
      let out := fun (s' : State) (r : W128) => (∀ w, w < 4 → rdi s' bbPg bb_OUT w = bits r.toNat (32 * w + 31) (32 * w))
        ∧ rd s' bbPg bb_DONE = 1 ∧ SameMem s s'
      (Gives .bbGo s fun s' => out s' (bobbin (BitVec.ofNat 64 (rd64 s bbPg bb_SEED_LO bb_SEED_HI))
          (BitVec.ofNat 32 (rd s bbPg bb_IN_STREAM)) (BitVec.ofNat 32 (rd s bbPg bb_IN_STEP))
          (BitVec.ofNat 64 (rd64 s bbPg bb_IN_CTR_LO bb_IN_CTR_HI))))
        ∧ (Gives .bbKat s fun s' =>
            let k := katInput (rd s bbPg bb_KAT_IDX)
            out s' (bobbin k.1 k.2.1 k.2.2.1 k.2.2.2))
        ∧ (Gives .katFailed s fun s' => Flag s' bbPg bb_F_KAT_FAIL ∧ Logs s s' 3 0x0805 bbPg (b1 (rd s bbPg bb_KAT_IDX))
            ∧ OtherRegs s s' ([(bbPg, pg_PG_SEQ.off)] ++ flagRegs bbPg ++ logRegs 3) ∧ SameMem s s'))
  ∧ (∀ s : State, s.stepClosed = some true ∨ s.failSafe.isSome = true → Answers .stepBoundary s s)
  ∧ (∀ s : State, s.stepClosed ≠ some true → s.failSafe = none →
      (basteOut s = true → Gives .stepBoundary s fun s' =>
          s'.stepClosed = some false ∧ s'.regs = s.regs ∧ s'.nm = s.nm ∧ SameMem s s')
        ∧ (basteOut s = false → Gives .stepBoundary s fun s' =>
          rd s' bbPg bb_STEP = (rd s bbPg bb_STEP + 1) % 2 ^ 32
            ∧ (rd s twPg tw_ENABLE = 1 → s.lpBad = [] → s.lpWeak = [] →
                s'.stepClosed = some true ∧ s'.spool = s.spool ∧ s'.flash = s.flash
                ∧ s'.tiles = s.tiles ∧ rd s' twPg tw_STEP = rd s bbPg bb_STEP
                ∧ (rd s twPg tw_BUSY = 0 → locked s twPg = false → rd s' twPg tw_HOME_STEP = rd s bbPg bb_STEP))
            ∧ (rd s twPg tw_ENABLE = 0 → rd s cxPg cx_ENABLE = 0 → s'.barrier = some (rd s bbPg bb_STEP)
                ∧ .barrier (rd s bbPg bb_STEP) ∈ s'.net ∧ s'.spool = s.spool ∧ s'.flash = s.flash ∧ s'.tiles = s.tiles)))

/-- R293, R439, R445 and R455: a commit writes the home record of its step, then sends the sections; a response other than
OK stops it with WRITE_FAIL; a seed sends every section without a home commit; the table follows when the sections have
their responses, the record when the table has, and no write leaves while one waits for its response; the end of a copy
reports the step to the barrier.

The model's choices in it are those of log entries 68, 109, 137 and 143. -/
def Obligations.TwinCopiesTheStep : Prop :=
  (∀ s : State, rd s twPg tw_ENABLE = 1 → locked s twPg = false → rd s twPg tw_BUSY = 0 →
    let n := rd s twPg tw_STEP
    (lpSilent s (homeBase s) 64 = false → s.lpBad = [] →
        (Gives (.twCommit 0) s fun s' => rd s' twPg tw_HOME_STEP = n
            ∧ memNat s'.lp (recAddr (homeBase s) (n % 2)) 8 = keepMagic
            ∧ memNat s'.lp (recAddr (homeBase s) (n % 2) + 0x10) 8 = n
            ∧ rd s' twPg tw_BUSY = 1 ∧ rd s' twPg tw_STAGE = 1
            ∧ s'.twRun = some { step := n, seed := false, sent := 0, wait := [] }
            ∧ s'.net = s.net ∧ s'.spool = s.spool ∧ (s.lpWeak = [] → s'.flash = s.flash) ∧ s'.tiles = s.tiles)
          ∧ (twinPathUp s = true → Gives (.twSeed 0) s fun s' =>
              rd s' twPg tw_BUSY = 1 ∧ rd s' twPg tw_STAGE = 2
                ∧ s'.twRun = some { step := n, seed := true, sent := 1, wait := (stepSections s n true).map secOff }
                ∧ rd s' twPg tw_HOME_STEP = rd s twPg tw_HOME_STEP ∧ s'.net = s.net ++ (stepSections s n true).map
                  (fun e => .twinWrite (secOff e) (memRead s.lp (homeBase s + secOff e) (secLen e))) ∧ SameMem s s'))
      ∧ ∀ rsp : BitVec 8, lpSilent s (homeBase s) 64 = true ∨ rsp ≠ 0 → ∀ c ∈ [Instr.twCommit rsp, .twSeed rsp],
          Gives c s fun s' => Flag s' twPg tw_F_WRITE_FAIL ∧ rd s' twPg tw_BUSY = 0 ∧ rd s' twPg tw_STAGE = 0
            ∧ s'.twRun = none ∧ rd s' twPg tw_HOME_STEP = rd s twPg tw_HOME_STEP ∧ s'.net = s.net ∧ SameMem s s')
  ∧ (∀ (s : State) (r : TwRun), s.twRun = some r →
      let b := homeBase s
      let k := r.step % 2
      let waits := fun (sent : Nat) (off : Nat) (x : State) => x.twRun = some { r with sent := sent, wait := [off] }
      (twinPathUp s = true →
        (r.wait ≠ [] → twTick s = s)
          ∧ (r.wait = [] →
            (r.sent = 0 → s.lpBad = [] →
                let es := stepSections s r.step r.seed
                (twTick s).net = s.net ++ es.map (fun e => .twinWrite (secOff e) (memRead s.lp (b + secOff e) (secLen e)))
                  ∧ (twTick s).twRun = some { r with sent := 1, wait := es.map secOff } ∧ SameMem s (twTick s))
              ∧ (r.sent = 1 → (twTick s).net = s.net ++ [.twinWrite (tableAddr 0 k)
                    (memRead s.lp (tableAddr b k) (64 * min (recNsec s b k) 8192))]
                  ∧ rd (twTick s) twPg tw_TWIN_STEP = rd s twPg tw_TWIN_STEP ∧ waits 2 (tableAddr 0 k) (twTick s)
                  ∧ SameMem s (twTick s))
              ∧ (r.sent = 2 → (twTick s).net = s.net ++ [.twinWrite (recAddr 0 k) (memRead s.lp (recAddr b k) 128)]
                  ∧ rd (twTick s) twPg tw_TWIN_STEP = r.step % 2 ^ 32 ∧ waits 3 (recAddr 0 k) (twTick s)
                  ∧ SameMem s (twTick s))
              ∧ (3 ≤ r.sent → r.seed = true → (twTick s).twRun = none ∧ rd (twTick s) twPg tw_BUSY = 0
                  ∧ SameMem s (twTick s)))
          ∧ (r.seed = false → 3 ≤ r.sent → r.wait = [] → Gives .stepCommitted s fun s' =>
              rd s' twPg tw_BUSY = 0 ∧ s'.twRun = none ∧ .barrier r.step ∈ s'.net)
          ∧ (r.seed = true ∨ r.sent < 3 ∨ r.wait ≠ [] → Answers .stepCommitted s s))
        ∧ (twinPathUp s = false → Gives .stepCommitted s fun s' =>
            Flag s' twPg tw_F_WRITE_FAIL ∧ rd s' twPg tw_BUSY = 0 ∧ s'.twRun = none ∧ SameMem s s'))

/-! ### Loading, stowing, recovery and tests -/

/-- R223, R224 and R493: a program image that passes every check begins its transfer, whose round 0 sends every segment
and END, and the command waits for it; one that fails is refused with the reason of the first check, and the program in
force stays; one that cannot be read completes with ERR_UE (R280). Without an owner key the reason is 2 (R525). R450 and
R476: before B8 no image is accepted.

R494 to R500: a segment that a tile needs is written by its load port and noted as received, and any other changes
nothing; END is answered with what is missing or with the verdict; a tile that is OFF answers MB_ERR_OFF to both (R18); a
tile's DIGEST_OK arrives on line k0; the window's end begins the next round, up to round 8, after which the laggards are
reset and receive their payloads anew, or the load is refused with reason 15 where a row lacks spares (R496).

The model's choices in it are those of log entries 10 and 70. -/
def Obligations.LoadsAndTransfers : Prop :=
  (∀ (s : State) (q : QRef) (h : HostQ) (e key : List Byte), EntryRuns s q 0x44 h e → s.mgmtBusy = none →
      let a := arg e 0
      let t := taken s q h
      let r := if headReason t a (arg e 1) key ≠ 0 then headReason t a (arg e 1) key
        else bodyReason t (a + 0x300) (img t a 0x3C 4)
      let refused := fun r => Posts (.load q key) s q h e csRefused r fun s' =>
        rd s' mgPg mg_LOAD_REASON = r ∧ Flag s' mgPg mg_F_LOAD_REFUSED ∧ s'.image = s.image ∧ s'.xfer = s.xfer ∧ SameMem s s'
      (s.sec.owner = none → refused 2)
        ∧ (s.sec.owner.isSome = true → rd s mgPg mg_PHASE < 8 ∨ s.stopped = true →
            ∃ d, Posts (.load q key) s q h e csRefused d fun s' =>
              s'.image = s.image ∧ s'.xfer = s.xfer ∧ s'.regs = s.regs ∧ SameMem s s')
        ∧ (s.sec.owner.isSome = true → 8 ≤ rd s mgPg mg_PHASE → s.stopped = false →
          (inLp a (arg e 1) = false → Posts (.load q key) s q h e csErrUnmapped 0 fun s' =>
              s'.image = s.image ∧ s'.xfer = s.xfer ∧ s'.regs = s.regs ∧ SameMem s s')
            ∧ (inLp a (arg e 1) = true → lpIsBad s a (arg e 1) = true → Posts (.load q key) s q h e csErrUe rUe fun s' =>
              s'.image = s.image ∧ s'.xfer = s.xfer ∧ SameMem s s')
            ∧ (inLp a (arg e 1) = true → LpGood s a (arg e 1) → r = 0 → Gives (.load q key) s fun s' => s'.image = none
              ∧ (∃ x : Xfer, x = { addr := a, len := arg e 1, round := 0, targets := s.tileList, have_ := [], answered := [] }
                ∧ s'.xfer = some x ∧ (∀ u ∈ s.tileList, .endRound u 0 ∈ s'.net)
                ∧ ∀ n ∈ segments (xferSecs s' x), .segment (s.tileList.filter (fun u => (needed (xferSecs s' x) u).contains n)) n
                    (segBytes s' (a + 0x300) (xferSecs s' x) n) ∈ s'.net)
              ∧ s'.mgmtBusy = some { op := 0x44, key := qref q } ∧ rd s' mgPg mg_ROUND = 0 ∧ s'.spool = s.spool
              ∧ s'.flash = s.flash)
            ∧ (inLp a (arg e 1) = true → LpGood s a (arg e 1) → r ≠ 0 → refused r)))
  ∧ (∀ s : State,
      (∀ (t : Tile) (n : Nat), t.toNat < s.ntiles →
          (s.net.find? (segFor t n) = none → Answers (.segment (.noc t n)) s s)
            ∧ (s.net.find? (endFor t) = none → Answers (.endRound (.noc t)) s s)
            ∧ (s.tileOff t = true → ∀ c, (c = .segment (.noc t n) ∧ (s.net.find? (segFor t n)).isSome = true)
                  ∨ (c = .endRound (.noc t) ∧ (s.net.find? (endFor t)).isSome = true) →
                Gives c s fun s' => .remoteRsp s.module none none rOff ∈ s'.net ∧ s'.xfer = s.xfer ∧ s'.regs = s.regs
                  ∧ SameMem s s'))
        ∧ (∀ (t : Tile) (x : Xfer), t.toNat < s.ntiles → s.tileOff t = false → s.xfer = some x →
          (∀ (ts : List Tile) (i : Nat) (bs : List Byte), s.net.find? (segFor t i) = some (.segment ts i bs) →
              (t ∈ x.targets → i ∈ missing s x t → Gives (.segment (.noc t i)) s fun s' =>
                  s'.xfer = some { x with have_ := x.have_ ++ [(t, i)] }
                    ∧ s'.tile t = (putSegment s t (xferSecs s x) i bs).tile t
                    ∧ s'.spool = (putSegment s t (xferSecs s x) i bs).spool
                    ∧ (∀ u, u ≠ t → s'.tile u = s.tile u) ∧ s'.lp = s.lp ∧ s'.flash = s.flash ∧ s'.regs = s.regs)
                ∧ (t ∉ x.targets ∨ i ∉ missing s x t → Gives (.segment (.noc t i)) s fun s' =>
                  s'.xfer = s.xfer ∧ s'.regs = s.regs ∧ SameMem s s'))
            ∧ (t ∈ x.targets →
              ((s.net.find? (endFor t)).isSome = true →
                (missing s x t ≠ [] → Gives (.endRound (.noc t)) s fun s' =>
                    .status t (.incomplete (missing s x t)) ∈ s'.net ∧ s'.xfer = s.xfer ∧ s'.regs = s.regs ∧ SameMem s s')
                  ∧ (missing s x t = [] → payloadOk s (x.addr + 0x300) (xferSecs s x) t = true →
                    Gives (.endRound (.noc t)) s fun s' =>
                      .status t .digestOk ∈ s'.net ∧ s'.xfer = s.xfer ∧ s'.regs = s.regs ∧ SameMem s s')
                  ∧ (missing s x t = [] → payloadOk s (x.addr + 0x300) (xferSecs s x) t = false →
                    Gives (.endRound (.noc t)) s fun s' => .status t .digestBad ∈ s'.net ∧ s'.regs = s.regs ∧ SameMem s s'
                      ∧ s'.xfer = some { x with have_ := x.have_.filter (fun c => c.1 != t) }))
              ∧ (reported x t = false → Gives (.status t .digestOk) s fun s' =>
                tackPend s' t 0 = true ∧ (∃ y, s'.xfer = some y ∧ reported y t = true ∧ y.have_ = x.have_) ∧ SameMem s s')
              ∧ (reported x t = false → ∀ st, st ≠ .digestOk → Gives (.status t st) s fun s' =>
                (∃ y, s'.xfer = some y ∧ (t, st) ∈ y.answered ∧ y.have_ = x.have_) ∧ s'.regs = s.regs ∧ SameMem s s')
              ∧ (reported x t = true → ∀ st, Gives (.status t st) s fun s' =>
                s'.xfer = s.xfer ∧ s'.regs = s.regs ∧ SameMem s s')))
        ∧ (∀ x : Xfer, s.xfer = some x →
            let ls := x.targets.filter (fun t => !reported x t)
            let short := ∃ y ∈ ls.map (fun t => t.toNat / s.ncols),
              spareLeft s y < (ls.filter (fun t => t.toNat / s.ncols == y)).length
            (ls = [] → Answers .statusWindow s s)
            ∧ (ls ≠ [] → x.round < 8 → LpGood s x.addr x.len → Gives .statusWindow s fun s' =>
              (∃ y, s'.xfer = some y ∧ y.round = x.round + 1 ∧ y.have_ = x.have_) ∧ rd s' mgPg mg_ROUND = x.round + 1
                ∧ (∀ t ∈ ls, .endRound t (x.round + 1) ∈ s'.net)
                ∧ (∀ t ∈ ls, ∀ n ∈ takenMissing s x t, ∃ ts, .segment ts n (segBytes s (x.addr + 0x300) (xferSecs s x) n) ∈ s'.net)
                ∧ OtherRegs s s' [(mgPg, mg_ROUND.off)] ∧ SameMem s s')
            ∧ (ls ≠ [] → 8 ≤ x.round → Gives .statusWindow s fun s' => Flag s' mgPg mg_F_LAGGARD
              ∧ (short → s'.xfer = none ∧ rd s' mgPg mg_LOAD_REASON = 15 ∧ Flag s' mgPg mg_F_LOAD_REFUSED ∧ s'.mgmtBusy = none)
              ∧ (¬ short → rd s' mgPg mg_ROUND = 0 ∧ ∃ y, s'.xfer = some y ∧ y.round = 0 ∧ y.addr = x.addr
                ∧ (∀ t ∈ ls, t ∈ y.targets ∧ reported y t = false) ∧ ∀ t ∈ ls, ∀ i, (t, i) ∉ y.have_))))

/-- R409, R411 and R412: a stow is accepted with its area and its stitch, or refused on a bad area or a stitch that has
begun; once every tile is in its handler and the network is quiet the module's state is saved under a header that begins
with JTSTOWIM, an uncorrectable spool word abandons the stow (R274, R414), and until then nothing is saved.

R413: a resume whose header does not match is refused with the field's reason and recorded, and changes no memory; one
that matches takes the saved stitch as the resume base and arms the origin; an area that cannot be read completes it with
ERR_UE (R280).

The model's choices in it are those of log entries 10, 16 and 69. -/
def Obligations.StowsAndResumes : Prop :=
  (∀ s : State,
      (∀ (q : QRef) (h : HostQ) (e : List Byte), EntryRuns s q 0x46 h e → s.mgmtBusy = none →
          let k := arg e 0
          let a := arg e 1
          (a % 2 ^ 30 ≠ 0 ∨ inLp a areaBytes = false → Posts (.stow q) s q h e csBadField 0x10 fun s' =>
              s'.stowReq = s.stowReq ∧ s'.regs = s.regs ∧ SameMem s s')
            ∧ (a % 2 ^ 30 = 0 → inLp a areaBytes = true →
                (areaBad (taken s q h) a = true → Posts (.stow q) s q h e csRefused 1 fun s' =>
                    s'.stowReq = s.stowReq ∧ Logs s s' 2 0x0812 mgPg (leBytes 8 a) ∧ SameMem s s')
                  ∧ (areaBad (taken s q h) a = false → k ≤ s.nextStitch → ∃ d, Posts (.stow q) s q h e csRefused d fun s' =>
                    s'.stowReq = s.stowReq ∧ Logs s s' 2 0x0806 mgPg (leBytes 8 k) ∧ SameMem s s')
                ∧ (areaBad (taken s q h) a = false → s.nextStitch < k → Posts (.stow q) s q h e csOK 0 fun s' =>
                      s'.stowReq = some { k := k, area := a } ∧ s'.regs = s.regs ∧ s'.lp = s.lp ∧ s'.spool = s.spool)))
        ∧ (s.stowReq = none ∨ stowReady s = false → Answers .stowSave s s)
        ∧ (∀ r : StowReq, s.stowReq = some r → stowReady s = true → (∃ u, u < s.ntiles ∧ spIsBad s (s.ptile u) 0 0x500000 = true) →
            Gives .stowSave s fun s' => s'.stowReq = none ∧ s'.lp = s.lp ∧ s'.spool = s.spool ∧ s'.tiles = s.tiles)
        ∧ (∀ r : StowReq, s.stowReq = some r → stowReady s = true → (∀ u, u < s.ntiles → SpGood s (s.ptile u) 0 0x500000) →
            Gives .stowSave s fun s' =>
            s'.stowReq = none ∧ memRead s'.lp r.area 8 = stowMagic ∧ memNat s'.lp (r.area + 8) 8 = jobId s
              ∧ memNat s'.lp (r.area + 0x10) 8 = r.k % 2 ^ 64 ∧ Logs s s' 0 0x0807 mgPg (leBytes 8 r.k)
              ∧ s'.spool = s.spool ∧ s'.flash = s.flash ∧ s'.tiles = s.tiles))
  ∧ (∀ (s : State) (q : QRef) (h : HostQ) (e : List Byte) (t0 : BitVec 64), EntryRuns s q 0x47 h e →
      s.mgmtBusy = none →
      let r := resumeReason (taken s q h) (arg e 0)
      let k := memNat s.lp (arg e 0 + 0x10) 8
      (arg e 0 % 2 ^ 30 ≠ 0 ∨ inLp (arg e 0) areaBytes = false → Posts (.resume q t0) s q h e csBadField 0x08 fun s' =>
          s'.nextStitch = s.nextStitch ∧ s'.regs = s.regs ∧ SameMem s s')
      ∧ (arg e 0 % 2 ^ 30 = 0 → inLp (arg e 0) areaBytes = true → lpIsBad s (arg e 0) areaBytes = true →
          Posts (.resume q t0) s q h e csErrUe rUe fun s' => s'.nextStitch = s.nextStitch ∧ SameMem s s')
      ∧ (arg e 0 % 2 ^ 30 = 0 → inLp (arg e 0) areaBytes = true → LpGood s (arg e 0) areaBytes →
      (r ≠ 0 → Posts (.resume q t0) s q h e csRefused r fun s' =>
          Logs s s' 3 0x0809 mgPg (b1 r) ∧ s'.nextStitch = s.nextStitch ∧ SameMem s s')
        ∧ (r = 0 → Posts (.resume q t0) s q h e csOK 0 fun s' =>
          s'.nextStitch = k ∧ rd64 s' gsPg gs_KBASE_LO gs_KBASE_HI = k
            ∧ rd s' bbPg bb_STEP = memNat s.lp (arg e 0 + 0x18) 4 ∧ rd64 s' tmPg tm_T0_LO tm_T0_HI = t0.toNat
            ∧ s'.lp = s.lp ∧ s'.flash = s.flash)))

/-- R491, R495, R497 and R498: a firmware segment for the module goes to the staging area, or to flash in network
recovery; END is answered with what is missing or with the verdict; a checked image is activated: flash holds it, and the
module starts a cold bring-up. While a program runs the answer to ACTIVATE is INCOMPLETE without a missing segment, and
without a whole and checked transfer the previous image stays; bytes that are no such datagram change nothing.

R502, R503 and R525: after B7 a manifest that passes its checks is in force, stored and answered OK; one that fails is
refused with its reason. Before B7 it waits. One that cannot be read completes with ERR_UE (R280).

The model's choices in it are those of log entries 10, 74, 75, 83 and 156. -/
def Obligations.FirmwareAndManifests : Prop :=
  (∀ (s : State) (port : BitVec 2) (bs : List Byte),
      (∀ d : Dgram, takeDgram s port 1 bs = some d →
          (s.netRecovery = none → takesFirmware s = true → Gives (.segment (.net port bs)) s fun s' =>
              memRead s'.lp (stageBase s + 8192 * d.index) 8192 = padTo 8192 d.data
                ∧ (∀ a, a < stageBase s + 8192 * d.index ∨ stageBase s + 8192 * (d.index + 1) ≤ a →
                    memByte s'.lp a = memByte s.lp a)
                ∧ (∃ x, s'.rxXfer = some x ∧ x.id = d.id ∧ x.count = d.count ∧ d.index ∈ x.have_) ∧ s'.flash = s.flash
                ∧ s'.spool = s.spool ∧ s'.regs = s.regs)
            ∧ (s.netRecovery.isSome = true → Gives (.segment (.net port bs)) s fun s' =>
              memRead s'.flash (8192 * d.index) 8192 = padTo 8192 d.data
                ∧ (∃ x, s'.rxXfer = some x ∧ x.id = d.id ∧ x.count = d.count ∧ d.index ∈ x.have_)
                ∧ (∀ a, fwArea ≤ a → memByte s'.flash a = memByte s.flash a)
                ∧ s'.lp = s.lp ∧ s'.spool = s.spool ∧ s'.regs = s.regs)
            ∧ (takesFirmware s = false → Answers (.segment (.net port bs)) s s))
        ∧ (∀ (d : Dgram) (key : List Byte), takeDgram s port 2 bs = some d →
          (takesFirmware s = true → s.netRecovery.isSome = true ∨ LpGood s (stageBase s) (8192 * d.count) →
              Gives (.endRound (.net port bs key)) s fun s' =>
                let x := (joinXfer s d).1
                let st := moduleStatus (joinXfer s d).2 x key
                s'.net = s.net ++ [.datagram port.toNat (xferDatagram 3 d.round d.id 0 d.count (statusBytes d.count st))]
                  ∧ s'.rxXfer = some { x with have_ := if st = .digestBad then [] else x.have_, digestOk := st == .digestOk }
                  ∧ (∀ a, fwArea ≤ a → memByte s'.flash a = memByte s.flash a) ∧ (s.netRecovery = none → s'.flash = s.flash)
                  ∧ s'.lp = s.lp ∧ s'.spool = s.spool ∧ s'.regs = s.regs)
            ∧ (takesFirmware s = false → Answers (.endRound (.net port bs key)) s s))
        ∧ (takeDgram s port 1 bs = none → Answers (.segment (.net port bs)) s s)
        ∧ (takeDgram s port 2 bs = none → ∀ key, Answers (.endRound (.net port bs key)) s s)
        ∧ (takeDgram s port 4 bs = none → Answers (.activate port bs) s s)
        ∧ (∀ d : Dgram, takeDgram s port 4 bs = some d →
          (∀ x : RxXfer, programRuns s = false → s.rxXfer = some x → x.id = d.id → x.digestOk = true →
              takesFirmware s = true → s.netRecovery = none → LpGood s (stageBase s) (8192 * x.count) →
              Gives (.activate port bs) s fun s' =>
                let n := min (8192 * x.count) fwArea
                memRead s'.flash 0 n = memRead s.lp (stageBase s) n
                  ∧ (∀ a, fwArea ≤ a → (∀ i, i < 2 → a < timeBase i ∨ timeBase i + 16 ≤ a) →
                      memByte s'.flash a = memByte s.flash a) ∧ s'.entered = false ∧ s'.rxXfer = none
                  ∧ rd s' mgPg mg_PHASE = 0 ∧ rd s' mgPg mg_RECOVERED = 0 ∧ s'.lp = s.lp ∧ s'.spool = s.spool)
            ∧ (programRuns s = true → Gives (.activate port bs) s fun s' =>
              s'.net = s.net ++ [.datagram port.toNat (xferDatagram 3 d.round d.id 0 d.count (statusBytes d.count (.incomplete [])))]
                ∧ s'.regs = s.regs ∧ SameMem s s')
            ∧ (programRuns s = false → (∀ x, s.rxXfer = some x → x.id ≠ d.id ∨ x.digestOk = false ∨ takesFirmware s = false
                ∨ s.netRecovery.isSome = true) → Answers (.activate port bs) s s)))
  ∧ (∀ (s : State) (q : QRef) (h : HostQ) (e key : List Byte), EntryRuns s q 0x45 h e → s.mgmtBusy = none →
      let m := memRead s.lp (arg e 0) (arg e 1)
      let r := manReason (taken s q h) m key
      (inLp (arg e 0) (arg e 1) = false → Posts (.manifest q key) s q h e csErrUnmapped 0 fun s' =>
          s'.manifest = s.manifest ∧ s'.manNew = s.manNew ∧ s'.regs = s.regs ∧ SameMem s s')
        ∧ (inLp (arg e 0) (arg e 1) = true → lpIsBad s (arg e 0) (arg e 1) = true →
          Posts (.manifest q key) s q h e csErrUe rUe fun s' =>
            s'.manifest = s.manifest ∧ s'.manNew = s.manNew ∧ SameMem s s')
        ∧ (inLp (arg e 0) (arg e 1) = true → LpGood s (arg e 0) (arg e 1) →
            arg e 1 ≤ 256 + 16 * 65535 + 32 * 65535 + 512 →
          (8 ≤ rd s mgPg mg_PHASE ∨ s.stopped = true ∨ s.sec.owner = none →
              (r = 0 → Posts (.manifest q key) s q h e csOK 0 fun s' =>
                  s'.manifest = some (m.take (mfLen m)) ∧ rd s' mgPg mg_MAN_SERIAL = mf m 0x0C 4
                    ∧ memRead s'.flash manArea (mfLen m + 512) = m.take (mfLen m + 512)
                    ∧ (∀ p, p < 64 → rd s' (lkPg p) lk_CFG_FOREIGN = b2n (modForeign m (entryOf s m) p))
                    ∧ s'.lp = s.lp ∧ s'.spool = s.spool ∧ (∀ t, { s'.tile t with dma := [] } = { s.tile t with dma := [] }))
                ∧ (r ≠ 0 → Posts (.manifest q key) s q h e csRefused (0x80 + r) fun s' =>
                  s'.manifest = s.manifest ∧ Flag s' mgPg mg_F_TOPO_REFUSED ∧ SameMem s s'))
            ∧ (rd s mgPg mg_PHASE < 8 → s.stopped = false → s.sec.owner.isSome = true →
              Gives (.manifest q key) s fun s' =>
                s'.manNew = some m ∧ s'.manifest = s.manifest ∧ s'.mgmtBusy = some { op := 0x45, key := qref q }
                  ∧ s'.regs = s.regs ∧ SameMem s s')))

/-- R436 and R442 to R444: a fault or a JOB_HOLD packet holds the job, and a second fault of a held job is recorded,
restarts the drain, and leaves the job held where one of the two cannot be contained; the drain is noted once nothing is
in flight; the restart, once the fault is contained and no suspect pair is under test, releases the hold at the step after
the job commit, or flags that the home record is bad and asks the twin for its copy; a tile that fails in service
is retired by a record in flash, the row's map is computed again and the bring-up of its new tiles ends in B8; without a
spare NO_SPARE is recorded, and nothing else changes (R20).

R31, R424 and R445: a replacement or a planned detach of a module whose twin is healthy is reported to the host, the
detach after the step in progress, and the sections of the job commit travel to the replacement module; with an unhealthy
twin both are refused by a record. The twin of a lost module sends the sections of its region.

The model's choices in it are those of log entries 108, 109, 111, 116, 117 and 167. -/
def Obligations.RecoveryAndDetach : Prop :=
  (∀ s : State,
      (rd s gsPg gs_JOB_HOLD = 0 → s.recovery = none → ∀ p : BitVec 6,
          Gives (.jobHold (some p)) s fun s' => rd s' gsPg gs_JOB_HOLD = 1
            ∧ (∃ r, s'.recovery = some r ∧ r.code = 0 ∧ r.drained = false) ∧ s'.stowReq = none ∧ SameMem s s')
        ∧ (rd s gsPg gs_JOB_HOLD = 1 ∨ s.recovery.isSome = true → ∀ p : BitVec 6, Answers (.jobHold (some p)) s s)
        ∧ (s.recovery = none → Gives (.jobHold none) s fun s' => rd s' gsPg gs_JOB_HOLD = 1 ∧ s'.stowReq = none
            ∧ (∃ r, s'.recovery = some r ∧ r.code = (newestFault s).1 ∧ r.drained = false ∧ r.stuck = false) ∧ SameMem s s')
        ∧ (∀ r : Recovery, s.recovery = some r →
          let code := (newestFault s).1
          (code = 0 → Answers (.jobHold none) s s)
            ∧ (code ≠ 0 → Gives (.jobHold none) s fun s' => Logs s s' 3 0x080A mgPg (b2 r.code ++ b2 code)
              ∧ (∃ r', s'.recovery = some r' ∧ r'.code = r.code ∧ r'.drained = false ∧ r'.second = some code
                ∧ r'.stuck = (r.stuck || !(containable s r.code && containable s code))) ∧ SameMem s s'))
        ∧ (∀ r : Recovery, s.recovery = some r → isDrained s = true → Gives .drainComplete s fun s' =>
            s'.recovery = some { r with drained := true } ∧ s'.regs = s.regs ∧ SameMem s s')
        ∧ (isDrained s = false ∨ s.recovery = none → Answers .drainComplete s s)
        ∧ (∀ (r : Recovery) (t0 : BitVec 64), s.recovery = some r →
          (r.drained = true → r.again = false → r.stuck = false → s.pairTest = [] → s.homeFetch = none →
              isContained s = true → s.failSafe = none →
            (∀ i, homeRec s s.jobCommit = some i → Gives (.recoveryRestart t0) s fun s' =>
                rd s' gsPg gs_JOB_HOLD = 0 ∧ rd s' bbPg bb_STEP = (s.jobCommit + 1) % 2 ^ 32 ∧ s'.recovery = none
                  ∧ s'.barrier = none ∧ s'.twRun = none ∧ s'.jobCommit = s.jobCommit
                  ∧ rd64 s' tmPg tm_T0_LO tm_T0_HI = t0.toNat)
              ∧ (homeRec s s.jobCommit = none → Gives (.recoveryRestart t0) s fun s' => Flag s' twPg tw_F_HOME_BAD
                ∧ Logs s s' 3 0x0208 twPg (b4 s.jobCommit) ∧ s'.recovery = s.recovery
                ∧ (0 < rd s twPg tw_HOME_SIZE → s'.homeFetch = some 0) ∧ SameMem s s'))
            ∧ (r.drained = false ∨ r.again = true ∨ r.stuck = true ∨ s.pairTest ≠ [] ∨ s.homeFetch.isSome = true
                ∨ isContained s = false ∨ s.failSafe.isSome = true → Answers (.recoveryRestart t0) s s))
        ∧ (s.recovery = none → ∀ t0, Answers (.recoveryRestart t0) s s)
        ∧ (∀ (t : Tile) (o3 : B3Obs) (o4 : B4Obs), t.toNat < s.ntiles →
            let p := s.ptile t.toNat
            let y := t.toNat / s.ncols
            let clear := o3.badRows = [] ∧ o4.fails = [] ∧ s.stopped = false
            ((softRetired s).contains p = true → Gives (.tileRemap t o3 o4) s fun s' => s'.unusableRow y = unusableBy s' y
                ∧ (clear → rd s' mgPg mg_PHASE = 8))
              ∧ ((softRetired s).contains p = false → 0 < spareLeft s (p / 36) → s.repairN < 65536 →
                Gives (.tileRemap t o3 o4) s fun s' => s'.unusableRow y = unusableBy s' y ∧ s.repairN < s'.repairN
                  ∧ memRead s'.flash (repairBase + 16 * s.repairN) 16 = repairBytes 1 p 0 (nextSeqOf s)
                  ∧ (clear → rd s' mgPg mg_PHASE = 8))
              ∧ ((softRetired s).contains p = false → spareLeft s (p / 36) = 0 → Gives (.tileRemap t o3 o4) s fun s' =>
                Logs s s' 3 0x000C (tlPg t) (b1 (p / 36) ++ b1 (p % 36)) ∧ SameMem s s')))
  ∧ (∀ (s : State) (spare : BitVec 3),
      (twinHealthy s = true →
          Answers (.moduleReplacement spare false) s
              (moveRegion spare s.module (homeBase s) (send s (.hostReport s.jobCommit)) s.jobCommit)
            ∧ ((∀ i, i < 2 → recValid s (homeBase s) i = false ∨ recStep s (homeBase s) i ≠ s.jobCommit) →
              Gives (.moduleReplacement spare false) s fun s' =>
                s'.net = s.net ++ [.hostReport s.jobCommit] ∧ s'.regs = s.regs ∧ SameMem s s')
            ∧ (Gives .plannedDetach s fun s' => (programRuns s = true → s'.detach = true ∧ s'.net = s.net)
              ∧ (programRuns s = false → s'.net = s.net ++ [.hostReport s.jobCommit]) ∧ s'.regs = s.regs ∧ SameMem s s'))
        ∧ Answers (.moduleReplacement spare true) s (moveRegion spare s.twin (keepBase s) s s.jobCommit)
        ∧ (twinHealthy s = false → ∀ c, c = .moduleReplacement spare false ∨ c = .plannedDetach → Gives c s fun s' =>
            Logs s s' 2 0x080B mgPg (b1 s.module) ∧ s'.net = s.net ∧ s'.detach = s.detach ∧ SameMem s s'))

/-- R427 and R430 to R433: a round that falls due after its interval starts at 0 percent; a slice in a time that allows it
moves it on, in a window no further than the part that slices hold (R429), passes the tile at 100 percent, counts an
interruption, or fails the tile with a flag; at any other time it does not run. The MXE set of a suspect pair runs while
the job is held; when both tiles have passed the pair is counted, and a second mismatch within 24 hours retires both. A
deferral past its limit is forced once.

R447 to R449: fail-safe puts every port in its state, sends local fault on the four Ethernet ports, drives FAULT_N low
and releases the stall net, and a second trigger can only withdraw lull mode; lull mode retrains P28 to P31, brings E0
back, and changes no other port.

The model's choices in it are those of log entries 73, 110 and 168. -/
def Obligations.FieldTestsAndFailSafe : Prop :=
  (∀ (s : State) (p : Nat), p < 1152 →
      let x := itGet s p
      (rd s itPg it_ENABLE = 0 ∨ s.ltile p = none ∨ itElapsed s p = false → Answers (.itDue p) s s)
        ∧ (rd s itPg it_ENABLE = 1 → (s.ltile p).isSome = true → itElapsed s p = true → Gives (.itDue p) s fun s' =>
          (itGet s' p).due.isSome = true ∧ (itGet s' p).percent = 0 ∧ (∀ u, u ≠ p → itGet s' u = itGet s u)
            ∧ rd s' itPg it_VER = s.itStored % 2 ^ 32 ∧ s'.pkgActive = s.pkgStored ∧ SameMem s s')
        ∧ (∀ (len w : Nat) (e : SliceEnd), rd s itPg it_ENABLE = 0 ∨ (x.due = none ∧ x.mxe ≠ 1) ∨ itMayRun s len w = false
            ∨ (x.mxe = 1 ∧ itWhole s = false) → Answers (.itSlice p len w e) s s)
        ∧ (∀ len w : Nat, rd s itPg it_ENABLE = 1 → itMayRun s len w = true →
          (x.due.isSome = true → x.mxe ≠ 1 → ∀ pct : Nat,
              let n := if itWhole s then pct else min pct slicePart
              (n < 100 → Gives (.itSlice p len w (.done pct)) s fun s' => itGet s' p = { x with state := 1, percent := n }
                  ∧ rd s' itPg it_SLICES = min (rd s itPg it_SLICES + 1) (2 ^ 32 - 1)
                  ∧ OtherRegs s s' [(itPg, it_SLICES.off)] ∧ SameMem s s')
                ∧ (100 ≤ n → Gives (.itSlice p len w (.done pct)) s fun s' => (itGet s' p).state = 2 ∧ (itGet s' p).due = none
                  ∧ (itGet s' p).passSec = rd s evPg ev_SEC ∧ (itGet s' p).passStep = rd s bbPg bb_STEP
                  ∧ OtherRegs s s' [(itPg, it_SLICES.off)] ∧ SameMem s s'))
            ∧ (x.mxe = 1 → itWhole s = true →
              (∀ pct, pct < 100 → Gives (.itSlice p len w (.done pct)) s fun s' => itGet s' p = x ∧ s'.pairTest = s.pairTest
                  ∧ OtherRegs s s' [(itPg, it_SLICES.off)] ∧ SameMem s s')
                ∧ ∀ pct, 100 ≤ pct →
                  let t := itPut s p { x with mxe := 2 }
                  (s.pairTest.filter (pairOver t) = [] → Gives (.itSlice p len w (.done pct)) s fun s' =>
                      itGet s' p = { x with mxe := 2 } ∧ s'.pairTest = s.pairTest ∧ SameMem s s')
                    ∧ ∀ y, s.pairTest = [y] → pairOver t y = true → Gives (.itSlice p len w (.done pct)) s fun s' =>
                      s'.pairTest = [] ∧ (itGet s' p).mxe = (if y.1 = p ∨ y.2 = p then 0 else 2)
                        ∧ rd s' itPg it_BASTE_PAIRS = min (rd s itPg it_BASTE_PAIRS + 1) it_BASTE_PAIRS.max
                        ∧ (let last := smGet (fun _ => 0) s.pairs (y.1 * 2048 + y.2)
                           (last = 0 ∨ 86400 < rd s evPg ev_SEC + 1 - last → SameMem s s')
                            ∧ (last ≠ 0 → rd s evPg ev_SEC + 1 - last ≤ 86400 →
                              ∀ u, (s.ltile y.1 = some u ∨ s.ltile y.2 = some u) → u < 2 ^ 11 →
                                rd s' (tlPg (BitVec.ofNat 11 u)) tl_STATUS_FENCED = 1)))
            ∧ ((x.due.isSome = true ∧ x.mxe ≠ 1) ∨ (x.mxe = 1 ∧ itWhole s = true) →
              (Gives (.itSlice p len w .interrupted) s fun s' => itGet s' p = x
                  ∧ rd s' itPg it_ABANDONED = min (rd s itPg it_ABANDONED + 1) (2 ^ 16 - 1) ∧ SameMem s s')
                ∧ ∀ n, Gives (.itSlice p len w (.failed n)) s fun s' => (itGet s' p).state = 3 ∧ Flag s' itPg it_F_TEST_FAIL
                  ∧ rd s' itPg it_FAIL_TEST = n % 2 ^ 16 ∧ rd s' itPg it_FAIL_TILE = p
                  ∧ (∀ y ∈ s'.pairTest, y.1 ≠ p ∧ y.2 ≠ p)
                  ∧ ∀ t, s.ltile p = some t → rd s' (tlPg (BitVec.ofNat 11 t)) tl_STATUS_FENCED = 1))
        ∧ (x.due = none ∨ x.forced = true ∨ (∀ d, x.due = some d → (rd s evPg ev_SEC - d) / 3600 < rd s itPg it_DEFER_H) →
            Answers (.itOverdue p) s s)
        ∧ (∀ d, x.due = some d → x.forced = false → rd s itPg it_DEFER_H ≤ (rd s evPg ev_SEC - d) / 3600 →
            Gives (.itOverdue p) s fun s' => (itGet s' p).forced = true ∧ Flag s' itPg it_F_OVERDUE
              ∧ Logs s s' 2 0x000A itPg (b2 p ++ b2 ((rd s evPg ev_SEC - d) / 3600)) ∧ SameMem s s'))
  ∧ (∀ s : State,
      (∀ trig : FsTrigger, s.failSafe = none → Gives (.failSafe trig) s fun s' => s'.failSafe = some (lullAfter trig)
          ∧ s'.pins.faultN = false ∧ s'.pins.smbAlertN = false ∧ s'.netReq = [] ∧ s'.stowReq = none
          ∧ (∀ p, p < 64 → portState s' p = stFailsafe) ∧ (∀ n, n < 4 → rd s' (enPg n) en_SENDING_LF = 1)
          ∧ s'.lp = s.lp ∧ s'.spool = s.spool ∧ s'.flash = s.flash)
        ∧ (∀ (trig : FsTrigger) (l : Bool), s.failSafe = some l → Gives (.failSafe trig) s fun s' =>
            s'.failSafe = some (lullAfter trig && l) ∧ s'.ports = s.ports ∧ s'.pins = s.pins ∧ SameMem s s')
        ∧ (∀ memOk : Bool, lullAllowed s memOk = false → Answers (.lullMode memOk) s s)
        ∧ (∀ memOk : Bool, lullAllowed s memOk = true → Gives (.lullMode memOk) s fun s' => s'.lull = true
            ∧ rd s' ckPg ck_ROOT_LOCK = 1 ∧ rd s' ckPg ck_LINK_LOCK = 1 ∧ rd s' (enPg 0) en_SENDING_LF = 0
            ∧ (∀ p, p < 64 → portState s' p = if 28 ≤ p ∧ p < 32 then stTrain else portState s p)
            ∧ (∀ n, n ≠ 0 → n < 4 → rd s' (enPg n) en_SENDING_LF = rd s (enPg n) en_SENDING_LF)
            ∧ s'.failSafe = s.failSafe ∧ SameMem s s'))

/-! ### The logbook and bring-up -/

/-- R463 and R466 to R470: the oldest request takes the next SEQ and its slot unless a more severe record holds it, and
waits for the mirror from ERROR on; after a loss of standby power none is accepted before B1 has resumed the count and
mirrored the surviving ring. The mirror takes its 32 bytes, or flags the failure and keeps it due, while the management
core can run.

R464, R466 and R472: a write of the operating-time store puts the count, with its CRC, into the copies in turn;
OPT_REINIT takes the given count into both copies and ends calendar mode, once one has been given; EV_CAL_SEC sets the
count in calendar mode alone; a read of EV_REC_W0 latches the whole slot.

The model's choices in it are those of log entries 22, 23 and 171. -/
def Obligations.RecordsAndLogRegisters : Prop :=
  (∀ s : State,
      (s.evLost = true ∨ s.mirrorHold = true ∨ s.logQ = [] → Answers .recordAcceptance s s)
        ∧ (∀ (r : LogReq) (rs : List LogReq), s.evLost = false → s.mirrorHold = false → s.logQ = r :: rs →
          Gives .recordAcceptance s fun s' =>
          let n := seqAfter (rd s evPg ev_HEAD_SEQ)
          let x : LogRec := { seq := n, sec := rd s evPg ev_SEC, subsec := rd s evPg ev_SUBSEC, pcycle := rd s evPg ev_PCYCLE,
                              flags := r.sev + 8 * rd s evPg ev_CAL + 16 * rd s evPg ev_UNSET, code := r.code,
                              source := r.source, payload := r.payload }
          let old := smGet (fun _ => none) s.ring (n % 2048)
          s'.logQ = rs ∧ rd s' evPg ev_HEAD_SEQ = n ∧ n ≠ 0
            ∧ ((∀ o, old = some o → o.sev ≤ r.sev) → smGet (fun _ => none) s'.ring (n % 2048) = some x)
            ∧ (∀ o, old = some o → r.sev < o.sev → s'.ring = s.ring ∧ Flag s' evPg ev_F_DROP)
            ∧ (∀ i, i ≠ n % 2048 → smGet (fun _ => none) s'.ring i = smGet (fun _ => none) s.ring i)
            ∧ s'.mirrorQ = (if 3 ≤ r.sev then s.mirrorQ ++ [x] else s.mirrorQ) ∧ SameMem s s')
        ∧ (s.mirrorQ = [] ∨ mgmtRuns s = false → ∀ ok, Answers (.mirror ok) s s)
        ∧ (∀ (r : LogRec) (rs : List LogRec), s.mirrorQ = r :: rs → mgmtRuns s = true →
            (Gives (.mirror true) s fun s' => s'.mirrorQ = rs
                ∧ memRead s'.flash (mirrorBase + 32 * s.mirrorPos) 32 = recBytes r ∧ s'.mirrorPos = (s.mirrorPos + 1) % 131072
                ∧ rd s' evPg ev_MIRROR_SEQ = r.seq % 2 ^ 32
                ∧ rd s' evPg ev_MIRROR_COUNT = min (rd s evPg ev_MIRROR_COUNT + 1) 131072 ∧ s'.ring = s.ring
                ∧ s'.lp = s.lp ∧ s'.spool = s.spool ∧ s'.tiles = s.tiles)
              ∧ (Gives (.mirror false) s fun s' => s'.mirrorQ = s.mirrorQ ∧ Flag s' evPg ev_F_MIRROR_FAIL ∧ SameMem s s')))
  ∧ (∀ s : State,
      (rd s evPg ev_CAL = 1 ∨ s.evLost = true → Answers .timeStoreWrite s s)
        ∧ (rd s evPg ev_CAL = 0 → s.evLost = false → Gives .timeStoreWrite s fun s' =>
          let i := b2n s.timeNext
          memRead s'.flash (timeBase i) 16 = timeCopyBytes (timeNow s) ∧ timeCopy s' i = some (timeNow s)
            ∧ (∀ a, a < timeBase i ∨ timeBase i + 16 ≤ a → memByte s'.flash a = memByte s.flash a)
            ∧ s'.timeNext = !s.timeNext ∧ s'.regs = s.regs ∧ s'.lp = s.lp ∧ s'.spool = s.spool ∧ s'.tiles = s.tiles)
        ∧ (locked s evPg = false →
            (rd s evPg ev_CAL = 0 ∨ s.optSet = true → Gives .optReinit s fun s' =>
              rd s' evPg ev_SEC = rd s evPg ev_OPT_SET ∧ rd s' evPg ev_CAL = 0 ∧ rd s' evPg ev_UNSET = 0
                ∧ (∀ i, i < 2 → timeCopy s' i = some { timeNow s with secs := rd s evPg ev_OPT_SET }) ∧ s'.optSet = false
                ∧ s'.lp = s.lp ∧ s'.spool = s.spool ∧ s'.tiles = s.tiles)
              ∧ (rd s evPg ev_CAL = 1 → s.optSet = false → Gives .optReinit s fun s' => rd s' evPg ev_CAL = 1
                ∧ rd s' evPg ev_SEC = rd s evPg ev_SEC ∧ SameMem s s')
              ∧ ∀ v : W32, Gives (.calSec v) s fun s' => rd s' evPg ev_CAL_SEC = v.toNat
                ∧ rd s' evPg ev_SEC = (if rd s evPg ev_CAL = 1 then v.toNat else rd s evPg ev_SEC)
                ∧ (rd s evPg ev_CAL = 1 → rd s' evPg ev_UNSET = 0) ∧ SameMem s s')
        ∧ (Gives .evRecW0Read s fun s' => (∀ w, w < 8 → rdi s' evPg ev_REC_W w
              = leNat (((slotBytes s (rd s evPg ev_SLOT)).drop (4 * w)).take 4)) ∧ SameMem s s'))

/-- R471: CLEAR empties the ring and zeroes the drop counters; PCYCLE, the time count and the mirror stay as they are, and
so does HEAD_SEQ until the first record after the clear, which is LOG_CLEARED with the head before it. -/
def Obligations.ClearedLogStartsAgain : Prop :=
  ∀ s : State, locked s evPg = false → Gives .evClear s fun s' =>
    let h := rd s evPg ev_HEAD_SEQ
    rd s' evPg ev_QDROP = 0 ∧ (∀ v, v < 5 → rdi s' evPg ev_DROP v = 0)
      ∧ (∃ x : LogRec, x.seq = seqAfter h ∧ x.sev = 0 ∧ x.code = 0x0810 ∧ x.payload = b4 h
        ∧ ∀ i, smGet (fun _ => none) s'.ring i = if i = seqAfter h % 2048 then some x else none)
      ∧ rd s' evPg ev_HEAD_SEQ = seqAfter h
      ∧ OtherRegs s s' ([(evPg, ev_QDROP.off), (evPg, ev_HEAD_SEQ.off), (evPg, pg_PG_SEQ.off)]
        ++ (List.range 5).map (fun v => (evPg, ev_DROP.off + 4 * v)))
      ∧ s'.timeNext = s.timeNext ∧ s'.mirrorQ = s.mirrorQ ∧ s'.mirrorPos = s.mirrorPos ∧ s'.logQ = s.logQ
      ∧ SameMem s s'

/-- R465, R476, R478, R485, R490, R491 and R526: B0 needs good rails and the PLL; B1 stops on an inconsistent fuse word or
a full repair log, else computes the map of every row and holds the records of a surviving ring for the mirror (R470), and
in VOID goes no further (R527); B2 starts the firmware that passes its checks, falls back to network recovery, from which
a whole image that passes them starts it too, and drives fail-safe where a seal of the security store fails (R524).

R276, R282, R352, R476 to R482, R502 and R507: B3 trains the LPDDR5X channels and marks the lines that its test finds
uncorrectable; B4 checks the bobbin function on the tiles and on the BB engine (R391), tests the tiles and may end in
standby, which GO leaves; B5 enables the manifest's ports and passes once none trains; B6 needs hall time; B7 checks the
manifest; B8 sums the phases' times; a phase whose turn it is not does nothing; RUN_ALL then starts every tile with the
job's seed.

The model's choices in it are those of log entries 10, 74, 75, 77, 79, 81, 144 and 176. -/
def Obligations.BringUp : Prop :=
  (∀ (s : State) (ms : Nat),
      (s.entered = true ∨ s.pins.pwrOk = false ∨ s.pins.resetN = false ∨ s.pins.heldOff = true → ∀ o, Answers (.b0 ms o) s s)
        ∧ (s.entered = false → s.pins.pwrOk = true → s.pins.resetN = true → s.pins.heldOff = false →
          (Gives (.b0 ms { pllLocked := true, badRail := none }) s fun s' => s'.entered = true ∧ rd s' mgPg mg_PHASE = 1
              ∧ rd s' ckPg ck_ROOT_LOCK = 1 ∧ rd s' ckPg ck_LINK_LOCK = 1 ∧ rdi s' mgPg mg_PHASE_MS 0 = ms % 2 ^ 32
              ∧ rd s' evPg ev_PCYCLE = (if s.freshPower then min (rd s evPg ev_PCYCLE + 1) (2 ^ 24 - 1) else rd s evPg ev_PCYCLE)
              ∧ SameMem s s')
            ∧ ∀ o : B0Obs, o.pllLocked = false ∨ o.badRail.isSome = true → Gives (.b0 ms o) s fun s' => s'.stopped = true
              ∧ rd s' mgPg mg_FAIL_PHASE = 0 ∧ rd s' mgPg mg_FAIL_REASON = 2 ∧ s'.pins.faultN = false)
        ∧ (atPhase s 1 = true →
            (∀ w, firstBadFuse s = some w → Gives (.b1 ms) s fun s' => s'.stopped = true ∧ rd s' mgPg mg_FAIL_PHASE = 1
                ∧ rd s' mgPg mg_FAIL_REASON = 0x0C ∧ Flag s' fzPg fz_F_INCONSISTENT ∧ Logs s s' 4 0x080C fzPg (b2 w))
              ∧ (firstBadFuse s = none → 65536 ≤ s.repairN → Gives (.b1 ms) s fun s' => s'.stopped = true
                ∧ rd s' mgPg mg_FAIL_PHASE = 1 ∧ rd s' mgPg mg_FAIL_REASON = 0x11)
              ∧ (firstBadFuse s = none → s.repairN < 65536 → Gives (.b1 ms) s fun s' =>
                (∀ y, y < 32 → s'.unusableRow y = unusableBy s y) ∧ s'.mirrorQ = unmirrored s
                  ∧ s'.mirrorHold = !(unmirrored s).isEmpty ∧ s'.evLost = false ∧ s'.stopped = s.fuses.voided
                  ∧ (s.fuses.voided = false → rd s' mgPg mg_PHASE = 2 ∧ rd s' (enPg 0) en_ENABLE = 1 ∧ rd s' ckPg ck_ETH_LOCK = 1)
                  ∧ (s.fuses.voided = true → rd s' mgPg mg_PHASE = 1 ∧ rd s' (enPg 0) en_ENABLE = rd s (enPg 0) en_ENABLE)
                  ∧ SameMem s s'))
        ∧ (∀ key : List Byte,
            let again := s.netRecovery.isSome = true ∧ imageComplete s = true ∧ s.failSafe = none
            (atPhase s 2 = true ∨ again →
              (fwCheck s key = 0 → Gives (.b2 ms key) s fun s' => rd s' mgPg mg_PHASE = 3
                  ∧ rd s' mgPg mg_FW_VER = flashVersion s ∧ s'.netRecovery = none
                  ∧ s'.fwEntry = some (memNat s.flash 0x10 4) ∧ (again → rd s' mgPg mg_RECOVERED = 1)
                  ∧ (sealsOk s = true → s'.failSafe = s.failSafe ∧ SameMem s s')
                  ∧ (sealsOk s = false → s'.failSafe = some false ∧ Flag s' scPg sc_F_STORE_BAD))
                ∧ (fwCheck s key ≠ 0 → Gives (.b2 ms key) s fun s' => s'.netRecovery = some (fwCheck s key) ∧ s'.rxXfer = none
                  ∧ Flag s' mgPg mg_F_VERIFY_FAIL ∧ rd s' (enPg 0) en_ENABLE = 1 ∧ rd s' (enPg 2) en_SENDING_LF = 1 ∧ SameMem s s'))
              ∧ (atPhase s 2 = false → ¬ again → Answers (.b2 ms key) s s))
        ∧ (s.netRecovery = none → Answers .recoveryReq s s)
        ∧ (∀ c, s.netRecovery = some c → Gives .recoveryReq s fun s' =>
            s'.net = s.net ++ [.recoveryReq s.fuses.c0.dieId.toNat c Config.romVersion.toNat] ∧ s'.regs = s.regs ∧ SameMem s s'))
  ∧ (∀ (s : State) (ms : Nat),
      (∀ (o3 : B3Obs) (o4 : B4Obs) (key : List Byte) (n : Nat) (c : Instr), atPhase s n = false →
          (n = 1 ∧ c = .b1 ms) ∨ (n = 3 ∧ c = .b3 ms o3) ∨ (n = 4 ∧ c = .b4 ms o4) ∨ (n = 5 ∧ c = .b5 ms) ∨ (n = 6 ∧ c = .b6 ms)
            ∨ (n = 7 ∧ c = .b7 ms key) ∨ (n = 8 ∧ c = .b8 ms) → Answers c s s)
        ∧ (atPhase s 3 = true → ∀ o : B3Obs,
          ((∀ c, c < 64 → c ∉ o.trainFail) → Gives (.b3 ms o) s fun s' =>
              (∀ g, g < 4 → rd s' (lpPg g) lp_TRAINED = 0xFFFF) ∧ s'.lpTrained = true
                ∧ (∀ l ∈ o.badLines, l < 2 ^ 33 → l ∈ s'.lpBad) ∧ (s'.stopped = false → rd s' mgPg mg_PHASE = 4))
            ∧ ((∃ c, c < 64 ∧ c ∈ o.trainFail) → Gives (.b3 ms o) s fun s' => s'.stopped = true
              ∧ rd s' mgPg mg_FAIL_PHASE = 3 ∧ rd s' mgPg mg_FAIL_REASON = 6))
        ∧ (atPhase s 4 = true → ∀ o : B4Obs, Gives (.b4 ms o) s fun s' =>
            (s'.stopped = false → rd s' mgPg mg_PHASE = 5 ∧ rd s' mgPg mg_STANDBY_HELD = rd s mgPg mg_STANDBY)
              ∧ (s'.stopped = true → rd s' mgPg mg_FAIL_PHASE = 4 ∧ rd s' mgPg mg_FAIL_REASON = 0x0C)
              ∧ (∀ w, w < 4 → rdi s' bbPg bb_OUT w = bits
                (bobbin (katInput 3).1 (katInput 3).2.1 (katInput 3).2.2.1 (katInput 3).2.2.2).toNat (32 * w + 31) (32 * w))
              ∧ ((∃ i ∈ o.katFail, i < 4) → Flag s' bbPg bb_F_KAT_FAIL)
              ∧ (o.fails = [] → s.failed = [] → ∀ t : Tile, t.toNat < s.ntiles →
                s'.v t 0 = bobVec (katInput 3).1 (katInput 3).2.1 (katInput 3).2.2.1 (katInput 3).2.2.2))
        ∧ (locked s mgPg = false → rd s mgPg mg_STANDBY_HELD = 1 → Gives .mgGo s fun s' =>
            rd s' mgPg mg_STANDBY_HELD = 0 ∧ rd s' mgPg mg_WARM = 1 ∧ (∀ g, g < 4 → rd s' (lpPg g) lp_SELF_REFRESH = 0)
              ∧ SameMem s s')
        ∧ (locked s mgPg = true ∨ rd s mgPg mg_STANDBY_HELD = 0 → Gives .mgGo s fun s' =>
            rd s' mgPg mg_STANDBY_HELD = rd s mgPg mg_STANDBY_HELD ∧ rd s' mgPg mg_WARM = rd s mgPg mg_WARM ∧ SameMem s s')
        ∧ (atPhase s 5 = true → Gives (.b5 ms) s fun s' => SameMem s s'
            ∧ ((∃ p, p < 64 ∧ portState s' p = stTrain) → rd s' mgPg mg_PHASE = 5)
            ∧ ((∀ p, p < 64 → portState s' p ≠ stTrain) → rd s' mgPg mg_PHASE = 6)
            ∧ ∀ m, bringMan s = some m → ∀ p ∈ manPorts m (entryOf s m), rd s' (lkPg p) lk_CFG_ENABLE = 1)
        ∧ (atPhase s 6 = true →
            (hasTime s = true → Gives (.b6 ms) s fun s' => rd s' mgPg mg_PHASE = 7 ∧ SameMem s s')
              ∧ (hasTime s = false → ms < 2000 → Answers (.b6 ms) s s)
              ∧ (hasTime s = false → 2000 ≤ ms → Gives (.b6 ms) s fun s' => s'.stopped = true ∧ rd s' mgPg mg_FAIL_PHASE = 6
                ∧ rd s' mgPg mg_FAIL_REASON = 1
                ∧ Logs s s' 3 0x0301 tmPg (b1 (rd s tmPg tm_HOPS) ++ b4 (rd s tmPg tm_OFFSET))))
        ∧ (atPhase s 7 = true → ∀ key : List Byte,
            let m := (bringMan s).getD []
            (manReason s m key = 0 → Gives (.b7 ms key) s fun s' => rd s' mgPg mg_PHASE = 8
                ∧ s'.manifest = some (m.take (mfLen m)) ∧ s'.manNew = none)
              ∧ (manReason s m key ≠ 0 → Gives (.b7 ms key) s fun s' => s'.stopped = true ∧ rd s' mgPg mg_FAIL_PHASE = 7
                ∧ rd s' mgPg mg_FAIL_REASON = 0x80 + manReason s m key ∧ Flag s' mgPg mg_F_TOPO_REFUSED))
        ∧ (atPhase s 8 = true → Gives (.b8 ms) s fun s' => rd s' mgPg mg_PHASE = 8 ∧ s'.ready = true
            ∧ rd s' mgPg mg_BRING_MS = bringMs (passPhase s 8 ms) % 2 ^ 32 ∧ SameMem s s')
        ∧ (locked s mgPg = false → runAllRefused s = false → Gives .runAll s fun s' => ∀ t : Tile, t.toNat < s.ntiles →
            s.tileOff t = false → rd s' (tlPg t) tl_STATUS_RUNNING = 1 ∧ (s'.tile t).pc = 0
              ∧ rd s' (vxPg t) vx_SEED_LO = rd s bbPg bb_SEED_LO ∧ rd s' (vxPg t) vx_SEED_HI = rd s bbPg bb_SEED_HI)
        ∧ (locked s mgPg = true ∨ runAllRefused s = true → Gives .runAll s fun s' => SameMem s s'))

/-! ### The host interface -/

/-- R508 to R510, R533 and R534: a link goes up and down; address resolution and echo for the port's own addresses are
answered, what is neither for the port nor for a group of R497 is discarded and counted, and so are codewords corrected and
lost; a congestion mark is counted and answered, a packet that the module does not support is an error of its queue pair,
flow control pauses the port's priority; a connection is accepted or rejected, ready, and ended;
a congestion notification lowers the rate; the eighth retry in a row is the Error state.

R294, R511 and R512: an RDMA WRITE that fits a region with the right stores its bytes and no other; a READ answers them; an
access that fits none or touches the twin-keep region, a READ of an uncorrectable line or a WRITE that would merge with one
is refused, and its QP enters Error with every memory as before (R280); a WRITE to a doorbell page acts on its queue. After
fail-safe, and on a port or a queue pair that is not up, nothing happens.

The model's choices in it are those of log entries 11, 93, 94, 95, 140 and 173. -/
def Obligations.HostLinksAndRdma : Prop :=
  (∀ (s : State) (port : BitVec 2),
      let p := port.toNat
      let n := enPg p
      (rd s n en_ENABLE = 1 → rd s ckPg ck_ETH_LOCK = 1 → Gives (.linkUp port) s fun s' =>
          rd s' n en_LINK_UP = 1 ∧ OtherRegs s s' [(n, en_LINK_UP.off)] ∧ SameMem s s')
        ∧ (rd s n en_ENABLE = 0 ∨ rd s ckPg ck_ETH_LOCK = 0 → Answers (.linkUp port) s s)
        ∧ (∀ f : Bool, Gives (.linkDown port f) s fun s' => rd s' n en_LINK_UP = 0
            ∧ Flag s' n (if f then en_F_RX_FAULT else en_F_LINK_DOWN) ∧ SameMem s s')
        ∧ (ethUp s port = false → ∀ (f : EthFrame) (qpn : Nat) (sv : BitVec 64) (c : Instr), c = .ethFrame port f
            ∨ c = .cmReq port qpn sv ∨ c = .cmRtu port qpn ∨ c = .cmDreq port qpn ∨ c = .cnp port qpn → Answers c s s)
        ∧ (ethUp s port = true →
            (∀ f : EthFrame,
              let own := ownMac s p f.dst = true
              let fec := [(n, en_FEC_CORR.off), (n, en_FEC_UNCORR.off)]
              let replies := (∃ a, f.kind = .arp a ∧ (own ∨ f.dst = BitVec.allOnes 48) ∧ a.toNat = ip4Of s p)
                ∨ (∃ a, f.kind = .nd a ∧ (own ∨ mac6Group f.dst = true) ∧ ownIp s p (.v6 a) = true)
                ∨ (∃ d, f.kind = .icmpEcho d ∧ own ∧ ownIp s p d = true)
              let takes := (f.kind = .multicast 19028 ∧ mac6Group f.dst = true)
                ∨ (f.kind = .ptp ∧ rd s tmPg tm_PTP_PORT = p) ∨ (∃ d, f.kind = .ip d ∧ own ∧ ownIp s p d = true)
              let roce := ∃ d r, f.kind = .roce d r ∧ own ∧ ownIp s p d = true
              let pauses := ∃ qs, f.kind = .pfc qs ∧ rd s n en_PFC_EN ≠ 0 ∧ f.dst = 0x0180C2000001#48
              (Gives (.ethFrame port f) s fun s' => SameMem s s'
                  ∧ rd s' n en_FEC_CORR = min (rd s n en_FEC_CORR + f.corr) (2 ^ 32 - 1)
                  ∧ rd s' n en_FEC_UNCORR = min (rd s n en_FEC_UNCORR + f.uncorr) (2 ^ 32 - 1))
                ∧ (0 < f.uncorr ∨ takes → Gives (.ethFrame port f) s fun s' =>
                  s'.net = s.net ∧ s'.qps = s.qps ∧ OtherRegs s s' fec)
                ∧ (f.uncorr = 0 → replies → Gives (.ethFrame port f) s fun s' =>
                  s'.net = s.net ++ [.ethReply p f.kind] ∧ s'.qps = s.qps ∧ OtherRegs s s' fec)
                ∧ (f.uncorr = 0 → ¬ replies → ¬ takes → ¬ roce → ¬ pauses → Gives (.ethFrame port f) s fun s' =>
                  rd s' n en_RX_DISCARD = min (rd s n en_RX_DISCARD + 1) (2 ^ 32 - 1) ∧ s'.net = s.net ∧ s'.qps = s.qps
                    ∧ OtherRegs s s' ((n, en_RX_DISCARD.off) :: fec))
                ∧ (∀ d r, f.uncorr = 0 → f.kind = .roce d r → own → ownIp s p d = true → Gives (.ethFrame port f) s fun s' =>
                  rd s' n en_ECN_RX = min (rd s n en_ECN_RX + b2n r.ecn) (2 ^ 32 - 1)
                    ∧ (r.ecn = true → rd s n en_ECN_EN = 1 → .ethReply p f.kind ∈ s'.net)
                    ∧ (roceSupported s p r = true ∨ qpReady s port r.qpn = false → s'.qps = s.qps)
                    ∧ (roceSupported s p r = false → qpReady s port r.qpn = true →
                      (qpGet s' p r.qpn).st = .error ∧ Flag s' n en_F_QP_ERROR))
                ∧ (∀ qs, f.uncorr = 0 → f.kind = .pfc qs → rd s n en_PFC_EN ≠ 0 → f.dst = 0x0180C2000001#48 →
                  Gives (.ethFrame port f) s fun s' => s'.net = s.net ∧ s'.qps = s.qps ∧ OtherRegs s s' fec
                    ∧ (∀ q, qs.getD (rd s n en_PFC_PRIO) none = some q →
                      pfcPaused s' p = decide (s.cycles < s.cycles + (q * 288 + 99) / 100))
                    ∧ (qs.getD (rd s n en_PFC_PRIO) none = none → s'.pfcUntil = s.pfcUntil)))
              ∧ (∀ (qpn : Nat) (sv : BitVec 64),
                (cmAccepts s port qpn sv.toNat = true → Gives (.cmReq port qpn sv) s fun s' => .cmRep p qpn ∈ s'.net
                    ∧ (qpGet s' p qpn).st = .connecting ∧ s'.regs = s.regs ∧ SameMem s s')
                  ∧ (cmAccepts s port qpn sv.toNat = false → Gives (.cmReq port qpn sv) s fun s' =>
                    s'.net = s.net ++ [.cmRej p qpn] ∧ s'.qps = s.qps ∧ s'.regs = s.regs ∧ SameMem s s'))
              ∧ (∀ qpn : Nat,
                ((qpGet s p qpn).st = .connecting → Gives (.cmRtu port qpn) s fun s' => (qpGet s' p qpn).st = .ready
                    ∧ (qpn = 0x10 → rd s' n en_MQ_CONNECTED = 1) ∧ (qpn ≠ 0x10 → s'.regs = s.regs) ∧ SameMem s s')
                  ∧ ((qpGet s p qpn).st ≠ .connecting → Answers (.cmRtu port qpn) s s)
                  ∧ ((qpGet s p qpn).st ≠ .idle → Gives (.cmDreq port qpn) s fun s' => (qpGet s' p qpn).st = .idle
                    ∧ .cmDrep p qpn ∈ s'.net ∧ (qpn = 0x10 → rd s' n en_MQ_CONNECTED = 0) ∧ SameMem s s')
                  ∧ ((qpGet s p qpn).st = .idle → Answers (.cmDreq port qpn) s s)
                  ∧ (Gives (.cnp port qpn) s fun s' => rd s' n en_CNP_RX = min (rd s n en_CNP_RX + 1) (2 ^ 32 - 1)
                    ∧ (rd s n en_ECN_EN = 1 → (qpGet s p qpn).st = .ready →
                      (qpGet s' p qpn).rate = (qpGet s p qpn).rate + 1) ∧ SameMem s s')))
        ∧ (∀ (qpn : Nat) (rnr : Bool),
            let x := qpGet s p qpn
            let r := if rnr then x.rnr + 1 else x.rnr
            let t := if rnr then x.retries else x.retries + 1
            (x.st ≠ .ready → Answers (.transportRetry port qpn rnr) s s)
              ∧ (x.st = .ready → r ≤ 7 → t ≤ 7 → Gives (.transportRetry port qpn rnr) s fun s' =>
                .retry p qpn ∈ s'.net ∧ qpGet s' p qpn = { x with rnr := r, retries := t } ∧ s'.regs = s.regs ∧ SameMem s s')
              ∧ (x.st = .ready → 7 < r ∨ 7 < t → Gives (.transportRetry port qpn rnr) s fun s' =>
                (qpGet s' p qpn).st = .error ∧ Flag s' n en_F_QP_ERROR ∧ SameMem s s')))
  ∧ (∀ (s : State) (port : BitVec 2) (qpn : Nat) (key : W32) (va : BitVec 64) (imm : Option W32),
      let a := va.toNat
      (ethUp s port = false ∨ qpReady s port qpn = false ∨ (doorKey s port.toNat qpn key = none ∧ s.failSafe.isSome = true) →
          (∀ data, Answers (.rdmaWrite port qpn key va data imm) s s) ∧ ∀ len, Answers (.rdmaRead port qpn key va len) s s)
        ∧ (ethUp s port = true → qpReady s port qpn = true →
          (∀ k, doorKey s port.toNat qpn key = some k →
              (∀ data, Answers (.rdmaWrite port qpn key va data imm) s (doorWrite s k (a % 4096) data))
                ∧ ∀ len, Gives (.rdmaRead port qpn key va len) s fun s' =>
                  (∃ bs, bs.length = len ∧ s'.net = s.net ++ [.rdmaReadRsp port.toNat qpn bs]) ∧ s'.regs = s.regs ∧ SameMem s s')
            ∧ (doorKey s port.toNat qpn key = none → s.failSafe = none →
              (∀ data : List Byte,
                ((regionFor s key a data.length true).isSome = true → LpGood s a data.length → inKeep s a data.length = false →
                    Gives (.rdmaWrite port qpn key va data imm) s fun s' =>
                    (∀ x, memByte s'.lp x = if a ≤ x ∧ x < a + data.length then data.getD (x - a) 0 else memByte s.lp x)
                      ∧ s'.spool = s.spool ∧ s'.flash = s.flash ∧ s'.tiles = s.tiles ∧ s'.regs = s.regs ∧ s'.net = s.net)
                  ∧ (regionFor s key a data.length true = none ∨ inKeep s a data.length = true ∨ (data.length % 64 ≠ 0
                        ∧ a / 64 = (a + data.length - 1) / 64 ∧ lpIsBad s a data.length = true) →
                    Gives (.rdmaWrite port qpn key va data imm) s fun s' =>
                    (qpGet s' port.toNat qpn).st = .error ∧ .rdmaNak port.toNat qpn ∈ s'.net ∧ SameMem s s'))
              ∧ ∀ len : Nat,
                ((regionFor s key a len false).isSome = true → LpGood s a len → inKeep s a len = false →
                    Gives (.rdmaRead port qpn key va len) s fun s' =>
                    s'.net = s.net ++ [.rdmaReadRsp port.toNat qpn (memRead s.lp a len)] ∧ s'.regs = s.regs ∧ SameMem s s')
                  ∧ (regionFor s key a len false = none ∨ inKeep s a len = true ∨ lpIsBad s a len = true →
                    Gives (.rdmaRead port qpn key va len) s fun s' =>
                    (qpGet s' port.toNat qpn).st = .error ∧ .rdmaNak port.toNat qpn ∈ s'.net ∧ SameMem s s'))))

/-- R512, R513, R518 and R521: a doorbell announces entries up to its TAIL, or stops the queue when TAIL is out of range;
CONSUMED frees completion slots; a completion goes to its slot with its phase, or waits for a free one, and after the last
one of a queue comes the reset that waited for it, or a destroyed queue goes (R520, R522); MQ_SETUP defines
the port's management queue. What does not arrive on a connected queue pair changes nothing.

R510 to R512, R519, R520 and R522: a queue is created with a doorbell key, and one that has nothing waiting is destroyed at
once, another after its unstarted commands are flushed; a region gets a key that names its extent and rights, until it is
freed; a reset waits for its completion; a definition or an extent that breaks a rule is refused with the rule's status.

The model's choices in it are those of log entries 89 and 96. -/
def Obligations.HostQueuesAndRegions : Prop :=
  (∀ s : State,
      (∀ (q : QRef) (v : BitVec 64), doorOpen s q = false ∨ queueGet s (qref q) = none →
          Answers (.doorbell q v) s s ∧ Answers (.consumed q v) s s)
        ∧ (∀ (q : QRef) (h : HostQ) (v : BitVec 64), doorOpen s q = true → queueGet s (qref q) = some h →
          (h.stopped = true → Answers (.doorbell q v) s s)
            ∧ (h.stopped = false → v.toNat < 2 ^ 32 → (v.toNat + 2 ^ 32 - h.head) % 2 ^ 32 ≤ 2 ^ h.n →
              Gives (.doorbell q v) s fun s' => queueGet s' (qref q) = some { h with tail := v.toNat }
                ∧ (∀ k, k ≠ qref q → queueGet s' k = queueGet s k) ∧ s'.regs = s.regs ∧ SameMem s s')
            ∧ (h.stopped = false → 2 ^ 32 ≤ v.toNat ∨ 2 ^ h.n < (v.toNat % 2 ^ 32 + 2 ^ 32 - h.head) % 2 ^ 32 →
              Gives (.doorbell q v) s fun s' => (∃ h', queueGet s' (qref q) = some h' ∧ h'.stopped = true ∧ h'.head = h.tail)
                ∧ Flag s' (enPg (qref q / 512)) en_F_DOORBELL_BAD ∧ SameMem s s')
            ∧ (Gives (.consumed q v) s fun s' => queueGet s' (qref q) = some { h with consumed := v.toNat % 2 ^ 32 }
                ∧ s'.regs = s.regs ∧ SameMem s s'))
        ∧ (∀ (q : QRef) (h : HostQ) (c : Cpl) (cs : List Cpl), queueGet s (qref q) = some h → h.cpls = c :: cs →
          let sends := c.hold = .no ∧ pfcPaused s q.port.toNat = false
            ∧ qpReady s q.port (qpnOf (if q.mgmt then 256 else q.q.toNat)) = true
          let free := (h.cplCount + 2 ^ 32 - h.consumed) % 2 ^ 32 < 2 ^ h.m
          let slot := NetMsg.rdmaWrite q.port.toNat (h.cpl + 16 * (h.cplCount % 2 ^ h.m)) h.hostKey (cplBytes (qref q) h c)
          (¬ sends ∨ (¬ free ∧ c.waited = true) → Answers (.completion q) s s)
            ∧ (sends → free → cs ≠ [] ∨ (s.resetDue ≠ some (qref q) ∧ dying s (qref q) = false) →
              Gives (.completion q) s fun s' => queueGet s' (qref q) = some { h with cplCount := h.cplCount + 1, cpls := cs }
                  ∧ s'.net = s.net ++ [slot] ++ (if c.notify then [.rdmaImm q.port.toNat c.tag] else [])
                  ∧ s'.regs = s.regs ∧ SameMem s s')
            ∧ (sends → free → cs = [] → s.resetDue = some (qref q) → Gives (.completion q) s fun s' =>
                s'.entered = false ∧ s'.resetDue = none ∧ slot ∈ s'.net ∧ s'.lp = s.lp ∧ s'.spool = s.spool)
            ∧ (sends → free → cs = [] → s.resetDue ≠ some (qref q) → dying s (qref q) = true →
              Gives (.completion q) s fun s' => queueGet s' (qref q) = none ∧ slot ∈ s'.net
                ∧ (∀ k x, k ≠ qref q → queueGet s k = some x →
                  queueGet s' k = some { x with cpls := freeHeld (.queue (qref q)) csOK 0 x.cpls })
                ∧ s'.regs = s.regs ∧ SameMem s s')
            ∧ (sends → ¬ free → c.waited = false → Gives (.completion q) s fun s' =>
                queueGet s' (qref q) = some { h with cpls := { c with waited := true } :: cs } ∧ s'.net = s.net
                  ∧ rd s' (enPg q.port.toNat) en_CPL_WAITS = min (rd s (enPg q.port.toNat) en_CPL_WAITS + 1) (2 ^ 32 - 1)
                  ∧ SameMem s s'))
        ∧ (∀ (port : BitVec 2) (data : List Byte),
          let defines := ethUp s port = true ∧ qpReady s port 0x10 = true ∧ data.length = 64 ∧ badQueue data true = none
            ∧ s.entered = true ∧ 2 ≤ rd s mgPg mg_PHASE
          (¬ defines → Answers (.mqSetup port data) s s)
            ∧ (defines → Gives (.mqSetup port data) s fun s' =>
              (∃ key, queueGet s' (qKey port.toNat 256) = some (newQueue data key)) ∧ s'.regs = s.regs ∧ SameMem s s')))
  ∧ (∀ (s : State) (q : QRef) (h : HostQ) (e : List Byte),
      let d := argQueue e
      (EntryRuns s q 0x40 h e →
          (badQueue e false = none → queueGet s d = none → ∃ key : W32, Posts (.queueCreate q) s q h e csOK key.toNat fun s' =>
              queueGet s' d = some (newQueue e key) ∧ s'.regs = s.regs ∧ SameMem s s')
            ∧ (∀ f, (queueGet s d).isSome = true ∧ f = 0x08 ∨ (queueGet s d = none ∧ badQueue e false = some f) →
              Posts (.queueCreate q) s q h e csBadField f fun s' =>
                queueGet s' d = queueGet s d ∧ s'.regs = s.regs ∧ SameMem s s'))
        ∧ (EntryRuns s q 0x41 h e →
          (queueGet s d = none → Posts (.queueDestroy q) s q h e csBadField 0x08 fun s' => s'.regs = s.regs ∧ SameMem s s')
            ∧ ∀ x : HostQ, queueGet s d = some x →
              let idle := x.cpls = [] ∧ unstarted x = 0
              let up := qpReady s (BitVec.ofNat 2 (d / 512)) (qpnOf (d % 512)) = true
              (idle ∨ ¬ up → Gives (.queueDestroy q) s fun s' => queueGet s' d = none ∧ s'.regs = s.regs ∧ SameMem s s'
                  ∧ queueGet s' (qref q) =
                    some { h with head := (h.head + 1) % 2 ^ 32, cpls := freeHeld (.queue d) csOK 0 h.cpls ++ [cplOf e csOK 0] })
                ∧ (¬ idle → up → Gives (.queueDestroy q) s fun s' =>
                  (∃ y, queueGet s' d = some y ∧ y.stopped = true ∧ y.head = x.tail
                    ∧ y.cpls.length = x.cpls.length + unstarted x)
                  ∧ queueGet s' (qref q) =
                    some { h with head := (h.head + 1) % 2 ^ 32, cpls := h.cpls ++ [{ cplOf e csOK 0 with hold := .queue d }] }
                  ∧ s'.regs = s.regs ∧ SameMem s s'))
        ∧ (EntryRuns s q 0x42 h e →
          let a := arg e 0
          let n := arg e 1
          let shape := a % 4096 = 0 ∧ n % 4096 = 0 ∧ arg e 2 < 4
          let none_ := fun (s' : State) => s'.regions = s.regions ∧ s'.regs = s.regs ∧ SameMem s s'
          (a % 4096 ≠ 0 → Posts (.region q) s q h e csBadField 0x08 none_)
            ∧ (a % 4096 = 0 → n % 4096 ≠ 0 → Posts (.region q) s q h e csBadField 0x10 none_)
            ∧ (a % 4096 = 0 → n % 4096 = 0 → 4 ≤ arg e 2 → Posts (.region q) s q h e csBadField 0x18 none_)
            ∧ (shape → inLp a n = false → Posts (.region q) s q h e csErrUnmapped 0 none_)
            ∧ (shape → inLp a n = true → extentKept s a n = true ∨ 1024 ≤ s.regions.length →
              ∃ d, Posts (.region q) s q h e csRefused d none_)
            ∧ (shape → inLp a n = true → extentKept s a n = false → s.regions.length < 1024 → rd s scPg sc_ENT_FAILED = 1 →
              ∃ d, Posts (.region q) s q h e csDenied d none_)
            ∧ (shape → inLp a n = true → extentKept s a n = false → s.regions.length < 1024 → rd s scPg sc_ENT_FAILED = 0 →
              ∃ key : W32, Posts (.region q) s q h e csOK key.toNat fun s' =>
                s'.regions = s.regions ++ [{ key := key, base := a, len := n, read := bit (arg e 2) 0,
                                             write := bit (arg e 2) 1 }]
                  ∧ SameMem s s'))
        ∧ (EntryRuns s q 0x43 h e → Posts (.regionFree q) s q h e csOK 0 fun s' =>
            (∀ r, r ∈ s'.regions ↔ r ∈ s.regions ∧ r.key ≠ BitVec.ofNat 32 (arg e 0)) ∧ s'.regs = s.regs ∧ SameMem s s')
        ∧ (EntryRuns s q 0x48 h e → Posts (.reset q) s q h e csOK 0 fun s' =>
            s'.resetDue = some (qref q) ∧ s'.regs = s.regs ∧ SameMem s s'))

/-- R185, R255 and R517: NOP completes; the copies move their bytes between the host and LPDDR5X, the copy from the host by
an RDMA READ of it, and nothing else changes; SIGNAL and MAILBOX post their word; each answers OK. A copy or a message whose
bytes lie in an uncorrectable line completes with ERR_UE (R280), and one that breaks a rule with the rule's status (R519).

R541, R470 and R522: REG_READ answers the register, REG_WRITE writes it by the page rules or is refused, LOG_READ and
TWIN_READ send their bytes to the host.

The model's choices in it are those of log entries 97, 98, 99 and 140. -/
def Obligations.HostDataCommands : Prop :=
  (∀ (s : State) (q : QRef) (h : HostQ) (e : List Byte),
      (EntryRuns s q 0x01 h e → Posts (.nop q) s q h e csOK 0 fun s' => s'.regs = s.regs ∧ s'.net = s.net ∧ SameMem s s')
        ∧ (EntryRuns s q 0x02 h e → ∀ (data : List Byte) (syn : Nat),
            let a := arg e 2
            let n := arg e 3
            let asked := s.net ++ [.rdmaReadReq q.port.toNat (arg e 0) (BitVec.ofNat 32 (arg e 1)) n]
            (∀ x, copyBad s a n 0x18 = some x → Posts (.copyIn q data syn) s q h e x.1 x.2 fun s' =>
              s'.net = s.net ∧ s'.regs = s.regs ∧ SameMem s s')
            ∧ (copyBad s a n 0x18 = none →
              (syn = 0 → LpGood s a n → data.length = n → Posts (.copyIn q data syn) s q h e csOK 0 fun s' =>
                (∀ x, memByte s'.lp x = if a ≤ x ∧ x < a + n then data.getD (x - a) 0 else memByte s.lp x)
                  ∧ s'.net = asked ∧ s'.spool = s.spool ∧ s'.flash = s.flash ∧ s'.regs = s.regs ∧ s'.tiles = s.tiles)
              ∧ (syn = 0 → data.length = n → 0 < n → a % 64 ≠ 0 → lpIsBad s a (64 - a % 64) = true →
                Posts (.copyIn q data syn) s q h e csErrUe rUe fun s' => s'.net = asked ∧ s'.spool = s.spool ∧ s'.tiles = s.tiles)
              ∧ (syn ≠ 0 → Posts (.copyIn q data syn) s q h e csRdmaErr syn fun s' =>
                s'.net = asked ∧ s'.regs = s.regs ∧ SameMem s s')))
        ∧ (EntryRuns s q 0x03 h e → ∀ syn : Nat,
            let a := arg e 0
            let n := arg e 3
            (∀ x, copyBad s a n 0x08 = some x → Posts (.copyOut q syn) s q h e x.1 x.2 fun s' =>
              s'.net = s.net ∧ s'.regs = s.regs ∧ SameMem s s')
            ∧ (copyBad s a n 0x08 = none → LpGood s a n →
              Posts (.copyOut q syn) s q h e (if syn = 0 then csOK else csRdmaErr) syn fun s' =>
                s'.net = s.net ++ [.rdmaWrite q.port.toNat (arg e 1) (BitVec.ofNat 32 (arg e 2)) (memRead s.lp a n)]
                  ∧ s'.regs = s.regs ∧ SameMem s s')
            ∧ (copyBad s a n 0x08 = none → lpIsBad s a n = true → Posts (.copyOut q syn) s q h e csErrUe rUe fun s' =>
                s'.net = s.net ∧ SameMem s s'))
        ∧ (EntryRuns s q 0x04 h e →
            (sigWordOk (arg e 0) = true → Posts (.signalCommand q) s q h e csOK 0 fun s' =>
                (bits (arg e 0) 30 28 = s.module → s'.net = s.net ++ [.signal (.host q) (BitVec.ofNat 64 (arg e 0))])
                  ∧ s'.regs = s.regs ∧ SameMem s s')
              ∧ (sigWordOk (arg e 0) = false → Posts (.signalCommand q) s q h e csBadField 0x08 fun s' =>
                s'.net = s.net ∧ s'.regs = s.regs ∧ SameMem s s'))
        ∧ (EntryRuns s q 0x05 h e →
          let w := arg e 0
          let a := arg e 1
          let quiet := fun (s' : State) => s'.net = s.net ∧ s'.regs = s.regs ∧ SameMem s s'
          (wordRsv w = true → Posts (.mailboxCommand q) s q h e csBadField 0x08 quiet)
            ∧ (wordRsv w = false → inLp a 64 = false → Posts (.mailboxCommand q) s q h e csErrUnmapped 0 quiet)
            ∧ (wordRsv w = false → inLp a 64 = true → inKeep s a 64 = true →
              Posts (.mailboxCommand q) s q h e csBadField 0x10 quiet)
            ∧ (wordRsv w = false → inLp a 64 = true → inKeep s a 64 = false → lpIsBad s a 64 = true →
              Posts (.mailboxCommand q) s q h e csErrUe rUe fun s' => s'.net = s.net ∧ SameMem s s')
            ∧ (wordRsv w = false → inLp a 64 = true → inKeep s a 64 = false → LpGood s a 64 →
              Posts (.mailboxCommand q) s q h e csOK 0 fun s' =>
                (bits w 30 28 = s.module →
                  s'.net = s.net ++ [.mbox (hostStamp s q) (BitVec.ofNat 64 w) (memRead s.lp a 64) false])
                ∧ s'.regs = s.regs ∧ SameMem s s')))
  ∧ (∀ (s : State) (q : QRef) (h : HostQ) (e : List Byte),
      let n := argPage e
      let off := argOff e
      let v := arg e 1 % 2 ^ 32
      let same := fun (s' : State) => s'.regs = s.regs ∧ SameMem s s'
      (∀ c, (EntryRuns s q 0x49 h e ∧ c = .regRead q) ∨ (EntryRuns s q 0x4A h e ∧ c = .regWrite q) →
          (off % 4 ≠ 0 → Posts c s q h e csBadField 0x08 same)
            ∧ (off % 4 = 0 → pageExists s n = false → Posts c s q h e csErrUnmapped 0 same))
        ∧ (EntryRuns s q 0x49 h e → off % 4 = 0 → pageExists s n = true →
          Posts (.regRead q) s q h e csOK (pageRead (taken s q h) n off).1 fun s' => SameMem s s')
        ∧ (EntryRuns s q 0x4A h e → off % 4 = 0 → pageExists s n = true →
          (off = 0x018 → forceAllowed s = false → ∃ d, Posts (.regWrite q) s q h e csDenied d same)
            ∧ ((off = 0x018 → forceAllowed s = true) → hostWriteRefused s n off v = true →
              ∃ d, Posts (.regWrite q) s q h e csRefused d fun s' => (off ≠ 0x01C → s'.regs = s.regs) ∧ SameMem s s')
            ∧ ((off = 0x018 → forceAllowed s = true) → hostWriteRefused s n off v = false →
              let r := pageWrite .host (taken s q h) n off v
              (r.1 = true → Posts (.regWrite q) s q h e csOK 0 fun s' => s'.regs = r.2.regs ∧ s'.lp = r.2.lp)
                ∧ (r.1 = false → ∃ d, Posts (.regWrite q) s q h e csRefused d fun s' => s'.regs = r.2.regs ∧ s'.lp = r.2.lp)))
        ∧ (EntryRuns s q 0x4B h e →
          (2 ≤ arg e 0 → Posts (.logRead q) s q h e csBadField 0x08 fun s' => s'.net = s.net ∧ same s')
            ∧ (arg e 0 < 2 →
            let rs := recsFrom (if arg e 0 = 0 then ringRecs s else mirrorRecs s) (arg e 1) (arg e 4)
            Posts (.logRead q) s q h e csOK rs.length fun s' => (rs ≠ [] →
              s'.net = s.net ++ [.rdmaWrite q.port.toNat (arg e 2) (BitVec.ofNat 32 (arg e 3)) rs.flatten])
                ∧ s'.regs = s.regs ∧ SameMem s s'))
        ∧ (EntryRuns s q 0x4C h e →
          let a := keepBase s + arg e 0
          let served := arg e 0 + arg e 1 ≤ keepSize s ∧ (s.failSafe = none ∨ keepServed s = true)
          (¬ served → Posts (.twinRead q) s q h e csErrUnmapped 0 fun s' => s'.net = s.net ∧ same s')
            ∧ (served → lpIsBad s a (arg e 1) = true → Posts (.twinRead q) s q h e csErrUe rUe fun s' =>
              s'.net = s.net ∧ SameMem s s')
            ∧ (served → LpGood s a (arg e 1) → Posts (.twinRead q) s q h e csOK 0 fun s' =>
              s'.net = s.net ++ [.rdmaWrite q.port.toNat (arg e 2) (BitVec.ofNat 32 (arg e 3)) (memRead s.lp a (arg e 1))]
                ∧ s'.regs = s.regs ∧ SameMem s s')))
  ∧ (∀ (s : State) (q : QRef) (h : HostQ), queueGet s (qref q) = some h → hostServes s q = true → h.stopped = false →
      unstarted h ≠ 0 →
      let e := ringEntry s h h.head
      let a := h.ring + 64 * (h.head % 2 ^ h.n)
      let next := { h with head := (h.head + 1) % 2 ^ 32 }
      let o := leNat (e.take 1)
      (lpIsBad s a 64 = true → Gives (.nop q) s fun s' =>
          queueGet s' (qref q) = some { next with cpls := h.cpls ++ [cplOf e csErrUe rUe] } ∧ SameMem s s')
        ∧ (LpGood s a 64 → leNat ((e.drop 0x38).take 4) ≠ h.head → Gives (.nop q) s fun s' =>
          queueGet s' (qref q) = some { next with stopped := true, cpls := h.cpls ++ [cplOf e csBadSeq h.head] } ∧ SameMem s s')
        ∧ (LpGood s a 64 → leNat ((e.drop 0x38).take 4) = h.head →
          ((opsOf s q.mgmt).contains o = false → Gives (.nop q) s fun s' =>
              queueGet s' (qref q) = some { next with cpls := h.cpls ++ [cplOf e csBadOpcode o] } ∧ SameMem s s')
            ∧ ((opsOf s q.mgmt).contains o = true → o ≠ 0x01 ∨ fenced h e = true → Answers (.nop q) s s)
            ∧ ((opsOf s q.mgmt).contains o = true → o = 0x01 → fenced h e = false →
              ∀ f, badEntry e = some f ∨ (badEntry e = none ∧ badTail e = true ∧ f = 0x3C) → Gives (.nop q) s fun s' =>
                queueGet s' (qref q) = some { next with cpls := h.cpls ++ [cplOf e csBadField f] } ∧ SameMem s s')))

/-! ### Security, registers, power and pins -/

/-- R430, R525 and R526: a test package that the vendor signed, above the active version, is stored; an owner record that its
own key or the installed owner's signed takes effect with a higher counter; FW_EPOCH raises the fuse and nothing lowers it.

R527 and R528: an authorised transition between the listed states blows its fuse, is recorded, and a reset follows its
completion; a running program refuses it, and so do the want of an authorisation, a return that is not bound to the die,
and a full count, each with its reason; a failed entropy source denies the first keys; VOID leaves no owner, no identity key
and no die key. R522: a command that changes state answers BUSY while another one runs.

The model's choices in it are those of log entries 10, 85, 88, 89 and 170. -/
def Obligations.SignedObjectsAndLifeCycle : Prop :=
  (∀ (s : State) (q : QRef) (h : HostQ) (e : List Byte),
      (EntryRuns s q 0x4D h e → s.mgmtBusy = none → ∀ p : PkgInfo,
          let a := arg e 0
          let n := arg e 1
          let v := p.version.toNat
          let bytes := memRead s.lp a (min n itAreaSize)
          let ok := signedBy s.vendorHash p.key (bytes.take p.signed) p.sig
          (inLp a n = false → Posts (.itPackage q p) s q h e csErrUnmapped 0 fun s' =>
              s'.itStored = s.itStored ∧ s'.regs = s.regs ∧ SameMem s s')
            ∧ (inLp a n = true → lpIsBad s a n = true → Posts (.itPackage q p) s q h e csErrUe rUe fun s' =>
              s'.itStored = s.itStored ∧ SameMem s s')
            ∧ (inLp a n = true → LpGood s a n →
              (ok = true → rd s itPg it_VER < v → Posts (.itPackage q p) s q h e csOK 0 fun s' =>
                  s'.itStored = v ∧ s'.pkgStored = digestBytes (bytes.take p.signed)
                    ∧ memRead s'.flash itArea (min n itAreaSize) = bytes ∧ s'.regs = s.regs ∧ s'.lp = s.lp ∧ s'.spool = s.spool)
                ∧ (ok = true → v ≤ rd s itPg it_VER → ∃ d, Posts (.itPackage q p) s q h e csRefused d fun s' =>
                  s'.itStored = s.itStored ∧ Flag s' itPg it_F_PKG_REFUSED ∧ Logs s s' 2 0x0502 itPg (b4 v ++ b1 1) ∧ SameMem s s')
                ∧ (ok = false → ∃ d, Posts (.itPackage q p) s q h e csRefused d fun s' =>
                  s'.itStored = s.itStored ∧ Flag s' itPg it_F_PKG_REFUSED ∧ Flag s' scPg sc_F_SIG_FAIL ∧ SameMem s s')))
        ∧ (EntryRuns s q 0x52 h e → s.mgmtBusy = none → ∀ r : OwnerRec,
            (inLp (arg e 0) 64 = false → Posts (.ownerSet q r) s q h e csErrUnmapped 0 fun s' =>
              s'.sec = s.sec ∧ s'.regs = s.regs ∧ SameMem s s')
            ∧ (inLp (arg e 0) 64 = true → lpIsBad s (arg e 0) 64 = true → Posts (.ownerSet q r) s q h e csErrUe rUe fun s' =>
              s'.sec = s.sec ∧ SameMem s s')
            ∧ (inLp (arg e 0) 64 = true → LpGood s (arg e 0) 64 →
              (recordSigned s r = true → ownerOk s r = true → Posts (.ownerSet q r) s q h e csOK 0 fun s' =>
                s'.sec = { s.sec with owner := some { key := r.key, counter := r.counter.toNat } }
                  ∧ Logs s s' 1 0x0516 lcPg (b4 r.counter.toNat) ∧ SameMem s s')
              ∧ (recordSigned s r = true → ownerOk s r = false → ∃ d, Posts (.ownerSet q r) s q h e csRefused d fun s' =>
                s'.sec = s.sec ∧ s'.regs = s.regs ∧ SameMem s s')
              ∧ (recordSigned s r = false → ∃ d, Posts (.ownerSet q r) s q h e csRefused d fun s' =>
                s'.sec = s.sec ∧ Flag s' scPg sc_F_SIG_FAIL ∧ Logs s s' 2 0x0510 scPg (b1 4) ∧ SameMem s s')))
        ∧ (EntryRuns s q 0x4E h e → s.mgmtBusy = none →
            (s.fuses.epoch < arg e 0 → arg e 0 ≤ 64 → arg e 0 ≤ rd s mgPg mg_FW_VER / 2 ^ 24 →
                Posts (.fwEpoch q) s q h e csOK 0 fun s' =>
                  s'.fuses = { s.fuses with epoch := arg e 0 } ∧ s'.regs = s.regs ∧ SameMem s s')
              ∧ (arg e 0 ≤ s.fuses.epoch ∨ 64 < arg e 0 ∨ rd s mgPg mg_FW_VER / 2 ^ 24 < arg e 0 →
                ∃ d, Posts (.fwEpoch q) s q h e csRefused d fun s' => s'.fuses = s.fuses ∧ s'.regs = s.regs ∧ SameMem s s'))
        ∧ (∀ b, s.mgmtBusy = some b → ∀ (key : List Byte) (t0 : BitVec 64) (p : PkgInfo) (r : OwnerRec) (ow ve : Option LcAuth)
            (op : Nat) (c : Instr), (op = 0x44 ∧ c = .load q key) ∨ (op = 0x45 ∧ c = .manifest q key) ∨ (op = 0x46 ∧ c = .stow q)
              ∨ (op = 0x47 ∧ c = .resume q t0) ∨ (op = 0x4D ∧ c = .itPackage q p) ∨ (op = 0x4E ∧ c = .fwEpoch q)
              ∨ (op = 0x52 ∧ c = .ownerSet q r) ∨ (op = 0x53 ∧ c = .lcTransition q ow ve) → EntryRuns s q op h e →
            Posts c s q h e csBusy b.op fun s' => s'.fuses = s.fuses ∧ s'.sec = s.sec ∧ s'.regs = s.regs ∧ SameMem s s'))
  ∧ (∀ (s : State) (q : QRef) (h : HostQ) (e : List Byte) (ow ve : Option LcAuth), EntryRuns s q 0x53 h e → s.mgmtBusy = none →
      let c := Instr.lcTransition q ow ve
      let a := lcState s
      let b := arg e 0 % 256
      let auth := if arg e 0 < 256 then lcAuth s a b (s.sec.owner.isSome && authBy (ownerHash s) b ow) (authBy s.vendorHash b ve)
        else none
      let bound := authBound s ow = true ∧ authBound s ve = true
      let refused := fun why => Posts c s q h e csRefused why fun s' =>
        s'.fuses = s.fuses ∧ s'.sec = s.sec ∧ Flag s' lcPg lc_F_TRANSITION_REFUSED ∧ SameMem s s'
      (inLp (arg e 1) 64 = false → Posts c s q h e csErrUnmapped 0 fun s' => s'.fuses = s.fuses ∧ s'.regs = s.regs ∧ SameMem s s')
        ∧ (inLp (arg e 1) 64 = true → lpIsBad s (arg e 1) 64 = true → Posts c s q h e csErrUe rUe fun s' =>
          s'.fuses = s.fuses ∧ SameMem s s')
        ∧ (inLp (arg e 1) 64 = true → LpGood s (arg e 1) 64 →
          (programRuns s = true → refused 1)
            ∧ (programRuns s = false → auth = none → ∃ d, refused d)
            ∧ (programRuns s = false → auth = some false → refused 2)
            ∧ (programRuns s = false → auth = some true → a = 2 → b = 3 → ¬ bound → refused 3)
            ∧ (programRuns s = false → auth = some true → a = 2 → b = 3 → bound → 16 ≤ s.fuses.lcCount → refused 4)
            ∧ (programRuns s = false → auth = some true → a = 0 → b = 1 → rd s scPg sc_ENT_FAILED = 1 →
              ∃ d, Posts c s q h e csDenied d fun s' => s'.fuses = s.fuses ∧ s'.sec = s.sec ∧ s'.regs = s.regs ∧ SameMem s s')
            ∧ (programRuns s = false → auth = some true → (a = 0 → b = 1 → rd s scPg sc_ENT_FAILED = 0) →
              (a = 2 → b = 3 → bound ∧ s.fuses.lcCount < 16) → Posts c s q h e csOK 0 fun s' =>
                (b = 4 → s'.fuses.voided = true ∧ s'.fuses.dieKey = 0 ∧ s'.fuses.lcCount = s.fuses.lcCount
                    ∧ s'.sec.owner = none ∧ s'.sec.idKey = none ∧ s'.sec.seals = [])
                  ∧ (b ≠ 4 → s'.fuses.voided = s.fuses.voided ∧ s'.fuses.lcCount = s.fuses.lcCount + 1)
                  ∧ (a = 0 → b = 1 → sealsOk s' = true ∧ s'.sec.idKey
                    = some ((List.range 8).map (fun i => Config.entropy (s.entIdx + i))))
                  ∧ (a = 2 → b = 3 → s'.sec.owner = none ∧ s'.lp = [] ∧ s'.spool = []
                    ∧ ∀ x, 0x0A520000 ≤ x → x < 0x0AB20000 → memByte s'.flash x = 0)
                  ∧ (¬ (a = 2 ∧ b = 3) → Logs s s' 1 0x0512 lcPg (b1 a ++ b1 b ++ b1 s'.fuses.lcCount) ∧ SameMem s s')
                  ∧ s'.fuses.epoch = s.fuses.epoch ∧ s'.resetDue = some (qref q) ∧ s'.tiles = s.tiles
                  ∧ OtherRegs s s' (logRegs 1 ++ [(evPg, ev_CAL_SEC.off), (evPg, ev_UNSET.off), (scPg, sc_ENT_OK.off)]))))

/-- R529 and R532: a token that signs this die, this power cycle and the present challenge opens debug with its SCOPE, by
the queue and by JTAG alike; one that fails is denied and recorded; a new challenge comes from the entropy source, and a
source that has failed gives none; a failed health test counts, and the third in a row is the failure of the source.

R522, R530 and R531: a quote is 1,024 bytes of which the first 512 hold the identity and the measurements that a quote
signs; the certificate goes up to the length that the host gives.

The model's choices in it are those of log entries 10, 86, 87 and 170. -/
def Obligations.DebugAndIdentity : Prop :=
  (∀ (s : State) (tk : Token),
      (tokenFails s tk = none → Gives (.lcToken tk) s fun s' => rd s' lcPg lc_DEBUG_OPEN = 1
          ∧ rd s' lcPg lc_SCOPE = tk.scope.toNat ∧ s'.sec.debugOpened = true ∧ Logs s s' 1 0x0514 lcPg (b1 tk.scope.toNat)
          ∧ SameMem s s')
        ∧ (∀ r, tokenFails s tk = some r → Gives (.lcToken tk) s fun s' => rd s' lcPg lc_DEBUG_OPEN = rd s lcPg lc_DEBUG_OPEN
          ∧ Flag s' lcPg lc_F_DEBUG_DENIED ∧ Logs s s' 2 0x0515 lcPg (b1 r) ∧ s'.sec = s.sec ∧ SameMem s s')
        ∧ (∀ (q : QRef) (h : HostQ) (e : List Byte), EntryRuns s q 0x54 h e →
          (inLp (arg e 0) 64 = false → Posts (.debugToken q tk) s q h e csErrUnmapped 0 fun s' => s'.regs = s.regs ∧ SameMem s s')
            ∧ (inLp (arg e 0) 64 = true → lpIsBad s (arg e 0) 64 = true → Posts (.debugToken q tk) s q h e csErrUe rUe fun s' =>
              rd s' lcPg lc_DEBUG_OPEN = rd s lcPg lc_DEBUG_OPEN ∧ SameMem s s')
            ∧ (inLp (arg e 0) 64 = true → LpGood s (arg e 0) 64 →
            (tokenFails s tk = none → Posts (.debugToken q tk) s q h e csOK 0 fun s' => rd s' lcPg lc_DEBUG_OPEN = 1
                ∧ rd s' lcPg lc_SCOPE = tk.scope.toNat ∧ SameMem s s')
              ∧ (tokenFails s tk ≠ none → ∃ d, Posts (.debugToken q tk) s q h e csDenied d fun s' =>
                rd s' lcPg lc_DEBUG_OPEN = rd s lcPg lc_DEBUG_OPEN ∧ Flag s' lcPg lc_F_DEBUG_DENIED
                  ∧ (tokenFails s tk = some 0 → Flag s' scPg sc_F_SIG_FAIL) ∧ SameMem s s')))
        ∧ (rd s scPg sc_ENT_FAILED = 0 → ∀ c, c = .lcChallenge ∨ (c = .newChallenge ∧ locked s lcPg = false) →
            Gives c s fun s' => s'.entIdx = s.entIdx + 8 ∧ rd s' scPg sc_ENT_OK = 1
              ∧ (∀ i, i < 8 → rdi s' lcPg lc_CHALLENGE (2 * i) + 2 ^ 32 * rdi s' lcPg lc_CHALLENGE (2 * i + 1)
                  = (Config.entropy (s.entIdx + i)).toNat) ∧ SameMem s s')
        ∧ (rd s scPg sc_ENT_FAILED = 1 ∨ locked s lcPg = true → Gives .newChallenge s fun s' =>
            challengeNow s' = challengeNow s ∧ SameMem s s')
        ∧ (rd s scPg sc_ENT_FAILED = 1 → Answers .lcChallenge s s ∧ ∀ ad, Answers (.entropyHealth ad) s s)
        ∧ (rd s scPg sc_ENT_FAILED = 0 → ∀ ad : Bool, Gives (.entropyHealth ad) s fun s' =>
            rd s' scPg sc_HEALTH_FAILS = min (rd s scPg sc_HEALTH_FAILS + 1) (2 ^ 16 - 1) ∧ rd s' scPg sc_ENT_OK = 0
              ∧ Flag s' scPg sc_F_ENTROPY_HEALTH ∧ s'.entFails = s.entFails + 1
              ∧ rd s' scPg sc_ENT_FAILED = b2n (decide (2 ≤ s.entFails)) ∧ SameMem s s'))
  ∧ (∀ (s : State) (q : QRef) (h : HostQ) (e : List Byte),
      (EntryRuns s q 0x50 h e →
        (s.lull = false → inLp (arg e 0) 32 = false → Posts (.quote q) s q h e csErrUnmapped 0 fun s' =>
            s'.net = s.net ∧ s'.regs = s.regs ∧ SameMem s s')
          ∧ (s.lull = false → inLp (arg e 0) 32 = true → lpIsBad s (arg e 0) 32 = true →
            Posts (.quote q) s q h e csErrUe rUe fun s' => s'.net = s.net ∧ SameMem s s')
          ∧ (s.lull = true ∨ (inLp (arg e 0) 32 = true ∧ LpGood s (arg e 0) 32) →
            Posts (.quote q) s q h e csOK 0 fun s' =>
            (∃ bs, s'.net = s.net ++ [.rdmaWrite q.port.toNat (arg e 1) (BitVec.ofNat 32 (arg e 2)) bs] ∧ bs.length = 1024
                ∧ bs.take 16 = [0x4A#8, 0x54#8, 0x51#8, 0x55#8, 0x4F#8, 0x54#8, 0x45#8, 0x31#8]
                    ++ leBytes 8 s.fuses.c0.dieId.toNat
                ∧ (bs.drop 32).take 32 = quoteNonce s e
                ∧ bs.drop 512 = padTo 512 (Config.identitySign (s.sec.idKey.getD []) (bs.take 512)))
              ∧ rd s' scPg sc_QUOTES = min (rd s scPg sc_QUOTES + 1) (2 ^ 32 - 1)
              ∧ OtherRegs s s' [(scPg, sc_QUOTES.off)] ∧ SameMem s s'))
        ∧ (EntryRuns s q 0x51 h e → Posts (.identity q) s q h e csOK 0 fun s' =>
            s'.net = s.net ++ [.rdmaWrite q.port.toNat (arg e 1) (BitVec.ofNat 32 (arg e 2))
                (match s.sec.idKey with
                  | some k => (Config.identityCert s.fuses.c0.dieId k).take (arg e 3)
                  | none => [])] ∧ s'.regs = s.regs ∧ SameMem s s'))

/-- R9, R541, R543 and R545 to R549: an accepted write of a plain RW register stores its bits and counts in PG_SEQ; under
LOCK it stores nothing and sets WREJ; FAULT_FORCE sets and reports the bits the page defines, those of the MG page to the
host, and a W1C write clears a bit with its interrupt; CLR_CNT zeroes the
counters; a read of a latching register or of a maximum does what its page says.

The model's choices in it are those of log entries 28 and 92. -/
def Obligations.RegisterPagesKeepTheirRules : Prop :=
  ∀ s : State,
    (∀ v : W32,
        (locked s dlPg = false → Gives (.registerWrite dlPg 0x014 v) s fun s' => regW s' dlPg 0x014 = v.toNat
            ∧ rd s' dlPg pg_PG_SEQ = (rd s dlPg pg_PG_SEQ + 1) % 2 ^ 32
            ∧ OtherRegs s s' [(dlPg, 0x014), (dlPg, pg_PG_SEQ.off)] ∧ SameMem s s')
          ∧ (locked s evPg = false → Gives (.registerWrite evPg 0x05C v) s fun s' => rd s' evPg ev_OPT_SET = v.toNat
            ∧ s'.optSet = true ∧ rd s' evPg pg_PG_SEQ = (rd s evPg pg_PG_SEQ + 1) % 2 ^ 32
            ∧ OtherRegs s s' [(evPg, 0x05C), (evPg, pg_PG_SEQ.off)] ∧ SameMem s s')
          ∧ (locked s evPg = true → Gives (.registerWrite evPg 0x05C v) s fun s' => rd s' evPg pg_WREJ = 1
            ∧ OtherRegs s s' [(evPg, pg_WREJ.off)] ∧ SameMem s s'))
      ∧ (∀ (v : W32) (i : Nat), locked s evPg = false → i < 3 → bit v.toNat i = true →
          Gives (.pgFaultForce evPg v) s fun s' => bit (regW s' evPg pg_FAULT.off) i = true
            ∧ (bit (regW s evPg pg_FAULT_MASK.off) i = false → (evPg, i) ∈ s'.irqs) ∧ SameMem s s')
      ∧ (∀ (v : W32) (i : Nat), i < 4 → bit v.toNat i = true →
          (locked s mgPg = false → Gives (.pgFaultForce mgPg v) s fun s' => bit (regW s' mgPg pg_FAULT.off) i = true
              ∧ (bit (regW s mgPg pg_FAULT_MASK.off) i = false → i ∈ s'.hostIrqs) ∧ SameMem s s')
            ∧ (Gives (.registerWrite mgPg 0x010 v) s fun s' => bit (regW s' mgPg pg_FAULT.off) i = false
              ∧ i ∉ s'.hostIrqs ∧ s'.irqs = s.irqs ∧ SameMem s s'))
      ∧ (locked s evPg = false → Gives (.clrCnt evPg) s fun s' => rd s' evPg ev_QDROP = 0
          ∧ (∀ v, v < 5 → rdi s' evPg ev_DROP v = 0) ∧ rd s' evPg ev_HEAD_SEQ = rd s evPg ev_HEAD_SEQ ∧ SameMem s s')
      ∧ (Gives (.readLatch tmPg 0x048) s fun s' => regView s' tmPg 0x04C = hallNs s / 2 ^ 32
          ∧ regView s' tmPg 0x050 = hallFrac s ∧ s'.regs = s.regs ∧ SameMem s s')
      ∧ (Gives (.readToClear pwPg 0x040) s fun s' => rd s' pwPg pw_PEAK_W = 0 ∧ rd s' pwPg pw_IN_W = rd s pwPg pw_IN_W
          ∧ OtherRegs s s' [(pwPg, pw_PEAK_W.off)] ∧ SameMem s s')

/-- R554 to R556, R564, R566 and R568: a rail outside its warning window is recorded; one outside its fault window drives
fail-safe and, from rail 2 on, takes PWR_OK; the input cap requests and releases throttling.

R557, R558, R560 and R578: a sensor at its warning limit alerts and is recorded, at its shutdown limit it drives
fail-safe; the alert ends 3 °C below; DUTY moves in steps of 4 up to 48; a second with throttling is recorded, and the
inlet once an episode.

The model's choices in it are those of log entries 100, 101 and 102. -/
def Obligations.RailsAndTemperatures : Prop :=
  (∀ s : State,
      (∀ (r : BitVec 3) (mv : Nat), mv < 2 ^ 16 →
          (inWindow (warnWindow r.toNat) mv = true → Gives (.railWarn r mv) s fun s' => rdi s' pwPg pw_MV r.toNat = mv
              ∧ s'.logQ = s.logQ ∧ s'.failSafe = s.failSafe ∧ s'.pins = s.pins ∧ SameMem s s')
            ∧ (inWindow (faultWindow r.toNat) mv = true → Gives (.railFault r mv) s fun s' => rdi s' pwPg pw_MV r.toNat = mv
              ∧ s'.logQ = s.logQ ∧ s'.failSafe = s.failSafe ∧ s'.pins = s.pins ∧ SameMem s s')
            ∧ (inWindow (warnWindow r.toNat) mv = false → Gives (.railWarn r mv) s fun s' => rdi s' pwPg pw_MV r.toNat = mv
              ∧ Flag s' pwPg pw_F_RAIL_WARN ∧ Logs s s' 2 0x0601 pwPg (b1 r.toNat ++ b2 mv) ∧ s'.pins = s.pins ∧ SameMem s s')
            ∧ (inWindow (faultWindow r.toNat) mv = false → r ≠ 0 → Gives (.railFault r mv) s fun s' =>
              rdi s' pwPg pw_MV r.toNat = mv ∧ Flag s' pwPg pw_F_RAIL_FAULT ∧ LogsFatal s s' 0x0602 pwPg (b1 r.toNat ++ b2 mv)
                ∧ s'.failSafe.isSome = true ∧ s'.pins.pwrOk = (s.pins.pwrOk && decide (r.toNat < 2)) ∧ s'.lp = s.lp))
        ∧ (∀ w : Nat, w < 2 ^ 16 →
            (rd s pwPg pw_CAP_W < w → Gives (.capThrottle w) s fun s' => s'.capReq = true ∧ Flag s' pwPg pw_F_CAP_THROTTLE
                ∧ rd s' pwPg pw_IN_W = w ∧ rd s' pwPg pw_PEAK_W = max (rd s pwPg pw_PEAK_W) w ∧ SameMem s s')
              ∧ (w ≤ rd s pwPg pw_CAP_W → Gives (.capThrottle w) s fun s' => s'.capReq = s.capReq
                ∧ rd s' pwPg pw_IN_W = w ∧ rd s' pwPg pw_PEAK_W = max (rd s pwPg pw_PEAK_W) w ∧ SameMem s s')
              ∧ (rd s pwPg pw_CAP_W ≤ w + 20 → Gives (.capRelease w) s fun s' => s'.capReq = s.capReq
                ∧ rd s' pwPg pw_IN_W = w ∧ rd s' pwPg pw_PEAK_W = max (rd s pwPg pw_PEAK_W) w ∧ SameMem s s')
              ∧ (w + 20 < rd s pwPg pw_CAP_W → Gives (.capRelease w) s fun s' => s'.capReq = false
                ∧ rd s' pwPg pw_IN_W = w ∧ rd s' pwPg pw_PEAK_W = max (rd s pwPg pw_PEAK_W) w ∧ SameMem s s')))
  ∧ (∀ s : State,
      (∀ (i : BitVec 4) (t : Int), 14 ≤ i.toNat ∨ (atLeastC t (rd s thPg th_WARN_C) = false ∧ atLeastC t (rd s thPg th_SHUT_C) = false) →
          ∀ c, c = .tempHigh i t ∨ c = .tempShutdown i t → Gives c s fun s' => rdi s' thPg th_TEMP i.toNat = encInt 16 t
            ∧ s'.logQ = s.logQ ∧ s'.pins = s.pins ∧ s'.failSafe = s.failSafe ∧ SameMem s s')
        ∧ (∀ (i : BitVec 4) (t : Int), i.toNat < 14 →
          (atLeastC t (rd s thPg th_WARN_C) = true → Gives (.tempHigh i t) s fun s' => Flag s' thPg th_F_TEMP_HIGH
              ∧ rd s' thPg th_ALERT = 1 ∧ s'.pins.thermAlertN = false ∧ rdi s' thPg th_TEMP i.toNat = encInt 16 t
              ∧ Logs s s' 2 0x0701 thPg (b1 i.toNat ++ b1 (wholeC t)) ∧ s'.failSafe = s.failSafe ∧ SameMem s s')
            ∧ (atLeastC t (rd s thPg th_SHUT_C) = true → Gives (.tempShutdown i t) s fun s' => Flag s' thPg th_F_SHUTDOWN
              ∧ s'.failSafe.isSome = true ∧ LogsFatal s s' 0x0703 thPg (b1 i.toNat ++ b1 (wholeC t)) ∧ s'.lp = s.lp))
        ∧ (∀ ts : List Int, (∀ i, i < 16 → -32768 ≤ ts.getD i 0 ∧ ts.getD i 0 ≤ 32767) →
            ((∀ i, i < 14 → atLeastC (ts.getD i 0) (rd s thPg th_WARN_C - 3) = false) → Gives (.thermAlertRelease ts) s fun s' =>
                rd s' thPg th_ALERT = 0 ∧ s'.pins.thermAlertN = true ∧ SameMem s s')
              ∧ (Gives (.dutyUpdate ts) s fun s' => SameMem s s'
                ∧ (rd s thPg th_THROT_EN = 0 → rd s' thPg th_DUTY = 0)
                ∧ (rd s thPg th_THROT_EN = 1 → s.capReq = true ∨ (∃ i, i < 10 ∧ atLeastC (ts.getD i 0) (rd s thPg th_THROT_C) = true) →
                    rd s' thPg th_DUTY = min 48 (rd s thPg th_DUTY + 4) ∧ (rd s thPg th_DUTY = 0 → Flag s' thPg th_F_THROTTLE))
                ∧ (rd s thPg th_THROT_EN = 1 → s.capReq = false →
                    (∀ i, i < 10 → atLeastC (ts.getD i 0) (rd s thPg th_THROT_C - 3) = false) →
                    rd s' thPg th_DUTY = rd s thPg th_DUTY - 4)))
        ∧ (rd s thPg th_DUTY = 0 → Answers .throttle s s)
        ∧ (rd s thPg th_DUTY ≠ 0 → Gives .throttle s fun s' => Logs s s' 1 0x0702 thPg (b4 s.throtLast)
            ∧ OtherRegs s s' (logRegs 1) ∧ SameMem s s')
        ∧ (∀ t : Int, atLeastC t 42 = true → Gives (.inletWarn t) s fun s' => s'.inletEp = true
            ∧ (s.inletEp = false → Logs s s' 2 0x0701 thPg (b1 14 ++ b1 (wholeC t))) ∧ (s.inletEp = true → s'.logQ = s.logQ)
            ∧ SameMem s s')
        ∧ (∀ t : Int, atLeastC t 42 = false → Gives (.inletWarn t) s fun s' =>
            s'.inletEp = (s.inletEp && atLeastC t 40) ∧ s'.logQ = s.logQ ∧ SameMem s s'))

/-- R464 and R566 to R572: standby power starts the always-on domain; MAIN in its window with standby power starts the
memories empty; PWR_OK follows MAIN and rails 2 to 7; a fall of RESET_N writes the operating-time store, resets the module
and keeps LPDDR5X, the spools and the rest of flash; MAIN out of its window resets it too, and holds the module off until
RESET_N rises from a low with the power good; the loss of standby power resets the logbook as well; TWIN_PRESENT follows its pin.

R573: with standby power the SMBus target answers each command with its bytes and changes nothing else, and without it
nothing; the slot that command 0x04 reads is the one last selected.

The model's choices in it are those of log entries 72, 104, 105, 107 and 111. -/
def Obligations.PowerResetAndSmbus : Prop :=
  (∀ s : State,
      let stays := fun (s' : State) => ∀ a, (∀ i, i < 2 → a < timeBase i ∨ timeBase i + 16 ≤ a) →
        memByte s'.flash a = memByte s.flash a
      (s.pins.stby = false → Gives .stbyValid s fun s' => s'.pins.stby = true ∧ s'.freshPower = true ∧ s'.evLost = true
          ∧ s'.regs = s.regs ∧ SameMem s s')
        ∧ (s.pins.stby = true → Answers .stbyValid s s)
        ∧ (∀ mv : Nat, mv < 2 ^ 16 → s.pins.main = false → s.pins.stby = true → inWindow (faultWindow 0) mv = true →
            Gives (.mainApplied mv) s fun s' => s'.pins.main = true ∧ s'.freshPower = true ∧ s'.lp = [] ∧ s'.spool = []
              ∧ rdi s' pwPg pw_MV 0 = mv ∧ rd s' lcPg lc_DEBUG_OPEN = 0 ∧ s'.flash = s.flash ∧ s'.ring = s.ring)
        ∧ (∀ mv : Nat, mv < 2 ^ 16 → s.pins.main = true ∨ s.pins.stby = false ∨ inWindow (faultWindow 0) mv = false →
            Gives (.mainApplied mv) s fun s' => rdi s' pwPg pw_MV 0 = mv ∧ s'.pins = s.pins ∧ SameMem s s')
        ∧ (∀ mvs : List Nat, Gives (.pwrOk mvs) s fun s' => (s'.pins.pwrOk = true ↔ s.pins.main = true
              ∧ ∀ r ∈ [0, 2, 3, 4, 5, 6, 7], inWindow (faultWindow r) (mvs.getD r 0) = true)
            ∧ (∀ r, r < 8 → rdi s' pwPg pw_MV r = min (mvs.getD r 0) 0xFFFF) ∧ SameMem s s')
        ∧ (Gives (.resetN true) s fun s' => s'.pins.resetN = true ∧ s'.regs = s.regs ∧ SameMem s s'
            ∧ s'.pins.heldOff = (s.pins.heldOff && (s.pins.resetN || !s.pins.pwrOk)))
        ∧ (s.pins.resetN = true → Gives (.resetN false) s fun s' => s'.pins.resetN = false ∧ s'.entered = false
            ∧ s'.pins.heldOff = s.pins.heldOff
            ∧ s'.tiles = [] ∧ s'.lp = s.lp ∧ s'.spool = s.spool ∧ stays s' ∧ s'.ring = s.ring
            ∧ (rd s evPg ev_CAL = 0 → s.evLost = false → timeCopy s' (b2n s.timeNext) = some (timeNow s))
            ∧ s'.stopped = false ∧ s'.failSafe = none ∧ rd s' mgPg mg_PHASE = 0
            ∧ (∀ g, g < 4 → rd s' (lpPg g) lp_SELF_REFRESH = 1))
        ∧ (s.pins.resetN = false → Gives (.resetN false) s fun s' => s'.pins.resetN = false
            ∧ s'.pins.heldOff = s.pins.heldOff ∧ s'.regs = s.regs ∧ SameMem s s')
        ∧ (∀ (mv : Nat) (c : Instr), inWindow (faultWindow 0) mv = false →
            (c = .mainFault mv ∧ s.pins.main = true) ∨ c = .railFault 0 mv →
            (s.pins.resetN = true → Gives c s fun s' => s'.pins.main = false ∧ s'.pins.pwrOk = false ∧ s'.pins.heldOff = true
                ∧ s'.entered = false ∧ s'.tiles = [] ∧ s'.flash = s.flash
                ∧ Logs s s' 4 0x0602 pwPg (b1 0 ++ b2 mv))
              ∧ (s.pins.resetN = false → Gives c s fun s' => s'.pins.main = false ∧ s'.pins.pwrOk = false
                ∧ s'.logQ = s.logQ ∧ SameMem s s'))
        ∧ (∀ mv : Nat, inWindow (faultWindow 0) mv = true ∨ s.pins.main = false → Answers (.mainFault mv) s s)
        ∧ (s.pins.stby = true → Gives .stbyLoss s fun s' => s'.pins.stby = false ∧ s'.pins.main = false
            ∧ s'.pins.pwrOk = false ∧ s'.ring = [] ∧ s'.logQ = [] ∧ s'.irqs = [] ∧ s'.entered = false ∧ s'.evLost = true
            ∧ s'.tiles = [] ∧ s'.flash = s.flash)
        ∧ (s.pins.stby = false → Answers .stbyLoss s s)
        ∧ (∀ b : Bool, Gives (.twinPresent b) s fun s' => s'.pins.twinPresent = b
            ∧ (b = true → rd s' twPg tw_PARTNER_OK = 0) ∧ SameMem s s'))
  ∧ (∀ s : State, s.pins.stby = false → ∀ (n : BitVec 16) (c : Instr), c = .smbStatus ∨ c = .smbPower ∨ c = .smbTemperature
      ∨ c = .smbHeadSeq ∨ c = .smbDieId ∨ c = .smbLogSlot ∨ c = .smbSlotSelect n → Answers c s s)
  ∧ (∀ s : State, s.pins.stby = true →
      let tells := fun (c : Instr) (bs : List Byte) => Answers c s (send s (.smb bs))
      tells .smbPower (leBytes 2 (rd s pwPg pw_IN_W))
        ∧ tells .smbTemperature (leBytes 1 (rd s thPg th_MAX_C) ++ leBytes 1 (wholeC (tempOf s 14)))
        ∧ tells .smbHeadSeq (leBytes 4 (rd s evPg ev_HEAD_SEQ))
        ∧ tells .smbDieId (leBytes 8 s.fuses.c0.dieId.toNat)
        ∧ (s.smbSlot < 2048 → tells .smbLogSlot (slotBytes s s.smbSlot))
        ∧ (2048 ≤ s.smbSlot → Gives .smbLogSlot s fun s' => (∃ bs, s'.net = s.net ++ [.smb bs] ∧ bs.length = 32)
          ∧ s'.regs = s.regs ∧ SameMem s s')
        ∧ (Gives .smbStatus s fun s' => ∃ b, s'.net = s.net ++ [.smb [b]] ∧ s'.regs = s.regs
            ∧ b.getLsbD 7 = s.failSafe.isSome ∧ b.getLsbD 6 = s.lull ∧ b.getLsbD 5 = s.pins.pwrOk
            ∧ b.getLsbD 4 = s.pins.twinPresent
            ∧ b.toNat % 16 = (if s.entered then rd s mgPg mg_PHASE else 15))
        ∧ (∀ n : BitVec 16, Answers (.smbSlotSelect n) s { s with smbSlot := n.toNat }))
end

