-- ==== Sys2Proof/Laws/Map.lean ====
section
/-! SUPPORT. The laws of sparse storage: what a read gives after a write, and that every operation keeps the canonical
form. -/

namespace Sys2Proof.Machine

variable {α : Type}

@[simp] theorem smGet_nil (d : Nat → α) (k : Nat) : smGet d [] k = d k := rfl

theorem smGet_cons (d : Nat → α) (c : Nat × α) (m : SMap α) (k : Nat) :
    smGet d (c :: m) k = if c.1 = k then c.2 else smGet d m k := rfl

theorem smGet_smIns_same (d : Nat → α) (k : Nat) (v : α) :
    ∀ m : SMap α, (∀ c ∈ m, c.1 ≠ k) → smGet d (smIns k v m) k = v
  | [], _ => by simp [smIns, smGet]
  | c :: m, h => by
    have hc : c.1 ≠ k := h c (by simp)
    unfold smIns
    split
    · simp [smGet]
    · rw [smGet_cons, if_neg hc]
      exact smGet_smIns_same d k v m (fun x hx => h x (by simp [hx]))

theorem smGet_smIns_ne (d : Nat → α) {k k' : Nat} (v : α) (hk : k' ≠ k) :
    ∀ m : SMap α, smGet d (smIns k v m) k' = smGet d m k'
  | [] => by simp [smIns, smGet, Ne.symm hk]
  | c :: m => by
    unfold smIns
    split
    · rw [smGet_cons, if_neg (Ne.symm hk)]
    · rw [smGet_cons, smGet_cons, smGet_smIns_ne d v hk m]

theorem smDel_notMem (m : SMap α) (k : Nat) : ∀ c ∈ smDel m k, c.1 ≠ k := by
  intro c hc
  simpa using (List.mem_filter.mp hc).2

theorem smGet_smDel_ne (d : Nat → α) {k k' : Nat} (hk : k' ≠ k) :
    ∀ m : SMap α, smGet d (smDel m k) k' = smGet d m k'
  | [] => rfl
  | c :: m => by
    have ih := smGet_smDel_ne d hk m
    unfold smDel at ih ⊢
    by_cases hc : c.1 = k
    · have : c.1 ≠ k' := fun e => hk (e.symm.trans hc)
      simp [hc, smGet_cons, ih, Ne.symm hk]
    · simp [hc, smGet_cons, ih]

theorem smGet_of_notMem (d : Nat → α) {k : Nat} : ∀ m : SMap α, (∀ c ∈ m, c.1 ≠ k) → smGet d m k = d k
  | [], _ => rfl
  | c :: m, h => by
    rw [smGet_cons, if_neg (h c (by simp))]
    exact smGet_of_notMem d m (fun x hx => h x (by simp [hx]))

variable [DecidableEq α]

/-- A read gives what the last write at the key stored. -/
@[simp] theorem smGet_smPut_same (d : Nat → α) (m : SMap α) (k : Nat) (v : α) : smGet d (smPut d m k v) k = v := by
  unfold smPut
  split
  · rename_i h
    rw [h]; exact smGet_of_notMem d _ (smDel_notMem m k)
  · exact smGet_smIns_same d k v _ (smDel_notMem m k)

/-- A write leaves every other key alone. -/
theorem smGet_smPut_ne (d : Nat → α) (m : SMap α) {k k' : Nat} (v : α) (h : k' ≠ k) :
    smGet d (smPut d m k v) k' = smGet d m k' := by
  unfold smPut
  split
  · exact smGet_smDel_ne d h m
  · rw [smGet_smIns_ne d v h, smGet_smDel_ne d h]

/-- Both cases of a read after a write. -/
theorem smGet_smPut (d : Nat → α) (m : SMap α) (k k' : Nat) (v : α) :
    smGet d (smPut d m k v) k' = if k' = k then v else smGet d m k' := by
  split
  · rename_i h; rw [h]; simp
  · rename_i h; exact smGet_smPut_ne d m v h

/-! ### The canonical form -/

theorem smWfFrom_mono (d : Nat → α) {lo lo' : Nat} (hl : lo' ≤ lo) :
    ∀ m : SMap α, smWfFrom d lo m = true → smWfFrom d lo' m = true
  | [], _ => rfl
  | c :: m, h => by
    simp only [smWfFrom, Bool.and_eq_true, decide_eq_true_eq] at h ⊢
    exact ⟨le_trans hl h.1, h.2⟩

theorem smWfFrom_smFilter (d : Nat → α) (p : Nat × α → Bool) :
    ∀ (m : SMap α) (lo : Nat), smWfFrom d lo m = true → smWfFrom d lo (m.filter p) = true
  | [], _, _ => rfl
  | c :: m, lo, h => by
    simp only [smWfFrom, Bool.and_eq_true, decide_eq_true_eq] at h
    have ih := smWfFrom_smFilter d p m _ h.2.2
    by_cases hc : p c = true
    · simp only [List.filter_cons_of_pos hc, smWfFrom, Bool.and_eq_true, decide_eq_true_eq]
      exact ⟨h.1, h.2.1, ih⟩
    · rw [List.filter_cons_of_neg hc]
      exact smWfFrom_mono d (by omega) _ ih

theorem smWfFrom_smIns (d : Nat → α) {k : Nat} {v : α} (hv : v ≠ d k) :
    ∀ (m : SMap α) (lo : Nat), lo ≤ k → (∀ c ∈ m, c.1 ≠ k) → smWfFrom d lo m = true →
      smWfFrom d lo (smIns k v m) = true
  | [], lo, hk, _, _ => by simp [smIns, smWfFrom, hk, hv]
  | c :: m, lo, hk, hn, h => by
    simp only [smWfFrom, Bool.and_eq_true, decide_eq_true_eq] at h
    have hne : c.1 ≠ k := hn c (by simp)
    unfold smIns
    split
    · rename_i hlt
      simp only [smWfFrom, Bool.and_eq_true, decide_eq_true_eq]
      exact ⟨hk, hv, by omega, h.2.1, h.2.2⟩
    · rename_i hlt
      simp only [smWfFrom, Bool.and_eq_true, decide_eq_true_eq]
      exact ⟨h.1, h.2.1, smWfFrom_smIns d hv m _ (by omega) (fun x hx => hn x (by simp [hx])) h.2.2⟩

@[simp] theorem smWf_nil (d : Nat → α) : smWf d [] = true := rfl

/-- Dropping entries keeps the canonical form. -/
theorem smWf_filter (d : Nat → α) (m : SMap α) (p : Nat × α → Bool) (h : smWf d m = true) :
    smWf d (m.filter p) = true := smWfFrom_smFilter d p m 0 h

/-- A write keeps the canonical form. -/
theorem smWf_smPut (d : Nat → α) (m : SMap α) (k : Nat) (v : α) (h : smWf d m = true) :
    smWf d (smPut d m k v) = true := by
  unfold smPut
  split
  · exact smWfFrom_smFilter d _ m 0 h
  · rename_i hv
    exact smWfFrom_smIns d hv _ 0 (Nat.zero_le k) (smDel_notMem m k) (smWfFrom_smFilter d _ m 0 h)

end Sys2Proof.Machine
end

