-- ==== Sys2Proof/Laws/Memory.lean ====
section
/-! SUPPORT. The laws of the byte memories: spools, LPDDR5X, flash and data stores. -/

namespace Sys2Proof.Machine

theorem memByte_memWrite (bs : List Byte) : ∀ (m : SMap Byte) (a x : Nat),
    memByte (memWrite m a bs) x
      = if a ≤ x ∧ x < a + bs.length then bs.getD (x - a) 0 else memByte m x := by
  induction bs with
  | nil => intro m a x; simp [memWrite]
  | cons b bs ih =>
    intro m a x
    rw [memWrite, ih]
    by_cases h : a + 1 ≤ x ∧ x < a + 1 + bs.length
    · have h1 : a ≤ x ∧ x < a + (b :: bs).length := by simp only [List.length_cons]; omega
      obtain ⟨n, hn⟩ : ∃ n, x - a = n + 1 := ⟨x - a - 1, by omega⟩
      rw [if_pos h, if_pos h1, hn, show x - (a + 1) = n by omega]
      rfl
    · rw [if_neg h, memByte, smGet_smPut]
      by_cases hx : x = a
      · subst hx; simp
      · have h1 : ¬ (a ≤ x ∧ x < a + (b :: bs).length) := by simp only [List.length_cons]; omega
        rw [if_neg hx, if_neg h1, memByte]

/-- A store leaves every byte outside it alone. -/
theorem memByte_memWrite_outside (m : SMap Byte) (a x : Nat) (bs : List Byte) (h : x < a ∨ a + bs.length ≤ x) :
    memByte (memWrite m a bs) x = memByte m x := by
  rw [memByte_memWrite, if_neg (by omega)]

@[simp] theorem length_memRead (m : SMap Byte) (a n : Nat) : (memRead m a n).length = n := by simp [memRead]

/-- A read of the bytes just stored gives them back. -/
@[simp] theorem memRead_memWrite_same (m : SMap Byte) (a : Nat) (bs : List Byte) :
    memRead (memWrite m a bs) a bs.length = bs := by
  apply List.ext_getElem (by simp)
  intro i h1 h2
  have h : i < bs.length := h2
  simp [memRead, memByte_memWrite, h]

/-- A read that the store does not touch gives what it gave before. -/
theorem memRead_memWrite_disjoint (m : SMap Byte) (a b n : Nat) (bs : List Byte)
    (h : b + n ≤ a ∨ a + bs.length ≤ b) : memRead (memWrite m a bs) b n = memRead m b n := by
  apply List.map_congr_left
  intro i hi
  have hi : i < n := by simpa using hi
  exact memByte_memWrite_outside m a _ bs (by omega)

/-- A store keeps the canonical form. -/
theorem memWrite_wf : ∀ (bs : List Byte) (m : SMap Byte) (a : Nat), Memory.wf m = true → Memory.wf (memWrite m a bs) = true
  | [], _, _, h => h
  | b :: bs, m, a, h => memWrite_wf bs _ _ (smWf_smPut _ m a b h)

theorem spWrite_wf (s : State) (p o : Nat) (bs : List Byte) (h : Memory.wf s.spool = true) :
    Memory.wf (spWrite s p o bs).spool = true := memWrite_wf bs _ _ h

theorem lpWrite_wf (s : State) (a : Nat) (bs : List Byte) (h : Memory.wf s.lp = true) :
    Memory.wf (lpWrite s a bs).lp = true := memWrite_wf bs _ _ h

theorem flWrite_wf (s : State) (a : Nat) (bs : List Byte) (h : Memory.wf s.flash = true) :
    Memory.wf (flWrite s a bs).flash = true := memWrite_wf bs _ _ h

theorem dsWrite_wf (ts : TileSt) (a : Nat) (bs : List Byte) (h : Memory.wf ts.dstore = true) :
    Memory.wf (dsWrite ts a bs).dstore = true := memWrite_wf bs _ _ h

/-- Dropping an area of a memory keeps the canonical form. -/
theorem memDrop_wf (m : SMap Byte) (p : Nat × Byte → Bool) (h : Memory.wf m = true) :
    Memory.wf (m.filter p) = true := smWf_filter _ m p h

/-- The memories after reset are in canonical form. -/
theorem reset_memories_wf : Memory.wf State.reset.spool = true ∧ Memory.wf State.reset.lp = true
    ∧ Memory.wf State.reset.flash = true := ⟨rfl, rfl, rfl⟩

@[simp] theorem length_leBytes : ∀ n v : Nat, (leBytes n v).length = n
  | 0, _ => rfl
  | n + 1, v => by simp [leBytes, length_leBytes n]

/-- Little-endian bytes spell the number again (R38). -/
theorem leNat_leBytes : ∀ n v : Nat, leNat (leBytes n v) = v % 256 ^ n
  | 0, v => by simp [leBytes, leNat, Nat.mod_one]
  | n + 1, v => by
    simp only [leBytes, leNat, leNat_leBytes n, BitVec.toNat_ofNat]
    rw [show 256 ^ (n + 1) = 256 * 256 ^ n from by rw [Nat.pow_succ, Nat.mul_comm], Nat.mod_mul]

end Sys2Proof.Machine
end

