-- ==== Sys2Proof/Laws/Regs.lean ====
section
/-! SUPPORT. The laws of the register pages: bit slices, and what a field reads after a write. -/

namespace Sys2Proof

theorem bits_eq (v hi lo : Nat) : bits v hi lo = v / 2 ^ lo % 2 ^ (hi + 1 - lo) := by
  rw [bits, Nat.shiftRight_eq_div_pow]

theorem setBits_eq (v hi lo x : Nat) :
    setBits v hi lo x
      = v / 2 ^ lo / 2 ^ (hi + 1 - lo) * 2 ^ (hi + 1 - lo) * 2 ^ lo + (x % 2 ^ (hi + 1 - lo)) * 2 ^ lo + v % 2 ^ lo := by
  unfold setBits
  rw [bits_eq]
  have h1 := Nat.div_add_mod v (2 ^ lo)
  have h2 := Nat.div_add_mod (v / 2 ^ lo) (2 ^ (hi + 1 - lo))
  have h3 : v = v / 2 ^ lo / 2 ^ (hi + 1 - lo) * 2 ^ (hi + 1 - lo) * 2 ^ lo
      + v / 2 ^ lo % 2 ^ (hi + 1 - lo) * 2 ^ lo + v % 2 ^ lo := by
    rw [← Nat.add_mul, Nat.mul_comm _ (2 ^ (hi + 1 - lo)), h2, Nat.mul_comm (v / 2 ^ lo), h1]
  omega

/-- A field reads what was stored in it. -/
@[simp] theorem bits_setBits_same (v hi lo x : Nat) : bits (setBits v hi lo x) hi lo = x % 2 ^ (hi + 1 - lo) := by
  have hp : 0 < 2 ^ lo := Nat.two_pow_pos lo
  have hm : v % 2 ^ lo < 2 ^ lo := Nat.mod_lt _ hp
  rw [setBits_eq, bits_eq, ← Nat.add_mul, Nat.mul_comm, Nat.mul_add_div hp, Nat.div_eq_of_lt hm]
  simp

theorem testBit_bits (v hi lo i : Nat) : (bits v hi lo).testBit i = (decide (i < hi + 1 - lo) && v.testBit (lo + i)) := by
  rw [bits, Nat.testBit_mod_two_pow, Nat.testBit_shiftRight]

theorem testBit_setBits (v hi lo x i : Nat) :
    (setBits v hi lo x).testBit i
      = if lo ≤ i ∧ i < lo + (hi + 1 - lo) then x.testBit (i - lo) else v.testBit i := by
  have e : setBits v hi lo x
      = 2 ^ lo * (2 ^ (hi + 1 - lo) * (v / 2 ^ lo / 2 ^ (hi + 1 - lo)) + x % 2 ^ (hi + 1 - lo)) + v % 2 ^ lo := by
    rw [setBits_eq]; ring
  have hm : v % 2 ^ lo < 2 ^ lo := Nat.mod_lt _ (Nat.two_pow_pos lo)
  have hx : x % 2 ^ (hi + 1 - lo) < 2 ^ (hi + 1 - lo) := Nat.mod_lt _ (Nat.two_pow_pos _)
  rw [e, Nat.testBit_two_pow_mul_add _ hm, Nat.testBit_two_pow_mul_add _ hx]
  by_cases h1 : i < lo
  · have : ¬ (lo ≤ i ∧ i < lo + (hi + 1 - lo)) := by omega
    simp [h1, this, Nat.testBit_mod_two_pow]
  · by_cases h2 : i - lo < hi + 1 - lo
    · have : lo ≤ i ∧ i < lo + (hi + 1 - lo) := by omega
      simp [h1, h2, this, Nat.testBit_mod_two_pow]
    · have : ¬ (lo ≤ i ∧ i < lo + (hi + 1 - lo)) := by omega
      simp only [h1, h2, this, if_false]
      rw [Nat.testBit_div_two_pow, Nat.testBit_div_two_pow]
      congr 1; omega

/-- A field keeps its value when another field of the register is stored. -/
theorem bits_setBits_ne (v hi lo x hi' lo' : Nat) (h : hi' < lo ∨ hi < lo') (hv : lo ≤ hi) :
    bits (setBits v hi lo x) hi' lo' = bits v hi' lo' := by
  apply Nat.eq_of_testBit_eq
  intro i
  rw [testBit_bits, testBit_bits, testBit_setBits]
  by_cases hi1 : i < hi' + 1 - lo'
  · rw [if_neg (by omega)]
  · simp [hi1]

theorem setBits_lt (v hi lo x n : Nat) (hv : v < 2 ^ n) (h : hi < n) : setBits v hi lo x < 2 ^ n := by
  apply Nat.lt_pow_two_of_testBit
  intro i hi1
  rw [testBit_setBits]
  have hvi : v.testBit i = false := Nat.testBit_lt_two_pow (lt_of_lt_of_le hv (Nat.pow_le_pow_right (by omega) hi1))
  split
  · omega
  · exact hvi

theorem bits_lt (v hi lo : Nat) : bits v hi lo < 2 ^ (hi + 1 - lo) := by
  rw [bits]; exact Nat.mod_lt _ (Nat.two_pow_pos _)

end Sys2Proof

namespace Sys2Proof.Machine

theorem regW_lt (s : State) (p off : Nat) : regW s p off < 2 ^ 32 := by
  unfold regW; exact (smGet regDflt s.regs (p * 0x1000 + off)).isLt

/-- The word of a register after a store. -/
theorem regW_setW (s : State) (p off v p' off' : Nat) :
    regW (setW s p off v) p' off' = if p' * 0x1000 + off' = p * 0x1000 + off then v % 2 ^ 32 else regW s p' off' := by
  simp only [regW, setW, smGet_smPut]
  split <;> simp

/-- A store leaves the registers at other addresses alone. -/
theorem regW_setW_ne (s : State) (p off v p' off' : Nat) (h : p' * 0x1000 + off' ≠ p * 0x1000 + off) :
    regW (setW s p off v) p' off' = regW s p' off' := by
  rw [regW_setW, if_neg h]

/-- A field reads what was written, cut to its width. -/
theorem rdi_wri_same (s : State) (p : Nat) (f : Fld) (i v : Nat) (h : f.hi < 32) :
    rdi (wri s p f i v) p f i = v % 2 ^ (f.hi + 1 - f.lo) := by
  simp only [rdi, wri, regW_setW, if_true]
  rw [Nat.mod_eq_of_lt (setBits_lt _ _ _ _ 32 (regW_lt _ _ _) h), bits_setBits_same]

theorem rd_wr_same (s : State) (p : Nat) (f : Fld) (v : Nat) (h : f.hi < 32) :
    rd (wr s p f v) p f = v % 2 ^ (f.hi + 1 - f.lo) := rdi_wri_same s p f 0 v h

/-- A field of another register keeps its value. -/
theorem rdi_wri_ne (s : State) (p : Nat) (f : Fld) (i v p' : Nat) (g : Fld) (j : Nat)
    (h : p' * 0x1000 + (g.off + g.stride * j) ≠ p * 0x1000 + (f.off + f.stride * i)) :
    rdi (wri s p f i v) p' g j = rdi s p' g j := by
  simp only [rdi, wri, regW_setW, if_neg h]

theorem rd_wr_ne (s : State) (p : Nat) (f : Fld) (v p' : Nat) (g : Fld)
    (h : p' * 0x1000 + g.off ≠ p * 0x1000 + f.off) : rd (wr s p f v) p' g = rd s p' g :=
  rdi_wri_ne s p f 0 v p' g 0 (by simpa using h)

/-- Another field of the same register keeps its value. -/
theorem rd_wr_field (s : State) (p : Nat) (f : Fld) (v : Nat) (g : Fld) (ho : g.off = f.off)
    (h : g.hi < f.lo ∨ f.hi < g.lo) (hf : f.lo ≤ f.hi) (h32 : f.hi < 32) :
    rd (wr s p f v) p g = rd s p g := by
  simp only [rd, rdi, wr, wri, regW_setW, ho, Nat.mul_zero, Nat.add_zero, if_true]
  rw [Nat.mod_eq_of_lt (setBits_lt _ _ _ _ 32 (regW_lt _ _ _) h32), bits_setBits_ne _ _ _ _ _ _ h hf]

/-- The registers after a store are in canonical form. -/
theorem setW_wf (s : State) (p off v : Nat) (h : smWf regDflt s.regs = true) :
    smWf regDflt (setW s p off v).regs = true := smWf_smPut _ _ _ _ h

theorem wri_wf (s : State) (p : Nat) (f : Fld) (i v : Nat) (h : smWf regDflt s.regs = true) :
    smWf regDflt (wri s p f i v).regs = true := setW_wf _ _ _ _ h

theorem rdi_lt (s : State) (p : Nat) (f : Fld) (i : Nat) : rdi s p f i < 2 ^ (f.hi + 1 - f.lo) := bits_lt _ _ _

end Sys2Proof.Machine
end

