-- ==== Sys2Proof/Laws/State.lean ====
section
/-! SUPPORT. One lemma for each field and each named update of the state: what the update leaves alone. -/

namespace Sys2Proof.Machine

variable (s s' : State)

section
variable (p : Nat) (f : Fld) (i v : Nat)
@[simp] theorem wri_fuses : (wri s p f i v).fuses = s.fuses := rfl
@[simp] theorem wri_loHeld : (wri s p f i v).loHeld = s.loHeld := rfl
@[simp] theorem wri_tiles : (wri s p f i v).tiles = s.tiles := rfl
@[simp] theorem wri_spool : (wri s p f i v).spool = s.spool := rfl
@[simp] theorem wri_lp : (wri s p f i v).lp = s.lp := rfl
@[simp] theorem wri_spoolBad : (wri s p f i v).spoolBad = s.spoolBad := rfl
@[simp] theorem wri_lpBad : (wri s p f i v).lpBad = s.lpBad := rfl
@[simp] theorem wri_spoolWeak : (wri s p f i v).spoolWeak = s.spoolWeak := rfl
@[simp] theorem wri_lpWeak : (wri s p f i v).lpWeak = s.lpWeak := rfl
@[simp] theorem wri_spoolCe : (wri s p f i v).spoolCe = s.spoolCe := rfl
@[simp] theorem wri_lpCe : (wri s p f i v).lpCe = s.lpCe := rfl
@[simp] theorem wri_lpRepaired : (wri s p f i v).lpRepaired = s.lpRepaired := rfl
@[simp] theorem wri_lpTrained : (wri s p f i v).lpTrained = s.lpTrained := rfl
@[simp] theorem wri_spares : (wri s p f i v).spares = s.spares := rfl
@[simp] theorem wri_unusable : (wri s p f i v).unusable = s.unusable := rfl
@[simp] theorem wri_flash : (wri s p f i v).flash = s.flash := rfl
@[simp] theorem wri_repairN : (wri s p f i v).repairN = s.repairN := rfl
@[simp] theorem wri_timeNext : (wri s p f i v).timeNext = s.timeNext := rfl
@[simp] theorem wri_sec : (wri s p f i v).sec = s.sec := rfl
@[simp] theorem wri_vendorHash : (wri s p f i v).vendorHash = s.vendorHash := rfl
@[simp] theorem wri_pkgStored : (wri s p f i v).pkgStored = s.pkgStored := rfl
@[simp] theorem wri_pkgActive : (wri s p f i v).pkgActive = s.pkgActive := rfl
@[simp] theorem wri_itStored : (wri s p f i v).itStored = s.itStored := rfl
@[simp] theorem wri_ring : (wri s p f i v).ring = s.ring := rfl
@[simp] theorem wri_logQ : (wri s p f i v).logQ = s.logQ := rfl
@[simp] theorem wri_mirrorQ : (wri s p f i v).mirrorQ = s.mirrorQ := rfl
@[simp] theorem wri_mirrorPos : (wri s p f i v).mirrorPos = s.mirrorPos := rfl
@[simp] theorem wri_mgmtBox : (wri s p f i v).mgmtBox = s.mgmtBox := rfl
@[simp] theorem wri_mgmtRcv : (wri s p f i v).mgmtRcv = s.mgmtRcv := rfl
@[simp] theorem wri_irqs : (wri s p f i v).irqs = s.irqs := rfl
@[simp] theorem wri_hostIrqs : (wri s p f i v).hostIrqs = s.hostIrqs := rfl
@[simp] theorem wri_stowReq : (wri s p f i v).stowReq = s.stowReq := rfl
@[simp] theorem wri_stowTold : (wri s p f i v).stowTold = s.stowTold := rfl
@[simp] theorem wri_image : (wri s p f i v).image = s.image := rfl
@[simp] theorem wri_xfer : (wri s p f i v).xfer = s.xfer := rfl
@[simp] theorem wri_rxXfer : (wri s p f i v).rxXfer = s.rxXfer := rfl
@[simp] theorem wri_mgmtBusy : (wri s p f i v).mgmtBusy = s.mgmtBusy := rfl
@[simp] theorem wri_resetDue : (wri s p f i v).resetDue = s.resetDue := rfl
@[simp] theorem wri_recovery : (wri s p f i v).recovery = s.recovery := rfl
@[simp] theorem wri_twRun : (wri s p f i v).twRun = s.twRun := rfl
@[simp] theorem wri_homeFetch : (wri s p f i v).homeFetch = s.homeFetch := rfl
@[simp] theorem wri_jobCommit : (wri s p f i v).jobCommit = s.jobCommit := rfl
@[simp] theorem wri_barrier : (wri s p f i v).barrier = s.barrier := rfl
@[simp] theorem wri_manifest : (wri s p f i v).manifest = s.manifest := rfl
@[simp] theorem wri_manNew : (wri s p f i v).manNew = s.manNew := rfl
@[simp] theorem wri_detach : (wri s p f i v).detach = s.detach := rfl
@[simp] theorem wri_ports : (wri s p f i v).ports = s.ports := rfl
@[simp] theorem wri_nextPsn : (wri s p f i v).nextPsn = s.nextPsn := rfl
@[simp] theorem wri_offers : (wri s p f i v).offers = s.offers := rfl
@[simp] theorem wri_streams : (wri s p f i v).streams = s.streams := rfl
@[simp] theorem wri_streamUse : (wri s p f i v).streamUse = s.streamUse := rfl
@[simp] theorem wri_lseOut : (wri s p f i v).lseOut = s.lseOut := rfl
@[simp] theorem wri_lseWait : (wri s p f i v).lseWait = s.lseWait := rfl
@[simp] theorem wri_cx : (wri s p f i v).cx = s.cx := rfl
@[simp] theorem wri_cxHdrs : (wri s p f i v).cxHdrs = s.cxHdrs := rfl
@[simp] theorem wri_lastSeen : (wri s p f i v).lastSeen = s.lastSeen := rfl
@[simp] theorem wri_holdN : (wri s p f i v).holdN = s.holdN := rfl
@[simp] theorem wri_holdFwd : (wri s p f i v).holdFwd = s.holdFwd := rfl
@[simp] theorem wri_rests : (wri s p f i v).rests = s.rests := rfl
@[simp] theorem wri_passed : (wri s p f i v).passed = s.passed := rfl
@[simp] theorem wri_nextStitch : (wri s p f i v).nextStitch = s.nextStitch := rfl
@[simp] theorem wri_resting : (wri s p f i v).resting = s.resting := rfl
@[simp] theorem wri_begun : (wri s p f i v).begun = s.begun := rfl
@[simp] theorem wri_t0 : (wri s p f i v).t0 = s.t0 := rfl
@[simp] theorem wri_netReq : (wri s p f i v).netReq = s.netReq := rfl
@[simp] theorem wri_stitchStall : (wri s p f i v).stitchStall = s.stitchStall := rfl
@[simp] theorem wri_throtNow : (wri s p f i v).throtNow = s.throtNow := rfl
@[simp] theorem wri_throtLast : (wri s p f i v).throtLast = s.throtLast := rfl
@[simp] theorem wri_aonAcc : (wri s p f i v).aonAcc = s.aonAcc := rfl
@[simp] theorem wri_cycles : (wri s p f i v).cycles = s.cycles := rfl
@[simp] theorem wri_ticks : (wri s p f i v).ticks = s.ticks := rfl
@[simp] theorem wri_stallCycles : (wri s p f i v).stallCycles = s.stallCycles := rfl
@[simp] theorem wri_hallTime : (wri s p f i v).hallTime = s.hallTime := rfl
@[simp] theorem wri_rate : (wri s p f i v).rate = s.rate := rfl
@[simp] theorem wri_lockRun : (wri s p f i v).lockRun = s.lockRun := rfl
@[simp] theorem wri_ptpSlave : (wri s p f i v).ptpSlave = s.ptpSlave := rfl
@[simp] theorem wri_ptpSample : (wri s p f i v).ptpSample = s.ptpSample := rfl
@[simp] theorem wri_ptp : (wri s p f i v).ptp = s.ptp := rfl
@[simp] theorem wri_filt : (wri s p f i v).filt = s.filt := rfl
@[simp] theorem wri_rooted : (wri s p f i v).rooted = s.rooted := rfl
@[simp] theorem wri_fifos : (wri s p f i v).fifos = s.fifos := rfl
@[simp] theorem wri_ppsSeen : (wri s p f i v).ppsSeen = s.ppsSeen := rfl
@[simp] theorem wri_epoch : (wri s p f i v).epoch = s.epoch := rfl
@[simp] theorem wri_nm : (wri s p f i v).nm = s.nm := rfl
@[simp] theorem wri_lateObs : (wri s p f i v).lateObs = s.lateObs := rfl
@[simp] theorem wri_stepClosed : (wri s p f i v).stepClosed = s.stepClosed := rfl
@[simp] theorem wri_releaseDue : (wri s p f i v).releaseDue = s.releaseDue := rfl
@[simp] theorem wri_queues : (wri s p f i v).queues = s.queues := rfl
@[simp] theorem wri_qps : (wri s p f i v).qps = s.qps := rfl
@[simp] theorem wri_regions : (wri s p f i v).regions = s.regions := rfl
@[simp] theorem wri_pfcUntil : (wri s p f i v).pfcUntil = s.pfcUntil := rfl
@[simp] theorem wri_it : (wri s p f i v).it = s.it := rfl
@[simp] theorem wri_itClr : (wri s p f i v).itClr = s.itClr := rfl
@[simp] theorem wri_pairs : (wri s p f i v).pairs = s.pairs := rfl
@[simp] theorem wri_failed : (wri s p f i v).failed = s.failed := rfl
@[simp] theorem wri_pairTest : (wri s p f i v).pairTest = s.pairTest := rfl
@[simp] theorem wri_numFault : (wri s p f i v).numFault = s.numFault := rfl
@[simp] theorem wri_dlCount : (wri s p f i v).dlCount = s.dlCount := rfl
@[simp] theorem wri_dlFired : (wri s p f i v).dlFired = s.dlFired := rfl
@[simp] theorem wri_tackGot : (wri s p f i v).tackGot = s.tackGot := rfl
@[simp] theorem wri_tackSent : (wri s p f i v).tackSent = s.tackSent := rfl
@[simp] theorem wri_capReq : (wri s p f i v).capReq = s.capReq := rfl
@[simp] theorem wri_inletEp : (wri s p f i v).inletEp = s.inletEp := rfl
@[simp] theorem wri_entFails : (wri s p f i v).entFails = s.entFails := rfl
@[simp] theorem wri_entIdx : (wri s p f i v).entIdx = s.entIdx := rfl
@[simp] theorem wri_freeIdx : (wri s p f i v).freeIdx = s.freeIdx := rfl
@[simp] theorem wri_senseIdx : (wri s p f i v).senseIdx = s.senseIdx := rfl
@[simp] theorem wri_failSafe : (wri s p f i v).failSafe = s.failSafe := rfl
@[simp] theorem wri_lull : (wri s p f i v).lull = s.lull := rfl
@[simp] theorem wri_freshPower : (wri s p f i v).freshPower = s.freshPower := rfl
@[simp] theorem wri_evLost : (wri s p f i v).evLost = s.evLost := rfl
@[simp] theorem wri_b0At : (wri s p f i v).b0At = s.b0At := rfl
@[simp] theorem wri_optSet : (wri s p f i v).optSet = s.optSet := rfl
@[simp] theorem wri_mirrorHold : (wri s p f i v).mirrorHold = s.mirrorHold := rfl
@[simp] theorem wri_entered : (wri s p f i v).entered = s.entered := rfl
@[simp] theorem wri_stopped : (wri s p f i v).stopped = s.stopped := rfl
@[simp] theorem wri_ready : (wri s p f i v).ready = s.ready := rfl
@[simp] theorem wri_fwEntry : (wri s p f i v).fwEntry = s.fwEntry := rfl
@[simp] theorem wri_netRecovery : (wri s p f i v).netRecovery = s.netRecovery := rfl
@[simp] theorem wri_smbSlot : (wri s p f i v).smbSlot = s.smbSlot := rfl
@[simp] theorem wri_pins : (wri s p f i v).pins = s.pins := rfl
@[simp] theorem wri_net : (wri s p f i v).net = s.net := rfl
@[simp] theorem wri_pending : (wri s p f i v).pending = s.pending := rfl
end

section
variable (p : Nat) (f : Fld) (v : Nat)
@[simp] theorem wr_fuses : (wr s p f v).fuses = s.fuses := rfl
@[simp] theorem wr_loHeld : (wr s p f v).loHeld = s.loHeld := rfl
@[simp] theorem wr_tiles : (wr s p f v).tiles = s.tiles := rfl
@[simp] theorem wr_spool : (wr s p f v).spool = s.spool := rfl
@[simp] theorem wr_lp : (wr s p f v).lp = s.lp := rfl
@[simp] theorem wr_spoolBad : (wr s p f v).spoolBad = s.spoolBad := rfl
@[simp] theorem wr_lpBad : (wr s p f v).lpBad = s.lpBad := rfl
@[simp] theorem wr_spoolWeak : (wr s p f v).spoolWeak = s.spoolWeak := rfl
@[simp] theorem wr_lpWeak : (wr s p f v).lpWeak = s.lpWeak := rfl
@[simp] theorem wr_spoolCe : (wr s p f v).spoolCe = s.spoolCe := rfl
@[simp] theorem wr_lpCe : (wr s p f v).lpCe = s.lpCe := rfl
@[simp] theorem wr_lpRepaired : (wr s p f v).lpRepaired = s.lpRepaired := rfl
@[simp] theorem wr_lpTrained : (wr s p f v).lpTrained = s.lpTrained := rfl
@[simp] theorem wr_spares : (wr s p f v).spares = s.spares := rfl
@[simp] theorem wr_unusable : (wr s p f v).unusable = s.unusable := rfl
@[simp] theorem wr_flash : (wr s p f v).flash = s.flash := rfl
@[simp] theorem wr_repairN : (wr s p f v).repairN = s.repairN := rfl
@[simp] theorem wr_timeNext : (wr s p f v).timeNext = s.timeNext := rfl
@[simp] theorem wr_sec : (wr s p f v).sec = s.sec := rfl
@[simp] theorem wr_vendorHash : (wr s p f v).vendorHash = s.vendorHash := rfl
@[simp] theorem wr_pkgStored : (wr s p f v).pkgStored = s.pkgStored := rfl
@[simp] theorem wr_pkgActive : (wr s p f v).pkgActive = s.pkgActive := rfl
@[simp] theorem wr_itStored : (wr s p f v).itStored = s.itStored := rfl
@[simp] theorem wr_ring : (wr s p f v).ring = s.ring := rfl
@[simp] theorem wr_logQ : (wr s p f v).logQ = s.logQ := rfl
@[simp] theorem wr_mirrorQ : (wr s p f v).mirrorQ = s.mirrorQ := rfl
@[simp] theorem wr_mirrorPos : (wr s p f v).mirrorPos = s.mirrorPos := rfl
@[simp] theorem wr_mgmtBox : (wr s p f v).mgmtBox = s.mgmtBox := rfl
@[simp] theorem wr_mgmtRcv : (wr s p f v).mgmtRcv = s.mgmtRcv := rfl
@[simp] theorem wr_irqs : (wr s p f v).irqs = s.irqs := rfl
@[simp] theorem wr_hostIrqs : (wr s p f v).hostIrqs = s.hostIrqs := rfl
@[simp] theorem wr_stowReq : (wr s p f v).stowReq = s.stowReq := rfl
@[simp] theorem wr_stowTold : (wr s p f v).stowTold = s.stowTold := rfl
@[simp] theorem wr_image : (wr s p f v).image = s.image := rfl
@[simp] theorem wr_xfer : (wr s p f v).xfer = s.xfer := rfl
@[simp] theorem wr_rxXfer : (wr s p f v).rxXfer = s.rxXfer := rfl
@[simp] theorem wr_mgmtBusy : (wr s p f v).mgmtBusy = s.mgmtBusy := rfl
@[simp] theorem wr_resetDue : (wr s p f v).resetDue = s.resetDue := rfl
@[simp] theorem wr_recovery : (wr s p f v).recovery = s.recovery := rfl
@[simp] theorem wr_twRun : (wr s p f v).twRun = s.twRun := rfl
@[simp] theorem wr_homeFetch : (wr s p f v).homeFetch = s.homeFetch := rfl
@[simp] theorem wr_jobCommit : (wr s p f v).jobCommit = s.jobCommit := rfl
@[simp] theorem wr_barrier : (wr s p f v).barrier = s.barrier := rfl
@[simp] theorem wr_manifest : (wr s p f v).manifest = s.manifest := rfl
@[simp] theorem wr_manNew : (wr s p f v).manNew = s.manNew := rfl
@[simp] theorem wr_detach : (wr s p f v).detach = s.detach := rfl
@[simp] theorem wr_ports : (wr s p f v).ports = s.ports := rfl
@[simp] theorem wr_nextPsn : (wr s p f v).nextPsn = s.nextPsn := rfl
@[simp] theorem wr_offers : (wr s p f v).offers = s.offers := rfl
@[simp] theorem wr_streams : (wr s p f v).streams = s.streams := rfl
@[simp] theorem wr_streamUse : (wr s p f v).streamUse = s.streamUse := rfl
@[simp] theorem wr_lseOut : (wr s p f v).lseOut = s.lseOut := rfl
@[simp] theorem wr_lseWait : (wr s p f v).lseWait = s.lseWait := rfl
@[simp] theorem wr_cx : (wr s p f v).cx = s.cx := rfl
@[simp] theorem wr_cxHdrs : (wr s p f v).cxHdrs = s.cxHdrs := rfl
@[simp] theorem wr_lastSeen : (wr s p f v).lastSeen = s.lastSeen := rfl
@[simp] theorem wr_holdN : (wr s p f v).holdN = s.holdN := rfl
@[simp] theorem wr_holdFwd : (wr s p f v).holdFwd = s.holdFwd := rfl
@[simp] theorem wr_rests : (wr s p f v).rests = s.rests := rfl
@[simp] theorem wr_passed : (wr s p f v).passed = s.passed := rfl
@[simp] theorem wr_nextStitch : (wr s p f v).nextStitch = s.nextStitch := rfl
@[simp] theorem wr_resting : (wr s p f v).resting = s.resting := rfl
@[simp] theorem wr_begun : (wr s p f v).begun = s.begun := rfl
@[simp] theorem wr_t0 : (wr s p f v).t0 = s.t0 := rfl
@[simp] theorem wr_netReq : (wr s p f v).netReq = s.netReq := rfl
@[simp] theorem wr_stitchStall : (wr s p f v).stitchStall = s.stitchStall := rfl
@[simp] theorem wr_throtNow : (wr s p f v).throtNow = s.throtNow := rfl
@[simp] theorem wr_throtLast : (wr s p f v).throtLast = s.throtLast := rfl
@[simp] theorem wr_aonAcc : (wr s p f v).aonAcc = s.aonAcc := rfl
@[simp] theorem wr_cycles : (wr s p f v).cycles = s.cycles := rfl
@[simp] theorem wr_ticks : (wr s p f v).ticks = s.ticks := rfl
@[simp] theorem wr_stallCycles : (wr s p f v).stallCycles = s.stallCycles := rfl
@[simp] theorem wr_hallTime : (wr s p f v).hallTime = s.hallTime := rfl
@[simp] theorem wr_rate : (wr s p f v).rate = s.rate := rfl
@[simp] theorem wr_lockRun : (wr s p f v).lockRun = s.lockRun := rfl
@[simp] theorem wr_ptpSlave : (wr s p f v).ptpSlave = s.ptpSlave := rfl
@[simp] theorem wr_ptpSample : (wr s p f v).ptpSample = s.ptpSample := rfl
@[simp] theorem wr_ptp : (wr s p f v).ptp = s.ptp := rfl
@[simp] theorem wr_filt : (wr s p f v).filt = s.filt := rfl
@[simp] theorem wr_rooted : (wr s p f v).rooted = s.rooted := rfl
@[simp] theorem wr_fifos : (wr s p f v).fifos = s.fifos := rfl
@[simp] theorem wr_ppsSeen : (wr s p f v).ppsSeen = s.ppsSeen := rfl
@[simp] theorem wr_epoch : (wr s p f v).epoch = s.epoch := rfl
@[simp] theorem wr_nm : (wr s p f v).nm = s.nm := rfl
@[simp] theorem wr_lateObs : (wr s p f v).lateObs = s.lateObs := rfl
@[simp] theorem wr_stepClosed : (wr s p f v).stepClosed = s.stepClosed := rfl
@[simp] theorem wr_releaseDue : (wr s p f v).releaseDue = s.releaseDue := rfl
@[simp] theorem wr_queues : (wr s p f v).queues = s.queues := rfl
@[simp] theorem wr_qps : (wr s p f v).qps = s.qps := rfl
@[simp] theorem wr_regions : (wr s p f v).regions = s.regions := rfl
@[simp] theorem wr_pfcUntil : (wr s p f v).pfcUntil = s.pfcUntil := rfl
@[simp] theorem wr_it : (wr s p f v).it = s.it := rfl
@[simp] theorem wr_itClr : (wr s p f v).itClr = s.itClr := rfl
@[simp] theorem wr_pairs : (wr s p f v).pairs = s.pairs := rfl
@[simp] theorem wr_failed : (wr s p f v).failed = s.failed := rfl
@[simp] theorem wr_pairTest : (wr s p f v).pairTest = s.pairTest := rfl
@[simp] theorem wr_numFault : (wr s p f v).numFault = s.numFault := rfl
@[simp] theorem wr_dlCount : (wr s p f v).dlCount = s.dlCount := rfl
@[simp] theorem wr_dlFired : (wr s p f v).dlFired = s.dlFired := rfl
@[simp] theorem wr_tackGot : (wr s p f v).tackGot = s.tackGot := rfl
@[simp] theorem wr_tackSent : (wr s p f v).tackSent = s.tackSent := rfl
@[simp] theorem wr_capReq : (wr s p f v).capReq = s.capReq := rfl
@[simp] theorem wr_inletEp : (wr s p f v).inletEp = s.inletEp := rfl
@[simp] theorem wr_entFails : (wr s p f v).entFails = s.entFails := rfl
@[simp] theorem wr_entIdx : (wr s p f v).entIdx = s.entIdx := rfl
@[simp] theorem wr_freeIdx : (wr s p f v).freeIdx = s.freeIdx := rfl
@[simp] theorem wr_senseIdx : (wr s p f v).senseIdx = s.senseIdx := rfl
@[simp] theorem wr_failSafe : (wr s p f v).failSafe = s.failSafe := rfl
@[simp] theorem wr_lull : (wr s p f v).lull = s.lull := rfl
@[simp] theorem wr_freshPower : (wr s p f v).freshPower = s.freshPower := rfl
@[simp] theorem wr_evLost : (wr s p f v).evLost = s.evLost := rfl
@[simp] theorem wr_b0At : (wr s p f v).b0At = s.b0At := rfl
@[simp] theorem wr_optSet : (wr s p f v).optSet = s.optSet := rfl
@[simp] theorem wr_mirrorHold : (wr s p f v).mirrorHold = s.mirrorHold := rfl
@[simp] theorem wr_entered : (wr s p f v).entered = s.entered := rfl
@[simp] theorem wr_stopped : (wr s p f v).stopped = s.stopped := rfl
@[simp] theorem wr_ready : (wr s p f v).ready = s.ready := rfl
@[simp] theorem wr_fwEntry : (wr s p f v).fwEntry = s.fwEntry := rfl
@[simp] theorem wr_netRecovery : (wr s p f v).netRecovery = s.netRecovery := rfl
@[simp] theorem wr_smbSlot : (wr s p f v).smbSlot = s.smbSlot := rfl
@[simp] theorem wr_pins : (wr s p f v).pins = s.pins := rfl
@[simp] theorem wr_net : (wr s p f v).net = s.net := rfl
@[simp] theorem wr_pending : (wr s p f v).pending = s.pending := rfl
end

section
variable (t : Tile) (ts : TileSt)
@[simp] theorem setTile_fuses : (s.setTile t ts).fuses = s.fuses := rfl
@[simp] theorem setTile_regs : (s.setTile t ts).regs = s.regs := rfl
@[simp] theorem setTile_loHeld : (s.setTile t ts).loHeld = s.loHeld := rfl
@[simp] theorem setTile_spool : (s.setTile t ts).spool = s.spool := rfl
@[simp] theorem setTile_lp : (s.setTile t ts).lp = s.lp := rfl
@[simp] theorem setTile_spoolBad : (s.setTile t ts).spoolBad = s.spoolBad := rfl
@[simp] theorem setTile_lpBad : (s.setTile t ts).lpBad = s.lpBad := rfl
@[simp] theorem setTile_spoolWeak : (s.setTile t ts).spoolWeak = s.spoolWeak := rfl
@[simp] theorem setTile_lpWeak : (s.setTile t ts).lpWeak = s.lpWeak := rfl
@[simp] theorem setTile_spoolCe : (s.setTile t ts).spoolCe = s.spoolCe := rfl
@[simp] theorem setTile_lpCe : (s.setTile t ts).lpCe = s.lpCe := rfl
@[simp] theorem setTile_lpRepaired : (s.setTile t ts).lpRepaired = s.lpRepaired := rfl
@[simp] theorem setTile_lpTrained : (s.setTile t ts).lpTrained = s.lpTrained := rfl
@[simp] theorem setTile_spares : (s.setTile t ts).spares = s.spares := rfl
@[simp] theorem setTile_unusable : (s.setTile t ts).unusable = s.unusable := rfl
@[simp] theorem setTile_flash : (s.setTile t ts).flash = s.flash := rfl
@[simp] theorem setTile_repairN : (s.setTile t ts).repairN = s.repairN := rfl
@[simp] theorem setTile_timeNext : (s.setTile t ts).timeNext = s.timeNext := rfl
@[simp] theorem setTile_sec : (s.setTile t ts).sec = s.sec := rfl
@[simp] theorem setTile_vendorHash : (s.setTile t ts).vendorHash = s.vendorHash := rfl
@[simp] theorem setTile_pkgStored : (s.setTile t ts).pkgStored = s.pkgStored := rfl
@[simp] theorem setTile_pkgActive : (s.setTile t ts).pkgActive = s.pkgActive := rfl
@[simp] theorem setTile_itStored : (s.setTile t ts).itStored = s.itStored := rfl
@[simp] theorem setTile_ring : (s.setTile t ts).ring = s.ring := rfl
@[simp] theorem setTile_logQ : (s.setTile t ts).logQ = s.logQ := rfl
@[simp] theorem setTile_mirrorQ : (s.setTile t ts).mirrorQ = s.mirrorQ := rfl
@[simp] theorem setTile_mirrorPos : (s.setTile t ts).mirrorPos = s.mirrorPos := rfl
@[simp] theorem setTile_mgmtBox : (s.setTile t ts).mgmtBox = s.mgmtBox := rfl
@[simp] theorem setTile_mgmtRcv : (s.setTile t ts).mgmtRcv = s.mgmtRcv := rfl
@[simp] theorem setTile_irqs : (s.setTile t ts).irqs = s.irqs := rfl
@[simp] theorem setTile_hostIrqs : (s.setTile t ts).hostIrqs = s.hostIrqs := rfl
@[simp] theorem setTile_stowReq : (s.setTile t ts).stowReq = s.stowReq := rfl
@[simp] theorem setTile_stowTold : (s.setTile t ts).stowTold = s.stowTold := rfl
@[simp] theorem setTile_image : (s.setTile t ts).image = s.image := rfl
@[simp] theorem setTile_xfer : (s.setTile t ts).xfer = s.xfer := rfl
@[simp] theorem setTile_rxXfer : (s.setTile t ts).rxXfer = s.rxXfer := rfl
@[simp] theorem setTile_mgmtBusy : (s.setTile t ts).mgmtBusy = s.mgmtBusy := rfl
@[simp] theorem setTile_resetDue : (s.setTile t ts).resetDue = s.resetDue := rfl
@[simp] theorem setTile_recovery : (s.setTile t ts).recovery = s.recovery := rfl
@[simp] theorem setTile_twRun : (s.setTile t ts).twRun = s.twRun := rfl
@[simp] theorem setTile_homeFetch : (s.setTile t ts).homeFetch = s.homeFetch := rfl
@[simp] theorem setTile_jobCommit : (s.setTile t ts).jobCommit = s.jobCommit := rfl
@[simp] theorem setTile_barrier : (s.setTile t ts).barrier = s.barrier := rfl
@[simp] theorem setTile_manifest : (s.setTile t ts).manifest = s.manifest := rfl
@[simp] theorem setTile_manNew : (s.setTile t ts).manNew = s.manNew := rfl
@[simp] theorem setTile_detach : (s.setTile t ts).detach = s.detach := rfl
@[simp] theorem setTile_ports : (s.setTile t ts).ports = s.ports := rfl
@[simp] theorem setTile_nextPsn : (s.setTile t ts).nextPsn = s.nextPsn := rfl
@[simp] theorem setTile_offers : (s.setTile t ts).offers = s.offers := rfl
@[simp] theorem setTile_streams : (s.setTile t ts).streams = s.streams := rfl
@[simp] theorem setTile_streamUse : (s.setTile t ts).streamUse = s.streamUse := rfl
@[simp] theorem setTile_lseOut : (s.setTile t ts).lseOut = s.lseOut := rfl
@[simp] theorem setTile_lseWait : (s.setTile t ts).lseWait = s.lseWait := rfl
@[simp] theorem setTile_cx : (s.setTile t ts).cx = s.cx := rfl
@[simp] theorem setTile_cxHdrs : (s.setTile t ts).cxHdrs = s.cxHdrs := rfl
@[simp] theorem setTile_lastSeen : (s.setTile t ts).lastSeen = s.lastSeen := rfl
@[simp] theorem setTile_holdN : (s.setTile t ts).holdN = s.holdN := rfl
@[simp] theorem setTile_holdFwd : (s.setTile t ts).holdFwd = s.holdFwd := rfl
@[simp] theorem setTile_rests : (s.setTile t ts).rests = s.rests := rfl
@[simp] theorem setTile_passed : (s.setTile t ts).passed = s.passed := rfl
@[simp] theorem setTile_nextStitch : (s.setTile t ts).nextStitch = s.nextStitch := rfl
@[simp] theorem setTile_resting : (s.setTile t ts).resting = s.resting := rfl
@[simp] theorem setTile_begun : (s.setTile t ts).begun = s.begun := rfl
@[simp] theorem setTile_t0 : (s.setTile t ts).t0 = s.t0 := rfl
@[simp] theorem setTile_netReq : (s.setTile t ts).netReq = s.netReq := rfl
@[simp] theorem setTile_stitchStall : (s.setTile t ts).stitchStall = s.stitchStall := rfl
@[simp] theorem setTile_throtNow : (s.setTile t ts).throtNow = s.throtNow := rfl
@[simp] theorem setTile_throtLast : (s.setTile t ts).throtLast = s.throtLast := rfl
@[simp] theorem setTile_aonAcc : (s.setTile t ts).aonAcc = s.aonAcc := rfl
@[simp] theorem setTile_cycles : (s.setTile t ts).cycles = s.cycles := rfl
@[simp] theorem setTile_ticks : (s.setTile t ts).ticks = s.ticks := rfl
@[simp] theorem setTile_stallCycles : (s.setTile t ts).stallCycles = s.stallCycles := rfl
@[simp] theorem setTile_hallTime : (s.setTile t ts).hallTime = s.hallTime := rfl
@[simp] theorem setTile_rate : (s.setTile t ts).rate = s.rate := rfl
@[simp] theorem setTile_lockRun : (s.setTile t ts).lockRun = s.lockRun := rfl
@[simp] theorem setTile_ptpSlave : (s.setTile t ts).ptpSlave = s.ptpSlave := rfl
@[simp] theorem setTile_ptpSample : (s.setTile t ts).ptpSample = s.ptpSample := rfl
@[simp] theorem setTile_ptp : (s.setTile t ts).ptp = s.ptp := rfl
@[simp] theorem setTile_filt : (s.setTile t ts).filt = s.filt := rfl
@[simp] theorem setTile_rooted : (s.setTile t ts).rooted = s.rooted := rfl
@[simp] theorem setTile_fifos : (s.setTile t ts).fifos = s.fifos := rfl
@[simp] theorem setTile_ppsSeen : (s.setTile t ts).ppsSeen = s.ppsSeen := rfl
@[simp] theorem setTile_epoch : (s.setTile t ts).epoch = s.epoch := rfl
@[simp] theorem setTile_nm : (s.setTile t ts).nm = s.nm := rfl
@[simp] theorem setTile_lateObs : (s.setTile t ts).lateObs = s.lateObs := rfl
@[simp] theorem setTile_stepClosed : (s.setTile t ts).stepClosed = s.stepClosed := rfl
@[simp] theorem setTile_releaseDue : (s.setTile t ts).releaseDue = s.releaseDue := rfl
@[simp] theorem setTile_queues : (s.setTile t ts).queues = s.queues := rfl
@[simp] theorem setTile_qps : (s.setTile t ts).qps = s.qps := rfl
@[simp] theorem setTile_regions : (s.setTile t ts).regions = s.regions := rfl
@[simp] theorem setTile_pfcUntil : (s.setTile t ts).pfcUntil = s.pfcUntil := rfl
@[simp] theorem setTile_it : (s.setTile t ts).it = s.it := rfl
@[simp] theorem setTile_itClr : (s.setTile t ts).itClr = s.itClr := rfl
@[simp] theorem setTile_pairs : (s.setTile t ts).pairs = s.pairs := rfl
@[simp] theorem setTile_failed : (s.setTile t ts).failed = s.failed := rfl
@[simp] theorem setTile_pairTest : (s.setTile t ts).pairTest = s.pairTest := rfl
@[simp] theorem setTile_numFault : (s.setTile t ts).numFault = s.numFault := rfl
@[simp] theorem setTile_dlCount : (s.setTile t ts).dlCount = s.dlCount := rfl
@[simp] theorem setTile_dlFired : (s.setTile t ts).dlFired = s.dlFired := rfl
@[simp] theorem setTile_tackGot : (s.setTile t ts).tackGot = s.tackGot := rfl
@[simp] theorem setTile_tackSent : (s.setTile t ts).tackSent = s.tackSent := rfl
@[simp] theorem setTile_capReq : (s.setTile t ts).capReq = s.capReq := rfl
@[simp] theorem setTile_inletEp : (s.setTile t ts).inletEp = s.inletEp := rfl
@[simp] theorem setTile_entFails : (s.setTile t ts).entFails = s.entFails := rfl
@[simp] theorem setTile_entIdx : (s.setTile t ts).entIdx = s.entIdx := rfl
@[simp] theorem setTile_freeIdx : (s.setTile t ts).freeIdx = s.freeIdx := rfl
@[simp] theorem setTile_senseIdx : (s.setTile t ts).senseIdx = s.senseIdx := rfl
@[simp] theorem setTile_failSafe : (s.setTile t ts).failSafe = s.failSafe := rfl
@[simp] theorem setTile_lull : (s.setTile t ts).lull = s.lull := rfl
@[simp] theorem setTile_freshPower : (s.setTile t ts).freshPower = s.freshPower := rfl
@[simp] theorem setTile_evLost : (s.setTile t ts).evLost = s.evLost := rfl
@[simp] theorem setTile_b0At : (s.setTile t ts).b0At = s.b0At := rfl
@[simp] theorem setTile_optSet : (s.setTile t ts).optSet = s.optSet := rfl
@[simp] theorem setTile_mirrorHold : (s.setTile t ts).mirrorHold = s.mirrorHold := rfl
@[simp] theorem setTile_entered : (s.setTile t ts).entered = s.entered := rfl
@[simp] theorem setTile_stopped : (s.setTile t ts).stopped = s.stopped := rfl
@[simp] theorem setTile_ready : (s.setTile t ts).ready = s.ready := rfl
@[simp] theorem setTile_fwEntry : (s.setTile t ts).fwEntry = s.fwEntry := rfl
@[simp] theorem setTile_netRecovery : (s.setTile t ts).netRecovery = s.netRecovery := rfl
@[simp] theorem setTile_smbSlot : (s.setTile t ts).smbSlot = s.smbSlot := rfl
@[simp] theorem setTile_pins : (s.setTile t ts).pins = s.pins := rfl
@[simp] theorem setTile_net : (s.setTile t ts).net = s.net := rfl
@[simp] theorem setTile_pending : (s.setTile t ts).pending = s.pending := rfl
end

section
variable (t : Tile) (f : TileSt → TileSt)
@[simp] theorem modTile_fuses : (s.modTile t f).fuses = s.fuses := rfl
@[simp] theorem modTile_regs : (s.modTile t f).regs = s.regs := rfl
@[simp] theorem modTile_loHeld : (s.modTile t f).loHeld = s.loHeld := rfl
@[simp] theorem modTile_spool : (s.modTile t f).spool = s.spool := rfl
@[simp] theorem modTile_lp : (s.modTile t f).lp = s.lp := rfl
@[simp] theorem modTile_spoolBad : (s.modTile t f).spoolBad = s.spoolBad := rfl
@[simp] theorem modTile_lpBad : (s.modTile t f).lpBad = s.lpBad := rfl
@[simp] theorem modTile_spoolWeak : (s.modTile t f).spoolWeak = s.spoolWeak := rfl
@[simp] theorem modTile_lpWeak : (s.modTile t f).lpWeak = s.lpWeak := rfl
@[simp] theorem modTile_spoolCe : (s.modTile t f).spoolCe = s.spoolCe := rfl
@[simp] theorem modTile_lpCe : (s.modTile t f).lpCe = s.lpCe := rfl
@[simp] theorem modTile_lpRepaired : (s.modTile t f).lpRepaired = s.lpRepaired := rfl
@[simp] theorem modTile_lpTrained : (s.modTile t f).lpTrained = s.lpTrained := rfl
@[simp] theorem modTile_spares : (s.modTile t f).spares = s.spares := rfl
@[simp] theorem modTile_unusable : (s.modTile t f).unusable = s.unusable := rfl
@[simp] theorem modTile_flash : (s.modTile t f).flash = s.flash := rfl
@[simp] theorem modTile_repairN : (s.modTile t f).repairN = s.repairN := rfl
@[simp] theorem modTile_timeNext : (s.modTile t f).timeNext = s.timeNext := rfl
@[simp] theorem modTile_sec : (s.modTile t f).sec = s.sec := rfl
@[simp] theorem modTile_vendorHash : (s.modTile t f).vendorHash = s.vendorHash := rfl
@[simp] theorem modTile_pkgStored : (s.modTile t f).pkgStored = s.pkgStored := rfl
@[simp] theorem modTile_pkgActive : (s.modTile t f).pkgActive = s.pkgActive := rfl
@[simp] theorem modTile_itStored : (s.modTile t f).itStored = s.itStored := rfl
@[simp] theorem modTile_ring : (s.modTile t f).ring = s.ring := rfl
@[simp] theorem modTile_logQ : (s.modTile t f).logQ = s.logQ := rfl
@[simp] theorem modTile_mirrorQ : (s.modTile t f).mirrorQ = s.mirrorQ := rfl
@[simp] theorem modTile_mirrorPos : (s.modTile t f).mirrorPos = s.mirrorPos := rfl
@[simp] theorem modTile_mgmtBox : (s.modTile t f).mgmtBox = s.mgmtBox := rfl
@[simp] theorem modTile_mgmtRcv : (s.modTile t f).mgmtRcv = s.mgmtRcv := rfl
@[simp] theorem modTile_irqs : (s.modTile t f).irqs = s.irqs := rfl
@[simp] theorem modTile_hostIrqs : (s.modTile t f).hostIrqs = s.hostIrqs := rfl
@[simp] theorem modTile_stowReq : (s.modTile t f).stowReq = s.stowReq := rfl
@[simp] theorem modTile_stowTold : (s.modTile t f).stowTold = s.stowTold := rfl
@[simp] theorem modTile_image : (s.modTile t f).image = s.image := rfl
@[simp] theorem modTile_xfer : (s.modTile t f).xfer = s.xfer := rfl
@[simp] theorem modTile_rxXfer : (s.modTile t f).rxXfer = s.rxXfer := rfl
@[simp] theorem modTile_mgmtBusy : (s.modTile t f).mgmtBusy = s.mgmtBusy := rfl
@[simp] theorem modTile_resetDue : (s.modTile t f).resetDue = s.resetDue := rfl
@[simp] theorem modTile_recovery : (s.modTile t f).recovery = s.recovery := rfl
@[simp] theorem modTile_twRun : (s.modTile t f).twRun = s.twRun := rfl
@[simp] theorem modTile_homeFetch : (s.modTile t f).homeFetch = s.homeFetch := rfl
@[simp] theorem modTile_jobCommit : (s.modTile t f).jobCommit = s.jobCommit := rfl
@[simp] theorem modTile_barrier : (s.modTile t f).barrier = s.barrier := rfl
@[simp] theorem modTile_manifest : (s.modTile t f).manifest = s.manifest := rfl
@[simp] theorem modTile_manNew : (s.modTile t f).manNew = s.manNew := rfl
@[simp] theorem modTile_detach : (s.modTile t f).detach = s.detach := rfl
@[simp] theorem modTile_ports : (s.modTile t f).ports = s.ports := rfl
@[simp] theorem modTile_nextPsn : (s.modTile t f).nextPsn = s.nextPsn := rfl
@[simp] theorem modTile_offers : (s.modTile t f).offers = s.offers := rfl
@[simp] theorem modTile_streams : (s.modTile t f).streams = s.streams := rfl
@[simp] theorem modTile_streamUse : (s.modTile t f).streamUse = s.streamUse := rfl
@[simp] theorem modTile_lseOut : (s.modTile t f).lseOut = s.lseOut := rfl
@[simp] theorem modTile_lseWait : (s.modTile t f).lseWait = s.lseWait := rfl
@[simp] theorem modTile_cx : (s.modTile t f).cx = s.cx := rfl
@[simp] theorem modTile_cxHdrs : (s.modTile t f).cxHdrs = s.cxHdrs := rfl
@[simp] theorem modTile_lastSeen : (s.modTile t f).lastSeen = s.lastSeen := rfl
@[simp] theorem modTile_holdN : (s.modTile t f).holdN = s.holdN := rfl
@[simp] theorem modTile_holdFwd : (s.modTile t f).holdFwd = s.holdFwd := rfl
@[simp] theorem modTile_rests : (s.modTile t f).rests = s.rests := rfl
@[simp] theorem modTile_passed : (s.modTile t f).passed = s.passed := rfl
@[simp] theorem modTile_nextStitch : (s.modTile t f).nextStitch = s.nextStitch := rfl
@[simp] theorem modTile_resting : (s.modTile t f).resting = s.resting := rfl
@[simp] theorem modTile_begun : (s.modTile t f).begun = s.begun := rfl
@[simp] theorem modTile_t0 : (s.modTile t f).t0 = s.t0 := rfl
@[simp] theorem modTile_netReq : (s.modTile t f).netReq = s.netReq := rfl
@[simp] theorem modTile_stitchStall : (s.modTile t f).stitchStall = s.stitchStall := rfl
@[simp] theorem modTile_throtNow : (s.modTile t f).throtNow = s.throtNow := rfl
@[simp] theorem modTile_throtLast : (s.modTile t f).throtLast = s.throtLast := rfl
@[simp] theorem modTile_aonAcc : (s.modTile t f).aonAcc = s.aonAcc := rfl
@[simp] theorem modTile_cycles : (s.modTile t f).cycles = s.cycles := rfl
@[simp] theorem modTile_ticks : (s.modTile t f).ticks = s.ticks := rfl
@[simp] theorem modTile_stallCycles : (s.modTile t f).stallCycles = s.stallCycles := rfl
@[simp] theorem modTile_hallTime : (s.modTile t f).hallTime = s.hallTime := rfl
@[simp] theorem modTile_rate : (s.modTile t f).rate = s.rate := rfl
@[simp] theorem modTile_lockRun : (s.modTile t f).lockRun = s.lockRun := rfl
@[simp] theorem modTile_ptpSlave : (s.modTile t f).ptpSlave = s.ptpSlave := rfl
@[simp] theorem modTile_ptpSample : (s.modTile t f).ptpSample = s.ptpSample := rfl
@[simp] theorem modTile_ptp : (s.modTile t f).ptp = s.ptp := rfl
@[simp] theorem modTile_filt : (s.modTile t f).filt = s.filt := rfl
@[simp] theorem modTile_rooted : (s.modTile t f).rooted = s.rooted := rfl
@[simp] theorem modTile_fifos : (s.modTile t f).fifos = s.fifos := rfl
@[simp] theorem modTile_ppsSeen : (s.modTile t f).ppsSeen = s.ppsSeen := rfl
@[simp] theorem modTile_epoch : (s.modTile t f).epoch = s.epoch := rfl
@[simp] theorem modTile_nm : (s.modTile t f).nm = s.nm := rfl
@[simp] theorem modTile_lateObs : (s.modTile t f).lateObs = s.lateObs := rfl
@[simp] theorem modTile_stepClosed : (s.modTile t f).stepClosed = s.stepClosed := rfl
@[simp] theorem modTile_releaseDue : (s.modTile t f).releaseDue = s.releaseDue := rfl
@[simp] theorem modTile_queues : (s.modTile t f).queues = s.queues := rfl
@[simp] theorem modTile_qps : (s.modTile t f).qps = s.qps := rfl
@[simp] theorem modTile_regions : (s.modTile t f).regions = s.regions := rfl
@[simp] theorem modTile_pfcUntil : (s.modTile t f).pfcUntil = s.pfcUntil := rfl
@[simp] theorem modTile_it : (s.modTile t f).it = s.it := rfl
@[simp] theorem modTile_itClr : (s.modTile t f).itClr = s.itClr := rfl
@[simp] theorem modTile_pairs : (s.modTile t f).pairs = s.pairs := rfl
@[simp] theorem modTile_failed : (s.modTile t f).failed = s.failed := rfl
@[simp] theorem modTile_pairTest : (s.modTile t f).pairTest = s.pairTest := rfl
@[simp] theorem modTile_numFault : (s.modTile t f).numFault = s.numFault := rfl
@[simp] theorem modTile_dlCount : (s.modTile t f).dlCount = s.dlCount := rfl
@[simp] theorem modTile_dlFired : (s.modTile t f).dlFired = s.dlFired := rfl
@[simp] theorem modTile_tackGot : (s.modTile t f).tackGot = s.tackGot := rfl
@[simp] theorem modTile_tackSent : (s.modTile t f).tackSent = s.tackSent := rfl
@[simp] theorem modTile_capReq : (s.modTile t f).capReq = s.capReq := rfl
@[simp] theorem modTile_inletEp : (s.modTile t f).inletEp = s.inletEp := rfl
@[simp] theorem modTile_entFails : (s.modTile t f).entFails = s.entFails := rfl
@[simp] theorem modTile_entIdx : (s.modTile t f).entIdx = s.entIdx := rfl
@[simp] theorem modTile_freeIdx : (s.modTile t f).freeIdx = s.freeIdx := rfl
@[simp] theorem modTile_senseIdx : (s.modTile t f).senseIdx = s.senseIdx := rfl
@[simp] theorem modTile_failSafe : (s.modTile t f).failSafe = s.failSafe := rfl
@[simp] theorem modTile_lull : (s.modTile t f).lull = s.lull := rfl
@[simp] theorem modTile_freshPower : (s.modTile t f).freshPower = s.freshPower := rfl
@[simp] theorem modTile_evLost : (s.modTile t f).evLost = s.evLost := rfl
@[simp] theorem modTile_b0At : (s.modTile t f).b0At = s.b0At := rfl
@[simp] theorem modTile_optSet : (s.modTile t f).optSet = s.optSet := rfl
@[simp] theorem modTile_mirrorHold : (s.modTile t f).mirrorHold = s.mirrorHold := rfl
@[simp] theorem modTile_entered : (s.modTile t f).entered = s.entered := rfl
@[simp] theorem modTile_stopped : (s.modTile t f).stopped = s.stopped := rfl
@[simp] theorem modTile_ready : (s.modTile t f).ready = s.ready := rfl
@[simp] theorem modTile_fwEntry : (s.modTile t f).fwEntry = s.fwEntry := rfl
@[simp] theorem modTile_netRecovery : (s.modTile t f).netRecovery = s.netRecovery := rfl
@[simp] theorem modTile_smbSlot : (s.modTile t f).smbSlot = s.smbSlot := rfl
@[simp] theorem modTile_pins : (s.modTile t f).pins = s.pins := rfl
@[simp] theorem modTile_net : (s.modTile t f).net = s.net := rfl
@[simp] theorem modTile_pending : (s.modTile t f).pending = s.pending := rfl
end

section
variable (m : NetMsg)
@[simp] theorem send_fuses : (send s m).fuses = s.fuses := rfl
@[simp] theorem send_regs : (send s m).regs = s.regs := rfl
@[simp] theorem send_loHeld : (send s m).loHeld = s.loHeld := rfl
@[simp] theorem send_tiles : (send s m).tiles = s.tiles := rfl
@[simp] theorem send_spool : (send s m).spool = s.spool := rfl
@[simp] theorem send_lp : (send s m).lp = s.lp := rfl
@[simp] theorem send_spoolBad : (send s m).spoolBad = s.spoolBad := rfl
@[simp] theorem send_lpBad : (send s m).lpBad = s.lpBad := rfl
@[simp] theorem send_spoolWeak : (send s m).spoolWeak = s.spoolWeak := rfl
@[simp] theorem send_lpWeak : (send s m).lpWeak = s.lpWeak := rfl
@[simp] theorem send_spoolCe : (send s m).spoolCe = s.spoolCe := rfl
@[simp] theorem send_lpCe : (send s m).lpCe = s.lpCe := rfl
@[simp] theorem send_lpRepaired : (send s m).lpRepaired = s.lpRepaired := rfl
@[simp] theorem send_lpTrained : (send s m).lpTrained = s.lpTrained := rfl
@[simp] theorem send_spares : (send s m).spares = s.spares := rfl
@[simp] theorem send_unusable : (send s m).unusable = s.unusable := rfl
@[simp] theorem send_flash : (send s m).flash = s.flash := rfl
@[simp] theorem send_repairN : (send s m).repairN = s.repairN := rfl
@[simp] theorem send_timeNext : (send s m).timeNext = s.timeNext := rfl
@[simp] theorem send_sec : (send s m).sec = s.sec := rfl
@[simp] theorem send_vendorHash : (send s m).vendorHash = s.vendorHash := rfl
@[simp] theorem send_pkgStored : (send s m).pkgStored = s.pkgStored := rfl
@[simp] theorem send_pkgActive : (send s m).pkgActive = s.pkgActive := rfl
@[simp] theorem send_itStored : (send s m).itStored = s.itStored := rfl
@[simp] theorem send_ring : (send s m).ring = s.ring := rfl
@[simp] theorem send_logQ : (send s m).logQ = s.logQ := rfl
@[simp] theorem send_mirrorQ : (send s m).mirrorQ = s.mirrorQ := rfl
@[simp] theorem send_mirrorPos : (send s m).mirrorPos = s.mirrorPos := rfl
@[simp] theorem send_mgmtBox : (send s m).mgmtBox = s.mgmtBox := rfl
@[simp] theorem send_mgmtRcv : (send s m).mgmtRcv = s.mgmtRcv := rfl
@[simp] theorem send_irqs : (send s m).irqs = s.irqs := rfl
@[simp] theorem send_hostIrqs : (send s m).hostIrqs = s.hostIrqs := rfl
@[simp] theorem send_stowReq : (send s m).stowReq = s.stowReq := rfl
@[simp] theorem send_stowTold : (send s m).stowTold = s.stowTold := rfl
@[simp] theorem send_image : (send s m).image = s.image := rfl
@[simp] theorem send_xfer : (send s m).xfer = s.xfer := rfl
@[simp] theorem send_rxXfer : (send s m).rxXfer = s.rxXfer := rfl
@[simp] theorem send_mgmtBusy : (send s m).mgmtBusy = s.mgmtBusy := rfl
@[simp] theorem send_resetDue : (send s m).resetDue = s.resetDue := rfl
@[simp] theorem send_recovery : (send s m).recovery = s.recovery := rfl
@[simp] theorem send_twRun : (send s m).twRun = s.twRun := rfl
@[simp] theorem send_homeFetch : (send s m).homeFetch = s.homeFetch := rfl
@[simp] theorem send_jobCommit : (send s m).jobCommit = s.jobCommit := rfl
@[simp] theorem send_barrier : (send s m).barrier = s.barrier := rfl
@[simp] theorem send_manifest : (send s m).manifest = s.manifest := rfl
@[simp] theorem send_manNew : (send s m).manNew = s.manNew := rfl
@[simp] theorem send_detach : (send s m).detach = s.detach := rfl
@[simp] theorem send_ports : (send s m).ports = s.ports := rfl
@[simp] theorem send_nextPsn : (send s m).nextPsn = s.nextPsn := rfl
@[simp] theorem send_offers : (send s m).offers = s.offers := rfl
@[simp] theorem send_streams : (send s m).streams = s.streams := rfl
@[simp] theorem send_streamUse : (send s m).streamUse = s.streamUse := rfl
@[simp] theorem send_lseOut : (send s m).lseOut = s.lseOut := rfl
@[simp] theorem send_lseWait : (send s m).lseWait = s.lseWait := rfl
@[simp] theorem send_cx : (send s m).cx = s.cx := rfl
@[simp] theorem send_cxHdrs : (send s m).cxHdrs = s.cxHdrs := rfl
@[simp] theorem send_lastSeen : (send s m).lastSeen = s.lastSeen := rfl
@[simp] theorem send_holdN : (send s m).holdN = s.holdN := rfl
@[simp] theorem send_holdFwd : (send s m).holdFwd = s.holdFwd := rfl
@[simp] theorem send_rests : (send s m).rests = s.rests := rfl
@[simp] theorem send_passed : (send s m).passed = s.passed := rfl
@[simp] theorem send_nextStitch : (send s m).nextStitch = s.nextStitch := rfl
@[simp] theorem send_resting : (send s m).resting = s.resting := rfl
@[simp] theorem send_begun : (send s m).begun = s.begun := rfl
@[simp] theorem send_t0 : (send s m).t0 = s.t0 := rfl
@[simp] theorem send_netReq : (send s m).netReq = s.netReq := rfl
@[simp] theorem send_stitchStall : (send s m).stitchStall = s.stitchStall := rfl
@[simp] theorem send_throtNow : (send s m).throtNow = s.throtNow := rfl
@[simp] theorem send_throtLast : (send s m).throtLast = s.throtLast := rfl
@[simp] theorem send_aonAcc : (send s m).aonAcc = s.aonAcc := rfl
@[simp] theorem send_cycles : (send s m).cycles = s.cycles := rfl
@[simp] theorem send_ticks : (send s m).ticks = s.ticks := rfl
@[simp] theorem send_stallCycles : (send s m).stallCycles = s.stallCycles := rfl
@[simp] theorem send_hallTime : (send s m).hallTime = s.hallTime := rfl
@[simp] theorem send_rate : (send s m).rate = s.rate := rfl
@[simp] theorem send_lockRun : (send s m).lockRun = s.lockRun := rfl
@[simp] theorem send_ptpSlave : (send s m).ptpSlave = s.ptpSlave := rfl
@[simp] theorem send_ptpSample : (send s m).ptpSample = s.ptpSample := rfl
@[simp] theorem send_ptp : (send s m).ptp = s.ptp := rfl
@[simp] theorem send_filt : (send s m).filt = s.filt := rfl
@[simp] theorem send_rooted : (send s m).rooted = s.rooted := rfl
@[simp] theorem send_fifos : (send s m).fifos = s.fifos := rfl
@[simp] theorem send_ppsSeen : (send s m).ppsSeen = s.ppsSeen := rfl
@[simp] theorem send_epoch : (send s m).epoch = s.epoch := rfl
@[simp] theorem send_nm : (send s m).nm = s.nm := rfl
@[simp] theorem send_lateObs : (send s m).lateObs = s.lateObs := rfl
@[simp] theorem send_stepClosed : (send s m).stepClosed = s.stepClosed := rfl
@[simp] theorem send_releaseDue : (send s m).releaseDue = s.releaseDue := rfl
@[simp] theorem send_queues : (send s m).queues = s.queues := rfl
@[simp] theorem send_qps : (send s m).qps = s.qps := rfl
@[simp] theorem send_regions : (send s m).regions = s.regions := rfl
@[simp] theorem send_pfcUntil : (send s m).pfcUntil = s.pfcUntil := rfl
@[simp] theorem send_it : (send s m).it = s.it := rfl
@[simp] theorem send_itClr : (send s m).itClr = s.itClr := rfl
@[simp] theorem send_pairs : (send s m).pairs = s.pairs := rfl
@[simp] theorem send_failed : (send s m).failed = s.failed := rfl
@[simp] theorem send_pairTest : (send s m).pairTest = s.pairTest := rfl
@[simp] theorem send_numFault : (send s m).numFault = s.numFault := rfl
@[simp] theorem send_dlCount : (send s m).dlCount = s.dlCount := rfl
@[simp] theorem send_dlFired : (send s m).dlFired = s.dlFired := rfl
@[simp] theorem send_tackGot : (send s m).tackGot = s.tackGot := rfl
@[simp] theorem send_tackSent : (send s m).tackSent = s.tackSent := rfl
@[simp] theorem send_capReq : (send s m).capReq = s.capReq := rfl
@[simp] theorem send_inletEp : (send s m).inletEp = s.inletEp := rfl
@[simp] theorem send_entFails : (send s m).entFails = s.entFails := rfl
@[simp] theorem send_entIdx : (send s m).entIdx = s.entIdx := rfl
@[simp] theorem send_freeIdx : (send s m).freeIdx = s.freeIdx := rfl
@[simp] theorem send_senseIdx : (send s m).senseIdx = s.senseIdx := rfl
@[simp] theorem send_failSafe : (send s m).failSafe = s.failSafe := rfl
@[simp] theorem send_lull : (send s m).lull = s.lull := rfl
@[simp] theorem send_freshPower : (send s m).freshPower = s.freshPower := rfl
@[simp] theorem send_evLost : (send s m).evLost = s.evLost := rfl
@[simp] theorem send_b0At : (send s m).b0At = s.b0At := rfl
@[simp] theorem send_optSet : (send s m).optSet = s.optSet := rfl
@[simp] theorem send_mirrorHold : (send s m).mirrorHold = s.mirrorHold := rfl
@[simp] theorem send_entered : (send s m).entered = s.entered := rfl
@[simp] theorem send_stopped : (send s m).stopped = s.stopped := rfl
@[simp] theorem send_ready : (send s m).ready = s.ready := rfl
@[simp] theorem send_fwEntry : (send s m).fwEntry = s.fwEntry := rfl
@[simp] theorem send_netRecovery : (send s m).netRecovery = s.netRecovery := rfl
@[simp] theorem send_smbSlot : (send s m).smbSlot = s.smbSlot := rfl
@[simp] theorem send_pins : (send s m).pins = s.pins := rfl
@[simp] theorem send_pending : (send s m).pending = s.pending := rfl
@[simp] theorem send_net : (send s m).net = s.net ++ [m] := rfl
end


/-! What a command answers: the queue and the fuses are those before it. -/

@[simp] theorem settle_fuses : (settle s s').fuses = s.fuses := rfl
@[simp] theorem settle_regs : (settle s s').regs = s'.regs := rfl
@[simp] theorem settle_loHeld : (settle s s').loHeld = s'.loHeld := rfl
@[simp] theorem settle_tiles : (settle s s').tiles = s'.tiles := rfl
@[simp] theorem settle_spool : (settle s s').spool = s'.spool := rfl
@[simp] theorem settle_lp : (settle s s').lp = s'.lp := rfl
@[simp] theorem settle_spoolBad : (settle s s').spoolBad = s'.spoolBad := rfl
@[simp] theorem settle_lpBad : (settle s s').lpBad = s'.lpBad := rfl
@[simp] theorem settle_spoolWeak : (settle s s').spoolWeak = s'.spoolWeak := rfl
@[simp] theorem settle_lpWeak : (settle s s').lpWeak = s'.lpWeak := rfl
@[simp] theorem settle_spoolCe : (settle s s').spoolCe = s'.spoolCe := rfl
@[simp] theorem settle_lpCe : (settle s s').lpCe = s'.lpCe := rfl
@[simp] theorem settle_lpRepaired : (settle s s').lpRepaired = s'.lpRepaired := rfl
@[simp] theorem settle_lpTrained : (settle s s').lpTrained = s'.lpTrained := rfl
@[simp] theorem settle_spares : (settle s s').spares = s'.spares := rfl
@[simp] theorem settle_unusable : (settle s s').unusable = s'.unusable := rfl
@[simp] theorem settle_flash : (settle s s').flash = s'.flash := rfl
@[simp] theorem settle_repairN : (settle s s').repairN = s'.repairN := rfl
@[simp] theorem settle_timeNext : (settle s s').timeNext = s'.timeNext := rfl
@[simp] theorem settle_sec : (settle s s').sec = s'.sec := rfl
@[simp] theorem settle_vendorHash : (settle s s').vendorHash = s'.vendorHash := rfl
@[simp] theorem settle_pkgStored : (settle s s').pkgStored = s'.pkgStored := rfl
@[simp] theorem settle_pkgActive : (settle s s').pkgActive = s'.pkgActive := rfl
@[simp] theorem settle_itStored : (settle s s').itStored = s'.itStored := rfl
@[simp] theorem settle_ring : (settle s s').ring = s'.ring := rfl
@[simp] theorem settle_logQ : (settle s s').logQ = s'.logQ := rfl
@[simp] theorem settle_mirrorQ : (settle s s').mirrorQ = s'.mirrorQ := rfl
@[simp] theorem settle_mirrorPos : (settle s s').mirrorPos = s'.mirrorPos := rfl
@[simp] theorem settle_mgmtBox : (settle s s').mgmtBox = s'.mgmtBox := rfl
@[simp] theorem settle_mgmtRcv : (settle s s').mgmtRcv = s'.mgmtRcv := rfl
@[simp] theorem settle_irqs : (settle s s').irqs = s'.irqs := rfl
@[simp] theorem settle_hostIrqs : (settle s s').hostIrqs = s'.hostIrqs := rfl
@[simp] theorem settle_stowReq : (settle s s').stowReq = s'.stowReq := rfl
@[simp] theorem settle_stowTold : (settle s s').stowTold = s'.stowTold := rfl
@[simp] theorem settle_image : (settle s s').image = s'.image := rfl
@[simp] theorem settle_xfer : (settle s s').xfer = s'.xfer := rfl
@[simp] theorem settle_rxXfer : (settle s s').rxXfer = s'.rxXfer := rfl
@[simp] theorem settle_mgmtBusy : (settle s s').mgmtBusy = s'.mgmtBusy := rfl
@[simp] theorem settle_resetDue : (settle s s').resetDue = s'.resetDue := rfl
@[simp] theorem settle_recovery : (settle s s').recovery = s'.recovery := rfl
@[simp] theorem settle_twRun : (settle s s').twRun = s'.twRun := rfl
@[simp] theorem settle_homeFetch : (settle s s').homeFetch = s'.homeFetch := rfl
@[simp] theorem settle_jobCommit : (settle s s').jobCommit = s'.jobCommit := rfl
@[simp] theorem settle_barrier : (settle s s').barrier = s'.barrier := rfl
@[simp] theorem settle_manifest : (settle s s').manifest = s'.manifest := rfl
@[simp] theorem settle_manNew : (settle s s').manNew = s'.manNew := rfl
@[simp] theorem settle_detach : (settle s s').detach = s'.detach := rfl
@[simp] theorem settle_ports : (settle s s').ports = s'.ports := rfl
@[simp] theorem settle_nextPsn : (settle s s').nextPsn = s'.nextPsn := rfl
@[simp] theorem settle_offers : (settle s s').offers = s'.offers := rfl
@[simp] theorem settle_streams : (settle s s').streams = s'.streams := rfl
@[simp] theorem settle_streamUse : (settle s s').streamUse = s'.streamUse := rfl
@[simp] theorem settle_lseOut : (settle s s').lseOut = s'.lseOut := rfl
@[simp] theorem settle_lseWait : (settle s s').lseWait = s'.lseWait := rfl
@[simp] theorem settle_cx : (settle s s').cx = s'.cx := rfl
@[simp] theorem settle_cxHdrs : (settle s s').cxHdrs = s'.cxHdrs := rfl
@[simp] theorem settle_lastSeen : (settle s s').lastSeen = s'.lastSeen := rfl
@[simp] theorem settle_holdN : (settle s s').holdN = s'.holdN := rfl
@[simp] theorem settle_holdFwd : (settle s s').holdFwd = s'.holdFwd := rfl
@[simp] theorem settle_rests : (settle s s').rests = s'.rests := rfl
@[simp] theorem settle_passed : (settle s s').passed = s'.passed := rfl
@[simp] theorem settle_nextStitch : (settle s s').nextStitch = s'.nextStitch := rfl
@[simp] theorem settle_resting : (settle s s').resting = s'.resting := rfl
@[simp] theorem settle_begun : (settle s s').begun = s'.begun := rfl
@[simp] theorem settle_t0 : (settle s s').t0 = s'.t0 := rfl
@[simp] theorem settle_netReq : (settle s s').netReq = s'.netReq := rfl
@[simp] theorem settle_stitchStall : (settle s s').stitchStall = s'.stitchStall := rfl
@[simp] theorem settle_throtNow : (settle s s').throtNow = s'.throtNow := rfl
@[simp] theorem settle_throtLast : (settle s s').throtLast = s'.throtLast := rfl
@[simp] theorem settle_aonAcc : (settle s s').aonAcc = s'.aonAcc := rfl
@[simp] theorem settle_cycles : (settle s s').cycles = s'.cycles := rfl
@[simp] theorem settle_ticks : (settle s s').ticks = s'.ticks := rfl
@[simp] theorem settle_stallCycles : (settle s s').stallCycles = s'.stallCycles := rfl
@[simp] theorem settle_hallTime : (settle s s').hallTime = s'.hallTime := rfl
@[simp] theorem settle_rate : (settle s s').rate = s'.rate := rfl
@[simp] theorem settle_lockRun : (settle s s').lockRun = s'.lockRun := rfl
@[simp] theorem settle_ptpSlave : (settle s s').ptpSlave = s'.ptpSlave := rfl
@[simp] theorem settle_ptpSample : (settle s s').ptpSample = s'.ptpSample := rfl
@[simp] theorem settle_ptp : (settle s s').ptp = s'.ptp := rfl
@[simp] theorem settle_filt : (settle s s').filt = s'.filt := rfl
@[simp] theorem settle_rooted : (settle s s').rooted = s'.rooted := rfl
@[simp] theorem settle_fifos : (settle s s').fifos = s'.fifos := rfl
@[simp] theorem settle_ppsSeen : (settle s s').ppsSeen = s'.ppsSeen := rfl
@[simp] theorem settle_epoch : (settle s s').epoch = s'.epoch := rfl
@[simp] theorem settle_nm : (settle s s').nm = s'.nm := rfl
@[simp] theorem settle_lateObs : (settle s s').lateObs = s'.lateObs := rfl
@[simp] theorem settle_stepClosed : (settle s s').stepClosed = s'.stepClosed := rfl
@[simp] theorem settle_releaseDue : (settle s s').releaseDue = s'.releaseDue := rfl
@[simp] theorem settle_queues : (settle s s').queues = s'.queues := rfl
@[simp] theorem settle_qps : (settle s s').qps = s'.qps := rfl
@[simp] theorem settle_regions : (settle s s').regions = s'.regions := rfl
@[simp] theorem settle_pfcUntil : (settle s s').pfcUntil = s'.pfcUntil := rfl
@[simp] theorem settle_it : (settle s s').it = s'.it := rfl
@[simp] theorem settle_itClr : (settle s s').itClr = s'.itClr := rfl
@[simp] theorem settle_pairs : (settle s s').pairs = s'.pairs := rfl
@[simp] theorem settle_failed : (settle s s').failed = s'.failed := rfl
@[simp] theorem settle_pairTest : (settle s s').pairTest = s'.pairTest := rfl
@[simp] theorem settle_numFault : (settle s s').numFault = s'.numFault := rfl
@[simp] theorem settle_dlCount : (settle s s').dlCount = s'.dlCount := rfl
@[simp] theorem settle_dlFired : (settle s s').dlFired = s'.dlFired := rfl
@[simp] theorem settle_tackGot : (settle s s').tackGot = s'.tackGot := rfl
@[simp] theorem settle_tackSent : (settle s s').tackSent = s'.tackSent := rfl
@[simp] theorem settle_capReq : (settle s s').capReq = s'.capReq := rfl
@[simp] theorem settle_inletEp : (settle s s').inletEp = s'.inletEp := rfl
@[simp] theorem settle_entFails : (settle s s').entFails = s'.entFails := rfl
@[simp] theorem settle_entIdx : (settle s s').entIdx = s'.entIdx := rfl
@[simp] theorem settle_freeIdx : (settle s s').freeIdx = s'.freeIdx := rfl
@[simp] theorem settle_senseIdx : (settle s s').senseIdx = s'.senseIdx := rfl
@[simp] theorem settle_failSafe : (settle s s').failSafe = s'.failSafe := rfl
@[simp] theorem settle_lull : (settle s s').lull = s'.lull := rfl
@[simp] theorem settle_freshPower : (settle s s').freshPower = s'.freshPower := rfl
@[simp] theorem settle_evLost : (settle s s').evLost = s'.evLost := rfl
@[simp] theorem settle_b0At : (settle s s').b0At = s'.b0At := rfl
@[simp] theorem settle_optSet : (settle s s').optSet = s'.optSet := rfl
@[simp] theorem settle_mirrorHold : (settle s s').mirrorHold = s'.mirrorHold := rfl
@[simp] theorem settle_entered : (settle s s').entered = s'.entered := rfl
@[simp] theorem settle_stopped : (settle s s').stopped = s'.stopped := rfl
@[simp] theorem settle_ready : (settle s s').ready = s'.ready := rfl
@[simp] theorem settle_fwEntry : (settle s s').fwEntry = s'.fwEntry := rfl
@[simp] theorem settle_netRecovery : (settle s s').netRecovery = s'.netRecovery := rfl
@[simp] theorem settle_smbSlot : (settle s s').smbSlot = s'.smbSlot := rfl
@[simp] theorem settle_pins : (settle s s').pins = s'.pins := rfl
@[simp] theorem settle_net : (settle s s').net = s'.net := rfl
@[simp] theorem settle_pending : (settle s s').pending = s.pending := rfl

end Sys2Proof.Machine
end

