-- ==== Sys2Proof/Laws/Tile.lean ====
section
/-! SUPPORT. The laws of the tiles: scalar and predicate registers, data stores, and what an issue cycle changes. -/

namespace Sys2Proof.Machine

/-! ### Tiles by number -/

@[simp] theorem tile_setTile_same (s : State) (t : Tile) (ts : TileSt) : (s.setTile t ts).tile t = ts := by
  simp [State.tile, State.setTile]

theorem tile_setTile_ne (s : State) (t u : Tile) (ts : TileSt) (h : u ≠ t) : (s.setTile t ts).tile u = s.tile u := by
  have : u.toNat ≠ t.toNat := fun e => h (BitVec.eq_of_toNat_eq e)
  simp [State.tile, State.setTile, smGet_smPut_ne _ _ _ this]

@[simp] theorem tile_modTile_same (s : State) (t : Tile) (f : TileSt → TileSt) :
    (s.modTile t f).tile t = f (s.tile t) := tile_setTile_same s t _

theorem tile_modTile_ne (s : State) (t u : Tile) (f : TileSt → TileSt) (h : u ≠ t) :
    (s.modTile t f).tile u = s.tile u := tile_setTile_ne s t u _ h

@[simp] theorem tile_wri (s : State) (p : Nat) (f : Fld) (i v : Nat) (t : Tile) : (wri s p f i v).tile t = s.tile t := rfl
@[simp] theorem tile_wr (s : State) (p : Nat) (f : Fld) (v : Nat) (t : Tile) : (wr s p f v).tile t = s.tile t := rfl
@[simp] theorem tile_send (s : State) (m : NetMsg) (t : Tile) : (send s m).tile t = s.tile t := rfl
@[simp] theorem tile_settle (s s' : State) (t : Tile) : (settle s s').tile t = s'.tile t := rfl
@[simp] theorem tile_request (s : State) (u : Tile) (r : Nat) (t : Tile) : (request s u r).tile t = s.tile t := rfl

@[simp] theorem rdi_setTile (s : State) (t : Tile) (ts : TileSt) (p : Nat) (f : Fld) (i : Nat) :
    rdi (s.setTile t ts) p f i = rdi s p f i := rfl
@[simp] theorem rdi_modTile (s : State) (t : Tile) (g : TileSt → TileSt) (p : Nat) (f : Fld) (i : Nat) :
    rdi (s.modTile t g) p f i = rdi s p f i := rfl
@[simp] theorem rd_modTile (s : State) (t : Tile) (g : TileSt → TileSt) (p : Nat) (f : Fld) :
    rd (s.modTile t g) p f = rd s p f := rfl
@[simp] theorem rd_send (s : State) (m : NetMsg) (p : Nat) (f : Fld) : rd (send s m) p f = rd s p f := rfl
@[simp] theorem rdi_settle (s s' : State) (p : Nat) (f : Fld) (i : Nat) : rdi (settle s s') p f i = rdi s' p f i := rfl
@[simp] theorem rd_settle (s s' : State) (p : Nat) (f : Fld) : rd (settle s s') p f = rd s' p f := rfl
@[simp] theorem hmode_modTile (s : State) (t u : Tile) (g : TileSt → TileSt) : (s.modTile t g).hmode u = s.hmode u := rfl
@[simp] theorem hmode_settle (s s' : State) (u : Tile) : (settle s s').hmode u = s'.hmode u := rfl
@[simp] theorem g_settle (s s' : State) (t : Tile) (r : BitVec 5) : (settle s s').g t r = s'.g t r := rfl

/-! ### Scalar and predicate registers -/

/-- g0 reads 0 (R161). -/
@[simp] theorem readG_zero (ts : TileSt) (hm : Bool) : ts.readG hm 0#5 = 0#64 := rfl

@[simp] theorem writeG_zero (ts : TileSt) (hm : Bool) (v : W64) : ts.writeG hm 0#5 v = ts := rfl

theorem readG_writeG_same (ts : TileSt) (hm : Bool) (r : BitVec 5) (v : W64) (h : r ≠ 0) :
    (ts.writeG hm r v).readG hm r = v := by
  unfold TileSt.writeG TileSt.readG
  rw [if_neg h, if_neg h]
  by_cases hb : (hm && decide (28 ≤ r.toNat)) = true <;> simp [hb]

theorem readG_writeG_ne (ts : TileSt) (hm hm' : Bool) (r r' : BitVec 5) (v : W64) (h : r' ≠ r) :
    (ts.writeG hm r v).readG hm' r' = ts.readG hm' r' := by
  have hn : r'.toNat ≠ r.toNat := fun e => h (BitVec.eq_of_toNat_eq e)
  unfold TileSt.writeG TileSt.readG
  by_cases h0 : r = 0
  · rw [if_pos h0]
  · by_cases h0' : r' = 0
    · rw [if_pos h0', if_pos h0']
    · rw [if_neg h0, if_neg h0', if_neg h0']
      by_cases hb : (hm && decide (28 ≤ r.toNat)) = true <;> simp [hb, smGet_smPut_ne _ _ _ hn]

@[simp] theorem writeG_pc (ts : TileSt) (hm : Bool) (r : BitVec 5) (v : W64) : (ts.writeG hm r v).pc = ts.pc := by
  unfold TileSt.writeG; split; rfl; split <;> rfl
@[simp] theorem writeG_p (ts : TileSt) (hm : Bool) (r : BitVec 5) (v : W64) : (ts.writeG hm r v).p = ts.p := by
  unfold TileSt.writeG; split; rfl; split <;> rfl
@[simp] theorem writeG_dstore (ts : TileSt) (hm : Bool) (r : BitVec 5) (v : W64) :
    (ts.writeG hm r v).dstore = ts.dstore := by
  unfold TileSt.writeG; split; rfl; split <;> rfl

/-- p0 reads 1 (R161). -/
@[simp] theorem readP_zero (ts : TileSt) : ts.readP 0#3 = true := rfl

theorem readP_writeP_same (ts : TileSt) (i : BitVec 3) (b : Bool) (h : i ≠ 0) : (ts.writeP i b).readP i = b := by
  have hi : i.toNat < 8 := i.isLt
  unfold TileSt.writeP TileSt.readP
  rw [if_neg h]
  have h0 : (i == 0) = false := by simpa using h
  simp only [h0, Bool.false_or, BitVec.getLsbD_ofNat, hi, decide_true, Bool.true_and]
  rw [testBit_setBits, if_pos (by omega)]
  cases b <;> simp [b2n]

theorem readP_writeP_ne (ts : TileSt) (i j : BitVec 3) (b : Bool) (h : j ≠ i) :
    (ts.writeP i b).readP j = ts.readP j := by
  have hn : j.toNat ≠ i.toNat := fun e => h (BitVec.eq_of_toNat_eq e)
  have hj : j.toNat < 8 := j.isLt
  unfold TileSt.writeP TileSt.readP
  split
  · rfl
  · simp only [BitVec.getLsbD_ofNat, hj, decide_true, Bool.true_and]
    rw [testBit_setBits, if_neg (by omega)]
    rfl

@[simp] theorem setG_eq (s : State) (t : Tile) (r : BitVec 5) (v : W64) :
    (s.setG t r v).tile t = (s.tile t).writeG (s.hmode t) r v := tile_modTile_same s t _

@[simp] theorem setG_hmode (s : State) (t u : Tile) (r : BitVec 5) (v : W64) : (s.setG t r v).hmode u = s.hmode u := rfl

/-- A scalar register reads what was written; g0 reads 0 (R161). -/
theorem g_setG (s : State) (t : Tile) (r r' : BitVec 5) (v : W64) :
    (s.setG t r v).g t r' = if r' = r then (if r = 0 then 0 else v) else s.g t r' := by
  unfold State.g
  rw [setG_eq, setG_hmode]
  by_cases h : r' = r
  · subst h
    by_cases h0 : r' = 0
    · subst h0; simp
    · rw [if_pos rfl, if_neg h0, readG_writeG_same _ _ _ _ h0]
  · rw [if_neg h, readG_writeG_ne _ _ _ _ _ _ h]

/-! ### An issue cycle -/

/-- The mode changes with STATUS of the tile's own page alone (R199). -/
theorem hmode_wri_ne (s : State) (p : Nat) (f : Fld) (i v : Nat) (u : Tile)
    (h : (0x1000 + 4 * u.toNat) * 0x1000 + 0x44 ≠ p * 0x1000 + (f.off + f.stride * i)) :
    (wri s p f i v).hmode u = s.hmode u := by
  unfold State.hmode rd
  rw [rdi_wri_ne _ _ _ _ _ _ _ _ (by simpa [tlPg, tl_STATUS_HMODE] using h)]

theorem hmode_wr_ne (s : State) (p : Nat) (f : Fld) (v : Nat) (u : Tile)
    (h : (0x1000 + 4 * u.toNat) * 0x1000 + 0x44 ≠ p * 0x1000 + f.off) : (wr s p f v).hmode u = s.hmode u :=
  hmode_wri_ne s p f 0 v u (by simpa using h)

/-- An issue cycle's effect on the tile apart from its issue count: the order, nothing held, and outside the handler no tack
wait. -/
abbrev issueStep (hm : Bool) (ts : TileSt) : TileSt :=
  { ts with ord := ts.ord + 1, held := none, tackWait := if hm then ts.tackWait else none }

theorem countIssue_eq (s : State) (t : Tile) :
    countIssue s t =
      if s.hmode t then (progress s).modTile t (issueStep (s.hmode t))
      else
        let x := ((progress s).modTile t (issueStep (s.hmode t))).modTile t (fun ts => { ts with issued := ts.issued + 1 })
        let y := inc x (syPg t) sy_ISSUE 1
        if rd64 y gsPg gs_ISSUE_LO gs_ISSUE_HI < (x.tile t).issued then
          wr64 y gsPg gs_ISSUE_LO gs_ISSUE_HI (x.tile t).issued
        else y := rfl

/-- What an issue cycle does to the tile (R165, R211): its order and, outside the handler, its issue count. -/
theorem countIssue_tile (s : State) (t : Tile) :
    (countIssue s t).tile t =
      { issueStep (s.hmode t) (s.tile t) with
          issued := (s.tile t).issued + (if s.hmode t then 0 else 1) } := by
  have hq : (progress s).tile t = s.tile t := rfl
  rw [countIssue_eq]
  by_cases h : s.hmode t = true
  · simp [h, hq]
  · simp only [Bool.not_eq_true] at h
    simp only [h, Bool.false_eq_true, if_false]
    split <;> simp [inc, inci, wr64, hq]

theorem countIssue_tile_ne (s : State) (t u : Tile) (h : u ≠ t) : (countIssue s t).tile u = s.tile u := by
  have hq : (progress s).tile u = s.tile u := rfl
  rw [countIssue_eq]
  by_cases hm : s.hmode t = true
  · simp [hm, hq, tile_modTile_ne _ _ _ _ h]
  · simp only [Bool.not_eq_true] at hm
    simp only [hm, Bool.false_eq_true, if_false]
    split <;> simp [inc, inci, wr64, hq, tile_modTile_ne _ _ _ _ h]

theorem countIssue_hmode (s : State) (t u : Tile) : (countIssue s t).hmode u = s.hmode u := by
  have hq : (progress s).hmode u = s.hmode u := rfl
  rw [countIssue_eq]
  by_cases hm : s.hmode t = true
  · simp [hm, hq]
  · simp only [Bool.not_eq_true] at hm
    have hu := u.isLt
    have ht := t.isLt
    simp only [hm, Bool.false_eq_true, if_false]
    have e1 : ∀ x : State, (inc x (syPg t) sy_ISSUE 1).hmode u = x.hmode u := fun x =>
      hmode_wri_ne _ _ _ _ _ _ (by simp only [syPg, sy_ISSUE]; omega)
    have e2 : ∀ (x : State) (n : Nat), (wr64 x gsPg gs_ISSUE_LO gs_ISSUE_HI n).hmode u = x.hmode u := fun x n => by
      unfold wr64
      rw [hmode_wr_ne _ _ _ _ _ (by simp only [gsPg, gs_ISSUE_HI]; omega),
        hmode_wr_ne _ _ _ _ _ (by simp only [gsPg, gs_ISSUE_LO]; omega)]
    split <;> simp [e1, e2, hq]

/-! ### The next index -/

theorem advance_tile (s : State) (t : Tile) :
    (advance s t).tile t =
      { issueStep (s.hmode t) (s.tile t) with
          pc := (s.tile t).pc + 1, issued := (s.tile t).issued + (if s.hmode t then 0 else 1) } := by
  simp [advance, countIssue_tile]

theorem advance_tile_ne (s : State) (t u : Tile) (h : u ≠ t) : (advance s t).tile u = s.tile u := by
  rw [advance, tile_modTile_ne _ _ _ _ h, countIssue_tile_ne s t u h]

theorem advance_hmode (s : State) (t u : Tile) : (advance s t).hmode u = s.hmode u := countIssue_hmode s t u

/-- An issue cycle changes no scalar register. -/
theorem advance_g (s : State) (t u : Tile) (r : BitVec 5) : (advance s t).g u r = s.g u r := by
  unfold State.g
  rw [advance_hmode]
  by_cases h : u = t
  · subst h; rw [advance_tile]; rfl
  · rw [advance_tile_ne s t u h]

/-- An issue cycle changes no predicate. -/
theorem advance_p (s : State) (t u : Tile) (i : BitVec 3) : (advance s t).p u i = s.p u i := by
  unfold State.p
  by_cases h : u = t
  · subst h; rw [advance_tile]; rfl
  · rw [advance_tile_ne s t u h]

/-- An issue cycle writes SY_ISSUE of the tile and GS_ISSUE, and no other register (R165, R225). -/
theorem advance_regW (s : State) (t : Tile) (page off : Nat)
    (h1 : page * 0x1000 + off ≠ syPg t * 0x1000 + sy_ISSUE.off)
    (h2 : page * 0x1000 + off ≠ gsPg * 0x1000 + gs_ISSUE_LO.off)
    (h3 : page * 0x1000 + off ≠ gsPg * 0x1000 + gs_ISSUE_HI.off) : regW (advance s t) page off = regW s page off := by
  have e0 : ∀ (x : State) (f : TileSt → TileSt), regW (x.modTile t f) page off = regW x page off := fun _ _ => rfl
  have eq : regW (progress s) page off = regW s page off := rfl
  have e1 : ∀ x : State, regW (inc x (syPg t) sy_ISSUE 1) page off = regW x page off := fun x =>
    regW_setW_ne _ _ _ _ _ _ (by simpa [sy_ISSUE] using h1)
  have e2 : ∀ (x : State) (n : Nat), regW (wr64 x gsPg gs_ISSUE_LO gs_ISSUE_HI n) page off = regW x page off := fun x n => by
    unfold wr64 wr wri
    rw [regW_setW_ne _ _ _ _ _ _ (by simpa [gs_ISSUE_HI] using h3), regW_setW_ne _ _ _ _ _ _ (by simpa [gs_ISSUE_LO] using h2)]
  rw [advance, countIssue_eq]
  by_cases hm : s.hmode t = true
  · simp [hm, e0, eq]
  · simp only [Bool.not_eq_true] at hm
    simp only [hm, Bool.false_eq_true, if_false, e0]
    split <;> simp [e0, e1, e2, eq]

/-- What an issue cycle leaves alone beside the tile and the counts of issue: memories, messages, the logbook queue. -/
theorem advance_frame (s : State) (t : Tile) :
    (advance s t).spool = s.spool ∧ (advance s t).lp = s.lp ∧ (advance s t).flash = s.flash ∧ (advance s t).net = s.net
      ∧ (advance s t).logQ = s.logQ ∧ (advance s t).netReq = s.netReq ∧ (advance s t).fuses = s.fuses := by
  rw [advance, countIssue_eq]
  by_cases hm : s.hmode t = true
  · simp only [hm, if_true]; exact ⟨rfl, rfl, rfl, rfl, rfl, rfl, rfl⟩
  · simp only [Bool.not_eq_true] at hm
    simp only [hm, Bool.false_eq_true, if_false]
    split <;> simp [inc, inci, wr64, progress]

end Sys2Proof.Machine
end

