-- ==== Sys2Proof/Laws/Ops.lean ====
section
/-! SUPPORT. What the shared operations can do, said once: the answer of a command, the issue of an instruction and the
execution of a host entry. -/

namespace Sys2Proof.Machine

/-- An answer that leaves the queue and the fuses alone. -/
def Keeps (s : State) (o : Out) : Prop := ∀ s', o = .next s' → s'.pending = s.pending ∧ s'.fuses = s.fuses

theorem keeps_done (s s' : State) : Keeps s (done s s') := by
  intro x h; cases h; exact ⟨rfl, rfl⟩

theorem keeps_fault (s : State) (f : Fault) : Keeps s (.fault f) := by intro x h; cases h

theorem keeps_refused (s : State) (f : Refusal) : Keeps s (.refused f) := by intro x h; cases h

theorem keeps_onTile (s : State) (t : Tile) (o : Out) (h : Keeps s o) : Keeps s (onTile s t o) := by
  unfold onTile; split
  · exact h
  · exact keeps_fault s _

theorem keeps_coreOp (s : State) (t : Tile) (rs : List (BitVec 5)) (g i : Bool) (w : Nat) (body : State → State) :
    Keeps s (coreOp s t rs g i w body) := keeps_onTile s t _ (keeps_done s _)

theorem keeps_engineOp (s : State) (t : Tile) (e : Engine) (i : Instr) (rs : List (BitVec 5))
    (body : State → Nat → State) : Keeps s (engineOp s t e i rs body) := keeps_onTile s t _ (keeps_done s _)

theorem keeps_hostCmd (q : QRef) (op : Nat) (body : State → Nat → List Byte → State) (s : State) :
    Keeps s (hostCmd q op body s) := keeps_done s _

theorem onTile_of_lt (s : State) (t : Tile) (o : Out) (h : t.toNat < s.ntiles) : onTile s t o = o := by
  rw [onTile, if_pos h]

theorem onTile_of_ge (s : State) (t : Tile) (o : Out) (h : s.ntiles ≤ t.toNat) : onTile s t o = .fault .noSuchTile := by
  rw [onTile, if_neg (by omega)]

/-- An instruction of the control core runs: nothing withholds it, its registers hold values, its guard is 1 and its
reserved fields are 0. -/
theorem coreOp_runs (s : State) (t : Tile) (rs : List (BitVec 5)) (g i : Bool) (w : Nat) (body : State → State)
    (ht : t.toNat < s.ntiles) (hc : canIssue s t = true) (hp : (s.tile t).pc.toNat < 0x4000)
    (hr : rs.any (regBusy (s.tile t) (s.hmode t)) = false) (hg : g = true) (hi : i = false) :
    coreOp s t rs g i w body = .next (settle s (body s)) := by
  subst hg hi
  rw [coreOp, onTile_of_lt s t _ ht, done]
  simp [hc, hr, Nat.not_le.mpr hp]

/-- A guard of 0 leaves the issue cycle alone (R165, R168). -/
theorem coreOp_skips (s : State) (t : Tile) (rs : List (BitVec 5)) (i : Bool) (w : Nat) (body : State → State)
    (ht : t.toNat < s.ntiles) (hc : canIssue s t = true) (hp : (s.tile t).pc.toNat < 0x4000) :
    coreOp s t rs false i w body = .next (settle s (advance s t)) := by
  rw [coreOp, onTile_of_lt s t _ ht, done]
  simp [hc, Nat.not_le.mpr hp]

/-- A nonzero reserved field raises ILLEGAL (R170). -/
theorem coreOp_illegal (s : State) (t : Tile) (rs : List (BitVec 5)) (w : Nat) (body : State → State)
    (ht : t.toNat < s.ntiles) (hc : canIssue s t = true) (hp : (s.tile t).pc.toNat < 0x4000)
    (hr : rs.any (regBusy (s.tile t) (s.hmode t)) = false) :
    coreOp s t rs true true w body = .next (settle s (precise s t cIllegal (iw w))) := by
  rw [coreOp, onTile_of_lt s t _ ht, done]
  simp [hc, hr, Nat.not_le.mpr hp]

/-- An instruction that the tile may not issue now changes nothing. -/
theorem coreOp_withheld (s : State) (t : Tile) (rs : List (BitVec 5)) (g i : Bool) (w : Nat) (body : State → State)
    (ht : t.toNat < s.ntiles) (hc : canIssue s t = false) : coreOp s t rs g i w body = .next (settle s s) := by
  rw [coreOp, onTile_of_lt s t _ ht, done]
  simp [hc]

end Sys2Proof.Machine
end

