-- ==== Sys2Proof/Laws/Claims.lean ====
section
/-! SUPPORT. What the execution of a host entry can do, said once. -/

namespace Sys2Proof.Machine

open Sys2Proof.Claims

/-- Lines that hold no error read as they are (R280). -/
theorem lpCheck_good (s : State) (a n : Nat) (h : LpGood s a n) : lpCheck s a n .ok = (true, s) := by
  rw [lpCheck, h.1, h.2]; rfl

/-- The head entry is executed. -/
theorem hostRun_runs (s : State) (q : QRef) (op : Nat) (h : HostQ) (e : List Byte)
    (body : State → Nat → List Byte → State) (r : EntryRuns s q op h e) :
    hostRun q op body s = body (taken s q h) (qref q) e := by
  have hk : op ∈ opsOf s q.mgmt := by simpa using r.known
  have hc := lpCheck_good s (h.ring + 64 * (h.head % 2 ^ h.n)) 64 r.readable
  rw [hostRun, r.queue]
  simp only [r.served, r.running, r.waiting, r.entry, hc, r.order, r.opcode, hk, r.free, r.clean, r.tailed, taken,
    not_true_eq_false, or_false, if_false, List.contains_eq_mem, decide_true, ne_eq, Bool.false_eq_true, false_and]

theorem hostCmd_runs (s : State) (q : QRef) (op : Nat) (h : HostQ) (e : List Byte)
    (body : State → Nat → List Byte → State) (r : EntryRuns s q op h e) :
    hostCmd q op body s = .next (settle s (body (taken s q h) (qref q) e)) := by
  rw [hostCmd, hostRun_runs s q op h e body r, done]

/-- An engine instruction that may issue while both engines are idle: the engine acts at once, on the state after issue. -/
theorem engineOp_runs (s : State) (t : Tile) (e : Engine) (i : Instr) (rs : List (BitVec 5)) (body : State → Nat → State)
    (h : Executes s t e (tregUses i) rs) :
    engineOp s t e i rs body = .next (settle s (body (issuedTo s t e) (s.tile t).pc.toNat)) := by
  obtain ⟨⟨⟨ht, hc, hp⟩, hr, hd, hq⟩, hi⟩ := h
  rw [engineOp, onTile_of_lt s t _ ht, done]
  simp [hc, show rs.any (regBusy (s.tile t) (s.hmode t)) = false from hr, hd, Nat.not_le.mpr hp, Nat.not_le.mpr hq, hi,
    issuedTo, enginePut]

/-- What an engine instruction does that does not act at once: it waits in its queue, or is withheld. -/
theorem engineOp_queues (s : State) (t : Tile) (e : Engine) (i : Instr) (rs : List (BitVec 5))
    (body : State → Nat → State) (h : Ready s t) (hr : Here s t rs) :
    (dmaClash (s.tile t) (tregUses i) = true →
        engineOp s t e i rs body = .next (settle s (withhold s t rowOperand (.tregs (tregUses i)))))
      ∧ (dmaClash (s.tile t) (tregUses i) = false →
          (4 ≤ ((s.tile t).queueOf e).length →
              engineOp s t e i rs body = .next (settle s (withhold s t rowEngine (.full e))))
            ∧ (((s.tile t).queueOf e).length < 4 → enginesIdle (s.tile t) = false →
                engineOp s t e i rs body = .next (settle s (queued s t e i rs)))) := by
  obtain ⟨ht, hc, hp⟩ := h
  rw [engineOp, onTile_of_lt s t _ ht, done]
  have hb : rs.any (regBusy (s.tile t) (s.hmode t)) = false := hr
  refine ⟨fun hd => ?_, fun hd => ⟨fun hq => ?_, fun hq hi => ?_⟩⟩
  · simp [hc, hb, hd, Nat.not_le.mpr hp]
  · simp [hc, hb, hd, Nat.not_le.mpr hp, hq, enginePut]
  · simp [hc, hb, hd, Nat.not_le.mpr hp, Nat.not_le.mpr hq, hi, queued, enginePut]

end Sys2Proof.Machine
end

