-- ==== Sys2Proof/Laws/Dispatch.lean ====
section
/-! SUPPORT. What `exec` calls for each command: one lemma an arm, so that no proof opens the whole match. -/

namespace Sys2Proof.Machine

variable (s : State)

theorem exec_cAdd (t : Tile) (o : ROp) : exec (.cAdd t o) s = execCAdd t o s := rfl
theorem exec_cSub (t : Tile) (o : ROp) : exec (.cSub t o) s = execCSub t o s := rfl
theorem exec_cAnd (t : Tile) (o : ROp) : exec (.cAnd t o) s = execCAnd t o s := rfl
theorem exec_cOr (t : Tile) (o : ROp) : exec (.cOr t o) s = execCOr t o s := rfl
theorem exec_cXor (t : Tile) (o : ROp) : exec (.cXor t o) s = execCXor t o s := rfl
theorem exec_cShl (t : Tile) (o : ROp) : exec (.cShl t o) s = execCShl t o s := rfl
theorem exec_cShr (t : Tile) (o : ROp) : exec (.cShr t o) s = execCShr t o s := rfl
theorem exec_cSar (t : Tile) (o : ROp) : exec (.cSar t o) s = execCSar t o s := rfl
theorem exec_cMul (t : Tile) (o : ROp) : exec (.cMul t o) s = execCMul t o s := rfl
theorem exec_cMulhu (t : Tile) (o : ROp) : exec (.cMulhu t o) s = execCMulhu t o s := rfl
theorem exec_cMulh (t : Tile) (o : ROp) : exec (.cMulh t o) s = execCMulh t o s := rfl
theorem exec_cDivu (t : Tile) (o : ROp) : exec (.cDivu t o) s = execCDivu t o s := rfl
theorem exec_cRemu (t : Tile) (o : ROp) : exec (.cRemu t o) s = execCRemu t o s := rfl
theorem exec_cMin (t : Tile) (o : ROp) : exec (.cMin t o) s = execCMin t o s := rfl
theorem exec_cMax (t : Tile) (o : ROp) : exec (.cMax t o) s = execCMax t o s := rfl
theorem exec_cMinu (t : Tile) (o : ROp) : exec (.cMinu t o) s = execCMinu t o s := rfl
theorem exec_cMaxu (t : Tile) (o : ROp) : exec (.cMaxu t o) s = execCMaxu t o s := rfl
theorem exec_cSel (t : Tile) (o : ROp) : exec (.cSel t o) s = execCSel t o s := rfl
theorem exec_cSextb (t : Tile) (o : ROp) : exec (.cSextb t o) s = execCSextb t o s := rfl
theorem exec_cSexth (t : Tile) (o : ROp) : exec (.cSexth t o) s = execCSexth t o s := rfl
theorem exec_cSextw (t : Tile) (o : ROp) : exec (.cSextw t o) s = execCSextw t o s := rfl
theorem exec_cClz (t : Tile) (o : ROp) : exec (.cClz t o) s = execCClz t o s := rfl
theorem exec_cPopc (t : Tile) (o : ROp) : exec (.cPopc t o) s = execCPopc t o s := rfl
theorem exec_cAddi (t : Tile) (o : IOp) : exec (.cAddi t o) s = execCAddi t o s := rfl
theorem exec_cAndi (t : Tile) (o : IOp) : exec (.cAndi t o) s = execCAndi t o s := rfl
theorem exec_cOri (t : Tile) (o : IOp) : exec (.cOri t o) s = execCOri t o s := rfl
theorem exec_cXori (t : Tile) (o : IOp) : exec (.cXori t o) s = execCXori t o s := rfl
theorem exec_cShi (t : Tile) (o : IOp) : exec (.cShi t o) s = execCShi t o s := rfl
theorem exec_cMovz (t : Tile) (o : UOp) : exec (.cMovz t o) s = execCMovz t o s := rfl
theorem exec_cMovk (t : Tile) (o : UOp) : exec (.cMovk t o) s = execCMovk t o s := rfl
theorem exec_cGetu (t : Tile) (o : RfOp) : exec (.cGetu t o) s = execCGetu t o s := rfl
theorem exec_cCmp (t : Tile) (o : CmpOp) : exec (.cCmp t o) s = execCCmp t o s := rfl
theorem exec_cCmpi (t : Tile) (o : CmpiOp) : exec (.cCmpi t o) s = execCCmpi t o s := rfl
theorem exec_predicateAnd (t : Tile) (o : PredOp) : exec (.predicateAnd t o) s = execPredicateAnd t o s := rfl
theorem exec_predicateOr (t : Tile) (o : PredOp) : exec (.predicateOr t o) s = execPredicateOr t o s := rfl
theorem exec_predicateXor (t : Tile) (o : PredOp) : exec (.predicateXor t o) s = execPredicateXor t o s := rfl
theorem exec_predicateAndn (t : Tile) (o : PredOp) : exec (.predicateAndn t o) s = execPredicateAndn t o s := rfl
theorem exec_predicateNot (t : Tile) (o : PredOp) : exec (.predicateNot t o) s = execPredicateNot t o s := rfl
theorem exec_cLdb (t : Tile) (o : IOp) (ecc : Ecc) : exec (.cLdb t o ecc) s = execCLdb t o ecc s := rfl
theorem exec_cLdh (t : Tile) (o : IOp) (ecc : Ecc) : exec (.cLdh t o ecc) s = execCLdh t o ecc s := rfl
theorem exec_cLdw (t : Tile) (o : IOp) (ecc : Ecc) : exec (.cLdw t o ecc) s = execCLdw t o ecc s := rfl
theorem exec_cLdd (t : Tile) (o : IOp) (ecc : Ecc) : exec (.cLdd t o ecc) s = execCLdd t o ecc s := rfl
theorem exec_cStb (t : Tile) (o : IOp) (ecc : Ecc) : exec (.cStb t o ecc) s = execCStb t o ecc s := rfl
theorem exec_cSth (t : Tile) (o : IOp) (ecc : Ecc) : exec (.cSth t o ecc) s = execCSth t o ecc s := rfl
theorem exec_cStw (t : Tile) (o : IOp) (ecc : Ecc) : exec (.cStw t o ecc) s = execCStw t o ecc s := rfl
theorem exec_cStd (t : Tile) (o : IOp) (ecc : Ecc) : exec (.cStd t o ecc) s = execCStd t o ecc s := rfl
theorem exec_cLld (t : Tile) (o : IOp) : exec (.cLld t o) s = execCLld t o s := rfl
theorem exec_cLst (t : Tile) (o : IOp) : exec (.cLst t o) s = execCLst t o s := rfl
theorem exec_cLldw (t : Tile) (o : IOp) : exec (.cLldw t o) s = execCLldw t o s := rfl
theorem exec_cLstw (t : Tile) (o : IOp) : exec (.cLstw t o) s = execCLstw t o s := rfl
theorem exec_cLfence (t : Tile) (o : RfOp) : exec (.cLfence t o) s = execCLfence t o s := rfl
theorem exec_cBr (t : Tile) (o : BrOp) : exec (.cBr t o) s = execCBr t o s := rfl
theorem exec_cJal (t : Tile) (o : JOp) : exec (.cJal t o) s = execCJal t o s := rfl
theorem exec_cJr (t : Tile) (o : RfOp) : exec (.cJr t o) s = execCJr t o s := rfl
theorem exec_cTret (t : Tile) (o : RfOp) : exec (.cTret t o) s = execCTret t o s := rfl
theorem exec_cTrap (t : Tile) (o : TrapOp) : exec (.cTrap t o) s = execCTrap t o s := rfl
theorem exec_cHalt (t : Tile) (o : RfOp) : exec (.cHalt t o) s = execCHalt t o s := rfl
theorem exec_cSleep (t : Tile) (o : RfOp) : exec (.cSleep t o) s = execCSleep t o s := rfl
theorem exec_pgRd (t : Tile) (o : POp) : exec (.pgRd t o) s = execPgRd t o s := rfl
theorem exec_pgWr (t : Tile) (o : POp) : exec (.pgWr t o) s = execPgWr t o s := rfl
theorem exec_cRdv (t : Tile) (o : IOp) : exec (.cRdv t o) s = execCRdv t o s := rfl
theorem exec_dmGo (t : Tile) (o : RfOp) (ecc : Ecc) : exec (.dmGo t o ecc) s = execDmGo t o ecc s := rfl
theorem exec_dmFence (t : Tile) (o : RfOp) : exec (.dmFence t o) s = execDmFence t o s := rfl
theorem exec_sySig (t : Tile) (o : RfOp) : exec (.sySig t o) s = execSySig t o s := rfl
theorem exec_sySigi (t : Tile) (o : SigiOp) : exec (.sySigi t o) s = execSySigi t o s := rfl
theorem exec_syWait (t : Tile) (o : RfOp) : exec (.syWait t o) s = execSyWait t o s := rfl
theorem exec_syWaitTimeout (t : Tile) : exec (.syWaitTimeout t) s = execSyWaitTimeout t s := rfl
theorem exec_syTackArrive (t : Tile) (o : TackOp) : exec (.syTackArrive t o) s = execSyTackArrive t o s := rfl
theorem exec_syTackWait (t : Tile) (o : TackOp) : exec (.syTackWait t o) s = execSyTackWait t o s := rfl
theorem exec_syTackArriveWait (t : Tile) (o : TackOp) : exec (.syTackArriveWait t o) s = execSyTackArriveWait t o s := rfl
theorem exec_syRealign (t : Tile) (o : RfOp) (ecc : Ecc) : exec (.syRealign t o ecc) s = execSyRealign t o ecc s := rfl
theorem exec_realignTimeout (t : Tile) : exec (.realignTimeout t) s = execRealignTimeout t s := rfl
theorem exec_realignOverdue (t : Tile) : exec (.realignOverdue t) s = execRealignOverdue t s := rfl
theorem exec_mbSend (t : Tile) (o : RfOp) (ecc : Ecc) : exec (.mbSend t o ecc) s = execMbSend t o ecc s := rfl
theorem exec_mbRecv (t : Tile) (o : RfOp) : exec (.mbRecv t o) s = execMbRecv t o s := rfl
theorem exec_mxOpen (t : Tile) (o : OpenOp) : exec (.mxOpen t o) s = execMxOpen t o s := rfl
theorem exec_mxMma (t : Tile) (o : MmaOp) (upset : Option Upset) : exec (.mxMma t o upset) s = execMxMma t o upset s := rfl
theorem exec_mxClose (t : Tile) (o : CloseOp) (upset : Option Upset) : exec (.mxClose t o upset) s = execMxClose t o upset s := rfl
theorem exec_mxSt (t : Tile) (o : MxStOp) (upset : Option Upset) : exec (.mxSt t o upset) s = execMxSt t o upset s := rfl
theorem exec_mxLa (t : Tile) (o : MxLaOp) (ecc : Ecc) : exec (.mxLa t o ecc) s = execMxLa t o ecc s := rfl
theorem exec_mxLt (t : Tile) (o : LtOp) (ecc : Ecc) : exec (.mxLt t o ecc) s = execMxLt t o ecc s := rfl
theorem exec_mxStt (t : Tile) (o : SttOp) (ecc : Ecc) : exec (.mxStt t o ecc) s = execMxStt t o ecc s := rfl
theorem exec_mxTag (t : Tile) (o : TagOp) : exec (.mxTag t o) s = execMxTag t o s := rfl
theorem exec_mxDrop (t : Tile) (o : DropOp) : exec (.mxDrop t o) s = execMxDrop t o s := rfl
theorem exec_decision (t : Tile) (gid : BitVec 24) (kind : DecKind) (hem : BitVec 16) (attempt : BitVec 3) : exec (.decision t gid kind hem attempt) s = execDecision t gid kind hem attempt s := rfl
theorem exec_basteCheck (t : Tile) (err : BitVec 64) : exec (.basteCheck t err) s = execBasteCheck t err s := rfl
theorem exec_vxAdd (t : Tile) (o : VfOp) (upset : Option Upset) : exec (.vxAdd t o upset) s = execVxAdd t o upset s := rfl
theorem exec_vxSub (t : Tile) (o : VfOp) (upset : Option Upset) : exec (.vxSub t o upset) s = execVxSub t o upset s := rfl
theorem exec_vxMul (t : Tile) (o : VfOp) (upset : Option Upset) : exec (.vxMul t o upset) s = execVxMul t o upset s := rfl
theorem exec_vxDiv (t : Tile) (o : VfOp) (upset : Option Upset) : exec (.vxDiv t o upset) s = execVxDiv t o upset s := rfl
theorem exec_vxFma (t : Tile) (o : VfOp) (upset : Option Upset) : exec (.vxFma t o upset) s = execVxFma t o upset s := rfl
theorem exec_vxMin (t : Tile) (o : VfOp) : exec (.vxMin t o) s = execVxMin t o s := rfl
theorem exec_vxMax (t : Tile) (o : VfOp) : exec (.vxMax t o) s = execVxMax t o s := rfl
theorem exec_vxSqrt (t : Tile) (o : VuOp) (upset : Option Upset) : exec (.vxSqrt t o upset) s = execVxSqrt t o upset s := rfl
theorem exec_vxRcp (t : Tile) (o : VuOp) (upset : Option Upset) : exec (.vxRcp t o upset) s = execVxRcp t o upset s := rfl
theorem exec_vxRsqrt (t : Tile) (o : VuOp) (upset : Option Upset) : exec (.vxRsqrt t o upset) s = execVxRsqrt t o upset s := rfl
theorem exec_vxExp2 (t : Tile) (o : VuOp) (upset : Option Upset) : exec (.vxExp2 t o upset) s = execVxExp2 t o upset s := rfl
theorem exec_vxLog2 (t : Tile) (o : VuOp) (upset : Option Upset) : exec (.vxLog2 t o upset) s = execVxLog2 t o upset s := rfl
theorem exec_vxAbs (t : Tile) (o : VuOp) : exec (.vxAbs t o) s = execVxAbs t o s := rfl
theorem exec_vxNeg (t : Tile) (o : VuOp) : exec (.vxNeg t o) s = execVxNeg t o s := rfl
theorem exec_vxIadd (t : Tile) (o : ViOp) (upset : Option Upset) : exec (.vxIadd t o upset) s = execVxIadd t o upset s := rfl
theorem exec_vxIsub (t : Tile) (o : ViOp) (upset : Option Upset) : exec (.vxIsub t o upset) s = execVxIsub t o upset s := rfl
theorem exec_vxImul (t : Tile) (o : ViOp) (upset : Option Upset) : exec (.vxImul t o upset) s = execVxImul t o upset s := rfl
theorem exec_vxAnd (t : Tile) (o : ViOp) : exec (.vxAnd t o) s = execVxAnd t o s := rfl
theorem exec_vxOr (t : Tile) (o : ViOp) : exec (.vxOr t o) s = execVxOr t o s := rfl
theorem exec_vxXor (t : Tile) (o : ViOp) : exec (.vxXor t o) s = execVxXor t o s := rfl
theorem exec_vxShl (t : Tile) (o : ViOp) : exec (.vxShl t o) s = execVxShl t o s := rfl
theorem exec_vxShr (t : Tile) (o : ViOp) : exec (.vxShr t o) s = execVxShr t o s := rfl
theorem exec_vxCmp (t : Tile) (o : VcmpOp) : exec (.vxCmp t o) s = execVxCmp t o s := rfl
theorem exec_vxSel (t : Tile) (o : VselOp) : exec (.vxSel t o) s = execVxSel t o s := rfl
theorem exec_vxCvt (t : Tile) (o : VcvtOp) : exec (.vxCvt t o) s = execVxCvt t o s := rfl
theorem exec_vxCut (t : Tile) (o : VcutOp) (ecc : Ecc) : exec (.vxCut t o ecc) s = execVxCut t o ecc s := rfl
theorem exec_vxUncut (t : Tile) (o : VuncutOp) (ecc : Ecc) : exec (.vxUncut t o ecc) s = execVxUncut t o ecc s := rfl
theorem exec_vxLd (t : Tile) (o : VldOp) (ecc : Ecc) : exec (.vxLd t o ecc) s = execVxLd t o ecc s := rfl
theorem exec_vxSt (t : Tile) (o : VldOp) : exec (.vxSt t o) s = execVxSt t o s := rfl
theorem exec_vxLdt (t : Tile) (o : VtOp) : exec (.vxLdt t o) s = execVxLdt t o s := rfl
theorem exec_vxLdc (t : Tile) (o : VtOp) : exec (.vxLdc t o) s = execVxLdc t o s := rfl
theorem exec_vxWrt (t : Tile) (o : VtOp) : exec (.vxWrt t o) s = execVxWrt t o s := rfl
theorem exec_vxWrc (t : Tile) (o : VtOp) : exec (.vxWrc t o) s = execVxWrc t o s := rfl
theorem exec_vxBcast (t : Tile) (o : VbcastOp) : exec (.vxBcast t o) s = execVxBcast t o s := rfl
theorem exec_vxBob (t : Tile) (o : VbobOp) : exec (.vxBob t o) s = execVxBob t o s := rfl
theorem exec_vxVred (t : Tile) (o : VvredOp) (upset : Option Upset) : exec (.vxVred t o upset) s = execVxVred t o upset s := rfl
theorem exec_vxTred (t : Tile) (o : VtredOp) (upset : Option Upset) : exec (.vxTred t o upset) s = execVxTred t o upset s := rfl
theorem exec_vxTamax (t : Tile) (o : VtamaxOp) : exec (.vxTamax t o) s = execVxTamax t o s := rfl
theorem exec_vxRdiff (t : Tile) (o : VrdiffOp) (upset : Option Upset) : exec (.vxRdiff t o upset) s = execVxRdiff t o upset s := rfl
theorem exec_vxGacc (t : Tile) (o : VgaccOp) (upset : Option Upset) : exec (.vxGacc t o upset) s = execVxGacc t o upset s := rfl
theorem exec_vxGtacc (t : Tile) (o : VgtaccOp) (upset : Option Upset) : exec (.vxGtacc t o upset) s = execVxGtacc t o upset s := rfl
theorem exec_vxGdot (t : Tile) (o : VgdotOp) (upset : Option Upset) : exec (.vxGdot t o upset) s = execVxGdot t o upset s := rfl
theorem exec_vxGrd (t : Tile) (o : VgrdOp) (upset : Option Upset) : exec (.vxGrd t o upset) s = execVxGrd t o upset s := rfl
theorem exec_vxGcvt (t : Tile) (o : VgcvtOp) (upset : Option Upset) : exec (.vxGcvt t o upset) s = execVxGcvt t o upset s := rfl
theorem exec_vxGcomb (t : Tile) (o : VgcombOp) (upset : Option Upset) (ecc : Ecc) : exec (.vxGcomb t o upset ecc) s = execVxGcomb t o upset ecc s := rfl
theorem exec_vxGdec (t : Tile) (o : VgdecOp) (ecc : Ecc) : exec (.vxGdec t o ecc) s = execVxGdec t o ecc s := rfl
theorem exec_vxEvt (t : Tile) (o : VevtOp) : exec (.vxEvt t o) s = execVxEvt t o s := rfl
theorem exec_vxPick (t : Tile) (o : VpickOp) : exec (.vxPick t o) s = execVxPick t o s := rfl
theorem exec_vxUset (t : Tile) (o : VusetOp) : exec (.vxUset t o) s = execVxUset t o s := rfl
theorem exec_vxSrctx (t : Tile) (o : VsrctxOp) : exec (.vxSrctx t o) s = execVxSrctx t o s := rfl
theorem exec_vxTrk (t : Tile) (o : VtrkOp) : exec (.vxTrk t o) s = execVxTrk t o s := rfl
theorem exec_trapEntry (t : Tile) (fetch : Ecc) : exec (.trapEntry t fetch) s = execTrapEntry t fetch s := rfl
theorem exec_programStart (t : Tile) : exec (.programStart t) s = execProgramStart t s := rfl
theorem exec_globalStall (t : Tile) (row : BitVec 4) : exec (.globalStall t row) s = execGlobalStall t row s := rfl
theorem exec_stallResume : exec (.stallResume) s = execStallResume s := rfl
theorem exec_dmaTransferStart (t : Tile) (ecc : Ecc) : exec (.dmaTransferStart t ecc) s = execDmaTransferStart t ecc s := rfl
theorem exec_dmaTransferComplete (t : Tile) (rsp : BitVec 8) (remote : List Byte) (ecc : Ecc) : exec (.dmaTransferComplete t rsp remote ecc) s = execDmaTransferComplete t rsp remote ecc s := rfl
theorem exec_tileWake (t : Tile) : exec (.tileWake t) s = execTileWake t s := rfl
theorem exec_wake (t : Tile) : exec (.wake t) s = execWake t s := rfl
theorem exec_fence (t : Tile) : exec (.fence t) s = execFence t s := rfl
theorem exec_stitchBoundary : exec (.stitchBoundary) s = execStitchBoundary s := rfl
theorem exec_passBoundary : exec (.passBoundary) s = execPassBoundary s := rfl
theorem exec_programStitchStart : exec (.programStitchStart) s = execProgramStitchStart s := rfl
theorem exec_restStitch : exec (.restStitch) s = execRestStitch s := rfl
theorem exec_hold (port : BitVec 6) (h : BitVec 32) (n : BitVec 4) : exec (.hold port h n) s = execHold port h n s := rfl
theorem exec_load (q : QRef) (key : List Byte) : exec (.load q key) s = execLoad q key s := rfl
theorem exec_signal (src : Sender) (word : BitVec 64) : exec (.signal src word) s = execSignal src word s := rfl
theorem exec_lostNotice (module : BitVec 3) (x : Option Tile) : exec (.lostNotice module x) s = execLostNotice module x s := rfl
theorem exec_tackLineComplete (k : BitVec 4) : exec (.tackLineComplete k) s = execTackLineComplete k s := rfl
theorem exec_tack (module : BitVec 3) (k : BitVec 4) (gen : BitVec 8) : exec (.tack module k gen) s = execTack module k gen s := rfl
theorem exec_mailbox (port : Option (BitVec 6)) (stamp : W32) (word : BitVec 64) (data : List Byte) (rcv : Bool) : exec (.mailbox port stamp word data rcv) s = execMailbox port stamp word data rcv s := rfl
theorem exec_doldrums : exec (.doldrums) s = execDoldrums s := rfl
theorem exec_scrub (ptile : Nat) (off : Nat) (ecc : Ecc) (synd : BitVec 8) : exec (.scrub ptile off ecc synd) s = execScrub ptile off ecc synd s := rfl
theorem exec_refresh (pkg : BitVec 4) (rate : BitVec 8) (doubled : Bool) (waits : Nat) : exec (.refresh pkg rate doubled waits) s = execRefresh pkg rate doubled waits s := rfl
theorem exec_lseRead (src : Party) (addr : BitVec 48) (size : Nat) (tag : Nat) (ecc : Ecc) : exec (.lseRead src addr size tag ecc) s = execLseRead src addr size tag ecc s := rfl
theorem exec_lseWrite (src : Party) (addr : BitVec 48) (data : List Byte) (tag : Nat) (ecc : Ecc) : exec (.lseWrite src addr data tag ecc) s = execLseWrite src addr data tag ecc s := rfl
theorem exec_lseResp (t : Tile) (tag : Nat) (rsp : BitVec 8) (data : List Byte) : exec (.lseResp t tag rsp data) s = execLseResp t tag rsp data s := rfl
theorem exec_frame (port : BitVec 6) (f : Heard) : exec (.frame port f) s = execFrame port f s := rfl
theorem exec_tryTimeout (port : BitVec 6) : exec (.tryTimeout port) s = execTryTimeout port s := rfl
theorem exec_failoverComplete (port : BitVec 6) : exec (.failoverComplete port) s = execFailoverComplete port s := rfl
theorem exec_wavelengthFail (port : BitVec 6) (w : BitVec 4) : exec (.wavelengthFail port w) s = execWavelengthFail port w s := rfl
theorem exec_rotationStep (port : BitVec 6) : exec (.rotationStep port) s = execRotationStep port s := rfl
theorem exec_portEnable (port : BitVec 6) : exec (.portEnable port) s = execPortEnable port s := rfl
theorem exec_portDisable (port : BitVec 6) : exec (.portDisable port) s = execPortDisable port s := rfl
theorem exec_trainingComplete (port : BitVec 6) (tr : Training) : exec (.trainingComplete port tr) s = execTrainingComplete port tr s := rfl
theorem exec_calibration (port : BitVec 6) (bad : List Nat) : exec (.calibration port bad) s = execCalibration port bad s := rfl
theorem exec_calWl (port : BitVec 6) (w : BitVec 4) (ok : Bool) : exec (.calWl port w ok) s = execCalWl port w ok s := rfl
theorem exec_stream (port : BitVec 6) (hdr : PktHdr) (data : List Byte) (whole : Bool) : exec (.stream port hdr data whole) s = execStream port hdr data whole s := rfl
theorem exec_streamCredit (port : BitVec 6) (data : List Byte) : exec (.streamCredit port data) s = execStreamCredit port data s := rfl
theorem exec_cxData (src : CxSrc) (gid : BitVec 24) (attempt : BitVec 3) (chunk : Nat) (hem : BitVec 16) (data : List Byte) (last : Bool) (upset : Option Upset) : exec (.cxData src gid attempt chunk hem data last upset) s = execCxData src gid attempt chunk hem data last upset s := rfl
theorem exec_verdict (src : CxSrc) (gid : BitVec 24) (attempt : BitVec 3) (overflow : Bool) : exec (.verdict src gid attempt overflow) s = execVerdict src gid attempt overflow s := rfl
theorem exec_abort (src : CxSrc) (gid : BitVec 24) : exec (.abort src gid) s = execAbort src gid s := rfl
theorem exec_rcv (port : BitVec 6) (m : RcvMsg) : exec (.rcv port m) s = execRcv port m s := rfl
theorem exec_mgt (port : BitVec 6) (data : List Byte) : exec (.mgt port data) s = execMgt port data s := rfl
theorem exec_announce (port : BitVec 6) (data : List Byte) : exec (.announce port data) s = execAnnounce port data s := rfl
theorem exec_announceSend : exec (.announceSend) s = execAnnounceSend s := rfl
theorem exec_echoReq (port : BitVec 6) (data : List Byte) : exec (.echoReq port data) s = execEchoReq port data s := rfl
theorem exec_echoAck (port : BitVec 6) (data : List Byte) : exec (.echoAck port data) s = execEchoAck port data s := rfl
theorem exec_echoPathClose (port : BitVec 6) (w : BitVec 4) : exec (.echoPathClose port w) s = execEchoPathClose port w s := rfl
theorem exec_echoMeasurement (port : BitVec 6) (own1 : List (Nat × Nat)) (own2 : List (Nat × Nat)) (peer : List (Nat × Nat)) : exec (.echoMeasurement port own1 own2 peer) s = execEchoMeasurement port own1 own2 peer s := rfl
theorem exec_filterPeriod (offset : Int) (freq : Int) (refPpb : Int) : exec (.filterPeriod offset freq refPpb) s = execFilterPeriod offset freq refPpb s := rfl
theorem exec_holdoverExpiry : exec (.holdoverExpiry) s = execHoldoverExpiry s := rfl
theorem exec_ptpFallback : exec (.ptpFallback) s = execPtpFallback s := rfl
theorem exec_ptpMessage (port : BitVec 2) (m : PtpMsg) : exec (.ptpMessage port m) s = execPtpMessage port m s := rfl
theorem exec_time1pps : exec (.time1pps) s = execTime1pps s := rfl
theorem exec_asymExpiry (port : BitVec 6) : exec (.asymExpiry port) s = execAsymExpiry port s := rfl
theorem exec_t0Arm (value : BitVec 64) : exec (.t0Arm value) s = execT0Arm value s := rfl
theorem exec_pllLoss (link : Bool) : exec (.pllLoss link) s = execPllLoss link s := rfl
theorem exec_refLoss : exec (.refLoss) s = execRefLoss s := rfl
theorem exec_recoveredClockLost (g : BitVec 4) : exec (.recoveredClockLost g) s = execRecoveredClockLost g s := rfl
theorem exec_ethPllLoss : exec (.ethPllLoss) s = execEthPllLoss s := rfl
theorem exec_fifoResync (x : BitVec 8) : exec (.fifoResync x) s = execFifoResync x s := rfl
theorem exec_xingErr (x : BitVec 8) : exec (.xingErr x) s = execXingErr x s := rfl
theorem exec_observation (entry : BitVec 12) (x : W32) : exec (.observation entry x) s = execObservation entry x s := rfl
theorem exec_nmCommit : exec (.nmCommit) s = execNmCommit s := rfl
theorem exec_nmLoad : exec (.nmLoad) s = execNmLoad s := rfl
theorem exec_coldAll : exec (.coldAll) s = execColdAll s := rfl
theorem exec_stepBoundary : exec (.stepBoundary) s = execStepBoundary s := rfl
theorem exec_bbGo : exec (.bbGo) s = execBbGo s := rfl
theorem exec_bbKat : exec (.bbKat) s = execBbKat s := rfl
theorem exec_katFailed : exec (.katFailed) s = execKatFailed s := rfl
theorem exec_stow (q : QRef) : exec (.stow q) s = execStow q s := rfl
theorem exec_stowSave : exec (.stowSave) s = execStowSave s := rfl
theorem exec_resume (q : QRef) (t0 : BitVec 64) : exec (.resume q t0) s = execResume q t0 s := rfl
theorem exec_itDue (ptile : Nat) : exec (.itDue ptile) s = execItDue ptile s := rfl
theorem exec_itSlice (ptile : Nat) (len : Nat) (window : Nat) (e : SliceEnd) : exec (.itSlice ptile len window e) s = execItSlice ptile len window e s := rfl
theorem exec_itOverdue (ptile : Nat) : exec (.itOverdue ptile) s = execItOverdue ptile s := rfl
theorem exec_jobHold (from_ : Option (BitVec 6)) : exec (.jobHold from_) s = execJobHold from_ s := rfl
theorem exec_drainComplete : exec (.drainComplete) s = execDrainComplete s := rfl
theorem exec_recoveryRestart (t0 : BitVec 64) : exec (.recoveryRestart t0) s = execRecoveryRestart t0 s := rfl
theorem exec_tileRemap (t : Tile) (o3 : B3Obs) (o4 : B4Obs) : exec (.tileRemap t o3 o4) s = execTileRemap t o3 o4 s := rfl
theorem exec_moduleReplacement (spare : BitVec 3) (twin : Bool) : exec (.moduleReplacement spare twin) s = execModuleReplacement spare twin s := rfl
theorem exec_plannedDetach : exec (.plannedDetach) s = execPlannedDetach s := rfl
theorem exec_twCommit (rsp : BitVec 8) : exec (.twCommit rsp) s = execTwCommit rsp s := rfl
theorem exec_twSeed (rsp : BitVec 8) : exec (.twSeed rsp) s = execTwSeed rsp s := rfl
theorem exec_failSafe (trig : FsTrigger) : exec (.failSafe trig) s = execFailSafe trig s := rfl
theorem exec_lullMode (memOk : Bool) : exec (.lullMode memOk) s = execLullMode memOk s := rfl
theorem exec_recordAcceptance : exec (.recordAcceptance) s = execRecordAcceptance s := rfl
theorem exec_mirror (flashOk : Bool) : exec (.mirror flashOk) s = execMirror flashOk s := rfl
theorem exec_timeStoreWrite : exec (.timeStoreWrite) s = execTimeStoreWrite s := rfl
theorem exec_evClear : exec (.evClear) s = execEvClear s := rfl
theorem exec_optReinit : exec (.optReinit) s = execOptReinit s := rfl
theorem exec_calSec (v : W32) : exec (.calSec v) s = execCalSec v s := rfl
theorem exec_evRecW0Read : exec (.evRecW0Read) s = execEvRecW0Read s := rfl
theorem exec_b0 (ms : Nat) (o : B0Obs) : exec (.b0 ms o) s = execB0 ms o s := rfl
theorem exec_b1 (ms : Nat) : exec (.b1 ms) s = execB1 ms s := rfl
theorem exec_b2 (ms : Nat) (key : List Byte) : exec (.b2 ms key) s = execB2 ms key s := rfl
theorem exec_b3 (ms : Nat) (o : B3Obs) : exec (.b3 ms o) s = execB3 ms o s := rfl
theorem exec_b4 (ms : Nat) (o : B4Obs) : exec (.b4 ms o) s = execB4 ms o s := rfl
theorem exec_b5 (ms : Nat) : exec (.b5 ms) s = execB5 ms s := rfl
theorem exec_b6 (ms : Nat) : exec (.b6 ms) s = execB6 ms s := rfl
theorem exec_b7 (ms : Nat) (key : List Byte) : exec (.b7 ms key) s = execB7 ms key s := rfl
theorem exec_b8 (ms : Nat) : exec (.b8 ms) s = execB8 ms s := rfl
theorem exec_mgGo : exec (.mgGo) s = execMgGo s := rfl
theorem exec_runAll : exec (.runAll) s = execRunAll s := rfl
theorem exec_recoveryReq : exec (.recoveryReq) s = execRecoveryReq s := rfl
theorem exec_segment (m : SegSrc) : exec (.segment m) s = execSegment m s := rfl
theorem exec_endRound (m : EndSrc) : exec (.endRound m) s = execEndRound m s := rfl
theorem exec_status (t : Tile) (st : XferStatus) : exec (.status t st) s = execStatus t st s := rfl
theorem exec_statusWindow : exec (.statusWindow) s = execStatusWindow s := rfl
theorem exec_activate (port : BitVec 2) (datagram : List Byte) : exec (.activate port datagram) s = execActivate port datagram s := rfl
theorem exec_manifest (q : QRef) (key : List Byte) : exec (.manifest q key) s = execManifest q key s := rfl
theorem exec_ethFrame (port : BitVec 2) (f : EthFrame) : exec (.ethFrame port f) s = execEthFrame port f s := rfl
theorem exec_linkDown (port : BitVec 2) (rxFault : Bool) : exec (.linkDown port rxFault) s = execLinkDown port rxFault s := rfl
theorem exec_cmReq (port : BitVec 2) (qpn : Nat) (service : BitVec 64) : exec (.cmReq port qpn service) s = execCmReq port qpn service s := rfl
theorem exec_cmRtu (port : BitVec 2) (qpn : Nat) : exec (.cmRtu port qpn) s = execCmRtu port qpn s := rfl
theorem exec_cmDreq (port : BitVec 2) (qpn : Nat) : exec (.cmDreq port qpn) s = execCmDreq port qpn s := rfl
theorem exec_rdmaWrite (port : BitVec 2) (qpn : Nat) (key : W32) (va : BitVec 64) (data : List Byte) (imm : Option W32) : exec (.rdmaWrite port qpn key va data imm) s = execRdmaWrite port qpn key va data imm s := rfl
theorem exec_rdmaRead (port : BitVec 2) (qpn : Nat) (key : W32) (va : BitVec 64) (len : Nat) : exec (.rdmaRead port qpn key va len) s = execRdmaRead port qpn key va len s := rfl
theorem exec_cnp (port : BitVec 2) (qpn : Nat) : exec (.cnp port qpn) s = execCnp port qpn s := rfl
theorem exec_mqSetup (port : BitVec 2) (data : List Byte) : exec (.mqSetup port data) s = execMqSetup port data s := rfl
theorem exec_doorbell (q : QRef) (value : BitVec 64) : exec (.doorbell q value) s = execDoorbell q value s := rfl
theorem exec_consumed (q : QRef) (value : BitVec 64) : exec (.consumed q value) s = execConsumed q value s := rfl
theorem exec_completion (q : QRef) : exec (.completion q) s = execCompletion q s := rfl
theorem exec_nop (q : QRef) : exec (.nop q) s = execNop q s := rfl
theorem exec_copyIn (q : QRef) (data : List Byte) (syndrome : Nat) : exec (.copyIn q data syndrome) s = execCopyIn q data syndrome s := rfl
theorem exec_copyOut (q : QRef) (syndrome : Nat) : exec (.copyOut q syndrome) s = execCopyOut q syndrome s := rfl
theorem exec_signalCommand (q : QRef) : exec (.signalCommand q) s = execSignalCommand q s := rfl
theorem exec_mailboxCommand (q : QRef) : exec (.mailboxCommand q) s = execMailboxCommand q s := rfl
theorem exec_queueCreate (q : QRef) : exec (.queueCreate q) s = execQueueCreate q s := rfl
theorem exec_queueDestroy (q : QRef) : exec (.queueDestroy q) s = execQueueDestroy q s := rfl
theorem exec_region (q : QRef) : exec (.region q) s = execRegion q s := rfl
theorem exec_regionFree (q : QRef) : exec (.regionFree q) s = execRegionFree q s := rfl
theorem exec_reset (q : QRef) : exec (.reset q) s = execReset q s := rfl
theorem exec_regRead (q : QRef) : exec (.regRead q) s = execRegRead q s := rfl
theorem exec_regWrite (q : QRef) : exec (.regWrite q) s = execRegWrite q s := rfl
theorem exec_logRead (q : QRef) : exec (.logRead q) s = execLogRead q s := rfl
theorem exec_twinRead (q : QRef) : exec (.twinRead q) s = execTwinRead q s := rfl
theorem exec_itPackage (q : QRef) (p : PkgInfo) : exec (.itPackage q p) s = execItPackage q p s := rfl
theorem exec_fwEpoch (q : QRef) : exec (.fwEpoch q) s = execFwEpoch q s := rfl
theorem exec_quote (q : QRef) : exec (.quote q) s = execQuote q s := rfl
theorem exec_identity (q : QRef) : exec (.identity q) s = execIdentity q s := rfl
theorem exec_ownerSet (q : QRef) (r : OwnerRec) : exec (.ownerSet q r) s = execOwnerSet q r s := rfl
theorem exec_lcTransition (q : QRef) (owner : Option LcAuth) (vendor : Option LcAuth) : exec (.lcTransition q owner vendor) s = execLcTransition q owner vendor s := rfl
theorem exec_debugToken (q : QRef) (tk : Token) : exec (.debugToken q tk) s = execDebugToken q tk s := rfl
theorem exec_lcToken (tk : Token) : exec (.lcToken tk) s = execLcToken tk s := rfl
theorem exec_newChallenge : exec (.newChallenge) s = execNewChallenge s := rfl
theorem exec_entropyHealth (adaptive : Bool) : exec (.entropyHealth adaptive) s = execEntropyHealth adaptive s := rfl
theorem exec_registerWrite (page : Nat) (off : BitVec 12) (v : W32) : exec (.registerWrite page off v) s = execRegisterWrite page off v s := rfl
theorem exec_pgFaultForce (page : Nat) (v : W32) : exec (.pgFaultForce page v) s = execPgFaultForce page v s := rfl
theorem exec_clrCnt (page : Nat) : exec (.clrCnt page) s = execClrCnt page s := rfl
theorem exec_readLatch (page : Nat) (off : BitVec 12) : exec (.readLatch page off) s = execReadLatch page off s := rfl
theorem exec_readToClear (page : Nat) (off : BitVec 12) : exec (.readToClear page off) s = execReadToClear page off s := rfl
theorem exec_railWarn (r : BitVec 3) (mv : Nat) : exec (.railWarn r mv) s = execRailWarn r mv s := rfl
theorem exec_railFault (r : BitVec 3) (mv : Nat) : exec (.railFault r mv) s = execRailFault r mv s := rfl
theorem exec_capThrottle (watts : Nat) : exec (.capThrottle watts) s = execCapThrottle watts s := rfl
theorem exec_capRelease (watts : Nat) : exec (.capRelease watts) s = execCapRelease watts s := rfl
theorem exec_tempHigh (sensor : BitVec 4) (temp : Int) : exec (.tempHigh sensor temp) s = execTempHigh sensor temp s := rfl
theorem exec_thermAlertRelease (temps : List Int) : exec (.thermAlertRelease temps) s = execThermAlertRelease temps s := rfl
theorem exec_tempShutdown (sensor : BitVec 4) (temp : Int) : exec (.tempShutdown sensor temp) s = execTempShutdown sensor temp s := rfl
theorem exec_dutyUpdate (temps : List Int) : exec (.dutyUpdate temps) s = execDutyUpdate temps s := rfl
theorem exec_throttle : exec (.throttle) s = execThrottle s := rfl
theorem exec_inletWarn (temp : Int) : exec (.inletWarn temp) s = execInletWarn temp s := rfl
theorem exec_laserFail (g : BitVec 4) (w : BitVec 4) : exec (.laserFail g w) s = execLaserFail g w s := rfl
theorem exec_laserLow (g : BitVec 4) (w : BitVec 4) : exec (.laserLow g w) s = execLaserLow g w s := rfl
theorem exec_rxLos (port : BitVec 6) (w : BitVec 4) : exec (.rxLos port w) s = execRxLos port w s := rfl
theorem exec_engineTempHigh (g : BitVec 4) (temp : Nat) : exec (.engineTempHigh g temp) s = execEngineTempHigh g temp s := rfl
theorem exec_stbyValid : exec (.stbyValid) s = execStbyValid s := rfl
theorem exec_mainApplied (mv : Nat) : exec (.mainApplied mv) s = execMainApplied mv s := rfl
theorem exec_pwrOk (mvs : List Nat) : exec (.pwrOk mvs) s = execPwrOk mvs s := rfl
theorem exec_resetN (high : Bool) : exec (.resetN high) s = execResetN high s := rfl
theorem exec_mainFault (mv : Nat) : exec (.mainFault mv) s = execMainFault mv s := rfl
theorem exec_stbyLoss : exec (.stbyLoss) s = execStbyLoss s := rfl
theorem exec_twinPresent (high : Bool) : exec (.twinPresent high) s = execTwinPresent high s := rfl
theorem exec_smbStatus : exec (.smbStatus) s = execSmbStatus s := rfl
theorem exec_smbPower : exec (.smbPower) s = execSmbPower s := rfl
theorem exec_smbTemperature : exec (.smbTemperature) s = execSmbTemperature s := rfl
theorem exec_smbHeadSeq : exec (.smbHeadSeq) s = execSmbHeadSeq s := rfl
theorem exec_smbLogSlot : exec (.smbLogSlot) s = execSmbLogSlot s := rfl
theorem exec_smbDieId : exec (.smbDieId) s = execSmbDieId s := rfl
theorem exec_smbSlotSelect (slot : BitVec 16) : exec (.smbSlotSelect slot) s = execSmbSlotSelect slot s := rfl
theorem exec_frameSend (port : BitVec 6) (phase : BitVec 16) : exec (.frameSend port phase) s = execFrameSend port phase s := rfl
theorem exec_signalResponse (t : Tile) (word : BitVec 64) (rsp : BitVec 8) : exec (.signalResponse t word rsp) s = execSignalResponse t word rsp s := rfl
theorem exec_mailboxResponse (t : Tile) (word : BitVec 64) (status : BitVec 3) : exec (.mailboxResponse t word status) s = execMailboxResponse t word status s := rfl
theorem exec_cxCtrl (src : CxSrc) (gid : BitVec 24) (kind : DecKind) (hem : BitVec 16) (attempt : BitVec 3) : exec (.cxCtrl src gid kind hem attempt) s = execCxCtrl src gid kind hem attempt s := rfl
theorem exec_stepCommitted : exec (.stepCommitted) s = execStepCommitted s := rfl
theorem exec_linkUp (port : BitVec 2) : exec (.linkUp port) s = execLinkUp port s := rfl
theorem exec_ethPllRelock : exec (.ethPllRelock) s = execEthPllRelock s := rfl
theorem exec_refclk100Return : exec (.refclk100Return) s = execRefclk100Return s := rfl
theorem exec_transportRetry (port : BitVec 2) (qpn : Nat) (rnr : Bool) : exec (.transportRetry port qpn rnr) s = execTransportRetry port qpn rnr s := rfl
theorem exec_lcChallenge : exec (.lcChallenge) s = execLcChallenge s := rfl

end Sys2Proof.Machine
end

