-- ==== Sys2Proof/WellFormed.lean ====
section
/-! DEFINITION. Which commands are well formed: a tile operand below the larger grade's count, units and pages that some
grade has, and data of the length the manual gives the packet or access. -/

namespace Sys2Proof

/-- A logical tile that some grade has (R4). -/
def Tile.ok (t : Tile) : Bool := decide (t.toNat < 1088)

/-- The well-formed commands. -/
def Instr.wf : Instr → Bool
  | .cAdd t _ => t.ok
  | .cSub t _ => t.ok
  | .cAnd t _ => t.ok
  | .cOr t _ => t.ok
  | .cXor t _ => t.ok
  | .cShl t _ => t.ok
  | .cShr t _ => t.ok
  | .cSar t _ => t.ok
  | .cMul t _ => t.ok
  | .cMulhu t _ => t.ok
  | .cMulh t _ => t.ok
  | .cDivu t _ => t.ok
  | .cRemu t _ => t.ok
  | .cMin t _ => t.ok
  | .cMax t _ => t.ok
  | .cMinu t _ => t.ok
  | .cMaxu t _ => t.ok
  | .cSel t _ => t.ok
  | .cSextb t _ => t.ok
  | .cSexth t _ => t.ok
  | .cSextw t _ => t.ok
  | .cClz t _ => t.ok
  | .cPopc t _ => t.ok
  | .cAddi t _ => t.ok
  | .cAndi t _ => t.ok
  | .cOri t _ => t.ok
  | .cXori t _ => t.ok
  | .cShi t _ => t.ok
  | .cMovz t _ => t.ok
  | .cMovk t _ => t.ok
  | .cGetu t _ => t.ok
  | .cCmp t _ => t.ok
  | .cCmpi t _ => t.ok
  | .predicateAnd t _ => t.ok
  | .predicateOr t _ => t.ok
  | .predicateXor t _ => t.ok
  | .predicateAndn t _ => t.ok
  | .predicateNot t _ => t.ok
  | .cLdb t _ _ => t.ok
  | .cLdh t _ _ => t.ok
  | .cLdw t _ _ => t.ok
  | .cLdd t _ _ => t.ok
  | .cStb t _ _ => t.ok
  | .cSth t _ _ => t.ok
  | .cStw t _ _ => t.ok
  | .cStd t _ _ => t.ok
  | .cLld t _ => t.ok
  | .cLst t _ => t.ok
  | .cLldw t _ => t.ok
  | .cLstw t _ => t.ok
  | .cLfence t _ => t.ok
  | .cBr t _ => t.ok
  | .cJal t _ => t.ok
  | .cJr t _ => t.ok
  | .cTret t _ => t.ok
  | .cTrap t _ => t.ok
  | .cHalt t _ => t.ok
  | .cSleep t _ => t.ok
  | .pgRd t _ => t.ok
  | .pgWr t _ => t.ok
  | .cRdv t _ => t.ok
  | .dmGo t _ _ => t.ok
  | .dmFence t _ => t.ok
  | .sySig t _ => t.ok
  | .sySigi t _ => t.ok
  | .syWait t _ => t.ok
  | .syWaitTimeout t => t.ok
  | .syTackArrive t _ => t.ok
  | .syTackWait t _ => t.ok
  | .syTackArriveWait t _ => t.ok
  | .syRealign t _ _ => t.ok
  | .realignTimeout t => t.ok
  | .realignOverdue t => t.ok
  | .mbSend t _ _ => t.ok
  | .mbRecv t _ => t.ok
  | .mxOpen t _ => t.ok
  | .mxMma t _ _ => t.ok
  | .mxClose t _ _ => t.ok
  | .mxSt t _ _ => t.ok
  | .mxLa t _ _ => t.ok
  | .mxLt t _ _ => t.ok
  | .mxStt t _ _ => t.ok
  | .mxTag t _ => t.ok
  | .mxDrop t _ => t.ok
  | .decision t _ _ _ _ => t.ok
  | .basteCheck t _ => t.ok
  | .vxAdd t _ _ => t.ok
  | .vxSub t _ _ => t.ok
  | .vxMul t _ _ => t.ok
  | .vxDiv t _ _ => t.ok
  | .vxFma t _ _ => t.ok
  | .vxMin t _ => t.ok
  | .vxMax t _ => t.ok
  | .vxSqrt t _ _ => t.ok
  | .vxRcp t _ _ => t.ok
  | .vxRsqrt t _ _ => t.ok
  | .vxExp2 t _ _ => t.ok
  | .vxLog2 t _ _ => t.ok
  | .vxAbs t _ => t.ok
  | .vxNeg t _ => t.ok
  | .vxIadd t _ _ => t.ok
  | .vxIsub t _ _ => t.ok
  | .vxImul t _ _ => t.ok
  | .vxAnd t _ => t.ok
  | .vxOr t _ => t.ok
  | .vxXor t _ => t.ok
  | .vxShl t _ => t.ok
  | .vxShr t _ => t.ok
  | .vxCmp t _ => t.ok
  | .vxSel t _ => t.ok
  | .vxCvt t _ => t.ok
  | .vxCut t _ _ => t.ok
  | .vxUncut t _ _ => t.ok
  | .vxLd t _ _ => t.ok
  | .vxSt t _ => t.ok
  | .vxLdt t _ => t.ok
  | .vxLdc t _ => t.ok
  | .vxWrt t _ => t.ok
  | .vxWrc t _ => t.ok
  | .vxBcast t _ => t.ok
  | .vxBob t _ => t.ok
  | .vxVred t _ _ => t.ok
  | .vxTred t _ _ => t.ok
  | .vxTamax t _ => t.ok
  | .vxRdiff t _ _ => t.ok
  | .vxGacc t _ _ => t.ok
  | .vxGtacc t _ _ => t.ok
  | .vxGdot t _ _ => t.ok
  | .vxGrd t _ _ => t.ok
  | .vxGcvt t _ _ => t.ok
  | .vxGcomb t _ _ _ => t.ok
  | .vxGdec t _ _ => t.ok
  | .vxEvt t _ => t.ok
  | .vxPick t _ => t.ok
  | .vxUset t _ => t.ok
  | .vxSrctx t _ => t.ok
  | .vxTrk t _ => t.ok
  | .trapEntry t _ => t.ok
  | .programStart t => t.ok
  | .globalStall t _ => t.ok
  | .stallResume => true
  | .dmaTransferStart t _ => t.ok
  | .dmaTransferComplete t _ _ _ => t.ok
  | .tileWake t => t.ok
  | .wake t => t.ok
  | .fence t => t.ok
  | .stitchBoundary => true
  | .passBoundary => true
  | .programStitchStart => true
  | .restStitch => true
  | .hold _ _ _ => true
  | .load _ _ => true
  | .signal _ _ => true
  | .lostNotice _ _ => true
  | .tackLineComplete _ => true
  | .tack _ _ _ => true
  | .mailbox _ _ _ data _ => data.length == 64
  | .doldrums => true
  | .scrub ptile off _ _ => decide (ptile < 1152) && decide (off < 0x500000)
  | .refresh _ _ _ _ => true
  | .lseRead _ _ size _ _ => (size == 4) || (size == 8) || (size == 64)
  | .lseWrite _ _ data _ _ => (data.length == 4) || (data.length == 8) || (data.length == 64)
  | .lseResp t _ _ _ => t.ok
  | .frame _ _ => true
  | .tryTimeout _ => true
  | .failoverComplete _ => true
  | .wavelengthFail _ _ => true
  | .rotationStep _ => true
  | .portEnable _ => true
  | .portDisable _ => true
  | .trainingComplete _ _ => true
  | .calibration _ _ => true
  | .calWl _ _ _ => true
  | .stream _ _ data _ => decide (data.length ≤ 4096)
  | .streamCredit _ _ => true
  | .cxData _ _ _ _ _ _ _ _ => true
  | .verdict _ _ _ _ => true
  | .abort _ _ => true
  | .rcv _ _ => true
  | .mgt _ _ => true
  | .announce _ _ => true
  | .announceSend => true
  | .echoReq _ _ => true
  | .echoAck _ _ => true
  | .echoPathClose _ _ => true
  | .echoMeasurement _ _ _ _ => true
  | .filterPeriod _ _ _ => true
  | .holdoverExpiry => true
  | .ptpFallback => true
  | .ptpMessage _ _ => true
  | .time1pps => true
  | .asymExpiry _ => true
  | .t0Arm _ => true
  | .pllLoss _ => true
  | .refLoss => true
  | .recoveredClockLost _ => true
  | .ethPllLoss => true
  | .fifoResync x => decide (x.toNat < 16)
  | .xingErr x => decide (x.toNat < 16)
  | .observation _ _ => true
  | .nmCommit => true
  | .nmLoad => true
  | .coldAll => true
  | .stepBoundary => true
  | .bbGo => true
  | .bbKat => true
  | .katFailed => true
  | .stow _ => true
  | .stowSave => true
  | .resume _ _ => true
  | .itDue ptile => decide (ptile < 1152)
  | .itSlice ptile _ _ _ => decide (ptile < 1152)
  | .itOverdue ptile => decide (ptile < 1152)
  | .jobHold _ => true
  | .drainComplete => true
  | .recoveryRestart _ => true
  | .tileRemap t _ _ => t.ok
  | .moduleReplacement _ _ => true
  | .plannedDetach => true
  | .twCommit _ => true
  | .twSeed _ => true
  | .failSafe _ => true
  | .lullMode _ => true
  | .recordAcceptance => true
  | .mirror _ => true
  | .timeStoreWrite => true
  | .evClear => true
  | .optReinit => true
  | .calSec _ => true
  | .evRecW0Read => true
  | .b0 _ _ => true
  | .b1 _ => true
  | .b2 _ _ => true
  | .b3 _ _ => true
  | .b4 _ _ => true
  | .b5 _ => true
  | .b6 _ => true
  | .b7 _ _ => true
  | .b8 _ => true
  | .mgGo => true
  | .runAll => true
  | .recoveryReq => true
  | .segment (.net _ _) => true
  | .segment (.noc t _) => t.ok
  | .endRound (.net _ _ _) => true
  | .endRound (.noc t) => t.ok
  | .status t _ => t.ok
  | .statusWindow => true
  | .activate _ _ => true
  | .manifest _ _ => true
  | .ethFrame _ _ => true
  | .linkDown _ _ => true
  | .cmReq _ _ _ => true
  | .cmRtu _ _ => true
  | .cmDreq _ _ => true
  | .rdmaWrite _ _ _ _ _ _ => true
  | .rdmaRead _ _ _ _ _ => true
  | .cnp _ _ => true
  | .mqSetup _ data => data.length == 64
  | .doorbell _ _ => true
  | .consumed _ _ => true
  | .completion _ => true
  | .nop _ => true
  | .copyIn _ _ _ => true
  | .copyOut _ _ => true
  | .signalCommand _ => true
  | .mailboxCommand _ => true
  | .queueCreate _ => true
  | .queueDestroy _ => true
  | .region _ => true
  | .regionFree _ => true
  | .reset _ => true
  | .regRead _ => true
  | .regWrite _ => true
  | .logRead _ => true
  | .twinRead _ => true
  | .itPackage _ _ => true
  | .fwEpoch _ => true
  | .quote _ => true
  | .identity _ => true
  | .ownerSet _ _ => true
  | .lcTransition _ _ _ => true
  | .debugToken _ _ => true
  | .lcToken _ => true
  | .newChallenge => true
  | .entropyHealth _ => true
  | .registerWrite page off _ => decide (page < 0x2100) && (off.toNat % 4 == 0)
  | .pgFaultForce page _ => decide (page < 0x2100)
  | .clrCnt page => decide (page < 0x2100)
  | .readLatch page off => decide (page < 0x2100) && (off.toNat % 4 == 0)
  | .readToClear page off => decide (page < 0x2100) && (off.toNat % 4 == 0)
  | .railWarn _ _ => true
  | .railFault _ _ => true
  | .capThrottle _ => true
  | .capRelease _ => true
  | .tempHigh _ _ => true
  | .thermAlertRelease temps => temps.length == 16
  | .tempShutdown _ _ => true
  | .dutyUpdate temps => temps.length == 16
  | .throttle => true
  | .inletWarn _ => true
  | .laserFail _ _ => true
  | .laserLow _ _ => true
  | .rxLos _ _ => true
  | .engineTempHigh _ _ => true
  | .stbyValid => true
  | .mainApplied _ => true
  | .pwrOk mvs => mvs.length == 8
  | .resetN _ => true
  | .mainFault _ => true
  | .stbyLoss => true
  | .twinPresent _ => true
  | .smbStatus => true
  | .smbPower => true
  | .smbTemperature => true
  | .smbHeadSeq => true
  | .smbLogSlot => true
  | .smbDieId => true
  | .smbSlotSelect _ => true
  | .frameSend _ _ => true
  | .signalResponse t _ _ => t.ok
  | .mailboxResponse t _ _ => t.ok
  | .cxCtrl _ _ _ _ _ => true
  | .stepCommitted => true
  | .linkUp _ => true
  | .ethPllRelock => true
  | .refclk100Return => true
  | .transportRetry _ _ _ => true
  | .lcChallenge => true

end Sys2Proof
end

