-- ==== Sys2Proof/Tests/Slice0.lean ====
section
/-! SUPPORT. The author's tests: ill-formed commands that WellFormed refuses, the manual's worked examples, and for every
statement of Certificates/Slice0/Obligations.lean that has hypotheses states and operands that meet them. -/

namespace Sys2Proof.Tests

open Machine Claims

set_option Elab.async false

/-! ### Ill-formed commands -/

theorem test_wf_tile : (Instr.cHalt 1088 ⟨0, 0, 0, 0, 0⟩).wf = false ∧ (Instr.cHalt 1087 ⟨0, 0, 0, 0, 0⟩).wf = true := by decide
theorem test_wf_mailbox : (Instr.mailbox none 0 0 [] false).wf = false := by decide
theorem test_wf_scrub : (Instr.scrub 1152 0 .ok 0).wf = false ∧ (Instr.scrub 0 0x500000 .ok 0).wf = false := by decide
theorem test_wf_lseRead : (Instr.lseRead .mgmt 0 16 0 .ok).wf = false := by decide
theorem test_wf_lseWrite : (Instr.lseWrite .mgmt 0 [1, 2] 0 .ok).wf = false := by decide
theorem test_wf_crossing : (Instr.fifoResync 16).wf = false ∧ (Instr.xingErr 16).wf = false ∧ (Instr.xingErr 15).wf = true := by
  decide
theorem test_wf_inField :
    (Instr.itDue 1152).wf = false ∧ (Instr.itSlice 1152 0 0 .interrupted).wf = false ∧ (Instr.itOverdue 1152).wf = false := by
  decide
theorem test_wf_mqSetup : (Instr.mqSetup 0 []).wf = false := by decide
theorem test_wf_registerWrite : (Instr.registerWrite 0x2100 0 0).wf = false ∧ (Instr.registerWrite 0 2 0).wf = false := by decide
theorem test_wf_registerRead : (Instr.readLatch 0 1 ).wf = false ∧ (Instr.readToClear 0x2100 0).wf = false := by decide
theorem test_wf_pages : (Instr.pgFaultForce 0x2100 0).wf = false ∧ (Instr.clrCnt 0x2100).wf = false := by decide
theorem test_wf_temperatures : (Instr.thermAlertRelease []).wf = false ∧ (Instr.dutyUpdate [0]).wf = false := by decide
theorem test_wf_rails : (Instr.pwrOk [0, 0]).wf = false := by decide

/-! ### Worked examples of the manual -/

/-- The example beside R118: mx.mma a1, t2, t5 with tB transposed. -/
theorem test_mma_word : MmaOp.enc ⟨1, 2, 5, 0, 1, 2, 3, 7, 0⟩ = 0xC05554DC := by decide

/-- The example beside R140: vx.cut t3, g9. -/
theorem test_cut_word : VcutOp.enc ⟨3, 9, 6, 2, 1, 4, 1⟩ = 0xC5C69659 := by decide

/-- The example beside R173: movz, movk, c.getu and c.cmp of the drift threshold. -/
theorem test_scalar_words : UOp.enc ⟨6, 1, 0, 0x3C23⟩ 8 = 0x20C83C23 ∧ UOp.enc ⟨6, 0, 0, 0xD70A⟩ 9 = 0x24C0D70A
    ∧ RfOp.enc ⟨5, 2, 0, 0, 0⟩ 0x2C = 0xB0A20000 ∧ CmpOp.enc ⟨0, 3, 5, 6, 0, 0x0A⟩ = 0x2865300A := by decide

/-- The example beside R70: five terms at hem -66 and two splits. -/
theorem test_grid_terms : gridTerm 0 (-66) (decVal 6 0x40400000) = 0x0000000C_0000000C_00000000_00000000
    ∧ gridTerm 0 (-66) (decVal 6 0xBFA00000) = 0x00000005_FFFFFFFB_00000000_00000000
    ∧ gridTerm 0 (-66) (.fin false 3 (2 ^ 67)) = 0x00000001_00000000_00000000_00000002
    ∧ gridTerm 0 (-66) (.fin true 1 (2 ^ 67)) = 0x00000001_00000000_00000000_00000000
    ∧ gridTerm 0 (-66) (.fin false 5 (2 ^ 68)) = 0x00000001_00000000_00000000_00000001 := by decide

theorem test_grid_combine : gridAdd 0 0x0000000D_0000000C_00000000_00000000 0x00000007_FFFFFFFB_00000000_00000003
    = 0x00000014_00000007_00000000_00000003 := by decide

/-- The example beside R78. -/
theorem test_hem_start : hemStart (amaxExp 0x41600000) (amaxExp 0x3D800000) 8192 2 0 = -79 := by decide

/-- The trace beside R390: the state after round 1 with every input zero. -/
theorem test_bobbin_rounds : bobRounds 2 ⟨0, 0, 0, 0, 0, 0⟩
    = ⟨0x83CB166D, 0xE5812663, 0xC59B60F2, 0x6E529F78, 0xD83CB166, 0xD710E8D0⟩ := by decide

/-- The block of the last J4 example of the formats chapter: SAT 1, and SAT 0. -/
def j4 (sat : Bool) : Block :=
  cvtBlock 0 ((([0x40E00000, 0xC1600000, 0x3E4CCCCD] : List Nat).map (fun c => Src.val (decVal 6 c)))
    ++ List.replicate 29 (.val (.zero false))) (some 0x80) 0 sat (List.replicate 32 0)

theorem test_block_saturates : (j4 true).scale = 0x80 ∧ (j4 true).codes.take 3 = [0x6, 0xF, 0x0] ∧ (j4 true).sat = true := by
  decide

theorem test_block_invalid : j4 false = badBlock true := by decide

/-- The first example of the formats chapter: 50.0 alone decides the scale. -/
theorem test_auto_scale : autoScale 2 [decVal 6 0x42480000, decVal 6 0xBE99999A] false = some 0x7C := by decide

/-- The SR8 example: byte 0x5C rounds up, byte 0xA3 does not. -/
theorem test_sr8 : cvtJElem 2 0x7C (decVal 6 0x42480000) 4 0x5C = some 0x7D
    ∧ cvtJElem 2 0x7C (decVal 6 0x42480000) 4 0xA3 = some 0x7C := by decide

/-! ### A running tile -/

/-- Tile 0 runs and its program stitch has begun; the registers `g` hold the values listed. -/
def run (g : List (Nat × W64)) : State :=
  { State.reset with
    regs := smPut regDflt State.reset.regs (tlPg 0 * 0x1000 + 0x44) 1, nextStitch := 1,
    tiles := [(0, { TileSt.reset with g := g, p := 3 })] }

/-- The same tile in its trap handler. -/
def handler (g : List (Nat × W64)) : State := wr (run g) (tlPg 0) tl_STATUS_HMODE 1

/-- Tile 0 of a state changed. -/
def at0 (s : State) (f : TileSt → TileSt) : State := s.modTile 0 f

/-- Tile 0 with `n` instructions in the queue of an engine. -/
def loaded (g : List (Nat × W64)) (e : Engine) (n : Nat) : State :=
  (List.range n).foldl (fun s i => at0 s (fun ts => ts.enqueue e
    { ins := .op (.mxTag 0 ⟨7, 6, 0, 0⟩), pc := i, ord := i + 1, inHandler := false, vals := [] })) (run g)

/-- Tile 0 with one instruction in the queue of an engine. -/
def queued1 (g : List (Nat × W64)) (e : Engine) (i : Instr) : State :=
  at0 (run g) (fun ts => ts.enqueue e { ins := .op i, pc := 0, ord := 1, inHandler := false, vals := [] })

/-- The next state of a command, or the state itself. -/
def nx (c : Instr) (s : State) : State := match exec c s with | .next s' => s' | _ => s

/-- Major opcode 0x01: gA and gB are read before gD is written (R171). -/
theorem test_add_wraps :
    (nx (.cAdd 0 ⟨1, 1, 2, 0⟩) (run [(1, 0xFFFFFFFFFFFFFFFF), (2, 2)])).g 0 1 = 1 := by decide

/-- Division by zero (R171). -/
theorem test_divu_by_zero : (nx (.cDivu 0 ⟨1, 2, 0, 0⟩) (run [(2, 5)])).g 0 1 = 0xFFFFFFFFFFFFFFFF := by decide

/-- g0 discards what is written (R161). -/
theorem test_g0 : (nx (.cAddi 0 ⟨0, 0, 0, 5⟩) (run [])).g 0 0 = 0 := by decide

/-- A guard of 0 leaves the issue cycle alone (R168). -/
theorem test_guard : (nx (.cAddi 0 ⟨1, 0, 2, 5⟩) (run [])).g 0 1 = 0 ∧ ((nx (.cAddi 0 ⟨1, 0, 2, 5⟩) (run [])).tile 0).pc = 1 := by
  decide

/-- A word stored is loaded least significant byte first (R163, R175). -/
theorem test_store_load : (nx (.cLdb 0 ⟨3, 0, 0, 9⟩ .ok) (nx (.cStw 0 ⟨1, 0, 0, 8⟩ .ok) (run [(1, 0x12345678)]))).g 0 3 = 0x56 := by
  decide

/-- A misaligned load raises DADDR (R163). -/
theorem test_misaligned : ((nx (.cLdw 0 ⟨1, 0, 0, 2⟩ .ok) (run [])).tile 0).causes.map (·.code) = [cDaddr] := by decide

/-- A branch leaves the index when its predicate does not hold (R174). -/
theorem test_branch : ((nx (.cBr 0 ⟨1, 0, 12⟩) (run [])).tile 0).pc = 12 ∧ ((nx (.cBr 0 ⟨1, 1, 12⟩) (run [])).tile 0).pc = 1 := by
  decide

/-! ### Witnesses: the step and the control core -/

theorem witness_EmptyQueueStepIsOneCycle : State.reset.pending = [] ∧ rd State.reset ckPg ck_ROOT_LOCK = 0
    ∧ (∀ t, enginesIdle (({ State.reset with regs := [] } : State).tile t) = true) ∧ State.reset.mgmtBox = []
    ∧ State.reset.mgmtRcv = [] ∧ State.reset.twRun = none :=
  ⟨rfl, by decide, fun _ => rfl, rfl, rfl, rfl⟩

theorem witness_QueueIsFirstInFirstOut :
    ({ run [] with pending := [.cHalt 0 ⟨0, 0, 0, 0, 0⟩, .refLoss] } : State).pending = .cHalt 0 ⟨0, 0, 0, 0, 0⟩ :: [.refLoss]
      ∧ ∃ s', Machine.step { run [] with pending := [.cHalt 0 ⟨0, 0, 0, 0, 0⟩, .refLoss] } = .next s' := ⟨rfl, _, rfl⟩

theorem witness_CommandsStopOnlyOnMissingUnits : State.reset.ntiles ≤ (1088 : Tile).toNat ∧ 1152 ≤ 1152
    ∧ 9 ≤ (9 : BitVec 4).toNat ∧ 16 ≤ (16 : BitVec 8).toNat := by decide

theorem witness_LifeCycleFusesStayInRange : LifeFuses State.reset ∧ ∃ s', Machine.step State.reset = .next s' :=
  ⟨by unfold LifeFuses; decide, _, rfl⟩

/-- Registers 1 to 3 named, and the guard p1. -/
theorem witness_runs : Runs (run [(1, 8), (2, 5)]) 0 [3, 1, 2] 1 := by unfold Runs Ready Here; decide

theorem witness_ScalarInstructions : Ready (run [(1, 8)]) 0 ∧ Here (run [(1, 8)]) 0 [3, 1, 2] ∧ (run [(1, 8)]).p 0 1 = true
    ∧ (7 : BitVec 5).toNat < 8 ∧ summaryQueued ((run [(1, 8)]).tile 0) 7 = false
    ∧ summaryQueued ((queued1 [(1, 8)] .vx (.vxUset 0 ⟨7, 1, 0⟩)).tile 0) 7 = true
    ∧ summaryQueued ((queued1 [(1, 8)] .vx (.vxUset 0 ⟨7, 1, 0⟩)).tile 0) 6 = false
    ∧ Ready (queued1 [(1, 8)] .vx (.vxUset 0 ⟨7, 1, 0⟩)) 0 := by
  unfold Ready Here; decide

/-- The ends of the four ranges of c.shi, and the first illegal amount. -/
theorem witness_ScalarInstructions_shifts : (63 : BitVec 13).toNat < 64 ∧ 64 ≤ (64 : BitVec 13).toNat
    ∧ (127 : BitVec 13).toNat < 128 ∧ 128 ≤ (128 : BitVec 13).toNat ∧ (191 : BitVec 13).toNat < 192
    ∧ 192 ≤ (192 : BitVec 13).toNat ∧ (255 : BitVec 13).toNat < 256 ∧ 256 ≤ (256 : BitVec 13).toNat := by decide

theorem witness_ComparesAndPredicates : Ready (run []) 0 ∧ Here (run []) 0 [1, 2] ∧ (run []).p 0 0 = true
    ∧ (6 : BitVec 8).toNat < 8 ∧ ((8 : BitVec 8).toNat / 8 = 1 ∧ (16 : BitVec 8).toNat / 8 = 2)
    ∧ (11 : BitVec 8).toNat % 8 = 3 ∧ (19 : BitVec 8).toNat % 8 = 3
    ∧ (0x3FF : BitVec 13).toNat / 1024 = 0 ∧ (0x1BFF : BitVec 13).toNat / 1024 = 6 := by
  unfold Ready Here; decide

/-- The last byte, half, word and double of the data store, and the first address beyond each. -/
theorem witness_DataStoreAccesses : Runs (run [(1, 0xFFF8)]) 0 [3, 1] 0
    ∧ ((run [(1, 0xFFF8)]).g 0 1 + (0 : BitVec 13).signExtend 64).toNat + 8 ≤ 0x10000
    ∧ ((run [(1, 0xFFF8)]).g 0 1 + (7 : BitVec 13).signExtend 64).toNat + 1 ≤ 0x10000
    ∧ 0x10000 < ((run [(1, 0xFFF8)]).g 0 1 + (8 : BitVec 13).signExtend 64).toNat + 1
    ∧ ((run [(1, 0xFFF8)]).g 0 1 + (6 : BitVec 13).signExtend 64).toNat % 4 ≠ 0 := by
  unfold Runs Ready Here; decide

/-- A loose load under tag 5 that waits for its response. -/
def waiting : Loose := { tag := 5, kind := .load 4 false, addr := 0x100, size := 8, pc := 3, ord := 3, inHandler := false }

theorem witness_LooseAccessesAndResponses : Runs (run [(1, 4)]) 0 [3, 1] 0
    ∧ ((run [(1, 4)]).tile 0).loose.length < 16
    ∧ ((run [(1, 4)]).g 0 1 + (4 : BitVec 13).signExtend 64).toNat % 8 = 0
    ∧ ((run [(1, 4)]).g 0 1 + (0 : BitVec 13).signExtend 64).toNat % 8 ≠ 0
    ∧ ((run [(1, 4)]).g 0 1 + (1 : BitVec 13).signExtend 64).toNat % 4 ≠ 0
    ∧ (∀ l ∈ ((run [(1, 4)]).tile 0).loose, l.kind ≠ .store ∧ l.kind ≠ .trk) ∧ trkQueued ((run [(1, 4)]).tile 0) = false
    ∧ trkQueued ((queued1 [(1, 4)] .vx (.vxTrk 0 ⟨7, 1, 6, 0⟩)).tile 0) = true
    ∧ Runs (queued1 [(1, 4)] .vx (.vxTrk 0 ⟨7, 1, 6, 0⟩)) 0 [] 0
    ∧ ∃ l ∈ ((at0 (run []) (fun ts => { ts with loose := [{ waiting with kind := .store }] })).tile 0).loose,
        l.kind = .store ∨ l.kind = .trk := by
  refine ⟨by unfold Runs Ready Here; decide, ?_⟩
  refine ⟨by decide, by decide, by decide, by decide, by decide, by decide, by decide, by unfold Runs Ready Here; decide, ?_⟩
  exact ⟨{ waiting with kind := .store }, by decide, by decide⟩

theorem witness_LooseAccessesAndResponses_responses :
    let s := at0 (run []) (fun ts => { ts with loose := [waiting] })
    (0 : Tile).toNat < s.ntiles ∧ (s.tile 0).loose.find? (fun x => x.tag == waiting.tag) = some waiting
      ∧ waiting.kind = .load 4 false ∧ s.net = [] ∧ s.hasProgram 0 = true ∧ s.lseWait = [] := by decide

/-- Branch targets at both ends of the store and one index beyond each. -/
theorem witness_Branches :
    let s := at0 (run [(1, 0x3FFF), (2, 0x4000)]) (fun ts => { ts with pc := 0x3FFE })
    Ready s 0 ∧ s.p 0 1 = true ∧ s.p 0 2 = false ∧ ((s.tile 0).pc.toNat : Int) + (1 : BitVec 22).toInt = 0x3FFF
      ∧ ((s.tile 0).pc.toNat : Int) + (2 : BitVec 22).toInt = 0x4000
      ∧ ((s.tile 0).pc.toNat : Int) + (0x3FC002 : BitVec 22).toInt = 0
      ∧ ((s.tile 0).pc.toNat : Int) + (0x3FC001 : BitVec 22).toInt < 0
      ∧ ((s.tile 0).pc.toNat : Int) + (1 : BitVec 21).toInt = 0x3FFF
      ∧ ((s.tile 0).pc.toNat : Int) + (0x1FC001 : BitVec 21).toInt < 0
      ∧ Here s 0 [1, 2] ∧ (s.g 0 1).toNat ≤ 0x3FFF ∧ 0x3FFF < (s.g 0 2).toNat := by
  unfold Ready Here; decide

/-- A pending precise cause with trap entry enabled. -/
def trapping : State :=
  at0 (wr (run []) (tlPg 0) tl_CTRL_TRAP_EN 1) (fun ts =>
    { ts with causes := [{ code := cSoft, src := 0, kind := .precise, pc := 0x3FFF, info := 7, ord := 1, inHandler := false }] })

theorem witness_TrapsAndReturns : rd trapping (tlPg 0) tl_STATUS_RUNNING = 1 ∧ trapping.hmode 0 = false
    ∧ rd trapping (tlPg 0) tl_CTRL_TRAP_EN = 1 ∧ (trapping.tile 0).loose = [] ∧ enginesDrained (trapping.tile 0) = true
    ∧ cSoft < 256 ∧ (0x3FFF : Nat) < 0x4000
    ∧ (trapping.tile 0).causes
        = [{ code := cSoft, src := 0, kind := .precise, pc := 0x3FFF, info := 7, ord := 1, inHandler := false }] := by decide

theorem witness_TrapsAndReturns_modes : Runs (handler []) 0 [] 0 ∧ (handler []).hmode 0 = true ∧ Runs (run []) 0 [] 0
    ∧ (run []).hmode 0 = false := by unfold Runs Ready Here; decide

/-- pg.wr of VX_SR_STREAM is refused in user mode, as TL_SCRATCH is not (R179). -/
theorem witness_PageAndVariantAccess : Runs (run [(1, 2)]) 0 [3, 1] 0
    ∧ (4 * (0x1C : BitVec 10).toNat + ((run [(1, 2)]).g 0 0).toNat) % 4096 % 4 = 0
    ∧ (4 * (0x1C : BitVec 10).toNat + ((run [(1, 2)]).g 0 1).toNat) % 4096 % 4 ≠ 0
    ∧ enginesDrained ((run [(1, 2)]).tile 0) = true ∧ pgWrOk false 0 0x070 = true ∧ pgWrOk false 0 0x048 = false
    ∧ ((at0 (run []) (fun ts => { ts with rdv := some 9 })).tile 0).rdv = some 9 := by
  unfold Runs Ready Here; decide

theorem witness_GuardsAndReservedFields : Ready (run []) 0 ∧ (run []).p 0 2 = false ∧ (run []).p 0 1 = true
    ∧ Here (run []) 0 [1, 2] ∧ (1 : BitVec 2) ≠ 0 ∧ (7 : BitVec 8).toNat = 7 ∧ 24 ≤ (24 : BitVec 8).toNat
    ∧ (8 ≤ (12 : BitVec 8).toNat ∧ 4 ≤ (12 : BitVec 8).toNat % 8) := by
  unfold Ready Here; decide

/-! ### Witnesses: DMA, synchronisation, memory and the schedule -/

/-- A descriptor of one row of 64 bytes within the data store: from 0x100 to 0x200. -/
def desc : List Byte :=
  leBytes 8 0x100 ++ leBytes 8 0x200 ++ leBytes 4 64 ++ leBytes 4 1 ++ leBytes 8 0 ++ [0x33] ++ List.replicate 31 0

/-- A queued transfer. -/
def ent (active : Bool) (bytes : List Byte) : DmaEnt :=
  { desc := 0x40, pc := 3, ord := 3, bytes := bytes, active := active, sent := 0, tag := 1, rsp := 0, read := false, told := false }

/-- Tile 0 with a DMA queue. -/
def dmaQueued (e : DmaEnt) : State := at0 (run [(1, 0xFFC0), (2, 0x10000), (3, 0x20)]) (fun ts => { ts with dma := [e] })

theorem witness_DmaCopies_instructions : Runs (dmaQueued (ent false desc)) 0 [1] 0
    ∧ ((dmaQueued (ent false desc)).tile 0).dma.length < 8
    ∧ ((dmaQueued (ent false desc)).g 0 1).toNat % 64 = 0 ∧ ((dmaQueued (ent false desc)).g 0 1).toNat < 0x10000
    ∧ 0x10000 ≤ ((dmaQueued (ent false desc)).g 0 2).toNat ∧ ((dmaQueued (ent false desc)).g 0 3).toNat % 64 ≠ 0
    ∧ ((run []).tile 0).dma = [] ∧ ((dmaQueued (ent false desc)).tile 0).dma ≠ []
    ∧ Runs (at0 (run [(1, 0)]) (fun ts => { ts with dma := List.replicate 8 (ent false desc) })) 0 [1] 0
    ∧ 8 ≤ ((at0 (run [(1, 0)]) (fun ts => { ts with dma := List.replicate 8 (ent false desc) })).tile 0).dma.length
    ∧ nextDma ((run []).tile 0) = none ∧ enginesRun { run [] with netReq := [(1, rowEcc)] } 0 = false := by
  unfold Runs Ready Here; decide

theorem witness_DmaCopies_start : (0 : Tile).toNat < (dmaQueued (ent false desc)).ntiles
    ∧ (dmaQueued (ent false desc)).tileOff 0 = false ∧ enginesRun (dmaQueued (ent false desc)) 0 = true
    ∧ nextDma ((dmaQueued (ent false desc)).tile 0) = some (ent false desc)
    ∧ engineClash ((dmaQueued (ent false desc)).tile 0) (ent false desc) = false
    ∧ (((dmaQueued (ent false desc)).tile 0).dma.filter (·.active)).length < 2 ∧ (parseDma desc).fails = false
    ∧ (parseDma desc).dstSp ≠ 4 ∧ (parseDma desc).srcFar (dmaQueued (ent false desc)) = false
    ∧ (parseDma desc).dstFar (dmaQueued (ent false desc)) = false ∧ (parseDma (List.replicate 64 0)).fails = true := by decide

/-- The state in which an active transfer of one line moves. -/
def moving (e : DmaEnt) : State := dmaSet (dmaCredits (dmaQueued e) 0 e) 0 e { e with sent := 1 }

theorem witness_DmaCopies_transfer : ((dmaQueued (ent true desc)).tile 0).dma.find? (·.active) = some (ent true desc)
    ∧ (ent true desc).rsp = 0 ∧ (ent true desc).sent ≠ 1
    ∧ (parseDma desc).dstFar (dmaCredits (dmaQueued (ent true desc)) 0 (ent true desc)) = false
    ∧ (dmaRun (moving (ent true desc)) 0 { ent true desc with sent := 1 } [] .ok).1 = rOK
    ∧ ((dmaRun (moving (ent true desc)) 0 { ent true desc with sent := 1 } [] .ok).2.tile 0).off = false
    ∧ (parseDma desc).srcSp = 3 ∧ (parseDma desc).dstSp = 3 := by decide

/-- A transfer whose lines have gone out, and one to a stream whose packet failed. -/
theorem witness_DmaCopies_remote :
    let e := { ent true desc with sent := 1 }
    let d := leBytes 8 0x100 ++ leBytes 8 0 ++ leBytes 4 64 ++ leBytes 4 1 ++ leBytes 8 0 ++ [0x43] ++ List.replicate 31 0
    ((dmaQueued e).tile 0).dma.find? (·.active) = some e ∧ e.rsp = 0 ∧ e.sent = 1 ∧ (parseDma e.bytes).dstSp ≠ 4
      ∧ ((dmaQueued (ent true d)).tile 0).dma.find? (·.active) = some (ent true d) ∧ (parseDma d).dstSp = 4
      ∧ (3 : BitVec 8) ≠ 0 ∧ ((dmaCredits (dmaQueued (ent true d)) 0 (ent true d)).tile 0).off = false
      ∧ ((dmaPartial (dmaCredits (dmaQueued e) 0 e) 0 e [] .ok).tile 0).off = false := by decide

/-- The source in an address of this module that is no memory: the transfer fails. -/
theorem witness_DmaCopies_failure :
    let d := leBytes 8 0x1FFFFFFFFFC0 ++ leBytes 8 0x200 ++ leBytes 4 64 ++ leBytes 4 1 ++ leBytes 8 0 ++ [0x30] ++ List.replicate 31 0
    (parseDma d).fails = false ∧ ((dmaQueued (ent true d)).tile 0).dma.find? (·.active) = some (ent true d)
      ∧ (dmaRun (moving (ent true d)) 0 { ent true d with sent := 1 } (List.replicate 64 0) .ok).1 ≠ rOK
      ∧ ((dmaRun (moving (ent true d)) 0 { ent true d with sent := 1 } (List.replicate 64 0) .ok).2.tile 0).off = false := by
  decide

/-- A sync word for counter 47 of tile 0 of this module, with COUNT 1, and one for counter 48. -/
theorem witness_SignalsAndWaits_signals : Runs (run [(1, 0x10000002F), (2, 0x100000030)]) 0 [1] 0
    ∧ sigWordOk ((run [(1, 0x10000002F)]).g 0 1).toNat = true ∧ sigWordOk ((run [(2, 0x100000030)]).g 0 2).toNat = false
    ∧ (1 : BitVec 16) ≠ 0 ∧ (47 : BitVec 6).toNat < 48
    ∧ wordModule 0x10000002F = (run []).module ∧ wordDest 0x10000002F = false ∧ wordTile 0x10000002F < (run []).ntiles
    ∧ wordCtr 0x10000002F < 48 ∧ (run []).tileOff (BitVec.ofNat 11 (wordTile 0x10000002F)) = false
    ∧ signalTurn { run [] with net := [.signal (.tile 0 5) 0x10000002F, .signal (.tile 0 5) 0x20000002F] } (.tile 0 5) 0x10000002F = true := by
  unfold Runs Ready Here; decide

def posted : State :=
  at0 (run []) (fun ts => { ts with sigs := [{ word := 0x10000002F, pc := 3, ord := 3, dma := none }] })

theorem witness_SignalsAndWaits_response :
    (posted.tile 0).sigs.find? (fun y => y.word == 0x10000002F) = some { word := 0x10000002F, pc := 3, ord := 3, dma := none }
      ∧ (∀ r, .signalRsp 0 0x10000002F r ∉ posted.net) := ⟨by decide, by intro r h; cases h⟩

theorem witness_SignalsAndWaits_waits : Runs (run [(1, 0xFFFF)]) 0 [1, 1, 0] 0 ∧ (run [(1, 0xFFFF)]).hmode 0 = false
    ∧ (47 : BitVec 8).toNat < 48 ∧ ((run [(1, 0xFFFF)]).g 0 1).toNat < 2 ^ 16 ∧ ((run []).g 0 0).toNat ≤ syCount (run []) 0 47
    ∧ syCount (run [(1, 0xFFFF)]) 0 47 < ((run [(1, 0xFFFF)]).g 0 1).toNat ∧ syLost (run []) 0 47 = false
    ∧ syLost (wri (run []) (syPg 0) sy_OWN_LOST 47 1) 0 47 = true := by
  unfold Runs Ready Here; decide

/-- A wait of one cycle that began in cycle 7, in cycle `n`; the request of the wait, and those of `rs`, stand. -/
def awaiting (n : Nat) (rs : List (Tile × Nat)) : State :=
  { at0 (run []) (fun ts => { ts with wait := some { ctr := 0, n := 1, timeout := 1, gD := 1, since := 7 } }) with
    cycles := n, netReq := (0, rowSync) :: rs }

theorem witness_SignalsAndWaits_timeout :
    ((awaiting 8 []).tile 0).wait = some { ctr := 0, n := 1, timeout := 1, gD := 1, since := 7 } ∧ 7 + 1 ≤ (awaiting 8 []).cycles
      ∧ (awaiting 7 []).cycles < 7 + 1 ∧ chipIssues (unrequest (awaiting 8 []) 0 rowSync) = true ∧ (awaiting 8 []).hmode 0 = false
      ∧ syCount (awaiting 8 []) 0 0 < 1 ∧ syLost (awaiting 8 []) 0 0 = false
      ∧ chipIssues (unrequest (awaiting 8 [(1, rowDma)]) 0 rowSync) = false := by decide

/-- A baseline table of one entry at 0xFFF0: counter 47, BASE, PROD and CONS as given. -/
def baseline (prod : Nat) : State :=
  at0 (run [(1, 0xFFF0)]) (fun ts =>
    { ts with dstore := memWrite ts.dstore 0xFFF0 (leBytes 8 1 ++ leBytes 2 47 ++ leBytes 2 0 ++ leBytes 2 prod ++ leBytes 2 0) })

theorem witness_SignalsAndWaits_realign :
    Runs (baseline 0) 0 [1] 0 ∧ (baseline 0).hmode 0 = false ∧ ((baseline 0).g 0 1).toNat % 8 = 0
      ∧ ((baseline 0).g 0 1).toNat < 0x10000 ∧ raBad ((run []).tile 0) 0 = true
      ∧ 0xFFF0 + 8 + 8 * min 48 (bits (memNat ((baseline 0).tile 0).dstore 0xFFF0 1) 5 0) ≤ 0x10000
      ∧ raBad ((baseline 0).tile 0) 0xFFF0 = false ∧ raReady (baseline 0) 0 (raEntries ((baseline 0).tile 0) 0xFFF0) = true
      ∧ raMismatch (baseline 0) 0 (raEntries ((baseline 0).tile 0) 0xFFF0) = none
      ∧ raReady (baseline 1) 0 (raEntries ((baseline 1).tile 0) 0xFFF0) = false := by
  unfold Runs Ready Here; decide

theorem witness_SignalsAndWaits_overdue :
    2 ^ 21 ≤ rd (wr (run []) (syPg 0) sy_ISSUE (2 ^ 21)) (syPg 0) sy_ISSUE
      ∧ ((at0 (run []) (fun ts => { ts with realign := some (0xFFF0, 9) })).tile 0).realign = some (0xFFF0, 9)
      ∧ chipIssues (unrequest { run [] with netReq := [(0, rowSync)] } 0 rowSync) = true ∧ (run []).hmode 0 = false := by decide

/-- Tile 0 takes part in line 15 of chip scope. -/
def lined : State := wr (run []) (syPg 0) sy_TACK_PART 0x8000

theorem witness_TackLinesAndInstructions : Runs lined 0 [] 0 ∧ lined.hmode 0 = false ∧ lineBroken lined 15 = false
    ∧ tackPart lined 0 15 = true ∧ tackPart lined 0 14 = false ∧ lineBolt lined 15 = false ∧ tackPend lined 0 15 = false
    ∧ tackPend (setPend lined 0 15) 0 15 = true := by
  unfold Runs Ready Here; decide

theorem witness_TackLinesAndInstructions_lines :
    let s := wr (wr (wri (wri State.reset tkPg tk_LINE_SCOPE 15 1) tkPg tk_LINE_MODULES 15 0x80) (syPg 0) sy_TACK_PART 0x8000)
      (syPg 0) sy_TACK_PEND 0x8000
    lineBolt s 15 = true ∧ (7 : BitVec 3).toNat ∈ linePeers s 15 ∧ (6 : BitVec 3).toNat ∉ linePeers s 15 := by
  intro s
  have h : linePeers s 15 = [7] := by decide
  exact ⟨by decide, by rw [h]; decide, by rw [h]; decide⟩

/-- A line whose participant is pending is ready, and one without participants is not; no packet waits. -/
theorem witness_TackLinesAndInstructions_complete : lineReady (setPend lined 0 15) 15 = true ∧ (15 : BitVec 4) ≠ 0
    ∧ (setPend lined 0 15).xfer = none ∧ lineReady State.reset 15 = false ∧ (∀ p h d, .pkt p h d ∉ State.reset.net)
    ∧ rd State.reset (lkPg (boltPort State.reset 7 0)) lk_CFG_FOREIGN = 0
    ∧ portUp State.reset (routePort State.reset 64 (boltPort State.reset 7 0)) = false :=
  ⟨by decide, by decide, by decide, by decide, fun _ _ _ h => (by cases h), by decide, by decide⟩

/-- The TACK of module 7 by its port, which is ACTIVE. -/
theorem witness_TackLinesAndInstructions_heard :
    let s := wr (wri (wri State.reset tkPg tk_LINE_SCOPE 15 1) tkPg tk_LINE_MODULES 15 0x80) (lkPg (boltPort State.reset 7 0))
      lk_STATUS_STATE stActive
    let q := routePort s 64 (boltPort s 7 0)
    portUp s q = true ∧ rd s (lkPg q) lk_CFG_FOREIGN = 0 ∧ s.net = [] ∧ lineBolt s 15 = true ∧ lineBolt s 14 = false := by
  decide

theorem witness_MailboxesAndDoorbells_instructions : Runs (run [(1, 0xFFC0)]) 0 [2, 0, 1] 0
    ∧ wordRsv ((run [(1, 0xFFC0)]).g 0 0).toNat = false ∧ ((run [(1, 0xFFC0)]).g 0 1).toNat % 64 = 0
    ∧ ((run [(1, 0xFFC0)]).g 0 1).toNat < 0x10000 ∧ (7 : BitVec 8).toNat < 8
    ∧ recvMsg ((run []).tile 0) false = none
    ∧ recvMsg ((at0 (run []) (fun ts => { ts with slots := [(0, { stamp := 1, data := [2] })] })).tile 0) false
        = some (0, { stamp := 1, data := [2] }) := by
  unfold Runs Ready Here; decide

/-- Three messages from tiles: the fourth slot is free, for a sender that is no tile only. -/
def boxed (n : Nat) : State :=
  at0 (run []) (fun ts => { ts with slots := (List.range n).map (fun i => (i, { stamp := 1, data := [] })), rung := true,
                                    sends := [(4, 2, false), (3, 3, false)] })

/-- The turn of a message of tile 5, before its second; a stamp that comes by a port takes the port's module. -/
theorem witness_MailboxesAndDoorbells_turn :
    mailTurn { run [] with net := [.mbox 5 0 [1] false, .mbox 5 0 [2] false] } none 5 0 [1] false = true
      ∧ mailTurn { run [] with net := [.mbox 5 0 [1] false, .mbox 5 0 [2] false] } none 5 0 [2] false = false
      ∧ rd (run []) (lkPg (63 : BitVec 6).toNat) lk_CFG_FOREIGN = 0
      ∧ (stampAt (wr (run []) (lkPg 63) lk_PEER_MODULE 1) (some 63) 5).toNat = 5 + 2 ^ 27 := by decide

theorem witness_MailboxesAndDoorbells_messages : wordModule 0 = (boxed 2).module ∧ wordDest 0 = false ∧ wordTile 0 < (boxed 2).ntiles
    ∧ (boxed 2).tileOff 0 = false ∧ freeSlot ((boxed 2).tile 0) = some 2
    ∧ (stampAt (boxed 2) none 1).toNat / 2 ^ 30 = 0 ∧ (((boxed 2).tile 0).slots.filter (fun x => !x.2.nonTile)).length < 3
    ∧ freeSlot ((boxed 3).tile 0) = some 3 ∧ (stampAt (boxed 3) none 0xC0000000).toNat / 2 ^ 30 ≠ 0
    ∧ wordDest 0x80000000 = true ∧ (boxed 2).mgmtBox.length < 56 := by decide

theorem witness_MailboxesAndDoorbells_replies : ((boxed 0).tile 0).sends.find? (fun y => y.1 == 3) = some (3, 3, false) ∧ (∀ r, .mboxRsp 0 3 r ∉ (boxed 0).net)
    ∧ rd (wr (boxed 0) (tlPg 0) tl_STATUS_SLEEP 1) (tlPg 0) tl_STATUS_SLEEP = 1
    ∧ ((wr (boxed 0) (tlPg 0) tl_STATUS_SLEEP 1).tile 0).rung = true := ⟨by decide, by (intro r h; cases h), by decide, by decide⟩

/-- The first and the last 64 bytes of LPDDR5X of the model's address map. -/
theorem witness_MemoryIsServed : modOf (0 : BitVec 48).toNat = State.reset.module ∧ State.reset.failSafe = none
    ∧ locOf (0x7FFFFFFFC0 : BitVec 48).toNat < 0x8000000000 ∧ lpIsBad State.reset (locOf (0x7FFFFFFFC0 : BitVec 48).toNat) 64 = false
    ∧ inKeep State.reset (locOf (0x7FFFFFFFC0 : BitVec 48).toNat) 64 = false ∧ (List.replicate 64 (0 : Byte)).length = 64
    ∧ lseTurn State.reset (.tile 0 0) (0x7FFFFFFFC0 : BitVec 48).toNat (isRead (.tile 0 0) 0x7FFFFFFFC0 64 1) = true
    ∧ lseTurn { State.reset with net := [.lseWrite (.tile 0 0) 0x7FFFFFFFC0 [1, 2, 3, 4] 2] } (.tile 0 0) (0x7FFFFFFFC0 : BitVec 48).toNat
        (isWrite (.tile 0 0) 0x7FFFFFFFC0 [1, 2, 3, 4] 2) = true
    ∧ LpGood State.reset (locOf (0x7FFFFFFFC0 : BitVec 48).toNat) 64 ∧ State.reset.lull = false
    ∧ (State.reset.tile 0).off = false ∧ BitVec.ofNat 3 State.reset.module = 0
    ∧ ({ State.reset with lpWeak := [0x7FFFFFFFC0 / 64, 5] } : State).lpWeak.filter
        (lpTouch (locOf (0x7FFFFFFFC0 : BitVec 48).toNat) 64) = [0x7FFFFFFFC0 / 64] := by
  unfold LpGood; decide

theorem witness_MemoryIsServed_spools : decodeAddr State.reset 0x10000000008 = .spool 0 8 ∧ ([1, 2, 3, 4, 5, 6, 7, 8] : List Byte).length = 8
    ∧ State.reset.tileOff (BitVec.ofNat 11 0) = false := by decide

theorem witness_MemoryIsServed_scrub :
    let s := wr (run []) stPg st_SCRUB_EN 1
    rd s stPg st_SCRUB_EN = 1 ∧ s.ltile 0 = some 0 ∧ spIsBad s 0 (0x4FFFF8 / 64 * 64) 64 = false
      ∧ spIsBad s 0 0x4FFFF8 8 = false ∧ SpGood s 0 (0x4FFFF8 / 64 * 64) 64 := by unfold SpGood; decide

/-- The page of a tile's core. -/
theorem pageBlk_tlPg (n : Nat) (h : n < 1088) : pageBlk (0x1000 + 4 * n) = some .tl := by
  unfold pageBlk
  rw [if_neg (by omega), if_neg (by omega), if_neg (by omega), if_neg (by omega)]
  show some (tileBlk ((0x1000 + 4 * n) % 4)) = some .tl
  rw [show (0x1000 + 4 * n) % 4 = 0 by omega]; rfl

/-- No tile's status word is other than 0 where no register is listed. -/
theorem status_quiet (s : State) (h : s.regs = []) (t : Tile) (ht : t ∈ s.tileList) : regW s (tlPg t) 0x44 = 0 := by
  obtain ⟨n, hn, rfl⟩ := List.mem_map.mp ht
  have hb : n < 1088 := by
    have h1 := List.mem_range.mp hn
    unfold State.ntiles State.ncols at h1
    split at h1 <;> omega
  rw [regW, h]
  show (regDflt (tlPg (BitVec.ofNat 11 n) * 0x1000 + 0x44)).toNat = 0
  rw [tlPg, BitVec.toNat_ofNat, Nat.mod_eq_of_lt (by omega), regDflt,
    show ((0x1000 + 4 * n) * 0x1000 + 0x44) / 0x1000 = 0x1000 + 4 * n by omega,
    show ((0x1000 + 4 * n) * 0x1000 + 0x44) % 0x1000 = 0x44 by omega, pageBlk_tlPg n hb]
  decide

theorem not_running (s : State) (h : s.regs = []) (t : Tile) (ht : t ∈ s.tileList) : rd s (tlPg t) tl_STATUS_RUNNING = 0 := by
  show bits (regW _ _ 0x44) _ _ = 0
  rw [status_quiet s h t ht]; decide

theorem not_sleeping (s : State) (h : s.regs = []) (t : Tile) (ht : t ∈ s.tileList) : rd s (tlPg t) tl_STATUS_SLEEP = 0 := by
  show bits (regW _ _ 0x44) _ _ = 0
  rw [status_quiet s h t ht]; decide

theorem programRuns_quiet (s : State) (h : s.regs = []) : programRuns s = false :=
  List.any_eq_false.mpr (fun t ht => by simp [not_running s h t ht])

/-- Tile 0 is a tile of every module. -/
theorem tile0_mem (s : State) : (0 : Tile) ∈ s.tileList :=
  List.mem_map.mpr ⟨0, List.mem_range.mpr (by unfold State.ntiles State.ncols; split <;> omega), rfl⟩

theorem witness_ProgramsStartAndStall : (0 : Tile).toNat < (run []).ntiles ∧ (run []).tileOff 0 = false
    ∧ rd (run []) (tlPg 0) tl_STATUS_RUNNING = 1 ∧ (10 : BitVec 4).toNat ≤ 10 := by decide

/-- A tile in its handler, a tile that a full DMA queue withholds, and one that nothing withholds, with requests; no tile
waits on another. -/
def stalled (h : Option (Nat × Hold)) : State :=
  { at0 (handler []) (fun ts => { ts with held := h, dma := List.replicate 8 (ent false desc) }) with
    netReq := [(0, rowTrap), (0, rowDma)] }

theorem witness_ProgramsStartAndStall_resume : (stalled none).hmode 0 = true ∧ (0, rowTrap) ∈ (stalled none).netReq
    ∧ ((stalled (some (rowDma, .dmaFull))).tile 0).held = some (rowDma, .dmaFull)
    ∧ holdOver (stalled (some (rowDma, .dmaFull))) 0 .dmaFull = false ∧ ((stalled none).tile 0).held = none
    ∧ (0, rowDma) ∈ (stalled none).netReq ∧ rowDma ≤ rowDma := by decide

theorem witness_ProgramsStartAndStall_quiet : ∀ t, ({ State.reset with netReq := [(0, rowDma)] } : State).tile t = TileSt.reset :=
  fun _ => rfl

theorem witness_ProgramsStartAndStall_doldrums :
    let s := wr { run [] with netReq := [(0, rowSync)], dlCount := 2 ^ 31 } dlPg dl_ENABLE 1
    (∃ t ts, stallTiles s = t :: ts) ∧ rd s dlPg dl_ENABLE = 1 ∧ s.dlFired = false ∧ 2 ^ rd s dlPg dl_WEXP ≤ s.dlCount
      ∧ State.reset.dlCount < 2 ^ rd State.reset dlPg dl_WEXP := by
  refine ⟨List.exists_cons_of_ne_nil (List.ne_nil_of_mem (a := 0) ?_), by decide, by decide, by decide, by decide⟩
  simp only [stallTiles, List.mem_filter]
  exact ⟨tile0_mem _, by decide⟩

theorem witness_FencesAndLoss : (0 : Tile).toNat < (run []).ntiles ∧ rd (run []) (tlPg 0) tl_STATUS_FENCED = 0
    ∧ rd (run []) (syPg 0) sy_TACK_PART = 0 ∧ (run []).cx = []
    ∧ rd (wr (run []) (tlPg 0) tl_STATUS_FENCED 1) (tlPg 0) tl_STATUS_FENCED = 1 := by decide

theorem witness_FencesAndLoss_notice : ∀ x, .lost 3 x ∉ (run []).net := by intro x h; cases h

/-- Hall time at the origin, and a rest stitch agreed for the current hall stitch. -/
def hall : State :=
  { wr64 State.reset tmPg tm_STITCH_LO tm_STITCH_HI 7 with t0 := some 5, rate := 1, begun := true, rests := [(7, 1)], passed := none }

theorem witness_StitchesRunAndHold : hall.t0 = some 5 ∧ hall.hallTime ≤ boundaryOf 5 (nextHall hall) * 2 ^ 32 ∧ 0 < hall.rate
    ∧ restDue hall = true ∧ restCount hall + 1 < 2 ^ 64 ∧ nextHall hall < 2 ^ 64 := by
  decide

/-- No register is listed, and so no tile runs. -/
theorem witness_StitchesRunAndHold_boundary :
    ({ State.reset with t0 := some 5, regs := [] } : State).t0.isSome = true
      ∧ ({ State.reset with passed := some 9, cycles := 9 } : State).passed = some 9
      ∧ 9 ≤ ({ State.reset with passed := some 9, cycles := 9 } : State).cycles
      ∧ nextHall { State.reset with t0 := some 5, regs := [] } < 2 ^ 64 ∧ State.reset.passed = none
      ∧ programRuns { State.reset with t0 := some 5, regs := [] } = false :=
  ⟨rfl, rfl, by decide, by decide, rfl, programRuns_quiet _ rfl⟩

/-- Tile 0 has a program, and the current hall stitch is one that its program may begin. -/
theorem witness_StitchesRunAndHold_due : stitchDue { run [] with begun := true, nextStitch := 0 } = true := by
  have h : programRuns { run [] with begun := true, nextStitch := 0 } = true :=
    List.any_eq_true.mpr ⟨0, tile0_mem _, by decide⟩
  have h2 : stitchesDone { run [] with begun := true, nextStitch := 0 } = true :=
    List.all_eq_true.mpr (fun t _ => by simp)
  simp only [stitchDue, h, h2]
  decide

theorem witness_StitchesRunAndHold_hold : State.reset.net = [] ∧ rd State.reset (lkPg 0) lk_CFG_FOREIGN = 0
    ∧ holdKnown State.reset (holdIndex State.reset 1) < (15 : BitVec 4).toNat ∧ State.reset.begun = false
    ∧ (0 : BitVec 4).toNat ≤ holdKnown State.reset (holdIndex State.reset 1) ∧ holdIndex State.reset 3 ≤ hallStitch State.reset + 3
    ∧ hallStitch State.reset + 3 < holdIndex State.reset 4 := by decide

/-! ### Witnesses: the grid, the matrix engine and the vector engine -/

/-- An engine instruction executes where the core issues, its registers hold values and the tile's engines and DMA rest. -/
theorem executes {s : State} {t : Tile} {e : Engine} {us : List (Nat × Bool)} {rs : List (BitVec 5)}
    (h : Ready s t ∧ Here s t rs ∧ (s.tile t).dma = [] ∧ (s.tile t).mxQ = [] ∧ (s.tile t).vxQ = []
      ∧ enginesIdle (s.tile t) = true) : Executes s t e us rs :=
  ⟨⟨h.1, h.2.1, by rw [dmaClash, h.2.2.1]; rfl, by cases e <;> simp [TileSt.queueOf, h.2.2.2.1, h.2.2.2.2.1]⟩, h.2.2.2.2.2⟩

/-- A matrix instruction with a bad field, a bad format or a bad address: no row, a row image that passes the end by a line, a
64-bit format by columns, a misaligned line, and a tag that differs from the instruction. -/
theorem witness_GuardsAndReservedFields_matrix : let g := [(1, 0), (2, 0x4FFC40), (3, 0x40), (4, 32)]
    Executes (run g) 0 .mx [] [3, 2, 1] ∧ Executes (handler g) 0 .mx [] [2, 3]
      ∧ Executes (run g) 0 .mx [(7, true)] [4, 1] ∧ Executes (run g) 0 .mx [(7, false)] [4, 1]
      ∧ Executes (run g) 0 .mx [(0, false), (1, false)] [] ∧ Executes (setTag (run g) 0 7 6 1) 0 .mx [(7, false)] [4, 1]
      ∧ (run g).hmode 0 = false ∧ (handler g).hmode 0 = true ∧ accRows ((run g).g 0 1) = none ∧ accRows ((run g).g 0 3) = some (0, 1)
      ∧ rawOk ((run g).g 0 2).toNat 1 (accLay (run g) 0 3) = false ∧ rawOk ((handler g).g 0 2).toNat 1 (accLay (handler g) 0 3) = false
      ∧ badDir 7 1 = true ∧ badDir 6 1 = false ∧ 32 < fmtW 7 ∧ isJ 4 = true
      ∧ ltAddrOk (ltAddr ((run g).g 0 4) ((run g).g 0 1)) 64 (kLen 6 * fmtW 6 / 8) (sclBlocks 6) = false
      ∧ ltAddrOk (ltAddr ((run g).g 0 4) ((run g).g 0 1)) (kLen 6) (8 * fmtW 6) (sclBlocks 6) = false
      ∧ tagFmt (run g) 0 7 ≠ 2 ∧ tagFmt (setTag (run g) 0 7 6 1) 0 7 = 6 ∧ tagBdir (setTag (run g) 0 7 6 1) 0 7 = 1 := by
  refine ⟨executes ?_, executes ?_, executes ?_, executes ?_, executes ?_, executes ?_, ?_⟩
  case refine_7 => decide
  all_goals (unfold Ready Here; decide)

/-- A vector instruction with a bad field, a bad format or a bad address: the first rounding mode and compare code that no
instruction takes, formats of the other kind, the first address past the end and a misaligned one. -/
theorem witness_GuardsAndReservedFields_vector : let s := run [(1, 0x4FFE40), (2, 1)]
    Executes s 0 .vx [] [] ∧ Executes s 0 .vx [] [1] ∧ Executes s 0 .vx [] [1, 2] ∧ Executes s 0 .vx [(7, false)] [1]
      ∧ Executes s 0 .vx [(7, false)] [] ∧ Executes s 0 .vx [(7, true)] [1]
      ∧ 3 < (4 : BitVec 3).toNat ∧ (3 : BitVec 3).toNat ≤ 3 ∧ 4 < (5 : BitVec 3).toNat ∧ (5 : BitVec 4) ≠ 6 ∧ (5 : BitVec 4) ≠ 7
      ∧ badF 8 = true ∧ badI 8 = true ∧ badJ 4 = true ∧ isJ 4 = true ∧ badRmCvt 5 = true ∧ badRmCvt 4 = false
      ∧ max (fmtW 6) (fmtW 7) ≤ 2 * min (fmtW 6) (fmtW 7) ∧ 0 < max (fmtW 4) (fmtW 6)
      ∧ 0x500000 < (s.g 0 1).toNat + 512 ∧ (s.g 0 1).toNat % 64 = 0 ∧ (s.g 0 2).toNat % 64 ≠ 0 := by
  refine ⟨executes ?_, executes ?_, executes ?_, executes ?_, executes ?_, executes ?_, ?_⟩
  case refine_7 => decide
  all_goals (unfold Ready Here; decide)

/-- The three ways in which an instruction does not take effect at once: a transfer that writes tile register 2, a full
queue, and an engine that works with room in its queue. -/
theorem witness_Queues :
    let tile2 := leBytes 8 0x100 ++ leBytes 8 0x20000 ++ leBytes 16 0 ++ [0x23] ++ List.replicate 31 0
    let s := at0 (run [(1, 8)]) (fun ts => { ts with dma := [ent true tile2] })
    (Ready s 0 ∧ Here s 0 [1] ∧ dmaClash (s.tile 0) (tregUses (.mxLt 0 ⟨2, 1, 1, 0, 0, 0, 0⟩ .ok)) = true)
      ∧ (Ready (loaded [(1, 8)] .mx 4) 0 ∧ Here (loaded [(1, 8)] .mx 4) 0 [1]
        ∧ dmaClash ((loaded [(1, 8)] .mx 4).tile 0) (tregUses (.mxLt 0 ⟨2, 1, 1, 0, 0, 0, 0⟩ .ok)) = false
        ∧ 4 ≤ (((loaded [(1, 8)] .mx 4).tile 0).queueOf .mx).length)
      ∧ Ready (loaded [(1, 8)] .vx 3) 0 ∧ Here (loaded [(1, 8)] .vx 3) 0 [1]
        ∧ dmaClash ((loaded [(1, 8)] .vx 3).tile 0) (tregUses (.vxBcast 0 ⟨6, 1, 1, 0⟩)) = false
        ∧ (((loaded [(1, 8)] .vx 3).tile 0).queueOf .vx).length < 4 ∧ enginesIdle ((loaded [(1, 8)] .vx 3).tile 0) = false := by
  unfold Ready Here; decide

theorem witness_GridAdditionIsOrderFree : gTally 0 0x0000000D_0000000C_00000000_00000000 ≠ 0xFFFFFFFF
    ∧ gTally 0 0xFFFFFFFF_00000000_00000000_00000000 = 0xFFFFFFFF := by decide

theorem witness_GridRaisesAndDecides_decide : hemInt 0x7FEF + 16 ≤ 0x7FFF ∧ 0x7FFF < hemInt 0x7FF0 + 16 ∧ 3 < 4 ∧ 4 ≤ 4 := by
  decide

/-- Accumulator 0 open, with a partial packet of one word for word 4095 at spool offset 0, and a list of one tile at 64. -/
def combining (count : Nat) : State :=
  { setAccState (run [(1, 64), (2, 0x4FFFE0)]) 0 0 accOpen with
    spool := memWrite [] (spKey 0 0) (leBytes 6 0 ++ leBytes 2 4095 ++ leBytes 2 count ++ List.replicate 54 0 ++ leBytes 2 1) }

set_option maxRecDepth 4000 in
theorem witness_GridRaisesAndDecides_combine : Executes (combining 1) 0 .vx [] [0, 1] ∧ SpClean (combining 1)
    ∧ partialFits (combining 1) 0 0 (partialHdr (memRead (combining 1).spool (spKey ((combining 1).ptile 0) 0) 64)) = true
    ∧ (partialHdr (memRead (combining 1).spool (spKey ((combining 1).ptile 0) 0) 64)).attempt = accAttempt (combining 1) 0 0
    ∧ (partialHdr (memRead (combining 1).spool (spKey ((combining 1).ptile 0) 0) 64)).hem = accHem (combining 1) 0 0
    ∧ 0 + 64 + 1 * gBytes (accLay (combining 1) 0 0) ≤ 0x500000 :=
  ⟨executes (by unfold Ready Here; decide), by unfold SpClean; decide⟩

set_option maxRecDepth 4000 in
/-- After a raise the same packet is stale. -/
theorem witness_GridRaisesAndDecides_stale : let s := setAccAttempt (combining 1) 0 0 1
    partialFits s 0 0 (partialHdr (memRead s.spool (spKey (s.ptile 0) 0) 64)) = true
      ∧ (partialHdr (memRead s.spool (spKey (s.ptile 0) 0) 64)).attempt < accAttempt s 0 0 := by decide

set_option maxRecDepth 4000 in
/-- On another hem the packet makes the group invalid, a packet of attempt 3 is ahead, and one of two words at word 4095 or
for an idle accumulator does not fit. -/
theorem witness_GridRaisesAndDecides_edges : let h := partialHdr (memRead (combining 1).spool (spKey ((combining 1).ptile 0) 0) 64)
    h.hem ≠ accHem (setAccHem (combining 1) 0 0 9) 0 0 ∧ partialFits (combining 2) 0 0 { h with count := 2 } = false
      ∧ accAttempt (combining 1) 0 0 < ({ h with attempt := 3 } : PartialHdr).attempt
      ∧ partialFits (setAccState (combining 1) 0 0 accIdle) 0 0 h = false ∧ 0x500000 < 0x4FFFE0 + 64
      ∧ spoolOk64 0x4FFFE0 130 = false ∧ rdi (combining 1) (vxPg 0) vx_ACC_PCNT 0 ≠ 1 := by decide

set_option maxRecDepth 4000 in
theorem witness_GridRaisesAndDecides_list : let s := wri (combining 1) (vxPg 0) vx_ACC_PCNT 0 1
    spoolOk64 64 130 = true ∧ memNat s.spool (spKey (s.ptile 0) 64) 2 = 1 ∧ rdi s (vxPg 0) vx_ACC_PCNT 0 = 1
      ∧ accState s 0 0 = accOpen ∧ accScope s 0 0 = 0 ∧ (s.g 0 1).toNat = 64 := by decide

/-- Accumulator 3 of tile 0 in a state, with a scope. -/
def acc3 (st scope : Nat) : State := wri (setAccState (run [(1, 0x80)]) 0 3 st) (mxPg 0) mx_ACC_CTL_SCOPE 3 scope

/-- Accumulator 3 holds one word, in layout G128. -/
def word3 (x : W128) : State := at0 (acc3 accOpen 0) (fun ts => ts.writeAcc 3 7 x.toNat)

theorem witness_MatrixOpensAndCloses : Executes (acc3 accDone 0) 0 .mx [] [1, 0]
    ∧ accState (run []) 0 3 = accIdle ∧ accState (acc3 accDone 0) 0 3 = accDone ∧ accState (acc3 accOpen 0) 0 3 = accOpen
    ∧ accState (acc3 accClosing 0) 0 3 = accClosing ∧ (0 : BitVec 2) ≠ 3 ∧ (1 : BitVec 2) ≠ 3 ∧ (2 : BitVec 2) ≠ 3 :=
  ⟨executes (by unfold Ready Here; decide), by decide⟩

theorem witness_MatrixOpensAndCloses_close : Executes (acc3 accOpen 0) 0 .mx [] [1]
    ∧ accScope (acc3 accOpen 0) 0 3 = 0 ∧ accScope (acc3 accOpen 1) 0 3 = 1 ∧ accDecKind (acc3 accOpen 1) 0 3 = 0
    ∧ accOver (acc3 accOpen 0) 0 3 = false ∧ accOver (word3 0x80000000_00000000_00000000_00000000) 0 3 = true
    ∧ accAttempt (acc3 accOpen 0) 0 3 < 4 ∧ hemInt (accHem (acc3 accOpen 0) 0 3) + 16 ≤ 0x7FFF
    ∧ (4 ≤ accAttempt (setAccAttempt (acc3 accOpen 0) 0 3 4) 0 3
        ∧ 0x7FFF < hemInt (accHem (setAccHem (acc3 accOpen 0) 0 3 0x7FF0) 0 3) + 16)
    ∧ (∀ k ∈ [1, 2, 3], accDecKind (wri (acc3 accClosing 1) (mxPg 0) mx_ACC_GRP_DEC_KIND 3 k) 0 3 = k)
    ∧ (accScope (acc3 accClosing 0) 0 3 = 0 ∧ accState (acc3 accClosing 0) 0 3 = accClosing)
    ∧ (⟨4095, 8, false⟩ : Upset).idx < 4096 ∧ (⟨4095, 8, false⟩ : Upset).err % 7 ≠ 0 :=
  ⟨executes (by unfold Ready Here; decide), by decide⟩

theorem witness_MatrixOpensAndCloses_decision :
    let s := at0 (acc3 accClosing 1) (fun ts => { ts with closeWait := some (3, 9) })
    (0 : Tile).toNat < s.ntiles ∧ s.tileOff 0 = false ∧ decAccs s 0 (0 : BitVec 24).toNat = [3]
      ∧ accAttempt s 0 3 = (0 : BitVec 3).toNat ∧ accState s 0 3 = accClosing ∧ (s.tile 0).closeWait = some (3, 9)
      ∧ ∀ kind, .decision 0 0 kind 0 0 ∉ s.net :=
  ⟨by decide, by decide, by decide, by decide, by decide, by decide, fun _ h => by cases h⟩

/-- A decision for the open accumulator, one of another attempt, one that names no accumulator, and an OFF tile. -/
theorem witness_MatrixOpensAndCloses_latch : decAccs (acc3 accOpen 1) 0 (0 : BitVec 24).toNat = [3]
    ∧ sameAttempt (accAttempt (acc3 accOpen 1) 0 3) 1 (0 : BitVec 3).toNat = true
    ∧ sameAttempt (accAttempt (acc3 accOpen 1) 0 3) 1 (1 : BitVec 3).toNat = false
    ∧ decAccs (acc3 accOpen 1) 0 (7 : BitVec 24).toNat = [] ∧ ((acc3 accOpen 1).tile 0).closeWait = none
    ∧ (at0 (run []) (fun ts => { ts with off := true })).tileOff 0 = true := by decide

/-- Accumulator 3 with two registers of the narrowest format. -/
def narrow (st : Nat) : State := setTag (setTag (acc3 st 0) 0 0 0 0) 0 1 0 0

/-- All the blocks of the format, and tags that do not agree with the instruction. -/
theorem witness_MatrixMultipliesAndBastes : Executes (narrow accOpen) 0 .mx [(0, false), (1, false)] []
    ∧ Executes (narrow accDone) 0 .mx [(0, false), (1, false)] []
    ∧ mmaFmtOk (narrow accOpen) 0 ⟨3, 0, 1, 0, 0, 0, 0, 15, 0⟩ = true ∧ mmaFmtOk (narrow accDone) 0 ⟨3, 0, 1, 0, 0, 0, 0, 15, 0⟩ = true
    ∧ mmaFmtOk (narrow accOpen) 0 ⟨3, 0, 1, 0, 0, 1, 0, 0, 0⟩ = false
    ∧ accState (narrow accOpen) 0 3 = accOpen ∧ accState (narrow accDone) 0 3 ≠ accOpen
    ∧ (⟨4095, 8, true⟩ : Upset).idx < 4096 ∧ (⟨4095, 8, true⟩ : Upset).err % 7 ≠ 0 :=
  ⟨executes (by unfold Ready Here; decide), executes (by unfold Ready Here; decide), by decide⟩

/-- A sample of empty registers with a digest. -/
def sample (digest : Nat) : Sample :=
  { origin := 1, seq := 0, pc := 7, a := { fmt := 0, bdir := 0, cells := [], scl := [] },
    b := { fmt := 0, bdir := 0, cells := [], scl := [] }, kb := 1, hem := 0, layout := 0, digest := digest }

/-- A bay that holds a sample: whatever the digest `x` of the words is, a sample may agree with it and 2^64 does not. -/
theorem witness_MatrixMultipliesAndBastes_baste :
    (0 : Tile).toNat < (run []).ntiles
      ∧ ∀ x, (∀ d, ((at0 (run []) (fun ts => { ts with bay := some (sample d) })).tile 0).bay = some (sample d))
        ∧ x % 2 ^ 64 = (sample (x % 2 ^ 64)).digest ∧ x % 2 ^ 64 ≠ (sample (2 ^ 64)).digest :=
  ⟨by decide, fun x => ⟨fun _ => rfl, rfl, Nat.ne_of_lt (Nat.mod_lt x (by decide))⟩⟩

/-- The last spool line whose 64 rows of pitch 64 fit, and the last raw row. -/
theorem witness_MatrixLoadsAndStores : let s := run [(1, 0x4FEF40), (2, 64), (3, 0x7F), (4, 0x4FFC00)]
    Executes s 0 .mx [(7, true)] [1, 2, 3, 4] ∧ Executes (handler []) 0 .mx [] [1, 2] ∧ badDir 6 1 = false ∧ badDir 7 1 = true ∧ SpClean s
      ∧ ltAddrOk (ltAddr (s.g 0 1) (s.g 0 2)) 64 (kLen 2 * fmtW 2 / 8) (sclBlocks 2) = true
      ∧ tagFmt (setTag s 0 7 2 1) 0 7 = 2 ∧ tagBdir (setTag s 0 7 2 1) 0 7 = 1
      ∧ accRows (s.g 0 3) = some (63, 1) ∧ rawOk (s.g 0 4).toNat 1 (accLay s 0 3) = true
      ∧ (handler []).hmode 0 = true ∧ (⟨63, 8, false⟩ : Upset).idx < 64 * 1 ∧ (⟨63, 8, false⟩ : Upset).err % 7 ≠ 0 :=
  ⟨executes (by unfold Ready Here; decide), executes (by unfold Ready Here; decide), by unfold SpClean; decide⟩

/-- The transposing form with the widest of its formats, on the last line of the spool. -/
theorem witness_MatrixLoadsAndStores_transposed :
    let x := ltAddr ((run [(1, 0x4FFF00), (2, 0)]).g 0 1) ((run [(1, 0x4FFF00), (2, 0)]).g 0 2)
    Executes (run [(1, 0x4FFF00), (2, 0)]) 0 .mx [(7, true)] [1, 2] ∧ fmtW 6 ≤ 32 ∧ isJ 6 = false ∧ badDir 6 0 = false
      ∧ ltAddrOk x (kLen 6) (8 * fmtW 6) (sclBlocks 6) = true := ⟨executes (by unfold Ready Here; decide), by decide⟩

theorem witness_VectorElementsRoundTrip : fmtW 2 = 8 ∧ fmtW 5 = 16 ∧ fmtW 6 = 32 ∧ fmtW 7 = 64 ∧ 15 < 16
    ∧ (List.replicate 64 5).length = vCount 7 ∧ ∀ e ∈ List.replicate 64 5, e < 2 ^ fmtW 7 := by decide

theorem witness_VectorFloats : Executes (run []) 0 .vx [] [] ∧ ((7 : BitVec 4) = 6 ∨ (7 : BitVec 4) = 7) ∧ (3 : BitVec 3).toNat < 4
    ∧ (⟨63, 8, false⟩ : Upset).idx < vCount 7 ∧ (⟨63, 8, false⟩ : Upset).err % 7 ≠ 0 :=
  ⟨executes (by unfold Ready Here; decide), by decide⟩

theorem witness_VectorIntegersAndMoves : let s := run [(1, 0x4FFE00), (2, 31)]
    Executes s 0 .vx [(7, true)] [1, 2, 0] ∧ SpClean s ∧ (s.g 0 1).toNat % 64 = 0 ∧ (s.g 0 1).toNat + 512 ≤ 0x500000
      ∧ (3 : BitVec 3).toNat < 4 ∧ badJ 6 = false := ⟨executes (by unfold Ready Here; decide), by unfold SpClean; decide⟩

/-- A descriptor of cut rows at offset 0x1000 with pitch 64 and scale bytes at 0x8000 with pitch 16. -/
def cutBytes : List Byte :=
  leBytes 4 0x1000 ++ leBytes 4 64 ++ leBytes 4 0x8000 ++ leBytes 4 16 ++ List.replicate 48 0

set_option maxRecDepth 4000 in
theorem witness_VectorConversionsAndSummaries_cut :
    let s := setTag { run [(1, 0x40)] with spool := memWrite [] (spKey 0 0x40) cutBytes } 0 0 2 0
    let d : CutDesc := { base := 0x1000, pitch := 64, sbase := 0x8000, spitch := 16, stream := 0, step := 0, ebase := 0, si := 0,
                         sk := 0, given := none }
    Executes s 0 .vx [(0, true)] [1] ∧ badRmCvt 4 = false ∧ (4 : BitVec 3).toNat < 5 ∧ SpClean s ∧ spoolOk64 0x40 64 = true
      ∧ cutDesc (memRead s.spool (spKey (s.ptile 0) 0x40) 64) = some d
      ∧ cutOk d (kLen 2 * fmtW 6 / 8) 0 = true ∧ isJ 6 = false ∧ isJ (tileReg s 0 0).fmt = true
      ∧ cutOk d (kLen (tileReg s 0 0).fmt * fmtW 2 / 8) (kLen (tileReg s 0 0).fmt / 32) = true :=
  ⟨executes (by unfold Ready Here; decide), by unfold SpClean; decide⟩

theorem witness_VectorConversionsAndSummaries : let s := run [(1, 127), (2, 128)]
    Executes s 0 .vx [(7, false)] [1, 2] ∧ badRmCvt 4 = false ∧ (1 : BitVec 3).toNat * min (fmtW 6) (fmtW 7) < max (fmtW 6) (fmtW 7)
      ∧ isJ 6 = false ∧ isJ 7 = false ∧ (3 : BitVec 3).toNat < 4 ∧ (4 : BitVec 3).toNat < 5
      ∧ tagFmt (setTag s 0 7 6 0) 0 7 = 6 ∧ (s.g 0 1).toNat % 512 < vCount 6 :=
  ⟨executes (by unfold Ready Here; decide), by decide⟩

/-- The last word an instruction may name, and the first it may not. -/
theorem witness_VectorGridMode : let s := setTag (setAccState (run [(1, 3968), (2, 3969), (3, 4032), (4, 4064)]) 0 3 accOpen) 0 7 6 0
    Executes s 0 .vx [(7, false)] [1, 2, 3, 4] ∧ accState s 0 3 = accOpen ∧ tagFmt s 0 7 = 6
      ∧ (s.g 0 1).toNat % 4096 + vCount 6 ≤ 4096 ∧ 4096 < (s.g 0 2).toNat % 4096 + vCount 6
      ∧ (s.g 0 3).toNat % 4096 + 64 ≤ 4096 ∧ accLay s 0 3 = 0 ∧ (s.g 0 4).toNat % 4096 + 32 ≤ 4096
      ∧ badRmCvt 4 = false ∧ badJ 6 = false := ⟨executes (by unfold Ready Here; decide), by decide⟩

/-! ### Witnesses: ports, collectives, hall time and numerics -/

/-- Port `p` in a state. -/
def port (p st : Nat) : State := wr State.reset (lkPg p) lk_STATUS_STATE st

/-- Training that locks the wavelengths listed. -/
def trains (ws : List Nat) (rtt : Nat) : Training :=
  { locked := ws, rack := 255, bolt := 7, module := 7, port := 63, rtt := rtt, txPower := [], attempts := 1, eq := [] }

theorem witness_PortsTrain : locked State.reset (lkPg 63) = false ∧ portState State.reset 63 = stOff
    ∧ portState (port 63 stTrain) 63 = stTrain ∧ portState (port 63 stActive) 63 ≠ stOff
    ∧ portState (port 63 stActive) 63 ≠ stFailsafe ∧ portState (port 63 stActive) 63 ≠ stLull
    ∧ (∀ w, w < 9 → fusedWl (port 63 stTrain) 63 ≠ some w → w ∈ (trains (List.range 9) 1000).locked)
    ∧ (trains [] 1000).rtt ≤ 1000 ∧ 1000 < (trains [] 1001).rtt ∧ (trains [] 0).attempts < 3
    ∧ 3 ≤ ({ trains [] 0 with attempts := 3 } : Training).attempts
    ∧ (∃ w, w < 9 ∧ fusedWl (port 63 stTrain) 63 ≠ some w ∧ w ∉ (trains [0, 1, 2, 3, 4, 5, 6] 1000).locked)
    ∧ (trains [] 0).rack < 256 ∧ (trains [] 0).bolt < 8 ∧ (trains [] 0).module < 8 ∧ (trains [] 0).port < 64 := by
  refine ⟨by decide, by decide, by decide, by decide, by decide, by decide, ?_, by decide, by decide, by decide, by decide, ⟨7, by decide, by decide, by decide⟩,
    by decide, by decide, by decide, by decide⟩
  intro w h _
  exact List.mem_range.mpr h

/-- A cache entry that is valid for launch powers of 0 and, without it, none; a FOREIGN port has no use for it. -/
theorem witness_PortsTrain_cache :
    let s := { port 63 stTrain with flash := memWrite [] (eqBase 63) (eqBytes (rd (port 63 stTrain) mgPg mg_FW_VER) (trains [] 0)) }
    eqValid (wr s mgPg mg_EQ_CACHE_EN 1) 63 (trains [] 0).txPower = true ∧ eqValid (port 63 stTrain) 63 (trains [] 0).txPower = false
      ∧ portState s 63 = stTrain ∧ rd s (lkPg 63) lk_CFG_FOREIGN = 0
      ∧ rd (wr s (lkPg 63) lk_CFG_FOREIGN 1) (lkPg 63) lk_CFG_FOREIGN = 1 := by decide +kernel

/-- An active port with idle wavelength 8, and with wavelengths marked bad. -/
def wave (bad rot : Nat) : State :=
  wr (wr (wr (port 63 stActive) (lkPg 63) lk_STATUS_ROT rot) (lkPg 63) lk_STATUS_WL_BAD bad) (lkPg 63) lk_CFG_CAL_EN 1

theorem witness_WavelengthsAndLasers : portState (wave 0 8) 63 = stActive ∧ (8 : BitVec 4).toNat < 9
    ∧ wlBad (wave 0 8) 63 8 = false ∧ (portSt (wave 0 8) 63).failing = none ∧ (8 : BitVec 4).toNat = rd (wave 0 8) (lkPg 63) lk_STATUS_ROT
    ∧ (0 : BitVec 4).toNat ≠ rd (wave 0 8) (lkPg 63) lk_STATUS_ROT ∧ rd (wave 0 8) (lkPg 63) lk_CFG_CAL_EN = 1
    ∧ locked (wave 0 8) (lkPg 63) = false ∧ wlBad (wave 0x100 8) 63 8 = true ∧ (portSt (wave 0 8) 63).cal = none
    ∧ 8 ∈ [8] ∧ 8 ∉ [7] := by decide

/-- The gate of a held job lets a calibration run; a chip that is behind, with a program, does not. -/
theorem witness_WavelengthsAndLasers_window : calWindow (wr (wave 0 8) gsPg gs_JOB_HOLD 1) = true
    ∧ calWindow (wr (wr (wave 0 8) (tlPg 0) tl_STATUS_RUNNING 1) gsPg gs_BEHIND 1) = false := by
  have h1 : rd (wr (wave 0 8) gsPg gs_JOB_HOLD 1) gsPg gs_JOB_HOLD = 1 := by decide
  have h2 : rd (wr (wave 0 8) gsPg gs_JOB_HOLD 1) gsPg gs_BEHIND = 0 := by decide
  have h3 : rd (wr (wr (wave 0 8) (tlPg 0) tl_STATUS_RUNNING 1) gsPg gs_BEHIND 1) gsPg gs_BEHIND = 1 := by decide
  have h4 : programRuns (wr (wr (wave 0 8) (tlPg 0) tl_STATUS_RUNNING 1) gsPg gs_BEHIND 1) = true :=
    List.any_eq_true.mpr ⟨0, tile0_mem _, by decide⟩
  exact ⟨by simp [calWindow, gateShut, h1, h2], by rw [calWindow, h3, h4, Bool.not_true, Bool.false_or]; exact Bool.and_false _⟩

theorem witness_WavelengthsAndLasers_rotation :
    let s := { wave 0 8 with ports := smPut (fun _ => PortSt.reset) [] 63 { PortSt.reset with failing := some 0, rotStep := some 7 } }
    let c := { wave 0 8 with
      ports := smPut (fun _ => PortSt.reset) [] 63 { PortSt.reset with rotStep := some 7, cal := some ⟨[7], [7], false⟩ } }
    (portSt s 63).rotStep = some 7 ∧ 7 < 9 ∧ (portSt s 63).failing = some 0 ∧ 0 ≠ 7
      ∧ (portSt c 63).rotStep = some 7 ∧ (portSt c 63).failing = none ∧ (portSt c 63).cal = some ⟨[7], [7], false⟩
      ∧ 7 ∈ (⟨[7], [7], false⟩ : Cal).bad := by decide

/-- A port in LULL, a second wavelength that fails, and a calibration whose next wavelength is good or that is done. -/
theorem witness_WavelengthsAndLasers_others :
    let s := { wave 0 8 with ports := smPut (fun _ => PortSt.reset) [] 63 { PortSt.reset with failing := some 3 } }
    portUp (port 63 stLull) 63 = true ∧ portUp (wave 0 8) 63 = true ∧ (portSt s 63).failing = some 3 ∧ 3 ≠ (7 : BitVec 4).toNat
      ∧ rd (wave 0 8) (lkPg 63) lk_STATUS_ROT < 9 ∧ 7 ∉ (⟨[7, 8], [], false⟩ : Cal).bad
      ∧ ([7, 8] : List Nat).dropWhile (· == 7) = [8] ∧ ([7] : List Nat).dropWhile (· == 7) = [] := by decide

theorem witness_WavelengthsAndLasers_engine : rd State.reset (oePg 15) oe_TEMP_LIMIT < 255 ∧ (255 : Nat) < 256
    ∧ wlBad State.reset 63 (rd State.reset (lkPg 63) lk_STATUS_ROT) = false ∧ (portSt State.reset 63).failing = none := by decide

theorem witness_WavelengthWithoutSpareIsDown : (0 : BitVec 4).toNat < 9 ∧ portState (wave 0x100 8) 63 = stActive
    ∧ wlBad (wave 0x100 8) 63 (rd (wave 0x100 8) (lkPg 63) lk_STATUS_ROT) = true ∧ wlBad (wave 0x100 8) 63 0 = false := by decide

/-- A cell of a packet that goes on, and the port state that holds it. -/
def cell (seq : Nat) : Cell := { cls := .sch, head := false, tail := false, seq := seq, data := [], pkt := none }
def held (x : PortSt) : State := { port 63 stActive with ports := smPut (fun _ => PortSt.reset) [] 63 x }

theorem witness_FramesAndPackets_tries :
    (portSt (held { PortSt.reset with replay := [cell 0] }) 63).replay = cell 0 :: []
      ∧ portState (held { PortSt.reset with replay := [cell 0] }) 63 = stActive
      ∧ (portSt (held PortSt.reset) 63).tries + 1 < rd (held PortSt.reset) (lkPg 63) lk_CFG_TRY_LIMIT
      ∧ rd (held PortSt.reset) (lkPg 63) lk_CFG_TRY_LIMIT ≤ (portSt (held { PortSt.reset with tries := 0xFF }) 63).tries + 1
      ∧ (portSt (held { PortSt.reset with failover := true }) 63).failover = true
      ∧ carriesOrigin (held { PortSt.reset with failover := true }) 63 = false
      ∧ lseOpen (held { PortSt.reset with failover := true }) 63 = false
      ∧ lseOpen { held PortSt.reset with lseOut := [{ peer := 1, port := 63, src := .mgmt, tag := 0 }] } 63 = true := by decide

/-- A frame that the decoder hands on, with bad positions and cells. -/
def heard (bad : List Nat) (cells : List Cell) : Heard :=
  .frame { corrected := 0, badPos := bad, fcsOk := true, fcb := Fcb.zero, cells := cells, phase := 0 }

theorem witness_FramesAndPackets_frames : portState (held PortSt.reset) 63 = stActive
    ∧ fifoBusy (held PortSt.reset) 5 15 = false ∧ fifoBusy (fifoReset (held PortSt.reset) 5 15) 5 15 = true
    ∧ portState (fifoReset (held PortSt.reset) 5 15) 63 = stActive
    ∧ (hear 8 (heard [7] [])).badPos ≠ [] ∧ (hear 8 (.light [] 0)).badPos ≠ []
    ∧ (∀ w, w < 9 → (portSt (held PortSt.reset) 63).badRun.getD w 0 < 3)
    ∧ (hear 8 (heard [] [])).badPos = [] ∧ (hear 8 (heard [] [])).fcsOk = true ∧ (hear 8 (heard [] [])).fcb.idleFault = false
    ∧ (hear 8 (heard [] [])).fcb.portRetire = false ∧ (hear 8 (heard [] [])).cells = []
    ∧ (hear 8 (heard [] [cell 0])).cells.filter (fun c => c.cls != .null) = [cell 0] ∧ (cell 0).tail = false
    ∧ (cell 0).seq = (portSt (held PortSt.reset) 63).rxSeq ∧ seqGe 0 (cell 1).seq = false ∧ seqGe 0 (cell 0x8001).seq = true
    ∧ portState (port 63 stDown) 63 = stDown ∧ portState (port 63 stTrain) 63 = stTrain
    ∧ portState (port 63 stFailsafe) 63 = stFailsafe ∧ portUp (held PortSt.reset) 63 = true
    ∧ 1 ≤ (portSt (held { PortSt.reset with retireRun := 1 }) 63).retireRun
    ∧ 0 < (portSt { State.reset with ports := smPut (fun _ => PortSt.reset) [] 63 { PortSt.reset with retiring := 1 } } 63).retiring
    ∧ portState State.reset 63 = stOff ∧ (portSt State.reset 63).retiring = 0 := by decide

/-- The fourth frame in a row whose wavelength 3 is uncorrectable: position 3 while wavelength 8 is idle. -/
theorem witness_FramesAndPackets_runs :
    let x := { PortSt.reset with badRun := [0, 0, 0, 3, 0, 0, 0, 0, 0] }
    let s := { wave 0 8 with ports := smPut (fun _ => PortSt.reset) [] 63 x }
    portState s 63 = stActive ∧ rd s (lkPg 63) lk_STATUS_ROT = 8 ∧ 3 ∈ (hear 8 (heard [3] [])).badPos ∧ x.badRun.getD 3 0 = 3
      ∧ (∀ v, v < 9 → v ≠ 3 → x.badRun.getD v 0 < 3) ∧ wlBad s 63 8 = false ∧ wlBad s 63 3 = false ∧ x.failing = none := by decide

/-- A stream entry that lands 4,096 bytes at module address 0, and a packet for its last 16. -/
def landing : State :=
  { State.reset with
    streams := smPut (fun _ => StreamEnt.none_) [] 4095
      { kind := 1, group := 0, credits := 1, desc := 0, land := 0, size := 0x1000, sig := 0x10000002F },
    net := [.pkt 63 { type := tyStream, flags := 1, len := 16, origin := 0, psn := 0, addr := 0xFF0FFF } (List.replicate 16 1)] }

theorem witness_FramesAndPackets_streams :
    (.pkt (63 : BitVec 6).toNat { type := tyStream, flags := 1, len := 16, origin := 0, psn := 0, addr := 0xFF0FFF }
        (List.replicate 16 1)) ∈ landing.net
      ∧ (streamAt landing (0xFF0FFF % 4096)).kind = 1 ∧ 0xFF0FFF / 4096 % 2 ^ 20 + 16 ≤ (streamAt landing (0xFF0FFF % 4096)).size
      ∧ decodeAddr landing ((streamAt landing (0xFF0FFF % 4096)).land + 0xFF0FFF / 4096 % 2 ^ 20) = .lp 0xFF0
      ∧ (streamAt landing (0xFF0FFF % 4096)).sig ≠ 0 ∧ (leBytes 4 0x1FFF).length = 4
      ∧ (∀ t ∈ listedTiles landing, (landing.tile t).dma = []) ∧ rd landing (lkPg 63) lk_CFG_FOREIGN = 0
      ∧ LpGood landing 0xFF0 16 ∧ inKeep landing 0xFF0 16 = false ∧ landing.failSafe = none
      ∧ portUp landing 63 = false ∧ portUp (port 63 stActive) 63 = true
      ∧ rd (port 63 stActive) (lkPg 63) lk_CFG_FOREIGN = 0 := by unfold LpGood; decide

/-- A port to the twin, whose keep region lies at 0. -/
def twinPort : State := wr (wr (port 63 stActive) (lkPg 63) lk_PEER_MODULE 1) (lpPg 0) lp_TK_SIZE 32

theorem witness_FramesAndPackets_recovery : portState twinPort 63 = stActive ∧ rd twinPort (lkPg 63) lk_CFG_FOREIGN = 0
    ∧ rd twinPort gsPg gs_JOB_HOLD = 0 ∧ twinPort.recovery = none ∧ rd twinPort (lkPg 63) lk_PEER_MODULE = twinPort.twin
    ∧ 0 + 64 ≤ keepSize twinPort ∧ twinPort.lull = false ∧ rd twinPort (lpPg 0) lp_FREEZE = 0 ∧ twinPort.mgmtRcv.length < 8
    ∧ twinPort.mgmtBox.length < 56 ∧ rd (wr twinPort (lkPg 63) lk_CFG_FOREIGN 1) (lkPg 63) lk_CFG_FOREIGN = 1
    ∧ (portSt twinPort 63).peerLull = false ∧ lpIsBad twinPort (keepBase twinPort + 0) 64 = false
    ∧ keepSize twinPort < 2 ^ 40 ∧ rd (port 63 stActive) (lkPg 63) lk_PEER_MODULE ≠ (port 63 stActive).twin
    ∧ rd (wr twinPort (lpPg 0) lp_FREEZE 1) (lpPg 0) lp_FREEZE = 1 ∧ carries twinPort 63 .rcv = true
    ∧ (portSt twinPort 63).failover = false ∧ rd twinPort (lkPg 63) lk_STATUS_TAKEOVER_VALID = 0 := by decide

/-- What the recovery packets meet: a section for another bolt, for the twin and for this module itself, a write whose
acknowledgement the TW engine awaits, and data that the home region awaits. -/
theorem witness_FramesAndPackets_relay : let s := wr twinPort twPg tw_HOME_SIZE 1
    (1 : BitVec 3).toNat ≠ bits (ownId s) 23 21 ∧ ¬ (0 : BitVec 3).toNat ≠ bits (ownId s) 23 21
      ∧ (1 : BitVec 3).toNat = s.twin ∧ (0 : BitVec 3).toNat ≠ s.twin ∧ (0 : BitVec 3).toNat = s.module ∧ s.failSafe = none
      ∧ 0 + 64 ≤ rd s twPg tw_HOME_SIZE * 2 ^ 30 ∧ LpGood s (homeBase s + 0) 64 ∧ LpGood s (keepBase s + 0) 64
      ∧ lpSilent s (keepBase s + 0) 64 = false ∧ rd (wr s gsPg gs_JOB_HOLD 1) gsPg gs_JOB_HOLD = 1
      ∧ ({ s with twRun := some ⟨7, false, 0, [64]⟩ } : State).twRun = some ⟨7, false, 0, [64]⟩
      ∧ (⟨7, false, 0, [64]⟩ : TwRun).wait.contains 64 = true ∧ ({ s with homeFetch := some 0 } : State).homeFetch = some 0
      ∧ (List.replicate 64 (0 : Byte)) ≠ [] ∧ portUp s (63 : BitVec 6).toNat = true
      ∧ (portSt { s with ports := smPut (fun _ => PortSt.reset) [] 63 { PortSt.reset with peerLull := true } } 63).peerLull = true
      ∧ portState s 63 = stActive := by unfold LpGood; decide

theorem witness_FramesAndPackets_noPackets : ∀ q h d, .pkt q h d ∉ twinPort.net := fun _ _ _ h => by cases h

/-- Group 5, open at attempt 1, with operation `op` on one word: a parent on port group 0, a child on port group 1, two
local parts and tile 3 on its list. -/
def grp (op : Nat) : CxGroup :=
  { gid := 5, bytes := padTo 64 (leBytes 3 5 ++ leBytes 1 op ++ [0, 0x80] ++ leBytes 2 2 ++ leBytes 2 2 ++ leBytes 4 0 ++ [2, 0]
      ++ leBytes 4 1), tiles := [3], op := op, attempt := 1, hem := some 0, words := [], got := [(.child 1, 0)], hdrs := [],
    verdicts := [], bad := false, up := true, dec := false }
def reducing (op : Nat) : State :=
  wr (wr (wr { State.reset with cx := [grp op] } cxPg cx_ENABLE 1) (lkPg 0) lk_STATUS_STATE stActive) (lkPg 4) lk_STATUS_STATE stActive

/-- The header of a partial of one word of group 5 at attempt 1, and that word. -/
def partialOf5 : List Byte := leBytes 3 5 ++ [1] ++ leBytes 2 0 ++ leBytes 2 0 ++ leBytes 2 1 ++ List.replicate 54 0 ++ leBytes 16 7

theorem witness_CollectivesCombineOrAbort : cxFind (reducing 6) (5 : BitVec 24).toNat = some (grp 6) ∧ (grp 6).op = (grp 6).d.op
    ∧ rd (reducing 6) cxPg cx_ENABLE = 1 ∧ srcGroup (grp 6).d (.child 1) = some 1 ∧ rd (reducing 6) (lkPg (4 * 1)) lk_CFG_FOREIGN = 0
    ∧ srcKnown (grp 6).d (.child 1) = true ∧ CxSrc.child 1 ≠ .parent ∧ (grp 6).op ≠ 8 ∧ CxSrc.child 1 ≠ .localTile 4
    ∧ (0 : BitVec 3).toNat < (grp 6).attempt ∧ (1 : BitVec 3).toNat = (grp 6).attempt
    ∧ (grp 6).got.contains (.child 1, 0) = true
    ∧ outside { grp 6 with got := [] } (grp 6).d (.child 1) 0 (List.replicate 16 0) = false
    ∧ isGr (grp 6).op = true ∧ (grp 6).hem = some (0 : BitVec 16).toNat ∧ (grp 6).hem ≠ some (1 : BitVec 16).toNat
    ∧ (grp 6).d.op ≠ 0 ∧ (grp 6).d.op = 6 ∧ (grp 6).d.root = false ∧ (grp 6).bad = false ∧ (grp 6).up = true := by decide

/-- A local contribution to a broadcast; and to a grid reduction, with and without its header. -/
theorem witness_CollectivesCombineOrAbort_locals : isGr (grp 5).op = false ∧ srcKnown (grp 5).d (.localTile 4) = true
    ∧ srcGroup (grp 5).d (.localTile 4) = none ∧ outside (grp 5) (grp 5).d (.localTile 4) 0 (List.replicate 64 0) = false
    ∧ .cxData (.localTile 4) 5 0 partialOf5 ∉ (reducing 6).net
    ∧ parseHdr 4 (grp 6).d partialOf5 = some { tile := 4, gid := 5, attempt := 1, lay := 0, hem := 0, first := 0, count := 1 }
    ∧ parseHdr 4 (grp 6).d [] = none ∧ (reducing 6).cxHdrs.any (fun x => x.tile == 4 && x.gid == (grp 6).d.gid) = false := by
  decide

theorem witness_CollectivesCombineOrAbort_edges : (∀ q h x, .pkt q h x ∉ (reducing 6).net)
    ∧ rd { State.reset with cx := [grp 6] } cxPg cx_ENABLE = 0
    ∧ rd (wr (reducing 6) (lkPg (4 * 1)) lk_CFG_FOREIGN 1) (lkPg (4 * 1)) lk_CFG_FOREIGN = 1
    ∧ srcGroup (grp 6).d .parent = some 0 ∧ rd (reducing 6) (lkPg (4 * 0)) lk_CFG_FOREIGN = 0
    ∧ (∀ q < 2, groupPort (reducing 6) q = 4 * q ∧ portUp (reducing 6) (groupPort (reducing 6) q) = true)
    ∧ portUp (wr (reducing 6) (lkPg 4) lk_STATUS_STATE stDown) (groupPort (wr (reducing 6) (lkPg 4) lk_STATUS_STATE stDown) 1) = false
    ∧ (grp 7).d.op = 7 ∧ srcDone (grp 7) .parent (edgeChunks (grp 7).d) = false :=
  ⟨fun _ _ _ h => (by cases h), by decide, by decide, by decide, by decide, by decide, by decide, by decide, by decide⟩

/-- One chunk of the child while no local part has come: a group whose contribution has not gone up waits too. -/
theorem witness_CollectivesCombineOrAbort_waits :
    let g : CxGroup := { grp 6 with got := [], up := false }
    localDone (reducing 6) { joinChunk g g.d (.child 1) 0 ((chunkVals g.d (List.replicate 16 0)).take (srcEnd g g.d (.child 1) - 0)) with
      got := g.got ++ [(.child 1, 0)] } g.d = false := by decide

theorem witness_CollectivesCombineOrAbort_verdict : cxFind (reducing 8) (5 : BitVec 24).toNat = some (grp 8)
    ∧ (1 : BitVec 3).toNat = (grp 8).attempt ∧ (grp 8).op = 8 ∧ (grp 8).op = (grp 8).d.op ∧ srcKnown (grp 8).d (.child 1) = true
    ∧ (grp 8).verdicts.any (fun v => v.1 == .child 1) = false ∧ (grp 8).up = true := by decide

/-- An offer whose asymmetry is VALID on port 63. -/
def offered : State := wri (wr (port 63 stActive) tmPg tm_ROOT_EN 0) tmPg tm_VALID 63 1

set_option maxRecDepth 4000 in
theorem witness_TimeParentsAndOrigin :
    let a := announceOf (leBytes 4 9 ++ leBytes 1 1 ++ leBytes 1 63 ++ leBytes 1 tsLocked ++ leBytes 9 0)
    let s1 := { offered with offers := smPut (fun _ => none) offered.offers 63 (some a) }
    portUp offered 63 = true ∧ rd offered tmPg tm_ROOT_EN = 0 ∧ a.rootId < 2 ^ 32
      ∧ (allOffers s1).filter (isCandidate s1) = [(63, a)] := by decide

set_option maxRecDepth 4000 in
theorem witness_TimeParentsAndOrigin_announce :
    (∀ p, p < 64 → (portSt (port 63 stActive) p).failover = false ∧ rd (port 63 stActive) (lkPg p) lk_STATUS_TAKEOVER_VALID = 0)
      ∧ portUp (port 63 stActive) 63 = true ∧ portUp (port 63 stActive) 0 = false := by decide

theorem witness_TimeParentsAndOrigin_origin : locked State.reset tmPg = false
    ∧ programRuns { State.reset with regs := [] } = false ∧ programRuns (run []) = true
    ∧ State.reset.hallTime + 2000 * 2 ^ 48 ≤ (2000 : BitVec 64).toNat * 2 ^ 48
    ∧ (1999 : BitVec 64).toNat * 2 ^ 48 < State.reset.hallTime + 2000 * 2 ^ 48 :=
  ⟨by decide, programRuns_quiet _ rfl, List.any_eq_true.mpr ⟨0, tile0_mem _, by decide⟩, by decide, by decide⟩

theorem witness_TimeIsKept_echo : portUp (port 63 stActive) 63 = true ∧ fieldAt [8, 1, 0xF4, 1] 0 1 ≤ 8
    ∧ wlBad (wave 0 8) 63 (rd (wave 0 8) (lkPg 63) lk_STATUS_ROT) = false 
    ∧ rdi (wri (wave 0x100 8) tmPg tm_VALID 63 1) tmPg tm_VALID 63 = 1
    ∧ wlBad (wri (wave 0x100 8) tmPg tm_VALID 63 1) 63 (rd (wri (wave 0x100 8) tmPg tm_VALID 63 1) (lkPg 63) lk_STATUS_ROT) = true := by
  decide

/-- The sum of pulses that are echoed at once and a last one that takes `d`. -/
theorem echoSum_late (n d : Nat) : echoSum (List.replicate n (5, 5) ++ [(0, d)]) = d := by
  have h : ∀ n, (List.replicate n ((5 : Nat), (5 : Nat))).foldl (fun a x => a + ((x.2 : Int) - x.1)) 0 = 0 := by
    intro n
    induction n with
    | zero => rfl
    | succ n ih => simpa [List.replicate_succ] using ih
  simp [echoSum, List.foldl_append, h]

/-- Two results for the own fibre of 4,096 pulses that agree to the last unit of 20 ps, and two that differ by one more. -/
theorem witness_TimeIsKept_measurement :
    let l := fun (d : Nat) => List.replicate 4095 ((5 : Nat), (5 : Nat)) ++ [(0, d)]
    (∀ d, (l d).length = 4096) ∧ (echoSum (l 5368709) - echoSum (l 0)).natAbs * 1000 ≤ 20 * 4096 * 2 ^ 16
      ∧ 20 * 4096 * 2 ^ 16 < (echoSum (l 5368710) - echoSum (l 0)).natAbs * 1000
      ∧ divEven ((echoSum (l 0) - echoSum (l 5)) * 1000) (2 * 4096 * 2 ^ 16) = 0 ∧ ¬ ([] : List (Nat × Nat)).length = 4096 := by
  intro l
  have h : ∀ d : Nat, echoSum (l d) = d := fun d => echoSum_late 4095 d
  rw [h, h, h, h]
  exact ⟨fun d => by rw [List.length_append, List.length_replicate]; rfl, by decide, by decide, by decide, by decide⟩

theorem witness_TimeIsKept_servo : let s := wr State.reset tmPg tm_TSTATE tsLocked
    rd s tmPg tm_TSTATE ≠ tsFree ∧ rd s tmPg tm_TSTATE ≠ tsHoldover ∧ rd s tmPg tm_TSTATE = tsLocked
      ∧ rd State.reset tmPg tm_TSTATE = tsFree ∧ rd (wr s tmPg tm_TSTATE tsHoldover) tmPg tm_TSTATE = tsHoldover
      ∧ within 65536000 1000000 = true ∧ within 65536001 1000000 = false ∧ within 327 5 = true ∧ within 328 5 = false
      ∧ rd (wr s tmPg tm_PTP_EN 1) tmPg tm_PTP_EN = 1 ∧ hasRoot (wr s tmPg tm_PTP_EN 1) = false ∧ s.ptpSlave = false
      ∧ rd s tmPg tm_PTP_PORT = (0 : BitVec 2).toNat ∧ s.epoch = none ∧ -2147483648 ≤ ppsDiff s ∧ ppsDiff s ≤ 2147483647 := by
  decide

/-- A period that is over, with two samples; one that is not, and one without samples. -/
theorem witness_TimeIsKept_period :
    let s := { wr State.reset tmPg tm_TSTATE tsLocked with filt := { frames := 0, span := some (-3, 2000000000) } }
    rd s tmPg tm_TSTATE = tsLocked ∧ periodOver s = true ∧ s.filt.span = some (-3, 2000000000)
      ∧ periodOver (wr s tmPg tm_PARENT_VALID 1) = false ∧ (wr State.reset tmPg tm_TSTATE tsLocked).filt.span = none
      ∧ within (max (-3) (min 2000000000 0)) 1000000 = true ∧ within (max (-3) (min 2000000000 1500000000)) 1000000 = false
      ∧ within (max (-3) (min 2000000000 1500000000)) 5 = false
      ∧ programRuns ({ State.reset with regs := [] } : State) = false :=
  ⟨by decide, by decide, by decide, by decide, by decide, by decide, by decide, by decide, programRuns_quiet _ rfl⟩

/-- A message of the domain on the port, and the exchanges that a follow-up and a delay response complete. -/
def ptpOf (k : PtpKind) : PtpMsg := { domain := 0, udp := true, seq := 5, kind := k, phase := 0 }

theorem witness_TimeIsKept_ptp :
    let s := { State.reset with ptpSlave := true }
    (s.ptpSlave = true ∧ rd s tmPg tm_PTP_PORT = (0 : BitVec 2).toNat
        ∧ rd s tmPg tm_PTP_DOMAIN = (ptpOf (.sync none)).domain.toNat ∧ (ptpOf (.sync none)).udp = true)
      ∧ State.reset.ptpSlave = false ∧ (ptpOf (.sync (some 1))).kind = .sync (some 1) ∧ (ptpOf (.followUp 1)).kind = .followUp 1
      ∧ ({ s with ptp := { seq := 5, t1 := none, t2 := some 2, t3 := none } } : State).ptp
          = { seq := (ptpOf (.followUp 1)).seq, t1 := none, t2 := some 2, t3 := none }
      ∧ ({ s with ptp := { seq := 5, t1 := some 1, t2 := some 2, t3 := some 3 } } : State).ptp
          = { seq := (ptpOf (.delayResp 9)).seq, t1 := some 1, t2 := some 2, t3 := some 3 } := by decide

/-- The active root, with an epoch written. -/
theorem witness_TimeIsKept_root : let s := { wr State.reset tmPg tm_ROOT_EN 1 with epoch := some 5, regs := (wr State.reset tmPg tm_ROOT_EN 1).regs }
    s.epoch = some 5 ∧ rd (reparent { s with ppsSeen := true }) tmPg tm_ACTIVE_ROOT = 1 := by decide

theorem witness_TimeIsKept_clocks : (15 : BitVec 8).toNat < 16 ∧ portUp (port 63 stActive) (4 * (15 : BitVec 4).toNat + 3) = true
    ∧ portState (port 60 stTrain) (4 * (15 : BitVec 4).toNat + 0) = stTrain := by decide

/-- A FIFO of row 0 resynchronises, and one of row 5 does not. -/
theorem witness_TimeIsKept_fifos : fifoBusy (fifoReset State.reset 0 2) 0 2 = true ∧ fifoBusy (fifoReset State.reset 0 2) 5 0 = false
    ∧ (0 : BitVec 8).toNat < 16 := by decide

theorem witness_CrossingErrorIsFatal : (15 : BitVec 8).toNat < 16 := by decide

theorem witness_ScaleTracker : locked State.reset nmPg = false ∧ rd State.reset nmPg nm_BUSY = 0 ∧ State.reset.stepClosed = none
    ∧ rd (wr State.reset nmPg nm_BUSY 1) nmPg nm_BUSY = 1 ∧ ({ State.reset with stepClosed := some false } : State).stepClosed.isSome = true
    ∧ nmImageOk (nmAt { State.reset with lp := memWrite [] 6 [8] } 0) = false
    ∧ ({ State.reset with stepClosed := some false } : State).stepClosed = some false
    ∧ lpSilent State.reset (nmTable State.reset) 65536 = false
    ∧ lpSilent { State.reset with failSafe := some true } (nmTable State.reset) 65536 = true := by decide

/-- Entry 4095 is the one drift entry with an observation. -/
theorem witness_ScaleTracker_drift :
    let s : State := { State.reset with nm := [(4095, { NmEnt.reset with drift := true, pvalid := true })] }
    ∀ j, ((nmGet s j).drift = true ∧ (nmGet s j).pvalid = true) ↔ j = 4095 := by
  intro s j
  by_cases hj : j = 4095
  · subst hj; exact ⟨fun _ => rfl, fun _ => ⟨rfl, rfl⟩⟩
  · have h : nmGet s j = NmEnt.reset := by
      show (if (4095 : Nat) = j then _ else smGet _ [] j) = _
      rw [if_neg (Ne.symm hj)]; rfl
    rw [h]; exact ⟨fun x => absurd x.1 (by decide), fun x => absurd x hj⟩

/-- Every entry of an empty table is a good image. -/
theorem witness_ScaleTracker_load : LpGood State.reset (nmTable State.reset) 65536
    ∧ lpIsBad { State.reset with lpBad := [nmTable State.reset / 64] } (nmTable State.reset) 65536 = true
    ∧ (∀ i, i < 4096 → nmImageOk (nmAt State.reset i) = true) := by
  refine ⟨⟨rfl, rfl⟩, by decide, fun i _ => ?_⟩
  show nmImageOk ((List.range 16).map (fun _ => (0 : Byte))) = true
  decide

/-! ### Witnesses: signed objects -/

/-! SHA-512 is evaluated block by block: a long run of zeros takes the rounds whose message word is zero. -/

/-- One round whose message word is zero. -/
def zeroRound (s : Sha) (k : Nat) : Sha :=
  let t := s.h + (rotr64 s.e 14 ^^^ rotr64 s.e 18 ^^^ rotr64 s.e 41) + ((s.e &&& s.f) ^^^ ((2 ^ 64 - 1 - s.e) &&& s.g)) + k
  let u := (rotr64 s.a 28 ^^^ rotr64 s.a 34 ^^^ rotr64 s.a 39) + ((s.a &&& s.b) ^^^ (s.a &&& s.c) ^^^ (s.b &&& s.c))
  { a := (t + u) % 2 ^ 64, b := s.a, c := s.b, d := s.c, e := (s.d + t) % 2 ^ 64, f := s.e, g := s.f, h := s.g }

/-- A block of zeros. -/
@[irreducible] def zeroBlock (x : Sha) : Sha := x.add ((shaKLow ++ shaKHigh).foldl zeroRound x)

theorem shaRound_zero (s : Sha) (k : Nat) :
    shaRound (s, List.replicate 16 0) k = (zeroRound s k, List.replicate 16 0) := by
  have h : shaNext (List.replicate 16 0) = 0 := by decide +kernel
  have h2 : (List.replicate 16 0).drop 1 ++ [0] = List.replicate 16 (0 : Nat) := by decide
  have h3 : (List.replicate 16 (0 : Nat)).getD 0 0 = 0 := by decide
  unfold shaRound zeroRound
  simp only [h, h2, h3, Nat.add_zero]

theorem shaRounds_zero (ks : List Nat) (s : Sha) :
    ks.foldl shaRound (s, List.replicate 16 0) = (ks.foldl zeroRound s, List.replicate 16 0) := by
  induction ks generalizing s with
  | nil => rfl
  | cons k ks ih => rw [List.foldl_cons, List.foldl_cons, shaRound_zero, ih]

theorem shaBlock_zero (x : Sha) :
    shaBlock x (List.replicate 128 0) = zeroBlock x := by
  have h : (List.range 16).map (fun i => beNum (((List.replicate 128 (0 : Byte)).drop (8 * i)).take 8)) = List.replicate 16 0 := by
    decide +kernel
  unfold shaBlock zeroBlock
  rw [h, shaRounds_zero]

theorem shaBlocks_succ (n : Nat) (x : Sha) (bs : List Byte) :
    shaBlocks (n + 1) x bs = shaBlocks n (shaBlock x (bs.take 128)) (bs.drop 128) := by rw [shaBlocks]

theorem shaBlocks_zero (m : Nat) (t : List Byte) (n : Nat) : ∀ x : Sha,
    shaBlocks (n + m) x (List.replicate (128 * n) 0 ++ t) = shaBlocks m (zeroBlock^[n] x) t := by
  induction n with
  | zero => intro x; rw [Nat.zero_add, Nat.mul_zero, List.replicate_zero, List.nil_append]; rfl
  | succ n ih =>
    intro x
    have h : List.replicate (128 * (n + 1)) (0 : Byte) ++ t = List.replicate 128 0 ++ (List.replicate (128 * n) 0 ++ t) := by
      rw [← List.append_assoc, List.replicate_append_replicate]; congr 2; omega
    rw [h, Nat.add_right_comm, shaBlocks_succ, List.take_left' (List.length_replicate ..),
      List.drop_left' (List.length_replicate ..), shaBlock_zero, ih, Function.iterate_succ_apply]

/-- The bytes of the eight words. -/
def shaOut (x : Sha) : List Byte := ([x.a, x.b, x.c, x.d, x.e, x.f, x.g, x.h].map (fun w => (leBytes 8 w).reverse)).flatten

/-- The digest of bytes whose padded form has `n` blocks of zeros between its first and its last. -/
theorem digestBytes_zeros (bs p t : List Byte) (n : Nat) (hp : shaPad bs = p ++ (List.replicate (128 * n) 0 ++ t))
    (h : p.length = 128) (ht : t.length = 128) :
    digestBytes bs = shaOut (shaBlock (zeroBlock^[n] (shaBlock Sha.start p)) t) := by
  have hn : (shaPad bs).length / 128 = (n + 1) + 1 := by
    rw [hp, List.length_append, List.length_append, List.length_replicate, h, ht]; omega
  have hx : shaBlocks ((shaPad bs).length / 128) Sha.start (shaPad bs) = shaBlock (zeroBlock^[n] (shaBlock Sha.start p)) t := by
    rw [hn, shaBlocks_succ, hp, List.take_left' h, List.drop_left' h, shaBlocks_zero, shaBlocks_succ, List.take_of_length_le (by omega), shaBlocks]
  unfold digestBytes shaOut
  simp only [hx]

theorem digestBytes_length (bs : List Byte) : (digestBytes bs).length = 64 := by
  unfold digestBytes
  simp

/-- An RSA key of 4,096 bits, made for these tests, and its SHA-512. -/
def keyNum : Nat :=
  0xA152F6062CC80886940AC3F53325C0C39C169B13E9683855DB6AF2AAAF5961CDF3C6DEE7B83A1330BBBF4693BA66698AC80F996866B0C4FB2C0731453308EB254863792DA6EE0BBECD3064CA831F5723995209EC16687466C524682C27A7A4A6372A40892233AD942264E99CAA2349AAF0FFE6114951D27C33AC9FC2BACAC5E48800EB1B7878BBF3F45C0198C5626137B25EAC83835D89B907BBB8D83F3C79A1C16339AE72AF969167ADF8ADA3497E2FC3ED78624303B7483A11643947A32E14CDB21E3693A871D995422E039D7985BFAF62DE2846A4B13D65941C5F92CD993B7B7515F4EFC1B8AA80923A6DC6E60087180DDB5ED27D54894E545F17A552D58C1C80F5975960FE9CDA87A457DA2530638FE2085D858787B617FAEE82252D5A00B103EA2AD18F3CC4197B9850D499C7BDD7A83170D9629888942A83DC098A17D06486B8B881271E824B7170350E785D835F97572C59216543D3BC143BD1999B96DF8CA6AC1C28AAE1FF86362B8C3C40B6BCC442FBD8F09444C52772CDB177F58647AC92C39DB4CCAE5AD7DCD1992BA37C3E1482E39CF3CD26A45FDAA1BC96842B1809F519985700EB26F64FC26FBCA9E319362E564E9C799019DABCD4069E5E3E581A22975F3E191BA847DE01B1577102F9473CC5671FDF03C63D09301625012B54461F61DDB428E513DED7F62738FEB57C71CFA6B573F90D83BDB20C3F402FB1
def key : List Byte := (leBytes 512 keyNum).reverse
def keyHash : List Byte := (leBytes 64 0x683806399D1D2D2FAFBCCEB28B8DB2AE712700EE2FFDC0A6068C3615FAE2199D69F0F44A2BF035CD416CD1794B687686BB19CE4B1FDF3F0E0CDD36AF2800C0D4).reverse
theorem key_hash : digestBytes key = keyHash := by decide +kernel

/-- The signature that a number stands for. -/
def sigOf (n : Nat) : List Byte := (leBytes 512 n).reverse

/-- A signature that verifies, of the holder of the key. -/
theorem signedBy_key {k msg sig : List Byte} (h : pssVerify k msg sig = true) : signedBy (digestBytes k) k msg sig = true := by
  rw [signedBy, h, Bool.and_true, beq_self_eq_true]

/-- A store whose owner has that key. -/
def owned (counter : Nat) : SecStore := { State.reset.sec with owner := some { key := key, counter := counter } }

theorem witness_SignedObjects : keyHash ≠ digestBytes [] ∧ key.length = 512 := by decide +kernel

/-! ### Witnesses: the twin, loading, recovery, tests and the logbook -/

/-- No page of a module without a program is locked for the job. -/
theorem locked_quiet (s : State) (h : s.regs = []) (page : Nat) (h2 : rd s page pg_LOCK = 0) : locked s page = false := by
  simp [locked, jobLocks, programRuns_quiet s h, h2]

theorem witness_BobbinsAndSteps_locked : locked { State.reset with regs := [] } bbPg = false := locked_quiet _ rfl _ (by decide)

theorem witness_BobbinsAndSteps : State.reset.stepClosed ≠ some true
    ∧ rd (wr State.reset twPg tw_ENABLE 1) twPg tw_ENABLE = 1 ∧ rd (wr State.reset twPg tw_ENABLE 1) twPg tw_BUSY = 0
    ∧ locked (wr State.reset twPg tw_ENABLE 1) twPg = false
    ∧ lpSilent (wr State.reset twPg tw_ENABLE 1) (homeBase (wr State.reset twPg tw_ENABLE 1)) 64 = false
    ∧ rd State.reset twPg tw_ENABLE = 0 ∧ rd State.reset cxPg cx_ENABLE = 0 := by decide

set_option maxRecDepth 8000 in
theorem basteOut_quiet (s : State) (h : s.regs = []) : basteOut s = false :=
  List.any_eq_false.mpr (fun t ht => by simp [not_running s h t ht])

theorem witness_BobbinsAndSteps_boundary : basteOut { State.reset with regs := [] } = false
    ∧ basteOut (wr (run []) (mxPg 0) mx_STATUS_BASTE_OUT 1) = true :=
  ⟨basteOut_quiet _ rfl, List.any_eq_true.mpr ⟨0, tile0_mem _, by decide⟩⟩

/-- The twin engine on, with the twin's ports ACTIVE. -/
def twins (busy : Nat) : State :=
  wr (wr (wr (port 28 stActive) twPg tw_ENABLE 1) twPg tw_BUSY busy) (lpPg 0) lp_TK_SIZE 32

theorem witness_TwinCopiesTheStep : rd (twins 0) twPg tw_ENABLE = 1 ∧ locked (twins 0) twPg = false ∧ rd (twins 0) twPg tw_BUSY = 0
    ∧ lpSilent (twins 0) (homeBase (twins 0)) 64 = false ∧ twinPathUp (twins 0) = true ∧ (twins 0).lpBad = []
    ∧ twinPathUp State.reset = false ∧ (0 : BitVec 8) = 0 ∧ (1 : BitVec 8) ≠ 0 := by decide

/-- The three places of a copy and of a seed. -/
theorem witness_TwinCopiesTheStep_stages :
    (∀ n ∈ [0, 1, 2, 3], ({ twins 1 with twRun := some ⟨7, false, n, []⟩ } : State).twRun = some ⟨7, false, n, []⟩)
      ∧ twinPathUp { twins 1 with twRun := some ⟨7, false, 2, [0]⟩ } = true ∧ (⟨7, true, 3, []⟩ : TwRun).seed = true
      ∧ (⟨7, false, 2, [0]⟩ : TwRun).wait ≠ [] ∧ (twins 1).lpBad = [] ∧ (twins 1).lpWeak = []
      ∧ twinPathUp { State.reset with twRun := some ⟨7, false, 0, []⟩ } = false := by decide

/-- A management queue of port 0 with one entry: an opcode and its arguments. -/
def entry (op : Nat) (args : List Nat) : List Byte :=
  padTo 64 (leBytes 8 op ++ args.flatMap (leBytes 8))
def hq : HostQ :=
  { ring := 0x100000, n := 4, cpl := 0x1000, m := 4, hostKey := 7, dbKey := 9, tail := 1, head := 0, cplCount := 0, consumed := 0,
    stopped := false, cpls := [] }
def mgmtQ : QRef := { port := 0, mgmt := true, q := 0 }
def dataQ : QRef := { port := 0, mgmt := false, q := 3 }
/-- The queue `q` served in phase 8, with the entry, and with the cells `pre` of LPDDR5X below the ring. -/
def served (q : QRef) (op : Nat) (args : List Nat) (pre : SMap Byte) : State :=
  { wr State.reset mgPg mg_PHASE 8 with
    entered := true, queues := [(qref q, some hq)], lp := pre ++ memWrite [] 0x100000 (entry op args),
    qps := [(if q.mgmt then 0x10 else 0x103, { st := .ready, retries := 0, rnr := 0, rate := 0 })] }

theorem witness_entry_data : EntryRuns (served dataQ 0x01 [] []) dataQ 0x01 hq (entry 0x01 []) := by constructor <;> first | decide | exact ⟨by decide, by decide⟩
/-- The signed header of a program image at address 0 for the grade at reset, its signature, and the directory of its body:
the one section of digests, which are zeros. -/
def imageDigest : List Byte := (leBytes 64 0xB19FE6793D20ADDCC7E73E66627638A8FB58FA31282EB6EDCB8C2AA048C3CCE8F5E832D3FA1E3BF874BCCE845CAF938DA5F77BE779035A06F8B97AAD51B2CA10).reverse
def imageHead : List Byte :=
  [0x4A, 0x54, 0x38, 0x36, 0x30, 0x49, 0x4D, 0x47] ++ leBytes 2 1 ++ leBytes 1 State.reset.grade ++ leBytes 1 1
    ++ leBytes 2 State.reset.ntiles ++ leBytes 1 State.reset.ncols ++ leBytes 1 32 ++ leBytes 4 0x500000 ++ leBytes 1 32
    ++ [8, 4, 16, 32, 8, 8, 48, 16, 4] ++ leBytes 2 0x4000 ++ leBytes 2 64 ++ leBytes 2 1024 ++ leBytes 24 0
    ++ leBytes 4 69696 ++ imageDigest ++ leBytes 128 0
def imageSig : List Byte :=
  sigOf 0xA0CC7868E885501F6BC6895A90C5FC8F7AE2C68FFD450D81751338045942FDE0567684DB52B8B3E05484987741A958E9EBF90F1CE3C3A202E91959059FF797BAC30B219AC42DF86E311A30184D170D0252A781E0A0ED59949A45964B2B6F205764CBCE5E7C71CD6D18004073E8DE3C71C24090FB5BC006CF9579491F9E0E9DBBD35113D05FD81A2B26988FFA97D24F35E6817A8EABEAC516D18B79516076D0F6F1E6FD7449465A642D61599C89F5E7DCEB836D0FA06636140428EB02258D8B91D31CE7C0B9E30C3528856F3AACD2CCDD2E3A7F4E2C7F7551932FEC0FD0168139C2F6097B64EAAC2213F4162F5A09836DBC447D79D9F8C70EE7D86B4C49A77F95E123C73F6FC5FB37E36AAD7AA0A099B02C4D8E8560B5112218052179FFE9DA166B64E617785FEFE301ABEA0C107066E411C497FBCC36DF9B5908DB2CE7FEBA557B68B3EDFA422DF6F5975E15832D02F09CB3669BF442726077F79127763D53570E427E8CABAB55077E4E8DB98C3C9A72CAEB982E8471BFA6084C86B125CA2ACC8A32A783DC9276359594EDDE3905DCE66F30F5941B081441155775807899ACF79A5828A987E2FCD3F1C73D782A60F3F22B2BCEFEA72304E8486F5F7A2F26199DA1BDB54CB9A05C65558231D132543F7DD3576AC3AC6FDA638D1FA7B4CFEE30870D9C48FE4489EAABFA8044D409D223215E43EF8D9D4513BEABAFE46B82E1B43A
def imageDir : List Byte :=
  leBytes 16 1 ++ leBytes 2 7 ++ leBytes 2 0xFFFE ++ leBytes 4 0 ++ leBytes 8 0 ++ leBytes 8 64 ++ leBytes 8 (64 * 1088)
def imageBytes : List Byte := imageHead ++ imageSig ++ imageDir

/-- The bytes of the image's body. -/
def bodyBytes : List Byte := imageDir ++ List.replicate 69648 0

theorem image_digest : digestBytes bodyBytes = imageDigest := by
  have hl : bodyBytes.length = 69696 := by rw [bodyBytes, List.length_append, List.length_replicate]; rfl
  have hp : shaPad bodyBytes = (imageDir ++ List.replicate 80 0) ++ (List.replicate (128 * 543) 0 ++
      (List.replicate 64 0 ++ ((0x80 : Byte) :: List.replicate 47 0 ++ (leBytes 16 557568).reverse))) := by
    rw [shaPad, hl, bodyBytes, show (69648 : Nat) = 80 + (128 * 543 + 64) by decide, ← List.replicate_append_replicate,
      ← List.replicate_append_replicate, show (239 - 69696 % 128) % 128 = 47 by decide, show 8 * 69696 = 557568 by decide]
    simp only [List.append_assoc]
  rw [digestBytes_zeros bodyBytes _ _ 543 hp (by decide +kernel) (by decide +kernel)]
  decide +kernel

/-- The cells of the bytes at an address. -/
def cells (a : Nat) (bs : List Byte) : SMap Byte := ((bs.zipIdx a).map (fun x => (x.2, x.1))).filter (fun c => c.2 != 0)

def loadArgs : List Nat := [0, 0x20000]
def loadState : State :=
  { served mgmtQ 0x44 loadArgs [] with
    lp := cells 0 imageBytes ++ cells 0x100000 (entry 0x44 loadArgs), sec := owned 0 }

theorem witness_entry_load : EntryRuns loadState mgmtQ 0x44 hq (entry 0x44 loadArgs) := by
  constructor <;> first | decide +kernel | exact ⟨rfl, rfl⟩

/-- Part of the bytes just stored. -/
theorem memRead_part (bs : List Byte) (m : SMap Byte) (a o n : Nat) (h : o + n ≤ bs.length) :
    memRead (memWrite m a bs) (a + o) n = (bs.drop o).take n := by
  apply List.ext_getElem
  · simp; omega
  · intro i h1 h2
    have hi : i < n := by simpa using h1
    simp only [memRead, List.getElem_map, List.getElem_range, memByte_memWrite, List.getElem_take, List.getElem_drop]
    rw [if_pos (by omega), List.getD_eq_getElem _ _ (by omega)]
    congr 1; omega

theorem memRead_add (m : SMap Byte) (a n k : Nat) : memRead m a (n + k) = memRead m a n ++ memRead m (a + n) k := by
  simp only [memRead, List.range_add, List.map_append, List.map_map, Function.comp_def, Nat.add_assoc]

theorem load_body : memRead loadState.lp 0x300 69696 = bodyBytes := by
  have h0 : memRead loadState.lp 0x300 48 = imageDir := by decide +kernel
  have h1 : ∀ c ∈ loadState.lp, c.1 < 0x330 ∨ 0x100000 ≤ c.1 := by decide +kernel
  have h2 : memRead loadState.lp 0x330 69648 = List.replicate 69648 0 := by
    refine List.eq_replicate_iff.mpr ⟨by rw [memRead, List.length_map, List.length_range], fun b hb => ?_⟩
    obtain ⟨i, hi, rfl⟩ := List.mem_map.mp hb
    have hi := List.mem_range.mp hi
    exact smGet_of_notMem _ _ (fun c hc => by have := h1 c hc; omega)
  rw [show (69696 : Nat) = 48 + 69648 by decide, memRead_add, h0, show 0x300 + 48 = 0x330 by decide, h2, bodyBytes]

theorem load_signed : ownerSigned (taken loadState mgmtQ hq) 0 key = true := by
  have h : pssVerify key imageHead imageSig = true := by decide +kernel
  have h1 : memRead (taken loadState mgmtQ hq).lp 0 256 = imageHead := by decide +kernel
  have h2 : memRead (taken loadState mgmtQ hq).lp (0 + 0x100) 512 = imageSig := by decide +kernel
  have h5 : (taken loadState mgmtQ hq).sec = owned 0 := rfl
  have h3 : ownerHash (taken loadState mgmtQ hq) = digestBytes key := by rw [ownerHash, h5, owned]
  have h4 : (taken loadState mgmtQ hq).sec.owner.isSome = true := rfl
  rw [ownerSigned, h1, h2, h3, h4, signedBy_key h]; rfl

theorem load_digest : bodyDigestOk (taken loadState mgmtQ hq) 0 = true := by
  have h : img (taken loadState mgmtQ hq) 0 0x3C 4 = 69696 := by decide +kernel
  have h2 : memRead (taken loadState mgmtQ hq).lp (0 + 0x40) 64 = imageDigest := by decide +kernel
  rw [bodyDigestOk, h, h2, show (0 : Nat) + 0x300 = 0x300 from rfl,
    show memRead (taken loadState mgmtQ hq).lp 0x300 69696 = bodyBytes from load_body, image_digest]
  exact beq_self_eq_true _

/-- The image passes every check; without its key the reason is 2. -/
theorem witness_LoadsAndTransfers : loadState.mgmtBusy = none ∧ loadState.sec.owner.isSome = true
    ∧ 8 ≤ rd loadState mgPg mg_PHASE ∧ loadState.stopped = false ∧ LpGood loadState 0 0x20000
    ∧ inLp (arg (entry 0x44 loadArgs) 0) (arg (entry 0x44 loadArgs) 1) = true
    ∧ headReason (taken loadState mgmtQ hq) 0 0x20000 key = 0
    ∧ bodyReason (taken loadState mgmtQ hq) 0x300 (img (taken loadState mgmtQ hq) 0 0x3C 4) = 0
    ∧ headReason (taken loadState mgmtQ hq) 0 0x20000 [] ≠ 0
    ∧ rd (wr loadState mgPg mg_PHASE 7) mgPg mg_PHASE < 8 ∧ ({ loadState with sec := State.reset.sec } : State).sec.owner = none := by
  refine ⟨rfl, rfl, by decide +kernel, rfl, ⟨rfl, rfl⟩, by decide, ?_, by decide +kernel, ?_, by decide +kernel, rfl⟩
  · unfold headReason
    rw [if_neg (by decide), if_neg (by decide +kernel), if_neg (not_not.mpr load_signed)]
    rw [if_neg (not_or.mpr ⟨by decide +kernel, not_not.mpr load_digest⟩)]
    decide +kernel
  · have h : ownerSigned (taken loadState mgmtQ hq) 0 [] = false := by
      have h1 : pssVerify [] (memRead (taken loadState mgmtQ hq).lp 0 256) (memRead (taken loadState mgmtQ hq).lp (0 + 0x100) 512)
          = false := by rw [pssVerify]; rfl
      rw [ownerSigned, signedBy, h1]; simp
    unfold headReason
    rw [if_neg (by decide), if_neg (by decide +kernel), h]
    decide

/-- A transfer to tile 0 of one section of 8 bytes for its data store, with its digest. -/
def xfer (round : Nat) (have_ : List (Tile × Nat)) : Xfer :=
  { addr := 0, len := 0x2000, round := round, targets := [0], have_ := have_, answered := [] }
def loading (x : Xfer) (digest : List Byte) : State :=
  { State.reset with
    lp := memWrite [] 0x300 (leBytes 16 2 ++ leBytes 2 2 ++ leBytes 2 0 ++ leBytes 4 0 ++ leBytes 8 0 ++ leBytes 8 192 ++ leBytes 8 8
      ++ leBytes 2 7 ++ leBytes 2 0xFFFE ++ leBytes 4 0 ++ leBytes 8 0 ++ leBytes 8 128 ++ leBytes 8 64 ++ leBytes 48 0 ++ digest),
    xfer := some x, net := [.segment [0] 0 [], .endRound 0 7] }

set_option maxRecDepth 4000 in
theorem witness_LoadsAndTransfers_transfer : let s := fun x => loading x []
    (0 : Tile).toNat < (s (xfer 7 [])).ntiles ∧ 0 ∈ (xfer 7 []).targets
    ∧ 0 ∈ missing (s (xfer 7 [])) (xfer 7 []) 0 ∧ missing (s (xfer 7 [(0, 0)])) (xfer 7 [(0, 0)]) 0 = []
    ∧ reported (xfer 7 []) 0 = false ∧ (xfer 7 []).round < 8 ∧ (s (xfer 7 [])).tileOff 0 = false
    ∧ (s (xfer 7 [])).net.find? (segFor 0 0) = some (.segment [0] 0 []) ∧ (s (xfer 7 [])).net.find? (segFor 0 1) = none
    ∧ ((s (xfer 7 [])).net.find? (endFor 0)).isSome = true ∧ (s (xfer 7 [])).net.find? (endFor 1) = none
    ∧ (xfer 7 []).targets.filter (fun t => !reported (xfer 7 []) t) = [0] ∧ LpGood (s (xfer 7 [])) 0 0x2000
    ∧ reported { xfer 7 [] with answered := [(0, .digestOk)] } 0 = true
    ∧ ({ xfer 7 [] with answered := [(0, .digestOk)] } : Xfer).targets.filter
        (fun t => !reported { xfer 7 [] with answered := [(0, .digestOk)] } t) = []
    ∧ (at0 State.reset (fun ts => { ts with off := true })).tileOff 0 = true
    ∧ (0 : Tile).toNat < (at0 State.reset (fun ts => { ts with off := true })).ntiles := by
  unfold LpGood; decide

/-- The laggard of a row that has a spare, and the one of a row that has none. -/
theorem witness_LoadsAndTransfers_laggard : (¬ ∃ y ∈ [(0 : Tile)].map (fun t => t.toNat / State.reset.ncols),
      spareLeft State.reset y < ([(0 : Tile)].filter (fun t => t.toNat / State.reset.ncols == y)).length)
    ∧ ∃ y ∈ [(0 : Tile)].map (fun t => t.toNat / State.reset.ncols),
      spareLeft { State.reset with fuses := { State.reset.fuses with c0 := { FuseCopy.reset with rowBad := [(0, 0xF)] } } } y
        < ([(0 : Tile)].filter (fun t => t.toNat / State.reset.ncols == y)).length := by decide +kernel

/-- The payload of eight zero bytes has its digest, and not another one. -/
theorem witness_LoadsAndTransfers_payload :
    let d : List Byte := (leBytes 64 0x1B7409CCF0D5A34D3A77EAABFA9FE27427655BE9297127EE9522AA1BF4046D4F945983678169CB1A7348EDCAC47EF0D9E2C924130E5BCC5F0D94937852C42F1B).reverse
    let ok := fun b => payloadOk (loading (xfer 7 [(0, 0)]) b) 0x300 (xferSecs (loading (xfer 7 [(0, 0)]) b) (xfer 7 [(0, 0)])) 0
    ok d = true ∧ ok [] = false := by decide +kernel

/-- An image whose first line is bad. -/
theorem witness_LoadsAndTransfers_bad : lpIsBad { loadState with lpBad := [0] } 0 0x20000 = true
    ∧ inLp (arg (entry 0x44 loadArgs) 0) (arg (entry 0x44 loadArgs) 1) = true := by decide

/-! ### Witnesses: recovery and stow -/

/-- A commit record of step 4 with an empty section table. -/
def recBody : List Byte := leBytes 8 keepMagic ++ leBytes 8 0 ++ leBytes 8 4 ++ leBytes 32 0 ++ digestBytes []
def commitRec : List Byte := recBody ++ leBytes 8 (recCheck recBody)
/-- The record at address 0, where the home region and the keep region lie. -/
def kept : State :=
  { (List.range 4).foldl (fun s i => wr s (lkPg (28 + i)) lk_STATUS_STATE stActive) (wr State.reset (lpPg 0) lp_TK_SIZE 32) with
    lp := memWrite [] 0 commitRec, jobCommit := 4,
    recovery := some { code := 0, drained := true, second := none, again := false, stuck := false } }

theorem kept_home : homeRec kept 4 = some 0 := by decide +kernel

theorem witness_RecoveryAndDetach :
    kept.recovery = some { code := 0, drained := true, second := none, again := false, stuck := false }
    ∧ kept.pairTest = [] ∧ kept.homeFetch = none ∧ homeRec kept kept.jobCommit = some 0 ∧ homeRec State.reset 0 = none
    ∧ 0 < rd (wr State.reset twPg tw_HOME_SIZE 1) twPg tw_HOME_SIZE :=
  ⟨rfl, rfl, rfl, kept_home, by decide, by decide⟩

theorem witness_RecoveryAndDetach_healthy : twinHealthy kept = true ∧ twinHealthy State.reset = false
    ∧ (∀ i, i < 2 → recValid State.reset (homeBase State.reset) i = false
        ∨ recStep State.reset (homeBase State.reset) i ≠ State.reset.jobCommit) := by decide +kernel

set_option maxRecDepth 4000 in
theorem witness_RecoveryAndDetach_hold : rd State.reset gsPg gs_JOB_HOLD = 0 ∧ State.reset.recovery = none ∧ isDrained kept = true
    ∧ (softRetired State.reset).contains (State.reset.ptile 0) = false ∧ 0 < spareLeft State.reset (State.reset.ptile 0 / 36)
    ∧ State.reset.repairN < 65536 := by decide

/-- The fault is contained, and no fault or one of severity ERROR is the newest; an open collective is in flight. -/
theorem witness_RecoveryAndDetach_contained : isContained kept = true ∧ kept.failSafe = none ∧ (newestFault kept).1 = 0
    ∧ (newestFault { kept with logQ := [{ sev := 3, code := 0x0004, source := 0, payload := [], cycle := 0 }] }).1 ≠ 0
    ∧ isContained (wr kept (tlPg 0) tl_STATUS_FENCED 1) = false ∧ isDrained { kept with cx := [grp 6] } = false
    ∧ ({ trainFail := [], badLines := [], badRows := [] } : B3Obs).badRows = [] ∧ ({ fails := [], katFail := [] } : B4Obs).fails = []
    ∧ kept.stopped = false ∧ programRuns kept = false ∧ programRuns (run []) = true := by decide +kernel

/-- A row without a spare, and a tile whose retirement the repair log holds. -/
def spent : State := { State.reset with fuses := { State.reset.fuses with c0 := { FuseCopy.reset with rowBad := [(0, 0xF)] } } }
def retired : State := { State.reset with repairN := 1, flash := memWrite [] repairBase (repairBytes 1 (State.reset.ptile 0) 0 0) }

set_option maxRecDepth 8000 in
theorem witness_RecoveryAndDetach_spares : spareLeft spent (spent.ptile 0 / 36) = 0
    ∧ (softRetired spent).contains (spent.ptile 0) = false ∧ (softRetired retired).contains (retired.ptile 0) = true := by decide

/-! ### Stow and resume -/

def stowArgs : List Nat := [1, 2 ^ 30]

theorem witness_entry_stow : EntryRuns (served mgmtQ 0x46 stowArgs []) mgmtQ 0x46 hq (entry 0x46 stowArgs) := by
  constructor <;> first | decide | exact ⟨by decide, by decide⟩

/-- The area is good; the keep region in its place makes it bad; an unaligned address is none. -/
theorem witness_StowsAndResumes : let s := served mgmtQ 0x46 stowArgs []
    s.mgmtBusy = none ∧ arg (entry 0x46 stowArgs) 1 % 2 ^ 30 = 0 ∧ inLp (arg (entry 0x46 stowArgs) 1) areaBytes = true
      ∧ areaBad (taken s mgmtQ hq) (2 ^ 30) = false ∧ s.nextStitch < arg (entry 0x46 stowArgs) 0
      ∧ arg (entry 0x46 stowArgs) 0 ≤ ({ s with nextStitch := 1 } : State).nextStitch
      ∧ areaBad (taken (wr s (lpPg 0) lp_TK_SIZE 32) mgmtQ hq) (2 ^ 30) = true ∧ (2 ^ 30 + 64) % 2 ^ 30 ≠ 0
      ∧ inLp (2 ^ 39 - 2 ^ 30) areaBytes = false := by decide

/-- The one tile with a program waits in its handler for the stow and has reported; nothing is in flight. -/
def stowing : State :=
  { wr (handler []) (tlPg 0) tl_CAUSE cStow with stowReq := some { k := 1, area := 2 ^ 30 }, stowTold := [0] }

theorem witness_StowsAndResumes_save : stowing.stowReq = some { k := 1, area := 2 ^ 30 } ∧ stowReady stowing = true
    ∧ stowReady { stowing with stowTold := [] } = false := by decide +kernel

/-- No spool holds an error; and the last word of the spool of tile 0 does. -/
theorem witness_StowsAndResumes_spools : (∀ u, u < stowing.ntiles → SpGood stowing (stowing.ptile u) 0 0x500000)
    ∧ ∃ u, u < stowing.ntiles ∧ spIsBad { stowing with spoolBad := [stowing.ptile 0 * 0x100000 + 0x9FFFF] } (stowing.ptile u) 0 0x500000
        = true := by
  refine ⟨fun _ _ => ⟨rfl, rfl⟩, 0, ?_⟩
  decide +kernel

/-- A stow header at 2^30 for the image in force, the shape of no manifest and an area of zeros. -/
def headerTop : List Byte := stowMagic ++ leBytes 24 0 ++ List.replicate 64 0
@[irreducible] def header : List Byte :=
  headerTop ++ (digestBytes (leBytes 3 0)
    ++ digestBytes (memRead (memWrite [] 0x100000 (entry 0x47 [2 ^ 30])) (2 ^ 30 + 0x100) (areaBytes - 0x100)))
def resuming : State :=
  { served mgmtQ 0x47 [2 ^ 30] [] with
    lp := memWrite (memWrite [] 0x100000 (entry 0x47 [2 ^ 30])) (2 ^ 30) header, image := some (List.replicate 256 0, 0, 0x400) }

theorem header_length : header.length = 224 := by
  unfold header
  rw [List.length_append, List.length_append, digestBytes_length, digestBytes_length]; rfl

theorem header_top (o n : Nat) (h : o + n ≤ 96) : (header.drop o).take n = (headerTop.drop o).take n := by
  have hl : headerTop.length = 96 := by decide
  unfold header
  rw [List.drop_append_of_le_length (by omega), List.take_append_of_le_length (by rw [List.length_drop]; omega)]

theorem resuming_entry : memRead resuming.lp 0x100000 64 = entry 0x47 [2 ^ 30] := by
  show memRead (memWrite (memWrite [] 0x100000 (entry 0x47 [2 ^ 30])) (2 ^ 30) header) 0x100000 64 = _
  rw [memRead_memWrite_disjoint _ _ _ _ _ (Or.inl (by omega))]
  decide

set_option maxRecDepth 4000 in
theorem witness_entry_resume : EntryRuns resuming mgmtQ 0x47 hq (entry 0x47 [2 ^ 30]) where
  queue := rfl
  served := rfl
  running := rfl
  waiting := by decide
  entry := resuming_entry
  readable := ⟨rfl, rfl⟩
  order := by decide
  opcode := by decide
  known := rfl
  free := rfl
  clean := rfl
  tailed := rfl

set_option maxRecDepth 4000 in
theorem witness_StowsAndResumes_resume : LpGood resuming (arg (entry 0x47 [2 ^ 30]) 0) areaBytes ∧ resuming.mgmtBusy = none ∧ arg (entry 0x47 [2 ^ 30]) 0 % 2 ^ 30 = 0
    ∧ inLp (arg (entry 0x47 [2 ^ 30]) 0) areaBytes = true ∧ resumeReason (taken resuming mgmtQ hq) (2 ^ 30) = 0 := by
  have hp : ∀ o n, o + n ≤ 224 → memRead (taken resuming mgmtQ hq).lp (2 ^ 30 + o) n = (header.drop o).take n :=
    fun o n h => memRead_part header _ (2 ^ 30) o n (by rw [header_length]; exact h)
  have h0 : memRead (taken resuming mgmtQ hq).lp (2 ^ 30) 8 = stowMagic := by
    rw [show (2 : Nat) ^ 30 = 2 ^ 30 + 0 from rfl, hp 0 8 (by omega), header_top 0 8 (by omega)]; rfl
  have h1 : memNat (taken resuming mgmtQ hq).lp (2 ^ 30 + 8) 8 = 0 := by
    rw [memNat, hp 8 8 (by omega), header_top 8 8 (by omega)]; rfl
  have h2 : memRead (taken resuming mgmtQ hq).lp (2 ^ 30 + 0x20) 64 = List.replicate 64 0 := by
    rw [hp 0x20 64 (by omega), header_top 0x20 64 (by omega)]; rfl
  have h3 : memRead (taken resuming mgmtQ hq).lp (2 ^ 30 + 0x60) 64 = digestBytes (leBytes 3 0) := by
    rw [hp 0x60 64 (by omega)]; unfold header
    rw [List.drop_left' (by decide), List.take_left' (digestBytes_length _)]
  have h4 : shapePart (taken resuming mgmtQ hq) = leBytes 3 0 := by
    have hm : manMods (taken resuming mgmtQ hq) = 0 := rfl
    simp only [shapePart, hm, List.range_zero, List.filter_nil]
    have : (List.range 0xFFFF).flatMap (fun _ => ([] : List Nat)) = [] := by simp
    rw [this]; rfl
  have h5 : jobId (taken resuming mgmtQ hq) = 0 := rfl
  have h6 : bodyDigest (taken resuming mgmtQ hq) = List.replicate 64 0 := by decide
  have h7 : memRead (taken resuming mgmtQ hq).lp (2 ^ 30 + 0x100) (areaBytes - 0x100)
      = memRead (memWrite [] 0x100000 (entry 0x47 [2 ^ 30])) (2 ^ 30 + 0x100) (areaBytes - 0x100) :=
    memRead_memWrite_disjoint _ (2 ^ 30) _ _ header (Or.inr (by rw [header_length]; omega))
  have h8 : memRead (taken resuming mgmtQ hq).lp (2 ^ 30 + 0xA0) 64
      = digestBytes (memRead (memWrite [] 0x100000 (entry 0x47 [2 ^ 30])) (2 ^ 30 + 0x100) (areaBytes - 0x100)) := by
    rw [hp 0xA0 64 (by omega)]; unfold header
    rw [← List.append_assoc, List.drop_left' (by rw [List.length_append, digestBytes_length]; decide),
      List.take_of_length_le (by rw [digestBytes_length])]
  refine ⟨⟨rfl, rfl⟩, rfl, by decide, by decide, ?_⟩
  simp only [resumeReason, h0, h1, h2, h3, h4, h5, h6, h7, h8]
  simp

/-- An area of another image is refused: its header names none. -/
theorem witness_StowsAndResumes_refused :
    resumeReason (taken { resuming with lp := memWrite [] 0x100000 (entry 0x47 [2 ^ 30]) } mgmtQ hq) (2 ^ 30) ≠ 0 := by
  rw [resumeReason, if_pos (by decide)]; decide

/-! ### Witnesses: firmware, manifests and field tests -/

/-- Port 0 up, with a QP in a state. -/
def ethernet (qpn : Nat) (st : QpSt) : State :=
  { wr (wr (wr (wr State.reset (enPg 0) en_ENABLE 1) (enPg 0) en_LINK_UP 1) (enPg 0) en_SENDING_LF 0) ckPg ck_ETH_LOCK 1 with
    qps := [(qpn, { st := st, retries := 6, rnr := 7, rate := 0 })],
    regions := [{ key := 7, base := 0x1000, len := 0x1000, read := true, write := true }], entered := true }

/-- A module whose firmware runs, and one in network recovery, with Ethernet port 0 up. -/
def firm : State := { ethernet 0x10 .idle with fwEntry := some 0 }
def netRec : State := { ethernet 0x10 .idle with netRecovery := some 1 }

/-- A segment, the END and the ACTIVATE of transfer 7, which has one segment. -/
def dgram (ty : Nat) (data : List Byte) : List Byte := xferDatagram ty 0 7 0 1 data
def dgramOf (ty : Nat) (data : List Byte) : Dgram := { type := ty, round := 0, id := 7, index := 0, count := 1, data := data }

theorem witness_FirmwareAndManifests : takeDgram firm 0 1 (dgram 1 [5]) = some (dgramOf 1 [5])
    ∧ takeDgram firm 0 2 (dgram 2 []) = some (dgramOf 2 []) ∧ takeDgram firm 0 4 (dgram 4 []) = some (dgramOf 4 [])
    ∧ takeDgram firm 0 1 (dgram 2 []) = none ∧ takeDgram firm 0 2 [] = none ∧ takeDgram firm 0 4 (dgram 1 [5]) = none
    ∧ takeDgram netRec 0 1 (dgram 1 [5]) = some (dgramOf 1 [5])
    ∧ takeDgram (ethernet 0x10 .idle) 0 1 (dgram 1 [5]) = some (dgramOf 1 [5])
    ∧ takeDgram (ethernet 0x10 .idle) 0 2 (dgram 2 []) = some (dgramOf 2 [])
    ∧ takesFirmware firm = true ∧ takesFirmware netRec = true ∧ takesFirmware (ethernet 0x10 .idle) = false
    ∧ firm.netRecovery = none ∧ netRec.netRecovery.isSome = true ∧ LpGood firm (stageBase firm) (8192 * (dgramOf 2 []).count)
    ∧ 8192 * (16383 + 1) ≤ fwArea ∧ fwArea < 8192 * (16384 + 1) := by
  unfold LpGood; decide

theorem witness_FirmwareAndManifests_activate :
    let x : RxXfer := { id := 7, count := 1, have_ := [0], digestOk := true }
    let s : State := { firm with rxXfer := some x }
    takeDgram s 0 4 (dgram 4 []) = some (dgramOf 4 []) ∧ programRuns s = false ∧ s.rxXfer = some x ∧ x.id = (dgramOf 4 []).id
      ∧ x.digestOk = true ∧ takesFirmware s = true ∧ s.netRecovery = none ∧ LpGood s (stageBase s) (8192 * x.count)
      ∧ programRuns (wr firm (tlPg 0) tl_STATUS_RUNNING 1) = true
      ∧ takeDgram (wr firm (tlPg 0) tl_STATUS_RUNNING 1) 0 4 (dgram 4 []) = some (dgramOf 4 [])
      ∧ (∀ x, firm.rxXfer = some x → x.id ≠ (dgramOf 4 []).id ∨ x.digestOk = false ∨ takesFirmware firm = false
          ∨ firm.netRecovery.isSome = true) := by
  refine ⟨by decide, by decide +kernel, rfl, rfl, rfl, rfl, rfl, ⟨rfl, rfl⟩, by decide +kernel, by decide, fun _ h => by cases h⟩

/-- A manifest of one bolt and this module, which is a spare, and its signature. -/
def topoHead : List Byte :=
  [0x4A, 0x54, 0x54, 0x4F, 0x50, 0x4F, 0x4D, 0x46] ++ leBytes 2 1 ++ leBytes 1 State.reset.grade ++ leBytes 13 0
    ++ [1, 1, 1, 0] ++ leBytes 2 1 ++ leBytes 2 1 ++ leBytes 224 0 ++ leBytes 8 0 ++ List.replicate 8 0xFF
    ++ leBytes 12 0 ++ leBytes 2 0xFFFF ++ leBytes 18 0
def topoSig : List Byte :=
  sigOf 0x6D6CB74560FA9342E5D9DAFFFC5AD84470D0B28EEF1BBBB974E4879B60B39E414F35E0B4DA57EDC42A40DEB8042BD88480F4D72950D36C4F6FF52959A73EC3B7F0F296755ADAFEAE29E2EFB7EC1F512900DB0AD3D0977A6D6A887FBC61F8840141A2369EAAC5A5D5DB69FF0919CA3EDD8B25D49A39688DF795A0D11E7819BBF753074D45D820E868C82ED4E6363905FB0532AE3BAA09C3AA998CA1646E0D950B55EDAF780E07755A963CA2E85BA027C457629AC2726B6F0964532383B2DE561C1A846799E95D680276DC658FC16E5F9AD64296231F6A320E19107E95A97C9C8A5057B94F40B82F41B95962F25DDE409CD72A9CAED038E2BAD7488B4ED06614212465857B820F0C125740E5C161EBF80B4DEEB1BB1DF9BB5B13443A2B37C44CF603F6F96208768422A816E5782EF9F32BF73CD599F0167BB24CE301EDE14A955443067FF67D8AC2C7428AD34BE1F146AF979ED44A94B74E66760A2FEEF639596B595BC40114AE4B3C387832636EFDF2D9D408D4BA52C50CA0FF90C53255A33DBFBF00081570ACDF60F0A8B311712C4BAAF06688DF0DA71DDCE97DE6EC4E9D34F8548A636030F00580ACA09B087F16ED7284312056119EDDAED41968C3AAFE44E4184CB4E95F82122F6ABB7608E4FF7290998C3A1A0DA7CAC00AE32555865C248F3A4CA084F6FEDA8EA147274F95D8E2D1531E0990AD128A82A46F8F54F94B8CA2
def topo : List Byte := topoHead ++ topoSig
def manArgs : List Nat := [0, 816]
def manState : State :=
  { served mgmtQ 0x45 manArgs [] with lp := cells 0 topo ++ cells 0x100000 (entry 0x45 manArgs), sec := owned 0 }

theorem witness_entry_manifest : EntryRuns manState mgmtQ 0x45 hq (entry 0x45 manArgs) := by
  constructor <;> first | decide +kernel | exact ⟨rfl, rfl⟩

theorem witness_FirmwareAndManifests_manifest : manState.mgmtBusy = none ∧ LpGood manState 0 816
    ∧ inLp (arg (entry 0x45 manArgs) 0) (arg (entry 0x45 manArgs) 1) = true
    ∧ arg (entry 0x45 manArgs) 1 ≤ 256 + 16 * 65535 + 32 * 65535 + 512 ∧ memRead manState.lp 0 816 = topo
    ∧ 8 ≤ rd manState mgPg mg_PHASE ∧ rd (wr manState mgPg mg_PHASE 6) mgPg mg_PHASE < 8 ∧ manState.stopped = false
    ∧ manState.sec.owner.isSome = true ∧ lpIsBad { manState with lpBad := [0] } 0 816 = true := by
  unfold LpGood; decide +kernel

theorem topo_signed (s : State) (h : s.sec = owned 0) : manSigned s topo key = true := by
  have h1 : pssVerify key topoHead topoSig = true := by decide +kernel
  have h2 : topo.take (mfLen topo) = topoHead := by decide +kernel
  have h3 : (topo.drop (mfLen topo)).take 512 = topoSig := by decide +kernel
  have h4 : ownerHash s = digestBytes key := by rw [ownerHash, h, owned]
  rw [manSigned, h2, h3, h4, signedBy_key h1]

theorem topo_unsigned (s : State) : manSigned s topo [] = false := by
  rw [manSigned, signedBy, show ∀ m g : List Byte, pssVerify [] m g = false from fun _ _ => by rw [pssVerify]; rfl, Bool.and_false]

/-- The manifest passes every check; with another key the reason is 1. -/
theorem witness_FirmwareAndManifests_reason : manReason (taken manState mgmtQ hq) topo key = 0
    ∧ manReason (taken manState mgmtQ hq) topo [] = 1 := by
  constructor
  · unfold manReason
    rw [if_neg (by decide), if_neg (by decide +kernel), if_neg (not_not.mpr (topo_signed _ rfl))]
    decide +kernel
  · unfold manReason
    rw [if_neg (by decide), if_neg (by decide +kernel), topo_unsigned]
    rfl

/-- Tile 0's test is due at second 0; two hours later its deferral limit of 0 hours has passed. -/
def testing : State :=
  { wr State.reset itPg it_ENABLE 1 with it := [(0, { ItTile.reset with due := some 0 })], releaseDue := true }

theorem witness_FieldTestsAndFailSafe : 0 < 1152 ∧ rd testing itPg it_ENABLE = 1 ∧ (testing.ltile 0).isSome = true
    ∧ (itGet testing 0).due.isSome = true ∧ (itGet testing 0).mxe ≠ 1 ∧ itMayRun testing 5 0 = true ∧ itWhole testing = true
    ∧ 99 < 100 ∧ testing.ltile 0 = some 0 ∧ (0 : Nat) < 2 ^ 11 ∧ (itGet testing 0).forced = false
    ∧ rd testing itPg it_DEFER_H ≤ (rd (wr testing evPg ev_SEC 0xFFFFFFFF) evPg ev_SEC - 0) / 3600
    ∧ itElapsed testing 0 = false ∧ itElapsed (wr testing evPg ev_SEC 0xFFFFFFFF) 0 = true := by decide +kernel

/-- In the window of a running program a slice runs that has its length and 128 cycles left, and no longer one. -/
theorem witness_FieldTestsAndFailSafe_slice :
    let s := wr (wr (wr { testing with releaseDue := false } itPg it_SLICES_EN 1) gsPg gs_JOB_HOLD 1) (tlPg 0) tl_STATUS_RUNNING 1
    itWhole s = false ∧ itMayRun s 5 133 = true ∧ itMayRun s 5 132 = false ∧ min 99 slicePart < 100 := by decide +kernel

/-- The MXE set of tile 0 of the pair (0, 1): the other tile has passed its own, or has not; the pair's last mismatch came
less than 24 hours before. -/
theorem witness_FieldTestsAndFailSafe_pair :
    let x := { ItTile.reset with mxe := 1 }
    let s := fun m => { testing with it := [(0, x), (1, { ItTile.reset with mxe := m })], pairTest := [(0, 1)] }
    let t := fun m => itPut (s m) 0 { x with mxe := 2 }
    (itGet (s 2) 0).mxe = 1 ∧ itWhole (s 2) = true ∧ (t 1).pairTest.filter (pairOver (t 1)) = [] ∧ (s 2).pairTest = [(0, 1)]
      ∧ pairOver (t 2) (0, 1) = true ∧ smGet (fun _ => 0) (s 2).pairs (0 * 2048 + 1) = 0
      ∧ smGet (fun _ => 0) ({ s 2 with pairs := [(1, 1)] } : State).pairs (0 * 2048 + 1) ≠ 0
      ∧ rd (s 2) evPg ev_SEC + 1 - 1 ≤ 86400 ∧ 86400 < rd (wr (s 2) evPg ev_SEC 90000) evPg ev_SEC + 1 - 1
      ∧ (s 2).ltile 1 = some 1 := by decide +kernel

theorem witness_FieldTestsAndFailSafe_failSafe : State.reset.failSafe = none
    ∧ ({ State.reset with failSafe := some true } : State).failSafe = some true
    ∧ lullAllowed { State.reset with failSafe := some true } true = true
    ∧ lullAllowed { State.reset with failSafe := some true } false = false := by decide

/-! ### Witnesses: the logbook -/

/-- The module waits for phase `n` of bring-up. -/
def waits (n : Nat) : State := { wr State.reset mgPg mg_PHASE n with entered := true, fwEntry := some 0 }

/-- A request of severity FATAL whose slot holds an older record, and a record that waits for the mirror. -/
def rec4 (sev : Nat) : LogRec := { seq := 1, sec := 0, subsec := 0, pcycle := 0, flags := sev, code := 0, source := 0, payload := [] }
def logging (old : Nat) : State :=
  { State.reset with logQ := [{ sev := 3, code := 0x0805, source := bbPg, payload := [1], cycle := 0 }],
                     ring := [(1, some (rec4 old))], mirrorQ := [rec4 3] }

theorem witness_RecordsAndLogRegisters : (logging 3).logQ = { sev := 3, code := 0x0805, source := bbPg, payload := [1], cycle := 0 } :: []
    ∧ smGet (fun _ => none) (logging 3).ring (seqAfter (rd (logging 3) evPg ev_HEAD_SEQ) % 2048) = some (rec4 3) ∧ (rec4 3).sev ≤ 3
    ∧ smGet (fun _ => none) (logging 4).ring (seqAfter (rd (logging 4) evPg ev_HEAD_SEQ) % 2048) = some (rec4 4) ∧ 3 < (rec4 4).sev
    ∧ (logging 3).mirrorQ = rec4 3 :: [] ∧ mgmtRuns { logging 3 with fwEntry := some 0 } = true ∧ mgmtRuns State.reset = false
    ∧ ({ logging 3 with evLost := false } : State).evLost = false ∧ State.reset.evLost = true ∧ (logging 3).mirrorHold = false
    ∧ ({ State.reset with optSet := true } : State).optSet = true ∧ State.reset.optSet = false ∧ rd State.reset evPg ev_CAL = 0 ∧ locked State.reset evPg = false
    ∧ rd (wr State.reset evPg ev_CAL 1) evPg ev_CAL = 1 := by decide

theorem witness_ClearedLogStartsAgain : locked State.reset evPg = false := by decide

/-! ### Witnesses: bring-up -/

theorem witness_BringUp : State.reset.entered = false ∧ State.reset.pins.pwrOk = true ∧ State.reset.pins.resetN = true
    ∧ State.reset.pins.heldOff = false ∧ ({ State.reset.pins with heldOff := true } : Pins).heldOff = true ∧ (waits 1).entered = true
    ∧ (∀ n ∈ [1, 2, 3, 4, 5, 6, 7, 8], atPhase (waits n) n = true) ∧ (∀ n ∈ [1, 2, 3, 4, 5, 6, 7, 8], atPhase State.reset n = false)
    ∧ locked (waits 5) mgPg = false ∧ rd (wr (waits 5) mgPg mg_STANDBY_HELD 1) mgPg mg_STANDBY_HELD = 1
    ∧ locked (wr (waits 5) mgPg pg_LOCK 1) mgPg = true ∧ rd (waits 5) mgPg mg_STANDBY_HELD = 0
    ∧ portState (wr (waits 5) (lkPg 63) lk_STATUS_STATE stTrain) 63 = stTrain ∧ (∀ p, p < 64 → portState (waits 5) p ≠ stTrain)
    ∧ hasTime (wr (waits 6) tmPg tm_TSTATE tsLocked) = true ∧ hasTime (waits 6) = false ∧ (1999 : Nat) < 2000
    ∧ (∀ c, c < 64 → c ∉ ({ trainFail := [], badLines := [], badRows := [] } : B3Obs).trainFail)
    ∧ (∃ c, c < 64 ∧ c ∈ ({ trainFail := [63], badLines := [2 ^ 33 - 1], badRows := [] } : B3Obs).trainFail) := by
  refine ⟨rfl, rfl, rfl, rfl, rfl, rfl, ?_, ?_, ?_, ?_, ?_, ?_, ?_, ?_, ?_, ?_, by decide, fun _ _ h => (by cases h), ⟨63, ?_, ?_⟩⟩
  all_goals decide +kernel

/-- What B4 finds: no tile fails, and an input of the BB engine does. -/
theorem witness_BringUp_tiles : ({ fails := [], katFail := [3] } : B4Obs).fails = [] ∧ (waits 4).failed = []
    ∧ (∃ i ∈ ({ fails := [], katFail := [3] } : B4Obs).katFail, i < 4) ∧ (2 ^ 33 - 1 : Nat) < 2 ^ 33
    ∧ (0 : Tile).toNat < (waits 4).ntiles ∧ (2000 : Nat) ≤ 2000 ∧ ({ State.reset with netRecovery := some 1 } : State).netRecovery = some 1
    ∧ State.reset.netRecovery = none :=
  ⟨rfl, rfl, ⟨3, by decide, by decide⟩, by decide, by decide, by decide, rfl, rfl⟩

/-- The fuses at reset are consistent; a copy that differs in its grade is not. -/
theorem witness_BringUp_fuses : firstBadFuse State.reset = none ∧ State.reset.repairN < 65536
    ∧ (65536 : Nat) ≤ ({ State.reset with repairN := 65536 } : State).repairN ∧ State.reset.fuses.voided = false
    ∧ ({ State.reset.fuses with voided := true } : Fuses).voided = true
    ∧ firstBadFuse { State.reset with fuses := { State.reset.fuses with c1 := { FuseCopy.reset with grade := 0x42 } } } = some 0
    ∧ ({ pllLocked := false, badRail := none } : B0Obs).pllLocked = false
    ∧ ({ pllLocked := true, badRail := some (13, 0) } : B0Obs).badRail.isSome = true := by
  decide +kernel

/-- The signed header of a firmware image without a body, and its signature. -/
def fwHead : List Byte :=
  fwMagic ++ leBytes 2 1 ++ leBytes 2 0 ++ leBytes 4 0x01000000 ++ leBytes 4 0x10 ++ leBytes 40 0 ++ leBytes 4 0
    ++ (leBytes 64 0xCF83E1357EEFB8BDF1542850D66D8007D620E4050B5715DC83F4A921D36CE9CE47D0D13C5D85F2B0FF8318D2877EEC2F63B931BD47417A81A538327AF927DA3E).reverse
    ++ leBytes 128 0
def fwSig : List Byte :=
  sigOf 0x1452B281D77C0CFA9421394C83275553C4C35235D0FC91FBACB52D6A84BCBB19F9654EBB6810733610354F2E6905E255834985AC21FAA883F12257DDA380B2C7B6ECFBB487C31650E4787E9E3CF62D388613AD4AA3B1467A81197BAEE28A621E033DCB9859A224F9DA2D70D3C316EEFFAAABEB7F27820D6598C8A62484AD2D2975360718359E424821338B02C44CF564D3DE57B011628A76E1C0C44C31C21A409F5FCBF7D052EC57E25500F3F7F09185A8E9FAFBC991D5CF4DCD447ABEB32DD6A32E4CA1E039669F0D66ABE15471E55C1DD99F0C70BA8CEE7F4C0AEB0D3F8F384A0FC17E676E473D2493B2A1792D6AC2336A6DEFC19A2FC036F066A9039949173BB2E875D1F93B281C73E2ACD20DEF67F1205E483307C02C948C42084ED5D4A7B61977070E9910798FDB8E6D37CB259B90F40A373F8BA46F26AB89358C568ECB29AF551EFC3F423009D6244F8A202C06AE6EBBEA61E39B183F67FD79B023EC5844D82177E4A70E44020243D1698745033B36AF6D188465F521F579DAAFDA1F32DDA8E80BDE1E5AE1D7F32E747E8F5BFEF428115463138123143D217F64EABBB979166EB52FF136BFAA140551EBA2FA1DFBC829936D9903F787B125859DC627EC5D58130CF64EEF6D1A4D4D18B0695746C5E40CCBC0C7FDA2792C7136CD3B875A11F941A6D0233BEC64B14D85FCE93682CDACC21748ED9250F9F6553F1BEAB423

/-- A module in B2 whose flash holds that image, of the vendor whose key is the tests'. -/
def fwState : State := { waits 2 with flash := cells 0 (fwHead ++ fwSig), vendorHash := digestBytes key }

theorem fw_signed (s : State) (hv : s.vendorHash = digestBytes key) (hf : s.flash = cells 0 (fwHead ++ fwSig)) (he : s.fuses.epoch = 0) :
    fwCheck s key = 0 := by
  have h : pssVerify key fwHead fwSig = true := by decide +kernel
  have h1 : memRead (cells 0 (fwHead ++ fwSig)) 0 256 = fwHead := by decide +kernel
  have h2 : memRead (cells 0 (fwHead ++ fwSig)) 0x100 512 = fwSig := by decide +kernel
  have h3 : vendorSigned s (memRead s.flash) key = true := by rw [vendorSigned, hv, hf, h1, h2, signedBy_key h]
  have h4 : fwDigestOk (memRead s.flash) = true := by rw [hf]; decide +kernel
  have h5 : belowEpoch s = false := by rw [belowEpoch, he]; exact decide_eq_false (Nat.not_lt_zero _)
  unfold fwCheck
  rw [if_neg (by rw [hf]; decide +kernel), h3, h4, h5]
  rfl

/-- The image passes, in B2 and in network recovery once it is whole; no image, or another key, does not. -/
theorem witness_BringUp_firmware :
    let r : State := { fwState with netRecovery := some 1, rxXfer := some { id := 7, count := 1, have_ := [0], digestOk := true } }
    atPhase fwState 2 = true ∧ fwCheck fwState key = 0 ∧ fwCheck State.reset key = 1 ∧ fwCheck fwState [] = 2
      ∧ (r.netRecovery.isSome = true ∧ imageComplete r = true ∧ r.failSafe = none) ∧ fwCheck r key = 0
      ∧ (atPhase State.reset 2 = false ∧ ¬ (State.reset.netRecovery.isSome = true ∧ imageComplete State.reset = true
        ∧ State.reset.failSafe = none))
      ∧ sealsOk State.reset = true ∧ sealsOk { State.reset with sec := { State.reset.sec with seals := [0, 0, 0, 1] } } = false := by
  refine ⟨by decide +kernel, fw_signed _ rfl rfl rfl, by decide +kernel, ?_, ⟨rfl, by decide, rfl⟩, fw_signed _ rfl rfl rfl,
    ⟨by decide +kernel, by decide⟩, by decide, by decide⟩
  unfold fwCheck
  rw [if_neg (by decide +kernel), if_pos (Or.inl _)]
  rw [vendorSigned, signedBy, show ∀ m g : List Byte, pssVerify [] m g = false from fun _ _ => by rw [pssVerify]; rfl, Bool.and_false]
  decide

theorem witness_BringUp_manifest :
    let s : State := { waits 7 with manNew := some topo, sec := owned 0 }
    atPhase s 7 = true ∧ (bringMan s).getD [] = topo ∧ manReason s topo key = 0 ∧ manReason s topo [] ≠ 0
      ∧ manPorts topo (entryOf s topo) = [] := by
  refine ⟨by decide +kernel, rfl, ?_, ?_, by decide +kernel⟩
  · unfold manReason
    rw [if_neg (by decide), if_neg (by decide +kernel), if_neg (not_not.mpr (topo_signed _ rfl))]
    decide +kernel
  · unfold manReason
    rw [if_neg (by decide), if_neg (by decide +kernel), topo_unsigned]
    decide

theorem witness_BringUp_run : let s := { wr State.reset mgPg mg_PHASE 8 with image := some ([], 0, 0) }
    locked s mgPg = false ∧ runAllRefused s = false ∧ runAllRefused State.reset = true ∧ (1087 : Tile).toNat < s.ntiles
      ∧ s.tileOff 1087 = false ∧ locked (wr s mgPg pg_LOCK 1) mgPg = true := by decide

/-! ### Witnesses: the host interface and security -/

theorem witness_HostLinksAndRdma_links : rd (ethernet 0x10 .idle) (enPg 0) en_ENABLE = 1 ∧ rd (ethernet 0x10 .idle) ckPg ck_ETH_LOCK = 1
    ∧ ethUp (ethernet 0x10 .idle) 0 = true ∧ cmAccepts (ethernet 0x10 .idle) 0 0x10 mgmtService = true
    ∧ cmAccepts (ethernet 0x10 .idle) 0 0x10 0 = false ∧ (qpGet (ethernet 0x10 .connecting) 0 0x10).st = .connecting
    ∧ (qpGet (ethernet 0x10 .ready) 0 0x10).st ≠ .idle ∧ rd (wr (ethernet 0x10 .ready) (enPg 0) en_ECN_EN 1) (enPg 0) en_ECN_EN = 1
    ∧ (qpGet (ethernet 0x10 .ready) 0 0x10).st = .ready ∧ (qpGet (ethernet 0x10 .ready) 0 0x10).retries < 7
    ∧ (qpGet (ethernet 0x11 .ready) 0 0x10).rnr < 7 ∧ (qpGet (ethernet 0x10 .ready) 0 0x10).rnr = 7 := by decide

/-- Frames at port 0: for its own addresses, for a group and for another station. -/
theorem witness_HostLinksAndRdma_frames : let s := wr (ethernet 0x10 .ready) (enPg 0) en_PFC_EN 1
    let own := BitVec.ofNat 48 (macOf s 0)
    ethUp s 0 = true ∧ ownMac s 0 own = true ∧ ownMac s 0 (BitVec.allOnes 48) = false ∧ (0 : BitVec 32).toNat = ip4Of s 0
      ∧ (1 : BitVec 32).toNat ≠ ip4Of s 0 ∧ mac6Group 0x333300000001#48 = true ∧ mac6Group own = false
      ∧ ownIp s 0 (.v6 (BitVec.ofNat 128 (linkLocal s 0))) = true ∧ ownIp s 0 (.v4 0) = true ∧ ownIp s 0 (.v4 1) = false
      ∧ rd s tmPg tm_PTP_PORT = 0 ∧ rd (wr s tmPg tm_PTP_PORT 1) tmPg tm_PTP_PORT ≠ 0
      ∧ rd s (enPg 0) en_PFC_EN ≠ 0 ∧ rd (ethernet 0x10 .ready) (enPg 0) en_PFC_EN = 0
      ∧ roceSupported s 0 { opcode := 0x0A, qpn := 0x10, len := 1024, ecn := true } = true
      ∧ roceSupported s 0 { opcode := 0x13, qpn := 0x10, len := 0, ecn := false } = false
      ∧ qpReady s 0 0x10 = true ∧ qpReady (ethernet 0x10 .idle) 0 0x10 = false
      ∧ [some 65535].getD (rd s (enPg 0) en_PFC_PRIO) none = some 65535 ∧ ([] : List (Option Nat)).getD (rd s (enPg 0) en_PFC_PRIO) none = none := by
  decide

/-- A frame that is neither answered nor taken: one of another kind. -/
theorem witness_HostLinksAndRdma_discard : let f : EthFrame := { dst := 0, corr := 1, uncorr := 0, kind := .other }
    f.uncorr = 0 ∧ (∀ a, f.kind ≠ .arp a) ∧ (∀ a, f.kind ≠ .nd a) ∧ (∀ d, f.kind ≠ .icmpEcho d) ∧ f.kind ≠ .multicast 19028 ∧ f.kind ≠ .ptp
      ∧ (∀ d, f.kind ≠ .ip d) ∧ (∀ d r, f.kind ≠ .roce d r) ∧ (∀ qs, f.kind ≠ .pfc qs)
      ∧ 0 < ({ f with uncorr := 1 } : EthFrame).uncorr := by
  refine ⟨rfl, ?_, ?_, ?_, ?_, ?_, ?_, ?_, ?_, by decide⟩ <;> intros <;> nofun

/-- A port that is down, and the places where retry counts end. -/
theorem witness_HostLinksAndRdma_down : ethUp State.reset 0 = false ∧ rd State.reset (enPg 0) en_ENABLE = 0
    ∧ rd (ethernet 0x10 .ready) ckPg ck_ETH_LOCK = 1 ∧ rd State.reset ckPg ck_ETH_LOCK = 0
    ∧ (qpGet (ethernet 0x10 .idle) 0 0x10).st ≠ .ready ∧ 7 < (qpGet (ethernet 0x10 .ready) 0 0x10).rnr + 1
    ∧ (qpGet (ethernet 0x10 .ready) 0 0x10).retries + 1 ≤ 7 ∧ (qpGet (ethernet 0x10 .idle) 0 0x10).st = .idle := by decide

/-- The last byte of a region, and the byte after it; a keep region that has come to lie over the region. -/
theorem witness_HostLinksAndRdma_rdma : let s := ethernet 0x10 .ready
    ethUp s 0 = true ∧ qpReady s 0 0x10 = true ∧ doorKey s 0 0x10 7 = none ∧ s.failSafe = none
      ∧ (regionFor s 7 (0x1FFF : BitVec 64).toNat 1 true).isSome = true ∧ regionFor s 7 (0x2000 : BitVec 64).toNat 1 true = none
      ∧ (regionFor s 7 (0x1000 : BitVec 64).toNat 0x1000 false).isSome = true ∧ lpIsBad s 0x1000 0x1000 = false ∧ s.lpWeak = []
      ∧ regionFor s 8 (0x1000 : BitVec 64).toNat 1 false = none ∧ inKeep s 0x1000 0x1000 = false
      ∧ inKeep (wr s (lpPg 0) lp_TK_SIZE 1) 0x1000 1 = true
      ∧ doorKey s 0 0x10 7 = none ∧ ({ s with failSafe := some true } : State).failSafe.isSome = true := by decide

/-- The doorbell page of the management queue of port 0, whose key is 9. -/
theorem witness_HostLinksAndRdma_door :
    doorKey { ethernet 0x10 .ready with queues := [(qref mgmtQ, some hq)] } 0 0x10 9 = some (qref mgmtQ) := by decide

/-- A line of the region that cannot be read: a write of part of it would merge with it. -/
theorem witness_HostLinksAndRdma_bad : let s := { ethernet 0x10 .ready with lpBad := [0x40] }
    ethUp s 0 = true ∧ qpReady s 0 0x10 = true ∧ doorKey s 0 0x10 7 = none ∧ s.failSafe = none
      ∧ (8 : Nat) % 64 ≠ 0 ∧ 0x1000 / 64 = (0x1000 + 8 - 1) / 64 ∧ lpIsBad s 0x1000 8 = true ∧ lpIsBad s 0x1040 64 = false := by
  decide

/-- A queue of sixteen entries in service, with the completions listed. -/
def queueing (cs : List Cpl) (consumed : Nat) : State :=
  { ethernet 0x103 .ready with
    queues := [(qref dataQ, some { hq with tail := 0xFFFFFFFF, head := 0xFFFFFFFF, cplCount := 16, consumed := consumed, cpls := cs })] }
def cpl : Cpl := { tag := 1, status := 0, seq := 0, detail := 0, notify := true, hold := .no, waited := false }

theorem witness_HostQueuesAndRegions : doorOpen (queueing [] 0) dataQ = true
    ∧ queueGet (queueing [] 0) (qref dataQ)
        = some { hq with tail := 0xFFFFFFFF, head := 0xFFFFFFFF, cplCount := 16, consumed := 0, cpls := [] }
    ∧ (15 : BitVec 64).toNat < 2 ^ 32 ∧ ((15 : BitVec 64).toNat + 2 ^ 32 - 0xFFFFFFFF) % 2 ^ 32 ≤ 2 ^ 4
    ∧ 2 ^ 4 < ((16 : BitVec 64).toNat % 2 ^ 32 + 2 ^ 32 - 0xFFFFFFFF) % 2 ^ 32 := by decide

theorem witness_HostQueuesAndRegions_completions : cpl.hold = .no ∧ (queueing [cpl] 1).resetDue ≠ some (qref dataQ)
    ∧ dying (queueing [cpl] 1) (qref dataQ) = false ∧ qpReady (queueing [cpl] 1) 0 (qpnOf 3) = true
    ∧ (16 + 2 ^ 32 - 1) % 2 ^ 32 < 2 ^ 4 ∧ 2 ^ 4 ≤ (16 + 2 ^ 32 - 0) % 2 ^ 32 ∧ cpl.waited = false
    ∧ pfcPaused (queueing [cpl] 1) 0 = false ∧ ({ queueing [cpl] 1 with resetDue := some (qref dataQ) } : State).resetDue = some (qref dataQ)
    ∧ ({ cpl with hold := .queue 0 } : Cpl).hold ≠ .no := by decide

/-- A queue whose destroy command waits in the management queue for its last completion. -/
theorem witness_HostQueuesAndRegions_dying :
    let s := { queueing [cpl] 1 with
      queues := (queueing [cpl] 1).queues ++ [(qref mgmtQ, some { hq with cpls := [{ cpl with hold := .queue (qref dataQ) }] })] }
    dying s (qref dataQ) = true ∧ s.resetDue ≠ some (qref dataQ) ∧ (queueGet s (qref dataQ)).isSome = true
      ∧ qpReady s 0 (qpnOf 3) = true ∧ cpl.hold = .no := by decide

/-- The data of MQ_SETUP: a ring of sixteen entries at 4,096. -/
theorem witness_HostQueuesAndRegions_setup :
    let d := padTo 64 (leBytes 16 0 ++ leBytes 8 0x1000 ++ leBytes 8 0x0404 ++ leBytes 8 0x2000 ++ leBytes 8 7)
    let s := wr (ethernet 0x10 .ready) mgPg mg_PHASE 2
    ethUp s 0 = true ∧ qpReady s 0 0x10 = true ∧ d.length = 64 ∧ badQueue d true = none ∧ s.entered = true
      ∧ 2 ≤ rd s mgPg mg_PHASE := by decide

/-- Queue 5 of port 0 with a ring of sixteen entries; queue 3 of port 1 stands by, empty. -/
def createArgs : List Nat := [0x0500, 0x1000, 0x0404, 0x2000, 7]
theorem witness_entry_create : EntryRuns (served mgmtQ 0x40 createArgs []) mgmtQ 0x40 hq (entry 0x40 createArgs) := by
  constructor <;> first | decide | exact ⟨by decide, by decide⟩
theorem witness_entry_destroy :
    EntryRuns { served mgmtQ 0x41 [0x0300] [] with queues := [(qref dataQ, some { hq with tail := 0 }), (qref mgmtQ, some hq)] }
      mgmtQ 0x41 hq (entry 0x41 [0x0300]) := by constructor <;> first | decide | exact ⟨by decide, by decide⟩
theorem witness_entry_region : EntryRuns (served mgmtQ 0x42 [0x3000, 0x1000, 3] []) mgmtQ 0x42 hq (entry 0x42 [0x3000, 0x1000, 3]) := by
  constructor <;> first | decide | exact ⟨by decide, by decide⟩
theorem witness_entry_regionFree : EntryRuns (served mgmtQ 0x43 [7] []) mgmtQ 0x43 hq (entry 0x43 [7]) := by constructor <;> first | decide | exact ⟨by decide, by decide⟩
theorem witness_entry_reset : EntryRuns (served mgmtQ 0x48 [] []) mgmtQ 0x48 hq (entry 0x48 []) := by constructor <;> first | decide | exact ⟨by decide, by decide⟩

theorem witness_HostQueuesAndRegions_commands : badQueue (entry 0x40 createArgs) false = none
    ∧ queueGet (served mgmtQ 0x40 createArgs []) (argQueue (entry 0x40 createArgs)) = none
    ∧ argQueue (entry 0x41 [0x0300]) = qref dataQ ∧ argQueue (entry 0x41 [0x0300]) ≠ qref mgmtQ ∧ unstarted { hq with tail := 0 } = 0
    ∧ arg (entry 0x42 [0x3000, 0x1000, 3]) 0 % 4096 = 0 ∧ arg (entry 0x42 [0x3000, 0x1000, 3]) 1 % 4096 = 0
    ∧ arg (entry 0x42 [0x3000, 0x1000, 3]) 2 < 4 ∧ inLp 0x3000 0x1000 = true
    ∧ extentKept (served mgmtQ 0x42 [0x3000, 0x1000, 3] []) 0x3000 0x1000 = false
    ∧ rd (served mgmtQ 0x42 [] []) scPg sc_ENT_FAILED = 0 ∧ (served mgmtQ 0x42 [] []).regions.length < 1024
    ∧ rd (wr (served mgmtQ 0x42 [] []) scPg sc_ENT_FAILED 1) scPg sc_ENT_FAILED = 1
    ∧ extentKept (wr (served mgmtQ 0x42 [] []) (lpPg 0) lp_TK_SIZE 1) 0x3000 0x1000 = true := by decide

/-- A definition of each kind that breaks a rule. -/
theorem witness_HostQueuesAndRegions_refused : badQueue (entry 0x40 [0x0504, 0x1000, 0x0404]) false = some 0x08
    ∧ badQueue (entry 0x40 [0x0500, 0x1001, 0x0404]) false = some 0x10 ∧ badQueue (entry 0x40 [0x0500, 0x1000, 0x0403]) false = some 0x18
    ∧ (queueGet (served dataQ 0x40 [] []) (argQueue (entry 0x40 [0x0300]))).isSome = true
    ∧ queueGet (served mgmtQ 0x41 [0x0500] []) (argQueue (entry 0x41 [0x0500])) = none
    ∧ arg (entry 0x42 [1]) 0 % 4096 ≠ 0 ∧ arg (entry 0x42 [0, 1]) 1 % 4096 ≠ 0 ∧ 4 ≤ arg (entry 0x42 [0, 0, 4]) 2
    ∧ inLp (arg (entry 0x42 [2 ^ 39, 4096]) 0) (arg (entry 0x42 [2 ^ 39, 4096]) 1) = false := by decide

/-- A queue with commands that have not started, on a connected queue pair, and on one that is not. -/
theorem witness_HostQueuesAndRegions_destroy :
    let s := { served mgmtQ 0x41 [0x0300] [] with
      queues := [(qref dataQ, some hq), (qref mgmtQ, some hq)], qps := [(0x10, { st := .ready, retries := 0, rnr := 0, rate := 0 }),
        (0x103, { st := .ready, retries := 0, rnr := 0, rate := 0 })] }
    unstarted hq ≠ 0 ∧ qpReady s 0 (qpnOf 3) = true ∧ qpReady (served mgmtQ 0x41 [0x0300] []) 0 (qpnOf 3) = false
      ∧ (queueGet s (qref dataQ)).isSome = true := by decide

/-! The entries of the data commands and of the register, log and region reads. -/

def copyArgs : List Nat := [0x2000, 7, 0x1000, 64]
theorem witness_entry_copyIn : EntryRuns (served dataQ 0x02 copyArgs []) dataQ 0x02 hq (entry 0x02 copyArgs) := by constructor <;> first | decide | exact ⟨by decide, by decide⟩
theorem witness_entry_copyOut : EntryRuns (served dataQ 0x03 copyArgs []) dataQ 0x03 hq (entry 0x03 copyArgs) := by
  constructor <;> first | decide | exact ⟨by decide, by decide⟩
theorem witness_entry_signal : EntryRuns (served dataQ 0x04 [0x10000002F] []) dataQ 0x04 hq (entry 0x04 [0x10000002F]) := by
  constructor <;> first | decide | exact ⟨by decide, by decide⟩
theorem witness_entry_mailbox : EntryRuns (served dataQ 0x05 [0, 0x1000] []) dataQ 0x05 hq (entry 0x05 [0, 0x1000]) := by
  constructor <;> first | decide | exact ⟨by decide, by decide⟩
theorem witness_entry_regRead : EntryRuns (served mgmtQ 0x49 [0x0050000F] []) mgmtQ 0x49 hq (entry 0x49 [0x0050000F]) := by
  constructor <;> first | decide | exact ⟨by decide, by decide⟩
theorem witness_entry_regWrite : EntryRuns (served mgmtQ 0x4A [0x0050000F, 5] []) mgmtQ 0x4A hq (entry 0x4A [0x0050000F, 5]) := by
  constructor <;> first | decide | exact ⟨by decide, by decide⟩
theorem witness_entry_logRead : EntryRuns (served mgmtQ 0x4B [1, 0, 0x2000, 7, 4] []) mgmtQ 0x4B hq (entry 0x4B [1, 0, 0x2000, 7, 4]) := by
  constructor <;> first | decide | exact ⟨by decide, by decide⟩
theorem witness_entry_twinRead :
    EntryRuns (wr (served mgmtQ 0x4C [0, 64, 0x2000, 7] []) (lpPg 0) lp_TK_SIZE 1) mgmtQ 0x4C hq (entry 0x4C [0, 64, 0x2000, 7]) := by
  constructor <;> first | decide | exact ⟨by decide, by decide⟩

/-- Entries that the queue does not run: in a bad line, out of order, with an unknown opcode, with reserved bits. -/
theorem witness_HostDataCommands_entries : let s := served dataQ 0x01 [] []
    let e := entry 0x01 []
    queueGet s (qref dataQ) = some hq ∧ hostServes s dataQ = true ∧ hq.stopped = false ∧ unstarted hq ≠ 0 ∧ LpGood s 0x100000 64
      ∧ lpIsBad { s with lpBad := [0x4000] } (hq.ring + 64 * (hq.head % 2 ^ hq.n)) 64 = true
      ∧ leNat (((padTo 64 (leBytes 56 0x01 ++ [1])).drop 0x38).take 4) ≠ hq.head
      ∧ (opsOf s false).contains 0x06 = false ∧ (opsOf s false).contains 0x01 = true ∧ fenced hq e = false
      ∧ badEntry (entry 0x0401 []) = some 1 ∧ badEntry (entry 0x010001 []) = some 2
      ∧ (badEntry e = none ∧ badTail (leBytes 60 0x01 ++ [1, 0, 0, 0]) = true)
      ∧ fenced { hq with cpls := [cpl] } (entry 0x0101 []) = true := by
  unfold LpGood; decide

/-- A host command whose bytes lie in a bad line, and one whose bytes lie in good ones. -/
theorem witness_HostDataCommands_bad :
    lpIsBad { served dataQ 0x03 copyArgs [] with lpBad := [0x80] } (arg (entry 0x03 copyArgs) 0) (arg (entry 0x03 copyArgs) 3) = true
      ∧ EntryRuns { served dataQ 0x03 copyArgs [] with lpBad := [0x80] } dataQ 0x03 hq (entry 0x03 copyArgs)
      ∧ copyBad { served dataQ 0x03 copyArgs [] with lpBad := [0x80] } (arg (entry 0x03 copyArgs) 0) (arg (entry 0x03 copyArgs) 3) 0x08
          = none
      ∧ lpIsBad (served dataQ 0x02 copyArgs []) (arg (entry 0x02 copyArgs) 2) (arg (entry 0x02 copyArgs) 3) = false
      ∧ lpIsBad (served dataQ 0x05 [0, 0x1000] []) (arg (entry 0x05 [0, 0x1000]) 1) 64 = false ∧ (1 : Nat) ≠ 0
      ∧ arg (entry 0x02 [0x2000, 7, 0x1008, 64]) 2 % 64 ≠ 0 ∧ lpIsBad { served dataQ 0x02 copyArgs [] with lpBad := [0x40] } 0x1008 56 = true
      ∧ copyBad (served dataQ 0x02 copyArgs []) 0x1008 64 0x18 = none ∧ copyBad (served dataQ 0x02 copyArgs []) 0x1000 63 0x18 = some (csBadField, 0x20)
      ∧ copyBad (wr (served dataQ 0x02 copyArgs []) (lpPg 0) lp_TK_SIZE 1) 0x1000 63 0x18 = some (csBadField, 0x18)
      ∧ copyBad (served dataQ 0x02 copyArgs []) (2 ^ 39) 64 0x18 = some (csErrUnmapped, 0) :=
  ⟨by decide, by constructor <;> first | decide | exact ⟨by decide, by decide⟩, by decide, by decide, by decide, by decide,
    by decide, by decide, by decide, by decide, by decide, by decide⟩

theorem witness_HostDataCommands : copyBad (served dataQ 0x02 copyArgs []) (arg (entry 0x02 copyArgs) 2) (arg (entry 0x02 copyArgs) 3) 0x18 = none
    ∧ (List.replicate 64 (1 : Byte)).length = arg (entry 0x02 copyArgs) 3
    ∧ copyBad (served dataQ 0x03 copyArgs []) (arg (entry 0x03 copyArgs) 0) (arg (entry 0x03 copyArgs) 3) 0x08 = none
    ∧ lpIsBad (served dataQ 0x03 copyArgs []) 0x2000 64 = false ∧ sigWordOk (arg (entry 0x04 [0x10000002F]) 0) = true
    ∧ sigWordOk (arg (entry 0x04 [0x2F]) 0) = false ∧ wordRsv (arg (entry 0x05 [0, 0x1000]) 0) = false
    ∧ inLp (arg (entry 0x05 [0, 0x1000]) 1) 64 = true ∧ inKeep (served dataQ 0x05 [0, 0x1000] []) 0x1000 64 = false
    ∧ wordRsv (arg (entry 0x05 [0x40, 0x1000]) 0) = true ∧ inLp (arg (entry 0x05 [0, 2 ^ 39]) 1) 64 = false
    ∧ inKeep (wr (served dataQ 0x05 [0, 0x1000] []) (lpPg 0) lp_TK_SIZE 1) 0x1000 64 = true := by decide

theorem witness_HostDataCommands_registers : let s := served mgmtQ 0x4A [0x0050000F, 5] []
    let e := entry 0x4A [0x0050000F, 5]
    argOff e % 4 = 0 ∧ argPage e = bbPg ∧ pageExists s (argPage e) = true ∧ argOff e ≠ 0x018 ∧ forceAllowed s = false
      ∧ hostWriteRefused s (argPage e) (argOff e) 5 = false
      ∧ argPage (entry 0x4A [lcPg]) = lcPg ∧ pageExists s lcPg = true ∧ argOff (entry 0x4A [lcPg]) ≠ 0x01C
      ∧ arg (entry 0x4B [1, 0, 0x2000, 7, 4]) 0 < 2
      ∧ arg (entry 0x4C [0, 64, 0x2000, 7]) 0 + arg (entry 0x4C [0, 64, 0x2000, 7]) 1 ≤ keepSize (wr s (lpPg 0) lp_TK_SIZE 1)
      ∧ s.failSafe = none ∧ lpIsBad s (keepBase s + 0) 64 = false
      ∧ argOff (entry 0x4A [0x0050000F + 0x100000000 * 0]) % 4 = 0 ∧ 2 ≤ arg (entry 0x4B [2]) 0
      ∧ keepSize s < arg (entry 0x4C [0, 64]) 0 + arg (entry 0x4C [0, 64]) 1
      ∧ forceAllowed (wr s lcPg lc_DEBUG_OPEN 1) = true ∧ hostWriteRefused s lcPg 0x014 5 = true := by decide

theorem witness_entry_package : EntryRuns (served mgmtQ 0x4D [0x1000, 64] []) mgmtQ 0x4D hq (entry 0x4D [0x1000, 64]) := by
  constructor <;> first | decide | exact ⟨by decide, by decide⟩
theorem witness_entry_owner : EntryRuns (served mgmtQ 0x52 [0x1000] []) mgmtQ 0x52 hq (entry 0x52 [0x1000]) := by
  constructor <;> first | decide | exact ⟨by decide, by decide⟩
theorem witness_entry_epoch : EntryRuns (served mgmtQ 0x4E [64] []) mgmtQ 0x4E hq (entry 0x4E [64]) := by
  constructor <;> first | decide | exact ⟨by decide, by decide⟩
theorem witness_entry_transition : EntryRuns (served mgmtQ 0x53 [3, 0x1000] []) mgmtQ 0x53 hq (entry 0x53 [3, 0x1000]) := by
  constructor <;> first | decide | exact ⟨by decide, by decide⟩
theorem witness_entry_token : EntryRuns (served mgmtQ 0x54 [0x1000] []) mgmtQ 0x54 hq (entry 0x54 [0x1000]) := by
  constructor <;> first | decide | exact ⟨by decide, by decide⟩
theorem witness_entry_quote : EntryRuns (served mgmtQ 0x50 [0x1000, 0x2000, 7] []) mgmtQ 0x50 hq (entry 0x50 [0x1000, 0x2000, 7]) := by
  constructor <;> first | decide | exact ⟨by decide, by decide⟩
theorem witness_entry_identity : EntryRuns (served mgmtQ 0x51 [0, 0x2000, 7, 64] []) mgmtQ 0x51 hq (entry 0x51 [0, 0x2000, 7, 64]) := by
  constructor <;> first | decide | exact ⟨by decide, by decide⟩

/-- Signatures, of the tests' key: of a package of 64 zeros, an owner record of counter 2 for that key, authorisations for
the states 3, 4 and 1, and a token of scope 3 for the power cycle and the challenge at reset. -/
def pkgSig : List Byte :=
  sigOf 0x8382F8B63E33879122B59B2EEC4F3009936D761765B5C21A05A7FFB1E557A10042F9AA6F0ED7C9680F0B3B554AD47C67D2817AF661A7EEEB1AAED1F28EDE7508458B58A7918EE444D6D2DAC6F95992D26E5D1712350FC761779305AC8510E51679EB2635759E6DB5B8C602A55AF561C76C252E1A504EBA386DE29DBD14754204EEAF02806B68D3A7049DFEA72A707E83DE17E4898644D3030B882FAFAB382B3619E5F014B9C3DD1769EC37BEF2B54AD472917F7B6D62F430975779FB0D52CB796199676476F336DB89C37D63F92E1348B64B1F01E0777A7206BC7EC33E3DBFFBAC8E0278E0D1C0F902CB334B0C189364DE9959F7C8BFC8E2EEC1ABE76AF46CB0CA21369629EC8871C25B4393953BEF6CC6DE446D33D4880CBD6161CFE6264744EB6BE3E088B478B59F533E9F6231701BC18EBAF7C83616DF44082287035166D5CAE4F6DAAB058A512CE094ADFB3B5F507E36E2A3F5D43831B57268C251B6EABBFEF31D11D512EFE224FFD99290FF10056F98113D1FC5FC3143E3C0DBD35400CE4CB2EF1AD1E4C7E0DD0B6E354DC1DB2F6E9787579FE4A30FD03CD5692B2FBF2B60DC62C98EA1D25BC71CF9407AB76BEAD2021548EF81D93B0671DA956353B3624432A031ED278CD4DC37508A3FEB7A4144BF2780F745B396BFB0700DDC5A4C9F3B4A48A5E8916A6BE873A19B4A086837ADF87DAD0ED1F042C34BCAD4722B0CF6
def ownSig : List Byte :=
  sigOf 0x33F23FCDA0E95E4371BFD94FB75240B5AAC83EEFACF76F531D101ECFEAC3BA67E367F0618535ECF76522ED5B2AD2B310FD71C9BC0126F87BED88BC37F056DDDD38FEBB98E740A77E63375B5BE9216BA7A006EB9E235A57C6ADBEB7EB5C7B2212570A31C7C03E02F9DE0E199036D7A584560700CB3CEAD6B866126B2B30102EC3C180B1617B6F188D7CF3CD672251A64EEABF851236C2C32C63310CE77A1F86B5C80DEA8B9B3ECBC16E3A970AD194B8BF1132B91AF2B5AAE926870F16ADC0CB92C6DA6756AC6F77599581E8D7C4E966FB330E295AB3E69E7B6561F0C43C8B3EF8F60BD4666458B96934C958A1C9BAE5E2419B2EF6F77ADEF54D88534EA2989E78169B22D4DAB45BE38C2494842BE3D0735155F64C091A51B13C1A50C9C0AEE500734F48C19A510168AAA6D6FD8EC812151D46EA70BAE1A85B9E4090A7AE6A78A5EC7C58694FDEEF66099026FD3686517F5C36944D4BB49A7A50C166D9AFE9D62FF5A797EB2BC8BE6B3DD5C1A327132A06DC476259926BAB0B73667EF2C93950610E96541CBF65578FE973F3AF992F1D786CC871E8F01535C4D1C10252CBD5D21BC37DEBA304D84D6E1E0DF07417C8D33C1D5A797D87AEFB0035701D434039D8C90F2E3808D8898748816DFB783D9EFAB3FAB626CEF751A6A08ACA9D936EA09068283E12FA0C6F4E2FB3D9CD1ADEC662C0B54D36606C1DB71777ACE0045D1A3EF3
def auth3Sig : List Byte :=
  sigOf 0x77B87C6CC86E76ECD6E7453908DFBBC208FF8D65B158C25C2F1F6E9EA56C6C8878AB10CE69CE7A5ED005950F353DF5C2277F49D9007AD3751841D60EB7CE18EB4EDFD52BBE504FB69FBDF193114E1C02B4DEFAE807F428C04B4665F9DA8AE3FEE06A6172C6A77FBBB80310CEEF3D9074A495C671D32E6837272328D8BFA7E7D97B20FC31A4D6D69F6BA97B61FE08A42831B2666D7FC367A374C7DA71E5AC4655F1C480F989BA46C568827A6CBAD5A02958C8FEE4A7344EE59030D102157513B77556C1980FEE69D5913B81850392AB1949DA013713E906956A724ECC744C34DBDE6AE7043743DC90744997F79C4A3104162AD034B407C017FF75EC890C52BEAC84348B2C31D8788C30E48B7EEEB1D6089F7529C5CA2C6429A3D60E8D1B2ED821C2F0A8D69FAA2473C8780ED8C8223D1CB8ED392563BEB7D42F38E39DD553294C1E3C0FADC1D099C0910BC7E5478B9B18127B472464960C63EF3E6B2A898F098860251255E26F00A71DB416FA6612284818537A0CB5187FEFFE9C17ACF010457EBEF44215807C2915AD8674FBD8739FF5C03D4B586722C5DB8E925B0D7EA30B9D5906C31C5F035C9900DB8B576166CAF829CD6D89A5F6E74AF676CB705F5A2257E6CBC909C3393A9FBCF60BD52E29F074BE6706A8BD975226E02D947A995A9AE6E4F12789668A92E276AFB6AF7F459D8068FA067849709F23CE9EA1C9EB4B3F3D
def auth4Sig : List Byte :=
  sigOf 0x93CE1FDA1DB2B2FC74E58533E19663EF3CAE41CA4BE09F86898D293478F284BA7892CE29757A93A5B795D42AE1923CCB1B3638B22A255ACC0505C6968D899DEF0B95DC300A0CDB29EC695424A7B300DA09D40A7149982E6CBF3CE5E294E8F3C25F2A230398FAC8622E195CCA74EFC8CA100C2E418A9DF46E135C4956CB995029A30EE3EFADDABD58E7CA6412F1B403DB84B9584A1438882BECC1FAA120CF230A7CE9FE51B417135301B8570F59E1A267370D739F505C1844669F80C5EC2C0CB1ACE0F34D8E2210DF0008CE808B74C40E062C164E5C9A0E3016895CBE285831684D1A0D47D1DBA970BA467888AAAAC5EC04D8262899CCCAD14E4A575BD6308EB6EF579E9EAF9EA3870AEB5883617CB67B08FB461D7115A0015DEB4AF28D3B460454AA357F51F6FBEBD69D7BDB590E521D9D1933C3DF21224354F8F0BB6E8377860847A26CEB1E94347FBDF095F8C5D4A2369FD88DBC0D12A6BF7936349A00AF290095450A9E3045730CA0B8869E9090EC7933A0ABD339B7EE08937ACA3F5913F4637C8E21454126D129514DE92EF5813B4356AB9DFE1A49C64747A87CF22BDF9BDF5FB6644FDE6B8BFB00BC53697B3A45BBA4337996B4DF3DFCEFA6268C9D6EAC9A40E0633C89B1EDD57320A498BC5479F73AB4805D96BB7590CF83B100567F18138D517C7845A1982E9DE7D02266A1D2D9917444CD3F0F9071E0226E32478000
def auth1Sig : List Byte :=
  sigOf 0x7B68732996B0F53D81D3375E89633227A30AE334CFDC3154F56A8D08DCA553646A5F3414CD111D9FADA88793CF524F9AED0AE82556E9F7CA2ACBFB2CE0D5D516BA27BCEA158851F5379098CFE4AEE9AEB6E962745DAEC3FB5AA17414621BF61BB3A8F19F675D618C75FEF69781DA58EE21CD0BB0EDEF750E248D1C2F7A4AC48095895C6D1414C71C547664307CDB670F708F7C7FECBA4F17BFBD5EE0969DA8554126C7D84BF5661767DC98859E42ABF4490FD62C464A2A29EA42C7EB20F3EB37D0E97BCD5ED861F80AD8EC51A2741A5267398268508B524877E565A04E1ACD5CD81C756BC38E80D88F32FBC79CB0241A69172DF1E4A0747CA0FEC3C2617FA6868B4DC367C38BCF96B9E3EFF568FDC2461C6E708D2BFC9A919404393F561FAE7E94882ADDAD7A738CFF2EE81ADDE08DC547230AAFAE14DE00D31D77E2EC540DEA425A13CAAA3D6459597995AD29D8F552F43721D2F40C170FF847BADF9DB7E10195A89541DB415E26FC9E6C17842D8E236E9A7CBE841211D297CF9FCD842AC4E9C4978FE0D08073671B9F26295EAD17A730E5D9BE1456290C3BB87BBA75B992FD69D32CE3622EA3DB2B9088EBFCE0CE297313B5F75DD856DB0AF141EB188E6D5A82A1F11120C61201767AFB9D4D0F7C7F1E2FD18EDA0C85D99F6081CC682E838B479662754E3DA9D46E66D279135A8445417FB8B8FD89CBEA7245166A523B80B4
def tokSig : List Byte :=
  sigOf 0x3BC56A38997EC18CD3AB3980651582FE2F041260EAE8B224C7FB22DD4F4957F3D3D3031D516BA9155051A7839310F6A014BC358E80C400D9C499B622123D17C40E884ECCC944C21C3B7B05794FEE59EA561851904900D72385E17FBB2FE45E05C110E3610DAB9F3E9FD451E2EADCFE3AFAE9B7EB49154FB693E50AFF1AE148233447B7F081415C4EE70938661DCCF063E06DE425CF224889A9C80CD1A9A4503D50F98D56CC11EF4805C52434A5C34BA4699B1D751DEE41836777910AF0B99BFAC707F19F904D557ED90564A3B5F6394CA63E77357F7A73471C74A0E16122DFCF76A3441C7D92EE0CC099D811FC75C749C4A0BFA2DE962AAD04E6833C039E53B10FACE4B4B66BEF098431BF76B743B5044AEA77B48B8B6D6D6486660A987956BE585E685C9B927E73AC1A615214CCDFA3ADDA219FA16AC7FB73381129006AC47D9F6B9D7F6207187B5F2425012214E8E51558658D1522D9A514C36738A57F36A3454208A31C91266F0D8517AE544F0E98A7996F1780147EFE9D631CEE4C09242EFE517AF79B500698D103457B8932C49D3F16C4270B8A9BAAACF0EF2987D8EDFC05E2FDDE9BC017ACA4167415EA8E21A40A53678CC7490EEE90AA4D6E555FF313730AD1C135DAD369513786AA917D60B7DB07FDAD28993ECBDB91B4CBE68F780E451C6E81310076CA60B38C1AEE88E73B937B89677813A19AFE272F8ADDB35585

def pkg (v : W32) : PkgInfo := { version := v, signed := 64, key := key, sig := pkgSig }
def ownRec : OwnerRec := { dieId := 0, counter := 2, key := key, signer := key, sig := ownSig }
def auth (count target : Byte) (sig : List Byte) : LcAuth := { dieId := 0, lcCount := count, target := target, key := key, sig := sig }
def token : Token := { dieId := 0, pcycle := 0, challenge := List.replicate 16 0, scope := 3, key := key, sig := tokSig }

theorem signedBy_of {k msg sig : List Byte} (hk : k = key) (h : pssVerify k msg sig = true) :
    signedBy (digestBytes key) k msg sig = true := by rw [hk] at h ⊢; exact signedBy_key h

theorem pkg_key (v : W32) : (pkg v).key = key := by simp only [pkg]
theorem ownRec_key : ownRec.key = key := by simp only [ownRec]
theorem ownRec_signer : ownRec.signer = key := by simp only [ownRec]
theorem auth_key (c x : Byte) (g : List Byte) : (auth c x g).key = key := by simp only [auth]
theorem token_key : token.key = key := by simp only [token]

theorem pkg_signed (v : W32) : signedBy (digestBytes key) (pkg v).key (List.replicate 64 0) (pkg v).sig = true := by
  rw [pkg_key, show (pkg v).sig = pkgSig by simp only [pkg]]
  exact signedBy_key (by decide +kernel)
theorem ownRec_pss : pssVerify ownRec.signer (ownerMsg ownRec) ownRec.sig = true := by decide +kernel
theorem auth_by (c x : Byte) (n : Nat) (g : List Byte) (hx : x.toNat = n) (h : pssVerify key (authMsg (auth c x g)) g = true) :
    authBy (digestBytes key) n (some (auth c x g)) = true := by
  rw [authBy, Option.any_some, auth_key, show (auth c x g).sig = g by simp only [auth], signedBy_key h,
    show (auth c x g).target = x by simp only [auth], hx, beq_self_eq_true]
  rfl
theorem auth3_by : authBy (digestBytes key) 3 (some (auth 2 3 auth3Sig)) = true := auth_by _ _ _ _ rfl (by decide +kernel)
theorem auth4_by : authBy (digestBytes key) 4 (some (auth 2 4 auth4Sig)) = true := auth_by _ _ _ _ rfl (by decide +kernel)
theorem auth1_by : authBy (digestBytes key) 1 (some (auth 0 1 auth1Sig)) = true := auth_by _ _ _ _ rfl (by decide +kernel)
theorem token_signed : signedBy (digestBytes key) token.key (tokenMsg token) token.sig = true :=
  signedBy_of token_key (by decide +kernel)

/-- A module of the vendor with the tests' key, whose owner has the same key and the counter given. -/
def vend (op : Nat) (args : List Nat) (counter : Nat) : State :=
  { served mgmtQ op args [] with sec := owned counter, vendorHash := digestBytes key }

theorem vend_owner (op : Nat) (args : List Nat) (n : Nat) : ownerHash (vend op args n) = digestBytes key := by
  rw [ownerHash, vend, owned]

theorem vend_vendor (op : Nat) (args : List Nat) (n : Nat) : (vend op args n).vendorHash = digestBytes key := by unfold vend; rfl

theorem notSigned (held msg sig : List Byte) : signedBy held [] msg sig = false := by
  rw [signedBy, show pssVerify [] msg sig = false from by rw [pssVerify]; rfl, Bool.and_false]

/-- A package that the vendor signed, and one that nobody signed. -/
theorem witness_SignedObjectsAndLifeCycle_package : let s := vend 0x4D [0x1000, 64] 1
    let bytes := memRead s.lp 0x1000 (min 64 itAreaSize)
    s.mgmtBusy = none ∧ inLp 0x1000 64 = true ∧ LpGood s 0x1000 64 ∧ inLp (2 ^ 39) 64 = false
      ∧ lpIsBad { s with lpBad := [0x40] } 0x1000 64 = true
      ∧ signedBy s.vendorHash (pkg 1).key (bytes.take (pkg 1).signed) (pkg 1).sig = true
      ∧ signedBy s.vendorHash [] (bytes.take 64) [] = false
      ∧ rd s itPg it_VER < (pkg 1).version.toNat ∧ (pkg 0).version.toNat ≤ rd s itPg it_VER := by
  have h : (memRead (vend 0x4D [0x1000, 64] 1).lp 0x1000 (min 64 itAreaSize)).take 64 = List.replicate 64 0 := by decide +kernel
  refine ⟨rfl, by decide, ⟨rfl, rfl⟩, by decide, by decide, ?_, notSigned .., by decide, by decide⟩
  rw [show (pkg 1).signed = 64 from rfl, h, vend_vendor]
  exact pkg_signed 1

/-- An owner record above the stored counter, one that is not, and one that its owner did not sign; the first owner's. -/
theorem witness_SignedObjectsAndLifeCycle_owner : let s := vend 0x52 [0x1000]
    recordSigned (s 1) ownRec = true ∧ ownerOk (s 1) ownRec = true ∧ recordSigned (s 2) ownRec = true ∧ ownerOk (s 2) ownRec = false
      ∧ recordSigned (s 1) { ownRec with signer := [] } = false ∧ (s 1).mgmtBusy = none ∧ inLp (arg (entry 0x52 [0x1000]) 0) 64 = true
      ∧ LpGood (s 1) (arg (entry 0x52 [0x1000]) 0) 64 ∧ inLp (arg (entry 0x52 [2 ^ 39]) 0) 64 = false
      ∧ lpIsBad { s 1 with lpBad := [0x40] } 0x1000 64 = true
      ∧ recordSigned { s 1 with sec := State.reset.sec } ownRec = true ∧ ownerOk { s 1 with sec := State.reset.sec } ownRec = true := by
  have h : ∀ n, recordSigned (vend 0x52 [0x1000] n) ownRec = true := fun n => by
    rw [recordSigned, show (vend 0x52 [0x1000] n).sec.owner.isNone = false from rfl, vend_owner]
    exact signedBy_of ownRec_signer ownRec_pss
  have h0 : recordSigned { vend 0x52 [0x1000] 1 with sec := State.reset.sec } ownRec = true := by
    rw [recordSigned, show ({ vend 0x52 [0x1000] 1 with sec := State.reset.sec } : State).sec.owner.isNone = true from rfl, ownRec_key]
    exact signedBy_of ownRec_signer ownRec_pss
  refine ⟨h 1, by decide, h 2, by decide, notSigned .., rfl, by decide, ⟨rfl, rfl⟩, by decide, by decide, h0, by decide⟩

/-- The boundaries of FW_EPOCH. -/
theorem witness_SignedObjectsAndLifeCycle : let s := served mgmtQ 0x4E [64] []
    s.mgmtBusy = none ∧ s.fuses.epoch < arg (entry 0x4E [64]) 0 ∧ arg (entry 0x4E [64]) 0 ≤ 64
      ∧ arg (entry 0x4E [64]) 0 ≤ rd (wr s mgPg mg_FW_VER 0x40000000) mgPg mg_FW_VER / 2 ^ 24 ∧ 64 < arg (entry 0x4E [65]) 0
      ∧ arg (entry 0x4E [0]) 0 ≤ s.fuses.epoch ∧ rd s mgPg mg_FW_VER / 2 ^ 24 < arg (entry 0x4E [64]) 0 := by decide

/-- A module in FIELD whose tiles rest: the return with both authorisations, and without the owner's. -/
theorem witness_SignedObjectsAndLifeCycle_lifeCycle :
    let s := vend 0x53 [3, 0x1000] 1
    let w := some (auth 2 3 auth3Sig)
    let own := s.sec.owner.isSome && authBy (ownerHash s) 3 w
    arg (entry 0x53 [3, 0x1000]) 0 < 256 ∧ lcState s = 2 ∧ s.mgmtBusy = none ∧ programRuns s = false
      ∧ lcAuth s 2 3 own (authBy s.vendorHash 3 w) = some true
      ∧ lcAuth s 2 3 (s.sec.owner.isSome && authBy (ownerHash s) 3 none) (authBy s.vendorHash 3 w) = some false
      ∧ authBound s w = true ∧ authBound s (some (auth 3 3 auth3Sig)) = false ∧ s.fuses.lcCount < 16
      ∧ inLp (arg (entry 0x53 [3, 0x1000]) 1) 64 = true ∧ LpGood s (arg (entry 0x53 [3, 0x1000]) 1) 64
      ∧ inLp (arg (entry 0x53 [3, 2 ^ 39]) 1) 64 = false ∧ lpIsBad { s with lpBad := [0x40] } 0x1000 64 = true
      ∧ (16 : Nat) ≤ ({ s.fuses with lcCount := 16 } : Fuses).lcCount ∧ programRuns (wr s (tlPg 0) tl_STATUS_RUNNING 1) = true
      ∧ lcAuth s 2 1 true true = none := by
  have hv : authBy (vend 0x53 [3, 0x1000] 1).vendorHash 3 (some (auth 2 3 auth3Sig)) = true := by rw [vend_vendor]; exact auth3_by
  have ho : authBy (ownerHash (vend 0x53 [3, 0x1000] 1)) 3 (some (auth 2 3 auth3Sig)) = true := by rw [vend_owner]; exact auth3_by
  refine ⟨by decide, by decide, rfl, by decide +kernel, ?_, ?_, by decide, by decide, by decide, by decide, ⟨rfl, rfl⟩, by decide,
    by decide, by decide, by decide +kernel, by decide⟩
  · rw [ho, hv]; rfl
  · rw [hv]; rfl

/-- Out of FIELD into VOID by the vendor alone, and out of BLANK. -/
theorem witness_SignedObjectsAndLifeCycle_void : let s := vend 0x53 [4, 0x1000] 1
    let z := { s with fuses := { s.fuses with lcCount := 0 } }
    lcAuth s 2 4 false (authBy s.vendorHash 4 (some (auth 2 4 auth4Sig))) = some true ∧ lcState s = 2 ∧ lcState z = 0
      ∧ lcAuth z 0 1 false (authBy z.vendorHash 1 (some (auth 0 1 auth1Sig))) = some true ∧ rd z scPg sc_ENT_FAILED = 0
      ∧ rd (wr z scPg sc_ENT_FAILED 1) scPg sc_ENT_FAILED = 1 := by
  refine ⟨?_, by decide, by decide, ?_, by decide, by decide⟩
  · rw [vend_vendor, auth4_by]; rfl
  · simp only [vend_vendor]
    rw [auth1_by]; rfl

/-- A command that changes state, while another one runs. -/
theorem witness_SignedObjectsAndLifeCycle_busy :
    let s := { served mgmtQ 0x4E [64] [] with mgmtBusy := some { op := 0x46, key := 0 } }
    s.mgmtBusy.isSome = true ∧ EntryRuns s mgmtQ 0x4E hq (entry 0x4E [64]) :=
  ⟨rfl, by constructor <;> first | decide | exact ⟨by decide, by decide⟩⟩

/-- A token for the die, the power cycle and the challenge at reset, in a module with an owner; the failures. -/
theorem witness_DebugAndIdentity : let s := vend 0x54 [0x1000] 1
    tokenFails s token = none ∧ tokenFails (wr s evPg ev_PCYCLE 1) token = some 1 ∧ tokenFails State.reset token = some 2
      ∧ tokenFails s { token with key := [] } = some 0
      ∧ inLp (arg (entry 0x54 [0x1000]) 0) 64 = true ∧ LpGood s (arg (entry 0x54 [0x1000]) 0) 64 ∧ inLp (arg (entry 0x54 [2 ^ 39]) 0) 64 = false
      ∧ lpIsBad { s with lpBad := [0x40] } 0x1000 64 = true := by
  have h : ∀ s, lcState s = 2 → ownerHash s = digestBytes key → tokenSigned s token = true := fun s hl ho => by
    rw [tokenSigned, if_pos hl, ho]; exact token_signed
  have h2 : ownerHash (wr (vend 0x54 [0x1000] 1) evPg ev_PCYCLE 1) = digestBytes key := by
    exact vend_owner 0x54 [0x1000] 1
  have h3 : tokenSigned (vend 0x54 [0x1000] 1) { token with key := [] } = false := notSigned ..
  refine ⟨?_, ?_, by decide, ?_, by decide, ⟨rfl, rfl⟩, by decide, by decide⟩
  · unfold tokenFails; rw [h _ (by decide) (vend_owner ..)]; decide +kernel
  · unfold tokenFails; rw [h _ (by decide) h2]; decide +kernel
  · unfold tokenFails; rw [h3]; decide +kernel

theorem witness_DebugAndIdentity_quote : let s := served mgmtQ 0x50 [0x1000, 0x2000, 7] []
    rd s scPg sc_ENT_FAILED = 0 ∧ rd (wr s scPg sc_ENT_FAILED 1) scPg sc_ENT_FAILED = 1 ∧ locked s lcPg = false
      ∧ locked (wr s lcPg pg_LOCK 1) lcPg = true ∧ s.lull = false ∧ inLp (arg (entry 0x50 [0x1000, 0x2000, 7]) 0) 32 = true
      ∧ LpGood s 0x1000 32 ∧ inLp (arg (entry 0x50 [2 ^ 39]) 0) 32 = false ∧ lpIsBad { s with lpBad := [0x40] } 0x1000 32 = true := by
  unfold LpGood; decide

/-- A quote of a module in lull mode. -/
theorem witness_entry_quote_lull :
    EntryRuns { served mgmtQ 0x50 [1, 0x2000, 7] [] with lull := true, failSafe := some true } mgmtQ 0x50 hq (entry 0x50 [1, 0x2000, 7]) := by
  constructor <;> first | decide | exact ⟨by decide, by decide⟩

/-! ### Witnesses: registers, power and pins -/

theorem witness_RegisterPagesKeepTheirRules : locked State.reset dlPg = false ∧ locked State.reset evPg = false
    ∧ locked (wr State.reset evPg pg_LOCK 1) evPg = true ∧ 2 < 3 ∧ bit (4 : W32).toNat 2 = true
    ∧ bit (regW State.reset evPg pg_FAULT_MASK.off) 2 = false ∧ locked State.reset mgPg = false ∧ bit (8 : W32).toNat 3 = true
    ∧ bit (regW State.reset mgPg pg_FAULT_MASK.off) 3 = false := by decide

theorem witness_RailsAndTemperatures : (inWindow (warnWindow 7) 825 = true ∧ inWindow (warnWindow 7) 824 = false)
    ∧ (inWindow (faultWindow 7) 799 = true ∧ inWindow (faultWindow 7) 798 = false) ∧ (7 : BitVec 3) ≠ 0
    ∧ rd State.reset pwPg pw_CAP_W < 0xFFFF ∧ 0 + 20 < rd State.reset pwPg pw_CAP_W
    ∧ (0 : BitVec 3).toNat = 0 ∧ rd State.reset pwPg pw_CAP_W ≤ 0xFFFF + 20
    ∧ 14 ≤ (14 : BitVec 4).toNat ∧ (atLeastC 0 (rd State.reset thPg th_WARN_C) = false ∧ atLeastC 0 (rd State.reset thPg th_SHUT_C) = false)
    ∧ (13 : BitVec 4).toNat < 14 ∧ atLeastC 32767 (rd State.reset thPg th_WARN_C) = true
    ∧ atLeastC 32767 (rd State.reset thPg th_SHUT_C) = true := by decide

theorem witness_RailsAndTemperatures_loop :
    let s := wr { wr State.reset thPg th_THROT_EN 1 with capReq := true } thPg th_DUTY 44
    (∀ i, i < 16 → -32768 ≤ (List.replicate 16 (0 : Int)).getD i 0 ∧ (List.replicate 16 (0 : Int)).getD i 0 ≤ 32767)
      ∧ (∀ i, i < 14 → atLeastC ((List.replicate 16 (0 : Int)).getD i 0) (rd s thPg th_WARN_C - 3) = false)
      ∧ (∀ i, i < 10 → atLeastC ((List.replicate 16 (0 : Int)).getD i 0) (rd s thPg th_THROT_C - 3) = false)
      ∧ (∃ i, i < 10 ∧ atLeastC ((List.replicate 16 (32767 : Int)).getD i 0) (rd s thPg th_THROT_C) = true)
      ∧ rd s thPg th_THROT_EN = 1 ∧ s.capReq = true ∧ State.reset.capReq = false ∧ rd State.reset thPg th_THROT_EN = 1
      ∧ rd s thPg th_DUTY ≠ 0 ∧ rd State.reset thPg th_DUTY = 0 ∧ atLeastC 32767 42 = true ∧ s.inletEp = false
      ∧ rd (wr s thPg th_THROT_EN 0) thPg th_THROT_EN = 0 ∧ atLeastC 0 42 = false ∧ ({ s with inletEp := true } : State).inletEp = true := by decide

theorem witness_PowerResetAndSmbus : State.reset.pins.stby = true ∧ State.reset.pins.resetN = true ∧ State.reset.pins.main = true
    ∧ ({ State.reset.pins with stby := false } : Pins).stby = false ∧ ({ State.reset.pins with main := false } : Pins).main = false
    ∧ (inWindow (faultWindow 0) 40000 = true ∧ inWindow (faultWindow 0) 39999 = false) ∧ State.reset.smbSlot < 2048
    ∧ 2048 ≤ ({ State.reset with smbSlot := 2048 } : State).smbSlot ∧ ({ State.reset.pins with resetN := false } : Pins).resetN = false
    ∧ rd State.reset evPg ev_CAL = 0 ∧ ({ State.reset with evLost := false } : State).evLost = false ∧ (7 : Nat) < 8 ∧ (0xFFFF : Nat) < 2 ^ 16 := by decide

end Sys2Proof.Tests
end

section
/-! PROOFS. What the answer of a command can be, said once for all of `exec`; and from it which commands stop (R4) and that
no step changes the fused copies (R5). Then a register write that ends a stray interrupt (R544, R545). -/

namespace Sys2Proof.Machine

/-! ### The answer of a command -/

/-- Every form that the answer of a command on `s` takes: a next state with the fuses as they were, a next state with the two
fused copies as they were (R526, R528), or a stop at an operand that names no tile or no unit (R4). -/
inductive Answer (s : State) : Out → Prop where
  | settled (s' : State) : Answer s (done s s')
  | burned (s' : State) : Answer s (doneFuses s s')
  | noTile : Answer s (.fault .noSuchTile)
  | noUnit : Answer s (.fault .noSuchUnit)

theorem answer_ite {s : State} {o o' : Out} {p : Prop} [Decidable p] (h : Answer s o) (h' : Answer s o') :
    Answer s (if p then o else o') := by
  split
  · exact h
  · exact h'

theorem answer_onTile {s : State} {t : Tile} {o : Out} (h : Answer s o) : Answer s (onTile s t o) := answer_ite h .noTile

/-- What a command can answer. One of a tile first asks whether the grade has the tile, and one of another unit whether the
module has the unit; two commands may blow a fuse; every other command takes effect at once. -/
theorem exec_answer (c : Instr) (s : State) : Answer s (exec c s) := by
  cases c with
  -- the control core
  | cAdd | cSub | cAnd | cOr | cXor | cShl | cShr | cSar | cMul | cMulhu | cMulh | cDivu | cRemu | cMin | cMax | cMinu
    | cMaxu | cSextb | cSexth | cSextw | cClz | cPopc | cAddi | cAndi | cOri | cXori | cSel | cShi | cMovz | cMovk
    | cGetu | cCmp | cLfence | cBr | cJal | cJr | cTret | cTrap | cHalt | cSleep | pgRd | pgWr | dmGo | dmFence | sySig
    | sySigi | syWait | syRealign | mbSend | mbRecv | cCmpi | cRdv | predicateAnd | predicateOr | predicateXor
    | predicateAndn | predicateNot | cLdb | cLdh | cLdw | cLdd | cStb | cSth | cStw | cStd | cLld | cLldw | cLst | cLstw
    | syTackArrive | syTackWait | syTackArriveWait =>
    exact answer_onTile (.settled _)
  -- the two engines
  | mxOpen | mxMma | mxClose | mxSt | mxLa | mxLt | mxStt | mxTag | mxDrop | vxAdd | vxSub | vxMul | vxDiv | vxFma
    | vxMin | vxMax | vxSqrt | vxRcp | vxRsqrt | vxExp2 | vxLog2 | vxAbs | vxNeg | vxIadd | vxIsub | vxImul | vxAnd
    | vxOr | vxXor | vxShl | vxShr | vxCmp | vxSel | vxCvt | vxCut | vxUncut | vxLd | vxSt | vxLdt | vxLdc | vxWrt
    | vxWrc | vxBcast | vxBob | vxVred | vxTred | vxTamax | vxRdiff | vxGacc | vxGtacc | vxGdot | vxGrd | vxGcvt
    | vxGcomb | vxGdec | vxEvt | vxPick | vxUset | vxSrctx | vxTrk =>
    exact answer_onTile (.settled _)
  -- the events of a tile
  | syWaitTimeout | realignTimeout | realignOverdue | decision | basteCheck | trapEntry | programStart | globalStall
    | dmaTransferStart | dmaTransferComplete | tileWake | wake | fence | tileRemap | status | signalResponse
    | mailboxResponse | lseResp =>
    exact answer_onTile (.settled _)
  | segment m =>
    cases m with
    | net => exact .settled _
    | noc => exact answer_onTile (.settled _)
  | endRound m =>
    cases m with
    | net => exact .settled _
    | noc => exact answer_onTile (.settled _)
  -- the events of another unit
  | fifoResync | xingErr | itDue | itSlice | itOverdue | laserFail | laserLow | rxLos | scrub =>
    exact answer_ite .noUnit (.settled _)
  | smbLogSlot =>
    exact answer_ite (.settled _) (.settled _)
  | fwEpoch | lcTransition =>
    exact .burned _
  | _ => exact .settled _

/-- An answer stops only where an operand names a tile or a unit that does not exist (R4). -/
theorem Answer.next_or_missing {s : State} {o : Out} (h : Answer s o) :
    (∃ s', o = .next s') ∨ o = .fault .noSuchTile ∨ o = .fault .noSuchUnit := by
  cases h with
  | settled s' => exact .inl ⟨_, rfl⟩
  | burned s' => exact .inl ⟨_, rfl⟩
  | noTile => exact .inr (.inl rfl)
  | noUnit => exact .inr (.inr rfl)

/-- A next state has the queue and the two fused copies of the state that was asked. -/
theorem Answer.next_keeps {s : State} {o : Out} (h : Answer s o) :
    ∀ s', o = .next s' → s'.pending = s.pending ∧ s'.fuses.c0 = s.fuses.c0 ∧ s'.fuses.c1 = s.fuses.c1 := by
  cases h with
  | settled x => rintro _ ⟨⟩; exact ⟨rfl, rfl, rfl⟩
  | burned x => rintro _ ⟨⟩; exact ⟨rfl, rfl, rfl⟩
  | noTile => rintro _ ⟨⟩
  | noUnit => rintro _ ⟨⟩

/-! ### A stop at a missing tile or unit -/

/-- A command of a tile that the grade does not have (R4). -/
theorem exec_noSuchTile (s : State) (t : Tile) (o : ROp) (d : DropOp) (v : VselOp) (h : s.ntiles ≤ t.toNat) :
    ∀ c ∈ [Instr.cAdd t o, .mxDrop t d, .vxSel t v, .trapEntry t .ok, .programStart t, .fence t, .wake t, .syWaitTimeout t],
      exec c s = .fault .noSuchTile := by
  simp only [List.forall_mem_cons]
  have stops : ∀ k : Out, onTile s t k = .fault .noSuchTile := fun k => onTile_of_ge s t k h
  exact ⟨stops _, stops _, stops _, stops _, stops _, stops _, stops _, stops _, List.forall_mem_nil _⟩

/-- A scrub of a physical tile, or of an offset, that no spool has. -/
theorem exec_scrub_noSuchUnit (s : State) (p off : Nat) (e : Ecc) (y : BitVec 8) (h : 1152 ≤ p ∨ 0x500000 ≤ off) :
    exec (.scrub p off e y) s = .fault .noSuchUnit := if_pos h

/-- A field test of a physical tile that the die does not have. -/
theorem exec_it_noSuchUnit (s : State) (p n w : Nat) (e : SliceEnd) (h : 1152 ≤ p) :
    ∀ c ∈ [Instr.itDue p, .itSlice p n w e, .itOverdue p], exec c s = .fault .noSuchUnit := by
  simp only [List.forall_mem_cons]
  exact ⟨if_pos h, if_pos h, if_pos h, List.forall_mem_nil _⟩

/-- An event of a wavelength beyond the nine. -/
theorem exec_wavelength_noSuchUnit (s : State) (g w : BitVec 4) (p : BitVec 6) (h : 9 ≤ w.toNat) :
    ∀ c ∈ [Instr.laserFail g w, .laserLow g w, .rxLos p w], exec c s = .fault .noSuchUnit := by
  simp only [List.forall_mem_cons]
  exact ⟨if_pos h, if_pos h, if_pos h, List.forall_mem_nil _⟩

/-- An event of a crossing beyond the sixteen. -/
theorem exec_crossing_noSuchUnit (s : State) (x : BitVec 8) (h : 16 ≤ x.toNat) :
    ∀ c ∈ [Instr.fifoResync x, .xingErr x], exec c s = .fault .noSuchUnit := by
  simp only [List.forall_mem_cons]
  exact ⟨if_pos h, if_pos h, List.forall_mem_nil _⟩

/-- Settles O4: `exec_answer` gives the form of every answer, and each kind of command tests its operand first. -/
theorem commandsStopOnlyOnMissingUnits : Obligations.CommandsStopOnlyOnMissingUnits := by
  unfold Obligations.CommandsStopOnlyOnMissingUnits
  refine ⟨fun s c => (exec_answer c s).next_or_missing, fun s t o d v h => exec_noSuchTile s t o d v h, fun s => ?_⟩
  exact ⟨exec_scrub_noSuchUnit s, exec_it_noSuchUnit s, exec_wavelength_noSuchUnit s, exec_crossing_noSuchUnit s⟩

/-! ### The fused grade -/

/-- A step, of a command or of an idle cycle, keeps both copies of the fuses (R5, R484). -/
theorem step_keeps_fuseCopies (s s' : State) (h : step s = .next s') :
    s'.fuses.c0 = s.fuses.c0 ∧ s'.fuses.c1 = s.fuses.c1 := by
  unfold step at h
  split at h
  case h_1 => exact ((Answer.settled (tick s)).next_keeps s' h).2
  case h_2 c rest _ => exact ((exec_answer c { s with pending := rest }).next_keeps s' h).2

/-- The columns of either grade fit the field LCOLS (R4, R505). -/
theorem ncols_lt (s : State) : s.ncols < 2 ^ 8 := by
  unfold State.ncols
  split <;> omega

/-- The grade, the columns and the rows stand in the first word of the FZ page, above each other (R505). -/
theorem pageRead_fzGrade (s : State) :
    (pageRead s fzPg 0x040).1 = s.fuses.c0.grade.toNat * 2 ^ 16 + s.ncols * 2 ^ 8 + 0x20 := rfl

/-- Settles O5: no answer reaches the copies of the fuses, and FZ shows GRADE of the first. -/
theorem gradeIsFused : Obligations.GradeIsFused := by
  unfold Obligations.GradeIsFused
  refine ⟨step_keeps_fuseCopies, fun s => ?_⟩
  have hcols := ncols_lt s
  have hgrade := s.fuses.c0.grade.isLt
  rw [pageRead_fzGrade, bits_eq]
  omega

/-! ### A W1C write that ends a stray interrupt -/

/-- The state after reset, but that an interrupt of the MG page, whose PG_FAULT bit is 0, stands with the management core
and not with host software. `report` puts none there (R545). -/
def strayMgInterrupt : State := { State.reset with irqs := [(mgPg, 0)] }

/-- After a W1C write `quietPage` keeps no interrupt of the page whose bit is 0, the stray one included (R544). -/
theorem strayMgInterrupt_registerWrite_irqs (s' : State)
    (h : exec (.registerWrite mgPg 0x010 1) strayMgInterrupt = .next s') : s'.irqs = [] := by
  cases h
  decide

/-- Refutes O58: a W1C write of PG_FAULT of the MG page is stated to keep the interrupts of the management core in every
state, and in `strayMgInterrupt` it ends one. -/
theorem not_registerPagesKeepTheirRules : ¬ Obligations.RegisterPagesKeepTheirRules := by
  unfold Obligations.RegisterPagesKeepTheirRules
  intro h
  obtain ⟨-, -, hmg, -⟩ := h strayMgInterrupt
  obtain ⟨-, s', hnext, -, -, hirqs, -⟩ := hmg 1 0 (by decide) (by decide)
  rw [strayMgInterrupt_registerWrite_irqs s' hnext] at hirqs
  exact absurd hirqs.symm (List.cons_ne_nil _ _)

end Sys2Proof.Machine
end

section
/-! PROOFS. Grid addition (R69): the parts of a sum, and from them that no order of additions changes it. Then the counters
of dropped records (R467): a record of a severity that the logbook does not have counts in a register of another page, and
what a decision (R151) or an abort (R333) left there is changed by its own record. -/

namespace Sys2Proof.Machine

open Sys2Proof.Claims

/-! ### The parts of a grid word -/

theorem gMax_lt_gBad (lay : Nat) : gMax lay < gBad lay := by
  unfold gMax gBad
  split <;> omega

theorem gTally_gMk {lay t v : Nat} (ht : t ≤ gBad lay) (hv : v < 2 ^ gValW lay) : gTally lay (gMk lay t v) = t := by
  rw [gTally, gMk, Nat.add_comm, Nat.add_mul_div_right _ _ (Nat.two_pow_pos _), Nat.div_eq_of_lt hv, Nat.zero_add,
    Nat.mod_eq_of_lt (by omega)]

theorem gVal_gMk {lay t v : Nat} (hv : v < 2 ^ gValW lay) : gVal lay (gMk lay t v) = v := by
  rw [gVal, gMk, Nat.add_comm, Nat.add_mul_mod_self_right, Nat.mod_eq_of_lt hv]

@[simp] theorem gTally_gInvalid (lay : Nat) : gTally lay (gInvalid lay) = gBad lay :=
  gTally_gMk le_rfl (Nat.pow_lt_pow_right (by omega) (by unfold gValW; split <;> omega))

/-! ### A grid sum -/

theorem gridAdd_of_invalid {lay x y : Nat} (h : gTally lay x = gBad lay ∨ gTally lay y = gBad lay) :
    gridAdd lay x y = gInvalid lay := if_pos h

theorem gridAdd_of_valid {lay x y : Nat} (hx : gTally lay x ≠ gBad lay) (hy : gTally lay y ≠ gBad lay) :
    gridAdd lay x y
      = gMk lay (min (gTally lay x + gTally lay y) (gMax lay)) ((gVal lay x + gVal lay y) % 2 ^ gValW lay) :=
  if_neg (not_or.mpr ⟨hx, hy⟩)

/-- Tallies add up to the saturation limit. -/
theorem gTally_gridAdd {lay x y : Nat} (hx : gTally lay x ≠ gBad lay) (hy : gTally lay y ≠ gBad lay) :
    gTally lay (gridAdd lay x y) = min (gTally lay x + gTally lay y) (gMax lay) := by
  rw [gridAdd_of_valid hx hy]
  exact gTally_gMk ((min_le_right _ _).trans (gMax_lt_gBad lay).le) (Nat.mod_lt _ (Nat.two_pow_pos _))

/-- Values add modulo the width of VALUE. -/
theorem gVal_gridAdd {lay x y : Nat} (hx : gTally lay x ≠ gBad lay) (hy : gTally lay y ≠ gBad lay) :
    gVal lay (gridAdd lay x y) = (gVal lay x + gVal lay y) % 2 ^ gValW lay := by
  rw [gridAdd_of_valid hx hy]
  exact gVal_gMk (Nat.mod_lt _ (Nat.two_pow_pos _))

/-- The saturated tally of a sum is never the invalid one: only an invalid operand makes a sum invalid. -/
theorem gTally_gridAdd_eq_gBad_iff {lay x y : Nat} :
    gTally lay (gridAdd lay x y) = gBad lay ↔ gTally lay x = gBad lay ∨ gTally lay y = gBad lay := by
  refine ⟨fun h => ?_, fun h => by rw [gridAdd_of_invalid h, gTally_gInvalid]⟩
  by_contra hn
  obtain ⟨hx, hy⟩ := not_or.mp hn
  rw [gTally_gridAdd hx hy] at h
  exact absurd (h ▸ min_le_right _ _) (Nat.not_le.mpr (gMax_lt_gBad lay))

theorem gridAdd_comm (lay x y : Nat) : gridAdd lay x y = gridAdd lay y x := by
  by_cases hbad : gTally lay x = gBad lay ∨ gTally lay y = gBad lay
  · rw [gridAdd_of_invalid hbad, gridAdd_of_invalid hbad.symm]
  · obtain ⟨hx, hy⟩ := not_or.mp hbad
    rw [gridAdd_of_valid hx hy, gridAdd_of_valid hy hx, Nat.add_comm (gTally lay x), Nat.add_comm (gVal lay x)]

/-- Both nestings are invalid exactly where one of the three words is; else both tallies are the sum cut at the limit, and
both values the sum modulo the width. -/
theorem gridAdd_assoc (lay x y z : Nat) : gridAdd lay (gridAdd lay x y) z = gridAdd lay x (gridAdd lay y z) := by
  by_cases hbad : (gTally lay x = gBad lay ∨ gTally lay y = gBad lay) ∨ gTally lay z = gBad lay
  · rw [gridAdd_of_invalid (hbad.imp_left gTally_gridAdd_eq_gBad_iff.mpr),
      gridAdd_of_invalid ((or_assoc.mp hbad).imp_right gTally_gridAdd_eq_gBad_iff.mpr)]
  · obtain ⟨hxy, hz⟩ := not_or.mp hbad
    obtain ⟨hx, hy⟩ := not_or.mp hxy
    have hyz : ¬ (gTally lay y = gBad lay ∨ gTally lay z = gBad lay) := not_or.mpr ⟨hy, hz⟩
    have htally : min (min (gTally lay x + gTally lay y) (gMax lay) + gTally lay z) (gMax lay)
        = min (gTally lay x + min (gTally lay y + gTally lay z) (gMax lay)) (gMax lay) := by omega
    rw [gridAdd_of_valid (mt gTally_gridAdd_eq_gBad_iff.mp hxy) hz,
      gridAdd_of_valid hx (mt gTally_gridAdd_eq_gBad_iff.mp hyz), gTally_gridAdd hx hy, gVal_gridAdd hx hy,
      gTally_gridAdd hy hz, gVal_gridAdd hy hz, htally, Nat.mod_add_mod, Nat.add_mod_mod, Nat.add_assoc]

theorem gridAdd_right_comm (lay x y z : Nat) : gridAdd lay (gridAdd lay x y) z = gridAdd lay (gridAdd lay x z) y := by
  rw [gridAdd_assoc, gridAdd_comm lay y z, gridAdd_assoc]

/-- Settles O24: the parts of a sum are those of R69, and a fold of an associative and commutative operation gives the same
word for every order of its terms. -/
theorem gridAdditionIsOrderFree : Obligations.GridAdditionIsOrderFree := by
  unfold Obligations.GridAdditionIsOrderFree
  refine ⟨fun x y hx hy => ⟨gVal_gridAdd hx hy, gTally_gridAdd hx hy⟩,
    fun x y h => gTally_gridAdd_eq_gBad_iff.mpr h, fun lay _ => ⟨gridAdd_comm lay, gridAdd_assoc lay, ?_⟩⟩
  exact fun l m x hp => hp.foldl_eq' (fun a _ b _ c => gridAdd_right_comm lay c a b) x

/-! ### Records of a severity that the logbook does not have -/

/-- A waiting request of a severity, from the first cycle. -/
def waitingReq (sev : Nat) : LogReq := { sev := sev, code := 0, source := 0, payload := [], cycle := 0 }

/-- A full queue of sixteen that begins with a record of severity 0: a request of the same cycle and of a higher severity
enters before that one, and the last is dropped. -/
def fullQueue (sev : Nat) : List LogReq := waitingReq 0 :: List.replicate 15 (waitingReq sev)

/-- The counters of dropped records stand in a row on the EV page, one each for the five severities (R475): the number that a
severity would have for its counter to lie at a register of a later page. -/
def severityAt (page : Nat) (f : Fld) : Nat := (page * 0x1000 + f.off - (evPg * 0x1000 + ev_DROP.off)) / ev_DROP.stride

/-! ### A raise whose record changes the hem -/

/-- Tile 0 runs; its accumulator 0 is open at hem 0 with SCOPE LOCAL, one word at the overflow threshold and one partial in;
its spool begins with a list of one tile, tile 0; and the record of a raise counts a dropped one in MX_ACC0_CTL. -/
def raising : State :=
  wri (setAccState (wr
    { State.reset with nextStitch := 1, spool := [(0, 1#8)], logQ := fullQueue (severityAt (mxPg 0) mx_ACC_CTL_HEM),
                       tiles := [(0, { TileSt.reset with acc := [(0, 0x80000000_00000000_00000000_00000000#128)] })] }
    (tlPg 0) tl_STATUS_RUNNING 1) 0 0 accOpen) (vxPg 0) vx_ACC_PCNT 0 1

/-- vx.gdec a0, g0, u0. -/
def gdecOp : VgdecOp := { aD := 0, gL := 0, uD := 0, rsv := 0 }

theorem raising_executes : Executes raising 0 .vx [] [gdecOp.gL] := by
  refine ⟨⟨?ready, ?here, by decide, by decide⟩, by decide⟩
  case ready => unfold Ready; decide
  case here => unfold Here; decide

theorem raising_hem (s' : State) (h : exec (.vxGdec 0 gdecOp .ok) raising = .next s') : accHem s' 0 0 = 17 := by
  cases h
  decide

/-- Refutes O25: the decision of `raising` is a raise from hem 0 to hem 16, and its own record then adds 1 to the register
of the hem. -/
theorem not_gridRaisesAndDecides : ¬ Obligations.GridRaisesAndDecides := by
  unfold Obligations.GridRaisesAndDecides
  intro h
  obtain ⟨-, hvx⟩ := h
  obtain ⟨-, -, hgdec⟩ := hvx raising 0 (by unfold SpClean; decide)
  obtain ⟨-, -, hfits⟩ := hgdec gdecOp raising_executes rfl
  obtain ⟨s', hnext, -, -, -, -, hraise, -⟩ := hfits (by decide) (by decide)
  obtain ⟨-, hhem, -⟩ := hraise (by decide)
  rw [show gdecOp.aD.toNat = 0 from rfl, raising_hem s' hnext] at hhem
  exact absurd hhem (by decide)

/-! ### An abort whose record changes the last faulting group -/

/-- Group 5, whose descriptor has no edges and no tiles. -/
def loneGroup : CxGroup :=
  { gid := 5, bytes := [], tiles := [], op := 0, attempt := 0, hem := none, words := [], got := [], hdrs := [], verdicts := [],
    bad := false, up := false, dec := false }

/-- The CXU runs with that group open, and the record of an abort counts a dropped one in CX_LAST. -/
def aborting : State := wr { State.reset with cx := [loneGroup], logQ := fullQueue (severityAt cxPg cx_LAST_GROUP) } cxPg cx_ENABLE 1

theorem aborting_lastGroup (s' : State) (h : exec (.abort (.localTile 0) 5) aborting = .next s') :
    rd s' cxPg cx_LAST_GROUP = 6 := by
  cases h
  decide

/-- Refutes O38: the abort of group 5 in `aborting` is stated to leave 5 in LAST_GROUP, and its own record then adds 1 to that
register. -/
theorem not_collectivesCombineOrAbort : ¬ Obligations.CollectivesCombineOrAbort := by
  unfold Obligations.CollectivesCombineOrAbort
  intro h
  obtain ⟨-, habort⟩ := h
  obtain ⟨s', hnext, -, -, hlast, -⟩ := habort aborting (.localTile 0) 5 loneGroup (by decide) (by decide)
    (fun _ _ _ => List.not_mem_nil) (fun _ hq => nomatch hq)
  rw [aborting_lastGroup s' hnext] at hlast
  exact absurd hlast (by decide)

end Sys2Proof.Machine
end

section
/-! PROOFS. The matrix engine: a close (R107) and a partner's check (R117) whose own record finds the logbook queue full, and
counts the dropped one, of a severity that the logbook does not have, in a register of the MX page. -/

namespace Sys2Proof.Machine

open Sys2Proof.Claims

/-! ### A close whose record changes the hem -/

/-- mx.close a0, g0. -/
def closeOp : CloseOp := { aD := 0, gD := 0, rsv := 0 }

theorem raising_executes_close : Executes raising 0 .mx [] [closeOp.gD] := by
  refine ⟨⟨?ready, ?here, by decide, by decide⟩, by decide⟩
  case ready => unfold Ready; decide
  case here => unfold Here; decide

theorem raising_close_hem (s' : State) (h : exec (.mxClose 0 closeOp none) raising = .next s') : accHem s' 0 0 = 17 := by
  cases h
  decide

/-- Refutes O26: the close of `raising` raises the group from hem 0 to hem 16, and its own record GRID_RAISE finds the
logbook queue full, so that the record it drops counts in the register of the hem. -/
theorem not_matrixOpensAndCloses : ¬ Obligations.MatrixOpensAndCloses := by
  unfold Obligations.MatrixOpensAndCloses
  intro h
  obtain ⟨-, hclose, -⟩ := h
  obtain ⟨hlocal, -, -⟩ := hclose raising 0
  obtain ⟨-, -, hraise, -⟩ := hlocal closeOp raising_executes_close rfl
  obtain ⟨s', hnext, -, -, hhem, -⟩ := hraise (by decide) (by decide) (by decide) (by decide) (by decide)
  rw [show closeOp.aD.toNat = 0 from rfl, raising_close_hem s' hnext] at hhem
  exact absurd hhem (by decide)

/-! ### A baste record that changes the captured index -/

theorem mmaWords_zero_blocks (lay : Nat) (hem : Int) (a b : TReg) : mmaWords lay hem a b 0 = List.replicate 4096 0 := by
  unfold mmaWords mmaElem
  simp

/-- A word without TALLY and VALUE adds nothing to a digest (R116). -/
theorem mmaDigest_replicate_zero (lay n : Nat) : mmaDigest lay (List.replicate n 0) = 0 := by
  have hfold : ∀ k, ((List.replicate n 0).zipIdx k).foldl (fun d x =>
      let v := gVal lay x.1
      let w := if lay = 0 then (v % 2 ^ 64) ^^^ (v / 2 ^ 64 * 2 ^ 32 + gTally lay x.1) else gTally lay x.1 * 2 ^ 48 + v
      (d + (2 * x.2 + 1) * w) % 2 ^ 64) 0 = 0 := by
    induction n with
    | zero => exact fun _ => rfl
    | succ n ih => intro k; simpa [List.replicate_succ, gVal, gTally] using ih (k + 1)
  exact hfold 0

/-- A sample of tile 1 that adds no block, with a digest that its words do not have. -/
def wrongSample : Sample :=
  { origin := 1, seq := 0, pc := 7, a := { fmt := 0, bdir := 0, cells := [], scl := [] },
    b := { fmt := 0, bdir := 0, cells := [], scl := [] }, kb := 0, hem := 0, layout := 0, digest := 1 }

theorem wrongSample_digest :
    mmaDigest wrongSample.layout (mmaWords wrongSample.layout wrongSample.hem wrongSample.a wrongSample.b wrongSample.kb) = 0 := by
  rw [show wrongSample.kb = 0 from rfl, mmaWords_zero_blocks, mmaDigest_replicate_zero]

/-- The sample is in the bay of tile 0, and the record of a mismatch counts a dropped one in MX_ERR of tile 1. -/
def basting : State :=
  { State.reset with tiles := [(0, { TileSt.reset with bay := some wrongSample })],
                     logQ := fullQueue (severityAt (mxPg 1) mx_ERR_PC) }

set_option maxRecDepth 1000 in
theorem basting_errPc (s' : State) (h : exec (.basteCheck 0 0) basting = .next s') : rd s' (mxPg 1) mx_ERR_PC = 8 := by
  have hbay : (basting.tile 0).bay = some wrongSample := rfl
  simp only [exec_basteCheck, execBasteCheck, hbay, wrongSample_digest] at h
  cases h
  decide

/-- Refutes O27: the mismatch of `basting` is stated to leave index 7 in ERR_PC of the origin, and its own record then adds 1
to that register. -/
theorem not_matrixMultipliesAndBastes : ¬ Obligations.MatrixMultipliesAndBastes := by
  unfold Obligations.MatrixMultipliesAndBastes
  intro h
  obtain ⟨-, hbaste⟩ := h
  obtain ⟨-, hdiffer⟩ := hbaste basting 0 wrongSample (by decide) rfl
  rw [wrongSample_digest] at hdiffer
  obtain ⟨s', hnext, -, hpc, -⟩ := hdiffer (by decide)
  rw [show wrongSample.origin = 1 from rfl, basting_errPc s' hnext] at hpc
  exact absurd hpc (by decide)

end Sys2Proof.Machine
end

section
/-! PROOFS. Loads and stores of the matrix engine: the rules that they share (the state after issue, the frame of an MXE
instruction, an image of words in memory, a list of local reads, the words of an accumulator), then each instruction. -/

namespace Sys2Proof.Machine

open Sys2Proof.Claims

/-! ### The state from which an engine acts -/

/-- What an issue cycle leaves alone beside `advance_frame`: the marks of bad and weak spool words, and the tile map. -/
theorem advance_spoolMarks (s : State) (t : Tile) :
    (advance s t).spoolBad = s.spoolBad ∧ (advance s t).spoolWeak = s.spoolWeak
      ∧ (advance s t).unusable = s.unusable := by
  rw [advance, countIssue_eq]
  by_cases hm : s.hmode t = true
  · rw [if_pos hm]; exact ⟨rfl, rfl, rfl⟩
  · rw [if_neg hm]
    dsimp only
    split <;> simp [inc, inci, wr64, progress, State.modTile, State.setTile]

theorem ptile_congr {s x : State} (hfuses : x.fuses = s.fuses) (hcols : x.unusable = s.unusable) (n : Nat) :
    x.ptile n = s.ptile n := by
  simp only [State.ptile, State.ncols, State.usableCols, State.unusableRow, hfuses, hcols]

section
variable (s : State) (t u : Tile) (e : Engine)

@[simp] theorem issuedTo_spool : (issuedTo s t e).spool = s.spool := by
  obtain ⟨hspool, -⟩ := advance_frame s t; exact hspool
@[simp] theorem issuedTo_lp : (issuedTo s t e).lp = s.lp := by
  obtain ⟨-, hlp, -⟩ := advance_frame s t; exact hlp
@[simp] theorem issuedTo_flash : (issuedTo s t e).flash = s.flash := by
  obtain ⟨-, -, hflash, -⟩ := advance_frame s t; exact hflash
@[simp] theorem issuedTo_net : (issuedTo s t e).net = s.net := by
  obtain ⟨-, -, -, hnet, -⟩ := advance_frame s t; exact hnet
@[simp] theorem issuedTo_spoolBad : (issuedTo s t e).spoolBad = s.spoolBad := by
  obtain ⟨hbad, -, -⟩ := advance_spoolMarks s t; exact hbad
@[simp] theorem issuedTo_spoolWeak : (issuedTo s t e).spoolWeak = s.spoolWeak := by
  obtain ⟨-, hweak, -⟩ := advance_spoolMarks s t; exact hweak
@[simp] theorem issuedTo_ptile (n : Nat) : (issuedTo s t e).ptile n = s.ptile n := by
  obtain ⟨-, -, -, -, -, -, hfuses⟩ := advance_frame s t
  obtain ⟨-, -, hcols⟩ := advance_spoolMarks s t
  exact ptile_congr hfuses hcols n
@[simp] theorem issuedTo_hmode : (issuedTo s t e).hmode u = s.hmode u := advance_hmode s t u

/-- The tile after an issue to the MXE: beside the index only its counts and marks of issue change. -/
theorem issuedTo_mx_tile : (issuedTo s t .mx).tile t =
    { issueStep (s.hmode t) (s.tile t) with
        pc := (s.tile t).pc + 1, issued := (s.tile t).issued + (if s.hmode t then 0 else 1), mxBusy := true } := by
  rw [issuedTo, tile_modTile_same, advance_tile]; rfl

theorem issuedTo_tile_ne (h : u ≠ t) : (issuedTo s t e).tile u = s.tile u := by
  rw [issuedTo, tile_modTile_ne _ _ _ _ h, advance_tile_ne s t u h]

@[simp] theorem issuedTo_mx_pc : ((issuedTo s t .mx).tile t).pc = (s.tile t).pc + 1 := by rw [issuedTo_mx_tile]
@[simp] theorem issuedTo_mx_treg : ((issuedTo s t .mx).tile t).treg = (s.tile t).treg := by rw [issuedTo_mx_tile]
@[simp] theorem issuedTo_mx_scl : ((issuedTo s t .mx).tile t).scl = (s.tile t).scl := by rw [issuedTo_mx_tile]
@[simp] theorem issuedTo_mx_acc : ((issuedTo s t .mx).tile t).acc = (s.tile t).acc := by rw [issuedTo_mx_tile]
@[simp] theorem issuedTo_mx_readAcc (n i : Nat) : ((issuedTo s t .mx).tile t).readAcc n i = (s.tile t).readAcc n i := by
  rw [TileSt.readAcc, issuedTo_mx_acc]; rfl

@[simp] theorem issuedTo_mx_g (r : BitVec 5) : (issuedTo s t .mx).g t r = s.g t r := by
  rw [State.g, issuedTo_hmode, issuedTo_mx_tile]; rfl

/-- An issue changes no register of an MX page: SY_ISSUE and GS_ISSUE stand on others. -/
theorem issuedTo_rdi_mx (f : Fld) (i : Nat) (h : f.off + f.stride * i < 0x1000) :
    rdi (issuedTo s t e) (mxPg u) f i = rdi s (mxPg u) f i := by
  have hreg : regW (issuedTo s t e) (mxPg u) (f.off + f.stride * i) = regW s (mxPg u) (f.off + f.stride * i) :=
    advance_regW s t _ _ (by simp only [mxPg, syPg, sy_ISSUE]; omega) (by simp only [mxPg, gsPg, gs_ISSUE_LO]; omega)
      (by simp only [mxPg, gsPg, gs_ISSUE_HI]; omega)
  rw [rdi, hreg]; rfl

@[simp] theorem issuedTo_accLay (n : BitVec 2) : accLay (issuedTo s t e) u n.toNat = accLay s u n.toNat :=
  issuedTo_rdi_mx s t u e _ _ (by simp only [mx_ACC_CTL_LAYOUT]; omega)
@[simp] theorem issuedTo_accHem (n : BitVec 2) : accHem (issuedTo s t e) u n.toNat = accHem s u n.toNat :=
  issuedTo_rdi_mx s t u e _ _ (by simp only [mx_ACC_CTL_HEM]; omega)
@[simp] theorem issuedTo_tagFmt (m : BitVec 3) : tagFmt (issuedTo s t e) u m.toNat = tagFmt s u m.toNat :=
  issuedTo_rdi_mx s t u e _ _ (by simp only [mx_TAG_FMT]; omega)
@[simp] theorem issuedTo_tagBdir (m : BitVec 3) : tagBdir (issuedTo s t e) u m.toNat = tagBdir s u m.toNat :=
  issuedTo_rdi_mx s t u e _ _ (by simp only [mx_TAG_BDIR]; omega)

end

/-- The effect of an answer stands in the state that it gives. -/
theorem gives_of_answers {c : Instr} {s s' : State} {P : State → Prop} (h : Answers c s s') (hp : P (settle s s')) :
    Gives c s P := ⟨_, h, hp⟩

/-! ### What an instruction of the MXE leaves alone -/

theorem matrixFrame_issuedTo (s : State) (t : Tile) : MatrixFrame s (issuedTo s t .mx) t := by
  refine ⟨⟨fun i => ?_, ?_, ?_, fun u hu => issuedTo_tile_ne s t u .mx hu, ?_, ?_, issuedTo_net s t _⟩,
    issuedTo_mx_g s t, issuedTo_mx_treg s t, issuedTo_mx_scl s t, ?_⟩
  case refine_1 => rw [State.p, issuedTo_mx_tile]; rfl
  case refine_2 => rw [issuedTo_mx_tile]
  case refine_3 => rw [issuedTo_mx_tile]
  all_goals simp

/-- A store to a field of an MX page keeps the frame: HMODE, which selects the scalar bank, stands on the TL page. -/
theorem matrixFrame_wri_mx {s x : State} {t : Tile} (h : MatrixFrame s x t) (u : Tile) (f : Fld) (i v : Nat)
    (hoff : f.off + f.stride * i < 0x1000) : MatrixFrame s (wri x (mxPg u) f i v) t := by
  obtain ⟨hrest, hg, htreg, hscl, hspool⟩ := h
  have hmode : (wri x (mxPg u) f i v).hmode t = x.hmode t := hmode_wri_ne _ _ _ _ _ _ (by simp only [mxPg]; omega)
  refine ⟨hrest, fun r => ?_, htreg, hscl, hspool⟩
  rw [← hg r, State.g, hmode]; rfl

/-- A change of the accumulators of the tile keeps the frame. -/
theorem matrixFrame_modTile_acc {s x : State} {t : Tile} (h : MatrixFrame s x t) (g : TileSt → TileSt)
    (hg : ∃ a, g (x.tile t) = { x.tile t with acc := a }) : MatrixFrame s (x.modTile t g) t := by
  obtain ⟨a, ha⟩ := hg
  obtain ⟨⟨hp, hv, hdstore, hother, hlp, hflash, hnet⟩, hgr, htreg, hscl, hspool⟩ := h
  have ht : (x.modTile t g).tile t = { x.tile t with acc := a } := (tile_modTile_same x t g).trans ha
  refine ⟨⟨fun i => ?_, ?_, ?_, fun u hu => ?_, hlp, hflash, hnet⟩, fun r => ?_, ?_, ?_, hspool⟩
  · rw [← hp i, State.p, ht]; rfl
  · rw [ht]; exact hv
  · rw [ht]; exact hdstore
  · rw [tile_modTile_ne _ _ _ _ hu]; exact hother u hu
  · rw [← hgr r, State.g, ht]; rfl
  · rw [ht]; exact htreg
  · rw [ht]; exact hscl

section
variable (x : State) (p a : Nat) (bs : List Byte)
@[simp] theorem spWrite_tile (t : Tile) : (spWrite x p a bs).tile t = x.tile t := rfl
@[simp] theorem spWrite_g (t : Tile) (r : BitVec 5) : (spWrite x p a bs).g t r = x.g t r := rfl
@[simp] theorem spWrite_lp : (spWrite x p a bs).lp = x.lp := rfl
end

theorem matrixRest_spWrite {s x : State} {t : Tile} (h : MatrixRest s x t) (p o : Nat) (bs : List Byte) :
    MatrixRest s (spWrite x p o bs) t := h

/-- A scalar write changes the two banks of scalar registers alone. -/
theorem writeG_eq (ts : TileSt) (hm : Bool) (r : BitVec 5) (v : W64) :
    ∃ g gh, ts.writeG hm r v = { ts with g := g, gh := gh } := by
  unfold TileSt.writeG
  split
  · exact ⟨_, _, rfl⟩
  · split <;> exact ⟨_, _, rfl⟩

section
variable (x : State) (t : Tile) (r : BitVec 5) (v : W64)

theorem setG_tile_eq : ∃ g gh, (x.setG t r v).tile t = { x.tile t with g := g, gh := gh } := by
  rw [setG_eq]; exact writeG_eq (x.tile t) (x.hmode t) r v

@[simp] theorem setG_pc : ((x.setG t r v).tile t).pc = (x.tile t).pc := by
  obtain ⟨_, _, h⟩ := setG_tile_eq x t r v; rw [h]
@[simp] theorem setG_acc : ((x.setG t r v).tile t).acc = (x.tile t).acc := by
  obtain ⟨_, _, h⟩ := setG_tile_eq x t r v; rw [h]
@[simp] theorem setG_treg : ((x.setG t r v).tile t).treg = (x.tile t).treg := by
  obtain ⟨_, _, h⟩ := setG_tile_eq x t r v; rw [h]
@[simp] theorem setG_lp : (x.setG t r v).lp = x.lp := rfl

end

theorem matrixRest_setG {s x : State} {t : Tile} (h : MatrixRest s x t) (r : BitVec 5) (v : W64) :
    MatrixRest s (x.setG t r v) t := by
  obtain ⟨hp, hv, hdstore, hother, hlp, hflash, hnet⟩ := h
  obtain ⟨g, gh, ht⟩ := setG_tile_eq x t r v
  refine ⟨fun i => ?_, ?_, ?_, fun u hu => ?_, hlp, hflash, hnet⟩
  · rw [← hp i, State.p, ht]; rfl
  · rw [ht]; exact hv
  · rw [ht]; exact hdstore
  · rw [State.setG, tile_modTile_ne _ _ _ _ hu]; exact hother u hu

theorem matrixRest_settle {s x : State} {t : Tile} (s0 : State) (h : MatrixRest s x t) : MatrixRest s (settle s0 x) t := h

theorem matrixFrame_settle {s x : State} {t : Tile} (s0 : State) (h : MatrixFrame s x t) : MatrixFrame s (settle s0 x) t := h

/-! ### mx.tag -/

/-- A field of a numbered register reads what was stored before another field of that register was (cf. `rd_wr_field`). -/
theorem rdi_wri_field (s : State) (p : Nat) (f : Fld) (i v : Nat) (g : Fld) (ho : g.off + g.stride * i = f.off + f.stride * i)
    (h : g.hi < f.lo ∨ f.hi < g.lo) (hf : f.lo ≤ f.hi) (h32 : f.hi < 32) : rdi (wri s p f i v) p g i = rdi s p g i := by
  simp only [rdi, wri, regW_setW, ho, if_true]
  rw [Nat.mod_eq_of_lt (setBits_lt _ _ _ _ 32 (regW_lt _ _ _) h32), bits_setBits_ne _ _ _ _ _ _ h hf]

theorem tagFmt_settle (s x : State) (t : Tile) (m : Nat) : tagFmt (settle s x) t m = tagFmt x t m := rfl

theorem tagBdir_settle (s x : State) (t : Tile) (m : Nat) : tagBdir (settle s x) t m = tagBdir x t m := rfl

theorem tagFmt_setTag (s : State) (t : Tile) (m f b : Nat) : tagFmt (setTag s t m f b) t m = f % 16 := by
  have hother : rdi (setTag s t m f b) (mxPg t) mx_TAG_FMT m = rdi (wri s (mxPg t) mx_TAG_FMT m f) (mxPg t) mx_TAG_FMT m :=
    rdi_wri_field _ _ _ _ _ _ rfl (by decide) (by decide) (by decide)
  exact hother.trans (rdi_wri_same _ _ _ _ _ (by decide))

theorem tagBdir_setTag (s : State) (t : Tile) (m f b : Nat) : tagBdir (setTag s t m f b) t m = b % 2 := by
  exact rdi_wri_same _ _ _ _ _ (by decide)

section
variable (s : State) (t : Tile) (m f b : Nat)
@[simp] theorem setTag_tile (u : Tile) : (setTag s t m f b).tile u = s.tile u := rfl
@[simp] theorem setTag_spool : (setTag s t m f b).spool = s.spool := rfl
@[simp] theorem setTag_lp : (setTag s t m f b).lp = s.lp := rfl
end

theorem answers_mxTag {s : State} {t : Tile} {o : TagOp} (h : Executes s t .mx [(o.tD.toNat, true)] []) (hrsv : o.rsv = 0)
    (hdir : badDir o.fmt.toNat o.bdir.toNat = false) :
    Answers (.mxTag t o) s (setTag (issuedTo s t .mx) t o.tD.toNat o.fmt.toNat o.bdir.toNat) := by
  rw [Answers, exec_mxTag, execMxTag, engineOp_runs s t .mx (.mxTag t o) _ _ h]
  simp [runMxTag, hrsv, hdir]

/-! ### Local reads of a clean spool -/

section
variable {s : State} (hclean : SpClean s)
include hclean

theorem spIsBad_clean (p o n : Nat) : spIsBad s p o n = false := by rw [spIsBad, hclean.1]; rfl

theorem spWeakIn_clean (p o n : Nat) : spWeakIn s p o n = [] := by rw [spWeakIn, hclean.2]; rfl

theorem spoolLocal_ok (t : Tile) (o n : Nat) : spoolLocal s t o n .ok = (true, s) := by
  rw [spoolLocal, spoolCheck, spIsBad_clean hclean, spWeakIn_clean hclean]; rfl

theorem spoolLocal_uncorrectable (t : Tile) (o n : Nat) : spoolLocal s t o n .uncorrectable = (false, localUe s t o) := by
  rw [spoolLocal, spoolCheck, spIsBad_clean hclean, spWeakIn_clean hclean]; rfl

theorem localReads_ok (t : Tile) : ∀ xs, localReads s t .ok xs = (true, s)
  | [] => rfl
  | (o, n) :: xs => by rw [localReads, spoolLocal_ok hclean]; exact localReads_ok t xs

theorem localReads_uncorrectable (t : Tile) (o n : Nat) (xs : List (Nat × Nat)) :
    localReads s t .uncorrectable ((o, n) :: xs) = (false, localUe s t o) := by
  rw [localReads, spoolLocal_uncorrectable hclean]; rfl

end

theorem spClean_issuedTo {s : State} (h : SpClean s) (t : Tile) (e : Engine) : SpClean (issuedTo s t e) := by
  simpa [SpClean] using h

/-! ### mx.lt -/

theorem kLen_pos (f : Nat) : 0 < kLen f := by
  have hw : contW f ≤ 64 ∧ 0 < contW f := by
    unfold contW fmtW
    split
    · omega
    · split
      · omega
      · split <;> omega
  exact Nat.div_pos (by omega) hw.2

/-- The fields and addresses with which mx.lt loads (R92, R101, R103), plain and transposing. -/
def LtLegal (o : LtOp) (x : LtAddr) : Prop :=
  let f := o.fmt.toNat
  (o.t = 0 ∧ ltAddrOk x 64 (kLen f * fmtW f / 8) (sclBlocks f) = true)
    ∨ (o.t = 1 ∧ fmtW f ≤ 32 ∧ isJ f = false ∧ o.bdir = 0 ∧ ltAddrOk x (kLen f) (8 * fmtW f) (sclBlocks f) = true)

/-- The places that mx.lt reads: the rows of elements, then the scale bytes of a J-format (R101). -/
def ltReads (o : LtOp) (x : LtAddr) : List (Nat × Nat) :=
  let f := o.fmt.toNat
  (List.range (if o.t = 0 then 64 else kLen f)).map
      (fun r => (x.eb + r * x.ep, (if o.t = 0 then kLen f else 64) * fmtW f / 8))
    ++ (if sclBlocks f = 0 then [] else (List.range 64).map (fun i => (x.sb + i * x.sp, sclBlocks f)))

/-- The first place is the element base. -/
theorem ltReads_eq_cons (o : LtOp) (x : LtAddr) : ∃ n rest, ltReads o x = (x.eb, n) :: rest := by
  have hrows : 0 < if o.t = 0 then 64 else kLen o.fmt.toNat := by
    split
    · decide
    · exact kLen_pos _
  obtain ⟨k, hk⟩ := Nat.exists_eq_add_one.mpr hrows
  rw [ltReads, hk, List.range_succ_eq_map, List.map_cons, List.cons_append, Nat.zero_mul, Nat.add_zero]
  exact ⟨_, _, rfl⟩

theorem runMxLt_legal {s : State} {t : Tile} {o : LtOp} (hrsv : o.rsv = 0) (hdir : badDir o.fmt.toNat o.bdir.toNat = false)
    (hlegal : LtLegal o (ltAddr (s.g t o.gA) (s.g t o.gP))) (e : Ecc) (pc : Nat) :
    let x := ltAddr (s.g t o.gA) (s.g t o.gP)
    let r := localReads s t e (ltReads o x)
    runMxLt t o e s pc
      = if r.1 then setTag (r.2.modTile t (ltFill r.2 t o x)) t o.tD.toNat o.fmt.toNat o.bdir.toNat else r.2 := by
  rcases hlegal with ⟨ht, haddr⟩ | ⟨ht, hw, hj, hb, haddr⟩
  · simp [runMxLt, ltReads, hrsv, ht, hdir, haddr]
  · have hlen : 64 * fmtW o.fmt.toNat / 8 = 8 * fmtW o.fmt.toNat := by omega
    have hrow : o.bdir ≠ 1#1 := by rw [hb]; decide
    simp [runMxLt, ltReads, hrsv, ht, hdir, hj, hrow, haddr, hlen, Nat.not_lt.mpr hw]

section
variable {s : State} {t : Tile} {o : LtOp} (h : Executes s t .mx [(o.tD.toNat, true)] [o.gA, o.gP]) (hrsv : o.rsv = 0)
  (hdir : badDir o.fmt.toNat o.bdir.toNat = false) (hclean : SpClean s) (hlegal : LtLegal o (ltAddr (s.g t o.gA) (s.g t o.gP)))
include h hrsv hdir hclean hlegal

theorem answers_mxLt_ok : Answers (.mxLt t o .ok) s
    (setTag ((issuedTo s t .mx).modTile t (ltFill (issuedTo s t .mx) t o (ltAddr (s.g t o.gA) (s.g t o.gP))))
      t o.tD.toNat o.fmt.toNat o.bdir.toNat) := by
  rw [Answers, exec_mxLt, execMxLt, engineOp_runs s t .mx (.mxLt t o .ok) _ _ h,
    runMxLt_legal hrsv hdir (by simpa using hlegal), localReads_ok (spClean_issuedTo hclean t .mx), issuedTo_mx_g,
    issuedTo_mx_g]
  simp only [if_true]

theorem answers_mxLt_uncorrectable :
    Answers (.mxLt t o .uncorrectable) s (localUe (issuedTo s t .mx) t (ltAddr (s.g t o.gA) (s.g t o.gP)).eb) := by
  obtain ⟨n, rest, hreads⟩ := ltReads_eq_cons o (ltAddr (s.g t o.gA) (s.g t o.gP))
  rw [Answers, exec_mxLt, execMxLt, engineOp_runs s t .mx (.mxLt t o .uncorrectable) _ _ h,
    runMxLt_legal hrsv hdir (by simpa using hlegal), issuedTo_mx_g, issuedTo_mx_g, hreads,
    localReads_uncorrectable (spClean_issuedTo hclean t .mx)]
  simp only [Bool.false_eq_true, if_false]

end

/-! ### mx.stt -/

theorem answers_mxStt {s : State} {t : Tile} {o : SttOp} (h : Executes s t .mx [(o.tS.toNat, false)] [o.gA, o.gP])
    (hrsv1 : o.rsv1 = 0) (hrsv2 : o.rsv2 = 0) (hdir : badDir o.fmt.toNat o.bdir.toNat = false)
    (hfmt : tagFmt s t o.tS.toNat = o.fmt.toNat) (hbdir : tagBdir s t o.tS.toNat = o.bdir.toNat)
    (haddr : ltAddrOk (ltAddr (s.g t o.gA) (s.g t o.gP)) 64 (kLen o.fmt.toNat * fmtW o.fmt.toNat / 8) (sclBlocks o.fmt.toNat)
      = true) :
    let x := ltAddr (s.g t o.gA) (s.g t o.gP)
    let f := o.fmt.toNat
    Answers (.mxStt t o .ok) s (localWrites (issuedTo s t .mx) t .ok ((List.range 64).flatMap (fun i =>
      (x.eb + i * x.ep, packBytes f ((List.range (kLen f)).map (kElem (s.tile t).treg o.tS.toNat f o.bdir.toNat i))) ::
        (if sclBlocks f = 0 then []
          else [(x.sb + i * x.sp, (List.range (sclBlocks f)).map
            (fun b => BitVec.ofNat 8 (kScl (s.tile t).scl o.tS.toNat i b)))])))) := by
  intro x f
  rw [Answers, exec_mxStt, execMxStt, engineOp_runs s t .mx (.mxStt t o .ok) _ _ h]
  simp [runMxStt, hrsv1, hrsv2, hdir, hfmt, hbdir, haddr, x, f]

/-! ### A raw image of accumulator words -/

/-- A block of a list made of blocks of one length. -/
theorem take_drop_flatMap {α β : Type} (g : α → List β) (w : Nat) (hw : ∀ a, (g a).length = w) :
    ∀ (l : List α) (i : Nat) (hi : i < l.length), ((l.flatMap g).drop (i * w)).take w = g l[i]
  | a :: l, 0, _ => by
    rw [Nat.zero_mul, List.drop_zero, List.flatMap_cons, List.take_left' (hw a)]; rfl
  | a :: l, i + 1, hi => by
    rw [List.flatMap_cons, Nat.succ_mul, Nat.add_comm, ← List.drop_drop, List.drop_left' (hw a)]
    exact take_drop_flatMap g w hw l i (by simpa using hi)

/-- A read inside the bytes just stored gives those of them that it names. -/
theorem memRead_memWrite_inside (m : SMap Byte) (a o n : Nat) (bs : List Byte) (h : o + n ≤ bs.length) :
    memRead (memWrite m a bs) (a + o) n = (bs.drop o).take n := by
  apply List.ext_getElem
  · simp; omega
  · intro i h1 _
    have hi : i < n := by simpa using h1
    simp only [memRead, List.getElem_map, List.getElem_range, memByte_memWrite, List.getElem_take, List.getElem_drop]
    rw [if_pos (by omega), show a + o + i - a = o + i by omega, List.getD_eq_getElem _ _ (by omega)]

theorem spKey_add (p a k : Nat) : spKey p (a + k) = spKey p a + k := by rw [spKey, spKey, Nat.add_assoc]

theorem leNat_lt (bs : List Byte) : leNat bs < 256 ^ bs.length := by
  induction bs with
  | nil => decide
  | cons b bs ih =>
    have hb := b.isLt
    rw [leNat, List.length_cons, Nat.pow_succ]
    omega

theorem memNat_lt (m : SMap Byte) (a n : Nat) : memNat m a n < 256 ^ n := by
  simpa [memNat] using leNat_lt (memRead m a n)

/-- The raw image of `c` rows of accumulator `n` from row `f` on (R110). -/
def accImage (ts : TileSt) (lay n f c : Nat) : List Byte :=
  (List.range (64 * c)).flatMap (fun i => leBytes (gBytes lay) (ts.readAcc n (64 * f + i)))

@[simp] theorem length_accImage (ts : TileSt) (lay n f c : Nat) : (accImage ts lay n f c).length = 64 * c * gBytes lay := by
  simp [accImage, List.length_flatMap]

/-- A stored image reads back word by word. -/
theorem memNat_accImage (m : SMap Byte) (ts : TileSt) (a lay n f c i : Nat) (hi : i < 64 * c) :
    memNat (memWrite m a (accImage ts lay n f c)) (a + i * gBytes lay) (gBytes lay)
      = ts.readAcc n (64 * f + i) % 256 ^ gBytes lay := by
  have hfits : i * gBytes lay + gBytes lay ≤ 64 * c * gBytes lay := by
    rw [← Nat.succ_mul]; exact Nat.mul_le_mul_right _ hi
  rw [memNat, memRead_memWrite_inside _ _ _ _ _ (by simpa using hfits), accImage,
    take_drop_flatMap _ _ (fun _ => length_leBytes _ _) _ i (by simpa using hi), leNat_leBytes, List.getElem_range]

/-! ### mx.st -/

theorem upsetCaught_of_err {u : Upset} {n : Nat} (hidx : u.idx < n) (herr : u.err % 7 ≠ 0) : upsetCaught (some u) n = true := by
  simp [upsetCaught, upsetSeen, hidx, herr]

section
variable {s : State} {t : Tile} {o : MxStOp} {f c : Nat} (h : Executes s t .mx [] [o.gA, o.gC, o.gD]) (hrsv : o.rsv = 0)
  (hrows : accRows (s.g t o.gC) = some (f, c)) (hraw : rawOk (s.g t o.gA).toNat c (accLay s t o.aD.toNat) = true)
include h hrsv hrows hraw

theorem answers_mxSt : Answers (.mxSt t o none) s
    ((spWrite (issuedTo s t .mx) (s.ptile t.toNat) (s.g t o.gA).toNat
      (accImage (s.tile t) (accLay s t o.aD.toNat) o.aD.toNat f c)).setG t o.gD (hemWord (accHem s t o.aD.toNat))) := by
  rw [Answers, exec_mxSt, execMxSt, engineOp_runs s t .mx (.mxSt t o none) _ _ h]
  simp [runMxSt, hrsv, hrows, hraw, upsetCaught, disturb, accImage]

theorem answers_mxSt_upset {u : Upset} (hidx : u.idx < 64 * c) (herr : u.err % 7 ≠ 0) :
    Answers (.mxSt t o (some u)) s (mxResidue (issuedTo s t .mx) t (s.tile t).pc.toNat) := by
  rw [Answers, exec_mxSt, execMxSt, engineOp_runs s t .mx (.mxSt t o (some u)) _ _ h]
  simp [runMxSt, hrsv, hrows, hraw, upsetCaught_of_err hidx herr]

end

/-! ### Words written to an accumulator -/

theorem readAcc_writeAcc (ts : TileSt) (n i w m j : Nat) :
    (ts.writeAcc n i w).readAcc m j = if 4096 * m + j = 4096 * n + i then w % 2 ^ 128 else ts.readAcc m j := by
  simp only [TileSt.readAcc, TileSt.writeAcc, smGet_smPut]
  split
  · exact BitVec.toNat_ofNat w 128
  · rfl

/-- Words `w 0` to `w (k - 1)` written to accumulator `n` from word `b` on. -/
def writeAccs (ts : TileSt) (n b : Nat) (w : Nat → Nat) (k : Nat) : TileSt :=
  (List.range k).foldl (fun ts i => ts.writeAcc n (b + i) (w i)) ts

theorem writeAccs_succ (ts : TileSt) (n b : Nat) (w : Nat → Nat) (k : Nat) :
    writeAccs ts n b w (k + 1) = (writeAccs ts n b w k).writeAcc n (b + k) (w k) := by
  rw [writeAccs, List.range_succ, List.foldl_concat]; rfl

theorem writeAccs_eq (ts : TileSt) (n b : Nat) (w : Nat → Nat) (k : Nat) : ∃ a, writeAccs ts n b w k = { ts with acc := a } := by
  induction k with
  | zero => exact ⟨ts.acc, rfl⟩
  | succ k ih =>
    obtain ⟨a, ha⟩ := ih
    rw [writeAccs_succ, ha]
    exact ⟨_, rfl⟩

theorem writeAccs_pc (ts : TileSt) (n b : Nat) (w : Nat → Nat) (k : Nat) : (writeAccs ts n b w k).pc = ts.pc := by
  obtain ⟨_, h⟩ := writeAccs_eq ts n b w k; rw [h]

theorem readAcc_writeAccs_outside (ts : TileSt) (n b : Nat) (w : Nat → Nat) (m j k : Nat)
    (h : ∀ i < k, 4096 * m + j ≠ 4096 * n + (b + i)) : (writeAccs ts n b w k).readAcc m j = ts.readAcc m j := by
  induction k with
  | zero => rfl
  | succ k ih => rw [writeAccs_succ, readAcc_writeAcc, if_neg (h k (by omega)), ih (fun i hi => h i (by omega))]

theorem readAcc_writeAccs_inside (ts : TileSt) (n b : Nat) (w : Nat → Nat) (i k : Nat) (hi : i < k) :
    (writeAccs ts n b w k).readAcc n (b + i) = w i % 2 ^ 128 := by
  induction k with
  | zero => omega
  | succ k ih =>
    rw [writeAccs_succ, readAcc_writeAcc]
    by_cases hik : i = k
    · rw [if_pos (by rw [hik]), hik]
    · rw [if_neg (by omega), ih (by omega)]

/-! ### mx.la -/

/-- The rows that gC names lie in the accumulator (R110). -/
theorem accRows_le {g : W64} {f c : Nat} (h : accRows g = some (f, c)) : f + c ≤ 64 := by
  unfold accRows at h
  dsimp only at h
  split at h
  · cases h
  · cases h; omega

theorem gBytes_le (lay : Nat) : gBytes lay ≤ 16 := by unfold gBytes; split <;> omega

section
variable {s : State} {t : Tile} {o : MxLaOp} {f c : Nat} (hmode : s.hmode t = true) (h : Executes s t .mx [] [o.gA, o.gC])
  (hrsv : o.rsv = 0) (hrows : accRows (s.g t o.gC) = some (f, c)) (hclean : SpClean s)
  (hraw : rawOk (s.g t o.gA).toNat c (accLay s t o.aD.toNat) = true)
include hmode h hrsv hrows hclean hraw

theorem answers_mxLa_uncorrectable : Answers (.mxLa t o .uncorrectable) s (localUe (issuedTo s t .mx) t (s.g t o.gA).toNat) := by
  rw [Answers, exec_mxLa, execMxLa, engineOp_runs s t .mx (.mxLa t o .uncorrectable) _ _ h]
  simp [runMxLa, hrsv, hmode, hrows, hraw, spoolLocal_uncorrectable (spClean_issuedTo hclean t .mx)]

theorem answers_mxLa_ok : Answers (.mxLa t o .ok) s ((issuedTo s t .mx).modTile t (fun ts =>
    writeAccs ts o.aD.toNat (64 * f) (fun i => memNat s.spool (spKey (s.ptile t.toNat)
      ((s.g t o.gA).toNat + i * gBytes (accLay s t o.aD.toNat))) (gBytes (accLay s t o.aD.toNat))) (64 * c))) := by
  rw [Answers, exec_mxLa, execMxLa, engineOp_runs s t .mx (.mxLa t o .ok) _ _ h]
  simp [runMxLa, hrsv, hmode, hrows, hraw, spoolLocal_ok (spClean_issuedTo hclean t .mx), writeAccs]

end

/-! ### The whole of loads and stores -/

theorem matrixFrame_setTag {s x : State} {t : Tile} (h : MatrixFrame s x t) (m : BitVec 3) (f b : Nat) :
    MatrixFrame s (setTag x t m.toNat f b) t :=
  matrixFrame_wri_mx (matrixFrame_wri_mx h t mx_TAG_FMT m.toNat f (by simp only [mx_TAG_FMT]; omega))
    t mx_TAG_BDIR m.toNat b (by simp only [mx_TAG_BDIR]; omega)

theorem gives_mxSt {s : State} {t : Tile} {o : MxStOp} {f c : Nat} (h : Executes s t .mx [] [o.gA, o.gC, o.gD])
    (hrsv : o.rsv = 0) (hrows : accRows (s.g t o.gC) = some (f, c))
    (hraw : rawOk (s.g t o.gA).toNat c (accLay s t o.aD.toNat) = true) :
    let n := o.aD.toNat
    let w := gBytes (accLay s t n)
    let a := (s.g t o.gA).toNat
    Gives (.mxSt t o none) s fun s' =>
      (∀ i < 64 * c, memNat s'.spool (spKey (s.ptile t.toNat) (a + i * w)) w = (s.tile t).readAcc n (64 * f + i) % 256 ^ w)
        ∧ (∀ k, k < spKey (s.ptile t.toNat) a ∨ spKey (s.ptile t.toNat) a + 64 * c * w ≤ k →
            memByte s'.spool k = memByte s.spool k)
        ∧ s'.g t o.gD = (if o.gD = 0 then 0 else BitVec.ofInt 64 (hemInt (accHem s t n)))
        ∧ (∀ r, r ≠ o.gD → s'.g t r = s.g t r) ∧ MatrixRest s s' t ∧ (s'.tile t).acc = (s.tile t).acc
        ∧ (s'.tile t).treg = (s.tile t).treg ∧ (s'.tile t).pc = (s.tile t).pc + 1 ∧ s'.lp = s.lp := by
  intro n w a
  refine gives_of_answers (answers_mxSt h hrsv hrows hraw) ⟨fun i hi => ?_, fun k hk => ?_, ?_, fun r hr => ?_, ?_, ?_, ?_, ?_, ?_⟩
  · rw [spKey_add]
    exact memNat_accImage _ _ _ _ _ _ _ _ hi
  · rw [← issuedTo_spool s t .mx]
    exact memByte_memWrite_outside _ _ _ _ (by rwa [length_accImage])
  · rw [g_settle, g_setG, if_pos rfl, hemWord]
  · rw [g_settle, g_setG, if_neg hr, spWrite_g, issuedTo_mx_g]
  · exact matrixRest_settle s (matrixRest_setG (matrixRest_spWrite (matrixFrame_issuedTo s t).1 _ _ _) _ _)
  · rw [tile_settle, setG_acc, spWrite_tile, issuedTo_mx_acc]
  · rw [tile_settle, setG_treg, spWrite_tile, issuedTo_mx_treg]
  · rw [tile_settle, setG_pc, spWrite_tile, issuedTo_mx_pc]
  · rw [settle_lp, setG_lp, spWrite_lp, issuedTo_lp]

theorem gives_mxLa {s : State} {t : Tile} {o : MxLaOp} {f c : Nat} (hmode : s.hmode t = true)
    (h : Executes s t .mx [] [o.gA, o.gC]) (hrsv : o.rsv = 0) (hrows : accRows (s.g t o.gC) = some (f, c))
    (hclean : SpClean s) (hraw : rawOk (s.g t o.gA).toNat c (accLay s t o.aD.toNat) = true) :
    let n := o.aD.toNat
    let w := gBytes (accLay s t n)
    let a := (s.g t o.gA).toNat
    Gives (.mxLa t o .ok) s fun s' =>
      (∀ i < 64 * c, (s'.tile t).readAcc n (64 * f + i) = memNat s.spool (spKey (s.ptile t.toNat) (a + i * w)) w)
        ∧ (∀ m i, m < 4 → i < 4096 → ¬ (m = n ∧ 64 * f ≤ i ∧ i < 64 * f + 64 * c) →
          (s'.tile t).readAcc m i = (s.tile t).readAcc m i)
        ∧ MatrixFrame s s' t ∧ (s'.tile t).pc = (s.tile t).pc + 1 ∧ s'.spool = s.spool ∧ s'.lp = s.lp := by
  intro n w a
  refine gives_of_answers (answers_mxLa_ok hmode h hrsv hrows hclean hraw) ⟨fun i hi => ?_, fun m i hm hi hout => ?_, ?_, ?_, ?_, ?_⟩
  · rw [tile_settle, tile_modTile_same, readAcc_writeAccs_inside _ _ _ _ _ _ hi]
    have hle : 256 ^ w ≤ 256 ^ 16 := Nat.pow_le_pow_right (by decide) (gBytes_le _)
    exact Nat.mod_eq_of_lt (lt_of_lt_of_le (memNat_lt _ _ _) hle)
  · have hfit : f + c ≤ 64 := accRows_le hrows
    have hn : n < 4 := o.aD.isLt
    rw [tile_settle, tile_modTile_same, readAcc_writeAccs_outside _ _ _ _ _ _ _ (fun k hk => by omega), issuedTo_mx_readAcc]
  · exact matrixFrame_settle s (matrixFrame_modTile_acc (matrixFrame_issuedTo s t) _ (writeAccs_eq _ _ _ _ _))
  · rw [tile_settle, tile_modTile_same, writeAccs_pc, issuedTo_mx_pc]
  · rw [settle_spool, modTile_spool, issuedTo_spool]
  · rw [settle_lp, modTile_lp, issuedTo_lp]

theorem gives_mxTag {s : State} {t : Tile} {o : TagOp} (h : Executes s t .mx [(o.tD.toNat, true)] []) (hrsv : o.rsv = 0)
    (hdir : badDir o.fmt.toNat o.bdir.toNat = false) : Gives (.mxTag t o) s fun s' =>
      tagFmt s' t o.tD.toNat = o.fmt.toNat ∧ tagBdir s' t o.tD.toNat = o.bdir.toNat
        ∧ (s'.tile t).treg = (s.tile t).treg ∧ (s'.tile t).scl = (s.tile t).scl
        ∧ (s'.tile t).acc = (s.tile t).acc ∧ MatrixFrame s s' t
        ∧ (s'.tile t).pc = (s.tile t).pc + 1 ∧ s'.spool = s.spool ∧ s'.lp = s.lp := by
  refine gives_of_answers (answers_mxTag h hrsv hdir) ⟨?_, ?_, ?_, ?_, ?_, ?_, ?_, ?_, ?_⟩
  · rw [tagFmt_settle, tagFmt_setTag]
    omega
  · rw [tagBdir_settle, tagBdir_setTag]
    omega
  · rw [tile_settle, setTag_tile, issuedTo_mx_treg]
  · rw [tile_settle, setTag_tile, issuedTo_mx_scl]
  · rw [tile_settle, setTag_tile, issuedTo_mx_acc]
  · exact matrixFrame_settle s (matrixFrame_setTag (matrixFrame_issuedTo s t) o.tD _ _)
  · rw [tile_settle, setTag_tile, issuedTo_mx_pc]
  · rw [settle_spool, setTag_spool, issuedTo_spool]
  · rw [settle_lp, setTag_lp, issuedTo_lp]

/-- Settles O28: each instruction acts on the state after issue, which `issuedTo` frames; reads of a clean spool are good, a
stored image reads back word by word, and the loaded words fill the rows that gC names. -/
theorem matrixLoadsAndStores : Obligations.MatrixLoadsAndStores := by
  unfold Obligations.MatrixLoadsAndStores
  intro s t s1
  refine ⟨fun o h hrsv hdir => gives_mxTag h hrsv hdir, fun o h hrsv hdir hclean hlegal => ?_,
    fun o h hrsv1 hrsv2 hdir hfmt hbdir haddr => answers_mxStt h hrsv1 hrsv2 hdir hfmt hbdir haddr,
    fun o f c h hrsv hrows hraw => gives_mxSt h hrsv hrows hraw,
    fun o f c u h hrsv hrows hraw hidx herr => answers_mxSt_upset h hrsv hrows hraw hidx herr,
    fun o f c hmode h hrsv hrows hclean hraw => ?_⟩
  · exact ⟨answers_mxLt_ok h hrsv hdir hclean hlegal, answers_mxLt_uncorrectable h hrsv hdir hclean hlegal⟩
  · exact ⟨answers_mxLa_uncorrectable hmode h hrsv hrows hclean hraw, gives_mxLa hmode h hrsv hrows hclean hraw⟩

end Sys2Proof.Machine
end

section
/-! PROOFS. Elements of vector registers (R37, R124): numbers side by side, the element read at a place, and the whole
register from its elements. -/

namespace Sys2Proof.Machine

/-! ### Numbers side by side -/

theorem leCat_cons (w e : Nat) (es : List Nat) :
    packCells.leCat w (e :: es) = e % 2 ^ w + 2 ^ w * packCells.leCat w es := rfl

theorem leCat_lt (w : Nat) (es : List Nat) : packCells.leCat w es < 2 ^ (w * es.length) := by
  induction es with
  | nil => exact Nat.two_pow_pos _
  | cons e es ih =>
    have he : e % 2 ^ w < 2 ^ w := Nat.mod_lt _ (Nat.two_pow_pos w)
    calc packCells.leCat w (e :: es)
        < 2 ^ w * (packCells.leCat w es + 1) := by rw [leCat_cons, Nat.mul_succ]; omega
      _ ≤ 2 ^ w * 2 ^ (w * es.length) := Nat.mul_le_mul_left _ ih
      _ = 2 ^ (w * (e :: es).length) := by rw [← Nat.pow_add, List.length_cons, Nat.mul_succ, Nat.add_comm]

/-- A place of `w` bits holds the low `w` bits of the number put there. -/
theorem leCat_div_mod (w : Nat) : ∀ (es : List Nat) (i : Nat) (hi : i < es.length),
    packCells.leCat w es / 2 ^ (w * i) % 2 ^ w = es[i] % 2 ^ w
  | e :: es, 0, _ => by rw [leCat_cons, Nat.mul_zero, Nat.pow_zero, Nat.div_one, Nat.add_mul_mod_self_left, Nat.mod_mod]; rfl
  | e :: es, i + 1, hi => by
    rw [leCat_cons, Nat.mul_succ, Nat.add_comm (w * i), Nat.pow_add, ← Nat.div_div_eq_div_mul,
      Nat.add_mul_div_left _ _ (Nat.two_pow_pos w), Nat.div_eq_of_lt (Nat.mod_lt _ (Nat.two_pow_pos w)), Nat.zero_add]
    exact leCat_div_mod w es i (Nat.lt_of_succ_lt_succ hi)

/-- The digits of a number to base `2 ^ w` spell it again. -/
theorem leCat_digits (w n x : Nat) :
    packCells.leCat w ((List.range n).map (fun i => x / 2 ^ (w * i) % 2 ^ w)) = x % 2 ^ (w * n) := by
  induction n generalizing x with
  | zero => simp [packCells.leCat, Nat.mod_one]
  | succ n ih =>
    have hshift : ∀ i, x / 2 ^ (w * (i + 1)) % 2 ^ w = x / 2 ^ w / 2 ^ (w * i) % 2 ^ w := fun i => by
      rw [Nat.mul_succ, Nat.add_comm, Nat.pow_add, Nat.div_div_eq_div_mul]
    rw [List.range_succ_eq_map, List.map_cons, List.map_map, leCat_cons, Nat.mul_zero, Nat.pow_zero, Nat.div_one, Nat.mod_mod]
    simp only [Function.comp_def, Nat.succ_eq_add_one, hshift]
    rw [ih, Nat.mul_succ, Nat.add_comm (w * n), Nat.pow_add, Nat.mod_mul]

/-! ### Elements of a register -/

theorem fmtW_pos (f : Nat) : 0 < fmtW f := by unfold fmtW; split <;> omega

theorem vElem_eq (x : BitVec 4096) (f i : Nat) : vElem x f i = x.toNat / 2 ^ (fmtW f * i) % 2 ^ fmtW f := by
  have hw := fmtW_pos f
  rw [vElem, bits_eq, show fmtW f * (i + 1) - 1 + 1 - fmtW f * i = fmtW f by rw [Nat.mul_succ]; omega]

@[simp] theorem length_vElems (x : BitVec 4096) (f : Nat) : (vElems x f).length = vCount f := by simp [vElems]

/-- Elements fill a register without a rest where their width is a power of two from 8 to 64. -/
theorem fmtW_mul_vCount {f : Nat} (hw : fmtW f = 8 ∨ fmtW f = 16 ∨ fmtW f = 32 ∨ fmtW f = 64) : fmtW f * vCount f = 4096 := by
  unfold vCount
  rcases hw with h | h | h | h <;> rw [h]

theorem vElem_vPack {f : Nat} {es : List Nat} (hfit : fmtW f * es.length = 4096) (i : Nat) (hi : i < es.length) :
    vElem (vPack f es) f i = es[i] % 2 ^ fmtW f := by
  rw [vElem_eq, vPack, BitVec.toNat_ofNat, ← hfit, Nat.mod_eq_of_lt (leCat_lt _ _), leCat_div_mod _ _ _ hi]

theorem vElems_vPack {f : Nat} {es : List Nat} (hfit : fmtW f * vCount f = 4096) (hlen : es.length = vCount f)
    (hes : ∀ e ∈ es, e < 2 ^ fmtW f) : vElems (vPack f es) f = es := by
  refine List.ext_getElem (by simp [hlen]) fun i _ hi => ?_
  simp only [vElems, List.getElem_map, List.getElem_range]
  rw [vElem_vPack (by rw [hlen, hfit]) i hi]
  exact Nat.mod_eq_of_lt (hes _ (List.getElem_mem hi))

theorem vPack_vElems {f : Nat} (hfit : fmtW f * vCount f = 4096) (x : BitVec 4096) : vPack f (vElems x f) = x := by
  have hdigits : vElems x f = (List.range (vCount f)).map (fun i => x.toNat / 2 ^ (fmtW f * i) % 2 ^ fmtW f) :=
    List.map_congr_left fun i _ => vElem_eq x f i
  rw [vPack, hdigits, leCat_digits, hfit, Nat.mod_eq_of_lt x.isLt, BitVec.ofNat_toNat, BitVec.setWidth_eq]

/-- Settles O29: an element stands at the place of its number, and the digits of a register to the base of its elements
spell it again. -/
theorem vectorElementsRoundTrip : Obligations.VectorElementsRoundTrip := by
  unfold Obligations.VectorElementsRoundTrip
  intro f _ hw
  have hfit := fmtW_mul_vCount hw
  exact ⟨fun es hlen hes => vElems_vPack hfit hlen hes, vPack_vElems hfit⟩

end Sys2Proof.Machine
end

section
/-! PROOFS. The vector engine: the rules that its instructions share (the state after issue, the issue of a legal word, the
frame of a VXE instruction, vector and summary registers, the sticky events). -/

namespace Sys2Proof.Machine

open Sys2Proof.Claims

/-! ### The state from which the VXE acts -/

section
variable (s : State) (t u : Tile) (e : Engine)

/-- The tile after an issue to the VXE: beside the index only its counts and marks of issue change. -/
theorem issuedTo_vx_tile : (issuedTo s t .vx).tile t =
    { issueStep (s.hmode t) (s.tile t) with
        pc := (s.tile t).pc + 1, issued := (s.tile t).issued + (if s.hmode t then 0 else 1), vxBusy := true } := by
  rw [issuedTo, tile_modTile_same, advance_tile]; rfl

@[simp] theorem issuedTo_vx_pc : ((issuedTo s t .vx).tile t).pc = (s.tile t).pc + 1 := by rw [issuedTo_vx_tile]
@[simp] theorem issuedTo_vx_treg : ((issuedTo s t .vx).tile t).treg = (s.tile t).treg := by rw [issuedTo_vx_tile]
@[simp] theorem issuedTo_vx_v : ((issuedTo s t .vx).tile t).v = (s.tile t).v := by rw [issuedTo_vx_tile]
@[simp] theorem issuedTo_vx_readV (i : BitVec 4) : (issuedTo s t .vx).v t i = s.v t i := by
  rw [State.v, TileSt.readV, issuedTo_vx_v]; rfl
@[simp] theorem issuedTo_vx_g (r : BitVec 5) : (issuedTo s t .vx).g t r = s.g t r := by
  rw [State.g, issuedTo_hmode, issuedTo_vx_tile]; rfl

/-- An issue changes no register of a VX page: SY_ISSUE and GS_ISSUE stand on others. -/
theorem issuedTo_rdi_vx (f : Fld) (i : Nat) (h : f.off + f.stride * i < 0x1000) :
    rdi (issuedTo s t e) (vxPg u) f i = rdi s (vxPg u) f i := by
  have hreg : regW (issuedTo s t e) (vxPg u) (f.off + f.stride * i) = regW s (vxPg u) (f.off + f.stride * i) :=
    advance_regW s t _ _ (by simp only [vxPg, syPg, sy_ISSUE]; omega) (by simp only [vxPg, gsPg, gs_ISSUE_LO]; omega)
      (by simp only [vxPg, gsPg, gs_ISSUE_HI]; omega)
  rw [rdi, hreg]; rfl

@[simp] theorem issuedTo_eventSat : rd (issuedTo s t e) (vxPg u) vx_EVENT_SAT = rd s (vxPg u) vx_EVENT_SAT :=
  issuedTo_rdi_vx s t u e _ _ (by decide)
@[simp] theorem issuedTo_eventInvalid : rd (issuedTo s t e) (vxPg u) vx_EVENT_INVALID = rd s (vxPg u) vx_EVENT_INVALID :=
  issuedTo_rdi_vx s t u e _ _ (by decide)

end

/-! ### The issue of a vx instruction -/

/-- A vx instruction joins the VXE's queue, or is withheld, while an engine works. -/
theorem queues_of_issueVx {s : State} {t : Tile} {i : Instr} (x : VxIns) (hexec : exec i s = issueVx s t i x) :
    Queues s t .vx i x.rs := by
  intro hready hhere
  rw [Answers, Answers, Answers, hexec]
  exact engineOp_queues s t .vx i x.rs x.run hready hhere

/-- A vx instruction with a legal word and legal formats acts at once on the state after issue, both engines idle. -/
theorem answers_of_vxOp {s : State} {t : Tile} {i : Instr} {rs : List (BitVec 5)} {word : Nat} {illegal badFmt : Bool}
    {body : State → Nat → State} (hexec : exec i s = issueVx s t i (vxOp t rs word illegal badFmt body))
    (h : Executes s t .vx (tregUses i) rs) (hword : illegal = false) (hfmt : badFmt = false) :
    Answers i s (body (issuedTo s t .vx) (s.tile t).pc.toNat) := by
  subst hword hfmt
  rw [Answers, hexec]
  exact engineOp_runs s t .vx i rs _ h

/-! ### What a vector instruction leaves alone -/

theorem vectorFrame_issuedTo (s : State) (t : Tile) : VectorFrame s (issuedTo s t .vx) t := by
  refine ⟨issuedTo_vx_g s t, fun i => ?_, issuedTo_vx_treg s t, ?_, ?_, ?_, fun u hu => issuedTo_tile_ne s t u .vx hu, ?_, ?_, ?_,
    issuedTo_net s t _, ?_⟩
  case refine_1 => rw [State.p, issuedTo_vx_tile]; rfl
  case refine_5 | refine_6 | refine_7 => simp
  all_goals rw [issuedTo_vx_tile]

/-- A store to a field of a VX page keeps the frame: HMODE, which selects the scalar bank, stands on the TL page. -/
theorem vectorFrame_wri_vx {s x : State} {t : Tile} (h : VectorFrame s x t) (u : Tile) (f : Fld) (i v : Nat)
    (hoff : f.off + f.stride * i < 0x1000) : VectorFrame s (wri x (vxPg u) f i v) t := by
  obtain ⟨hg, hrest⟩ := h
  have hmode : (wri x (vxPg u) f i v).hmode t = x.hmode t := hmode_wri_ne _ _ _ _ _ _ (by simp only [vxPg]; omega)
  refine ⟨fun r => ?_, hrest⟩
  rw [← hg r, State.g, hmode]; rfl

theorem vectorFrame_wr_vx {s x : State} {t : Tile} (h : VectorFrame s x t) (u : Tile) (f : Fld) (v : Nat) (hoff : f.off < 0x1000) :
    VectorFrame s (wr x (vxPg u) f v) t := vectorFrame_wri_vx h u f 0 v (by simpa using hoff)

theorem vectorFrame_setV {s x : State} {t : Tile} (h : VectorFrame s x t) (d : BitVec 4) (y : BitVec 4096) :
    VectorFrame s (x.setV t d y) t := by
  obtain ⟨hg, hp, htreg, hscl, hacc, hdstore, hother, hspool, hlp, hflash, hnet, hpc⟩ := h
  have ht : (x.setV t d y).tile t = (x.tile t).writeV d y := tile_modTile_same x t _
  refine ⟨fun r => ?_, fun i => ?_, ?_, ?_, ?_, ?_, fun u hu => ?_, hspool, hlp, hflash, hnet, ?_⟩
  · rw [← hg r, State.g, ht]; rfl
  · rw [← hp i, State.p, ht]; rfl
  · rw [ht]; exact htreg
  · rw [ht]; exact hscl
  · rw [ht]; exact hacc
  · rw [ht]; exact hdstore
  · rw [State.setV, tile_modTile_ne _ _ _ _ hu]; exact hother u hu
  · rw [ht]; exact hpc

theorem vectorFrame_settle {s x : State} {t : Tile} (s0 : State) (h : VectorFrame s x t) : VectorFrame s (settle s0 x) t := h

/-! ### Vector registers and summary registers -/

theorem v_setV (x : State) (t : Tile) (d r : BitVec 4) (y : BitVec 4096) :
    (x.setV t d y).v t r = if r = d then y else x.v t r := by
  rw [State.v, State.setV, tile_modTile_same, TileSt.readV, TileSt.writeV, smGet_smPut]
  simp only [BitVec.toNat_inj]
  rfl

theorem writeU_tile (x : State) (t w : Tile) (u v : Nat) : (writeU x t u v).tile w = x.tile w := by
  rw [writeU, tile_wri, tile_wri]

/-- A summary register reads what was written, and the others what they held (R155). -/
theorem readU_writeU (x : State) (t : Tile) (u k : BitVec 3) (v : Nat) :
    readU (writeU x t u.toNat v) t k.toNat = if k = u then v % 2 ^ 64 else readU x t k.toNat := by
  have hlo : rdi (writeU x t u.toNat v) (vxPg t) vx_U_LO k.toNat = rdi (wri x (vxPg t) vx_U_LO u.toNat v) (vxPg t) vx_U_LO k.toNat :=
    rdi_wri_ne _ _ _ _ _ _ _ _ (by simp only [vx_U_LO, vx_U_HI]; omega)
  rw [readU, hlo]
  by_cases hk : k = u
  · subst hk
    rw [if_pos rfl, rdi_wri_same _ _ _ _ _ (by decide), writeU, rdi_wri_same _ _ _ _ _ (by decide)]
    simp only [vx_U_LO, vx_U_HI]
    omega
  · have hne : k.toNat ≠ u.toNat := fun h => hk (BitVec.eq_of_toNat_eq h)
    rw [if_neg hk, writeU, rdi_wri_ne _ _ _ _ _ _ _ _ (by simp only [vx_U_LO]; omega),
      rdi_wri_ne _ _ _ _ _ _ _ _ (by simp only [vx_U_HI]; omega),
      rdi_wri_ne _ _ _ _ _ _ _ _ (by simp only [vx_U_LO, vx_U_HI]; omega)]
    rfl

@[simp] theorem issuedTo_readU (s : State) (t u : Tile) (e : Engine) (k : BitVec 3) :
    readU (issuedTo s t e) u k.toNat = readU s u k.toNat := by
  rw [readU, issuedTo_rdi_vx s t u e _ _ (by simp only [vx_U_LO]; omega),
    issuedTo_rdi_vx s t u e _ _ (by simp only [vx_U_HI]; omega)]
  rfl

/-! ### The sticky events (R133) -/

/-- The events stand in a register of their own. -/
theorem rd_event_writeU (x : State) (t : Tile) (u : BitVec 3) (v : Nat) (f : Fld) (hf : f.off = 0x044) :
    rd (writeU x t u.toNat v) (vxPg t) f = rd x (vxPg t) f := by
  rw [rd, writeU, rdi_wri_ne _ _ _ _ _ _ _ _ (by simp only [hf, vx_U_HI]; omega),
    rdi_wri_ne _ _ _ _ _ _ _ _ (by simp only [hf, vx_U_LO]; omega)]
  rfl

theorem readU_wr_event (x : State) (t : Tile) (f : Fld) (v : Nat) (k : BitVec 3) (hf : f.off = 0x044) :
    readU (wr x (vxPg t) f v) t k.toNat = readU x t k.toNat := by
  rw [readU, wr, rdi_wri_ne _ _ _ _ _ _ _ _ (by simp only [hf, vx_U_LO]; omega),
    rdi_wri_ne _ _ _ _ _ _ _ _ (by simp only [hf, vx_U_HI]; omega)]
  rfl

section
variable (x : State) (t : Tile) (sat inv : Bool)

@[simp] theorem raiseEvents_tile (u : Tile) : (raiseEvents x t sat inv).tile u = x.tile u := by
  cases sat <;> cases inv <;> rfl

theorem raiseEvents_v (r : BitVec 4) : (raiseEvents x t sat inv).v t r = x.v t r := by
  rw [State.v, raiseEvents_tile]; rfl

theorem raiseEvents_readU (k : BitVec 3) : readU (raiseEvents x t sat inv) t k.toNat = readU x t k.toNat := by
  have hsat := readU_wr_event x t vx_EVENT_SAT 1 k rfl
  cases sat <;> cases inv
  · rfl
  · exact readU_wr_event x t vx_EVENT_INVALID 1 k rfl
  · exact hsat
  · exact (readU_wr_event _ t vx_EVENT_INVALID 1 k rfl).trans hsat

theorem rd_event_le (f : Fld) (h : f.hi = f.lo) : rd x (vxPg t) f ≤ 1 := by
  have hlt := rdi_lt x (vxPg t) f 0
  rw [h, Nat.add_sub_cancel_left, Nat.pow_one] at hlt
  exact Nat.le_of_lt_succ hlt

/-- The events of an instruction join the sticky ones. -/
theorem eventsJoin_raiseEvents : EventsJoin x (raiseEvents x t sat inv) t sat inv := by
  have hset : ∀ y : State, ∀ f ∈ [vx_EVENT_SAT, vx_EVENT_INVALID], rd (wr y (vxPg t) f 1) (vxPg t) f = 1 := fun y f hf => by
    rcases List.mem_pair.mp hf with rfl | rfl <;> exact rd_wr_same _ _ _ _ (by decide)
  have hsat : ∀ y, rd (wr y (vxPg t) vx_EVENT_INVALID 1) (vxPg t) vx_EVENT_SAT = rd y (vxPg t) vx_EVENT_SAT := fun y =>
    rd_wr_field _ _ _ _ _ rfl (by decide) (by decide) (by decide)
  have hinv : ∀ y, rd (wr y (vxPg t) vx_EVENT_SAT 1) (vxPg t) vx_EVENT_INVALID = rd y (vxPg t) vx_EVENT_INVALID := fun y =>
    rd_wr_field _ _ _ _ _ rfl (by decide) (by decide) (by decide)
  have hsat1 := rd_event_le x t vx_EVENT_SAT rfl
  have hinv1 := rd_event_le x t vx_EVENT_INVALID rfl
  constructor
  · cases sat <;> cases inv <;> simp [raiseEvents, b2n, hsat, hset, hsat1]
  · cases sat <;> cases inv <;> simp [raiseEvents, b2n, hinv, hset, hinv1]

end

theorem vectorFrame_raiseEvents {s x : State} {t : Tile} (h : VectorFrame s x t) (sat inv : Bool) :
    VectorFrame s (raiseEvents x t sat inv) t := by
  have hsat := vectorFrame_wr_vx h t vx_EVENT_SAT 1 (by decide)
  cases sat <;> cases inv
  · exact h
  · exact vectorFrame_wr_vx h t vx_EVENT_INVALID 1 (by decide)
  · exact hsat
  · exact vectorFrame_wr_vx hsat t vx_EVENT_INVALID 1 (by decide)

/-- Events that join those of a state with the same ones. -/
theorem eventsJoin_of_eq {s x y : State} {t : Tile} {sat inv : Bool} (h : EventsJoin x y t sat inv)
    (hsat : rd x (vxPg t) vx_EVENT_SAT = rd s (vxPg t) vx_EVENT_SAT)
    (hinv : rd x (vxPg t) vx_EVENT_INVALID = rd s (vxPg t) vx_EVENT_INVALID) : EventsJoin s y t sat inv := by
  rwa [EventsJoin, ← hsat, ← hinv]

/-! ### A result into a vector register or a summary register -/

theorem putsV_of_answers {c : Instr} {s : State} {t : Tile} {d : BitVec 4} {y : BitVec 4096} {sat inv : Bool}
    (h : Answers c s (raiseEvents ((issuedTo s t .vx).setV t d y) t sat inv)) : PutsV c s t d y sat inv := by
  refine gives_of_answers h ⟨fun r => ?_, ?_, ?_⟩
  · exact (raiseEvents_v _ t sat inv r).trans ((v_setV _ t d r y).trans (by rw [issuedTo_vx_readV]))
  · exact eventsJoin_of_eq (eventsJoin_raiseEvents _ t sat inv) ((rd_modTile _ t _ _ _).trans (issuedTo_eventSat s t t .vx))
      ((rd_modTile _ t _ _ _).trans (issuedTo_eventInvalid s t t .vx))
  · exact vectorFrame_raiseEvents (vectorFrame_setV (vectorFrame_issuedTo s t) d y) sat inv

theorem vectorFrame_writeU {s x : State} {t : Tile} (h : VectorFrame s x t) (u : BitVec 3) (v : Nat) :
    VectorFrame s (writeU x t u.toNat v) t :=
  vectorFrame_wri_vx (vectorFrame_wri_vx h t _ _ _ (by simp only [vx_U_LO]; omega)) t _ _ _ (by simp only [vx_U_HI]; omega)

theorem putsU_of_answers {c : Instr} {s : State} {t : Tile} {u : BitVec 3} {v : Nat} {inv : Bool}
    (h : Answers c s (raiseEvents (writeU (issuedTo s t .vx) t u.toNat v) t false inv)) : PutsU c s t u v inv := by
  refine gives_of_answers h ⟨fun k => ?_, ?_, ?_, ?_⟩
  · exact (raiseEvents_readU _ t false inv k).trans ((readU_writeU _ t u k v).trans (by rw [issuedTo_readU]))
  · exact eventsJoin_of_eq (eventsJoin_raiseEvents _ t false inv)
      ((rd_event_writeU _ t u v _ rfl).trans (issuedTo_eventSat s t t .vx))
      ((rd_event_writeU _ t u v _ rfl).trans (issuedTo_eventInvalid s t t .vx))
  · rw [tile_settle, raiseEvents_tile, writeU_tile, issuedTo_vx_v]
  · exact vectorFrame_raiseEvents (vectorFrame_writeU (vectorFrame_issuedTo s t) u v) false inv

end Sys2Proof.Machine
end

section
/-! PROOFS. The floating instructions of the vector engine (R129 to R131): two sources and the destination, and one source. -/

namespace Sys2Proof.Machine

open Sys2Proof.Claims

theorem badRm_of_lt {rm : BitVec 3} (h : rm.toNat < 4) : badRm rm = false := decide_eq_false (by omega)

theorem badF_of_float {f : BitVec 4} (h : f = 6 ∨ f = 7) : badF f = false := by rcases h with rfl | rfl <;> rfl

/-- Sources side by side, element by element. -/
theorem zip_vElems (x y : BitVec 4096) (f : Nat) :
    (vElems x f).zip (vElems y f) = (List.range (vCount f)).map (fun i => (vElem x f i, vElem y f i)) := List.zip_map'

theorem zip_zip_vElems (x y z : BitVec 4096) (f : Nat) : (vElems x f).zip ((vElems y f).zip (vElems z f))
    = (List.range (vCount f)).map (fun i => (vElem x f i, vElem y f i, vElem z f i)) := by
  rw [zip_vElems]; exact List.zip_map'

theorem putsCvs_of_answers {c : Instr} {s : State} {t : Tile} {d : BitVec 4} {f : Nat} {cs : List Cv}
    (h : Answers c s (putCvs (issuedTo s t .vx) t d f cs)) : PutsCvs c s t d f cs := putsV_of_answers h

section
variable {s : State} {t : Tile} {c : Instr} {o : VfOp} {m : Nat} {op : Val → Val → Val → Res} {u : Option Upset}
  (hexec : exec c s = issueVx s t c (vfOp t o m u op)) (h : Executes s t .vx (tregUses c) [])
  (hf : o.f = 6 ∨ o.f = 7) (hrm : o.rm.toNat < 4)
include hexec h hf hrm

theorem putsCvs_vfOp (hu : u = none) : PutsCvs c s t o.vD o.f.toNat ((List.range (vCount o.f.toNat)).map (fun i =>
    finish o.f.toNat (op (decVal o.f.toNat (vElem (s.v t o.vA) o.f.toNat i)) (decVal o.f.toNat (vElem (s.v t o.vB) o.f.toNat i))
      (decVal o.f.toNat (vElem (s.v t o.vD) o.f.toNat i))) o.rm.toNat (o.sat == 1))) := by
  subst hu
  have hans := answers_of_vxOp hexec h (badRm_of_lt hrm) (badF_of_float hf)
  simp only [upsetCaught, Bool.false_eq_true, if_false, disturbCv, issuedTo_vx_readV, zip_zip_vElems, List.map_map,
    Function.comp_def] at hans
  exact putsCvs_of_answers hans

theorem answers_vfOp_caught (hu : upsetCaught u (vCount o.f.toNat) = true) :
    Answers c s (vxResidue (issuedTo s t .vx) t (s.tile t).pc.toNat) := by
  have hans := answers_of_vxOp hexec h (badRm_of_lt hrm) (badF_of_float hf)
  rwa [if_pos hu] at hans

end

section
variable {s : State} {t : Tile} {c : Instr} {o : VuOp} {m : Nat} {op : Nat → Nat → Nat → Bool → Cv} {u : Option Upset}
  (hexec : exec c s = issueVx s t c (vuOp t o m u op)) (h : Executes s t .vx (tregUses c) [])
  (hf : o.f = 6 ∨ o.f = 7) (hrm : o.rm.toNat < 4) (hrsv : o.rsv = 0)
include hexec h hf hrm hrsv

theorem putsCvs_vuOp (hu : u = none) : PutsCvs c s t o.vD o.f.toNat ((List.range (vCount o.f.toNat)).map (fun i =>
    op o.f.toNat (vElem (s.v t o.vA) o.f.toNat i) o.rm.toNat (o.sat == 1))) := by
  subst hu
  have hans := answers_of_vxOp hexec h (by simp [badRm_of_lt hrm, hrsv]) (badF_of_float hf)
  simp only [upsetCaught, Bool.false_eq_true, if_false, disturbCv, issuedTo_vx_readV, vElems, List.map_map,
    Function.comp_def] at hans
  exact putsCvs_of_answers hans

theorem answers_vuOp_caught (hu : upsetCaught u (vCount o.f.toNat) = true) :
    Answers c s (vxResidue (issuedTo s t .vx) t (s.tile t).pc.toNat) := by
  have hans := answers_of_vxOp hexec h (by simp [badRm_of_lt hrm, hrsv]) (badF_of_float hf)
  rwa [if_pos hu] at hans

end

theorem queues_vectorFloats (s : State) (t : Tile) (o : VfOp) (x : VuOp) (u : Option Upset) :
    ∀ c ∈ [Instr.vxAdd t o u, .vxSub t o u, .vxMul t o u, .vxDiv t o u, .vxFma t o u, .vxMin t o, .vxMax t o, .vxSqrt t x u,
      .vxRcp t x u, .vxRsqrt t x u, .vxExp2 t x u, .vxLog2 t x u, .vxAbs t x, .vxNeg t x], Queues s t .vx c [] := by
  simp only [List.forall_mem_cons]
  exact ⟨queues_of_issueVx (insVxAdd t o u) rfl, queues_of_issueVx (insVxSub t o u) rfl, queues_of_issueVx (insVxMul t o u) rfl,
    queues_of_issueVx (insVxDiv t o u) rfl, queues_of_issueVx (insVxFma t o u) rfl, queues_of_issueVx (insVxMin t o) rfl,
    queues_of_issueVx (insVxMax t o) rfl, queues_of_issueVx (insVxSqrt t x u) rfl, queues_of_issueVx (insVxRcp t x u) rfl,
    queues_of_issueVx (insVxRsqrt t x u) rfl, queues_of_issueVx (insVxExp2 t x u) rfl, queues_of_issueVx (insVxLog2 t x u) rfl,
    queues_of_issueVx (insVxAbs t x) rfl, queues_of_issueVx (insVxNeg t x) rfl, List.forall_mem_nil _⟩

/-- Settles O30: each instruction is `vfOp` or `vuOp` of its operation, which act on the state after issue element by
element, or find the disturbance that the residue detects. -/
theorem vectorFloats : Obligations.VectorFloats := by
  unfold Obligations.VectorFloats
  refine ⟨fun s t o h hf hrm => ?_, fun s t o h hf hrm hrsv => ?_, queues_vectorFloats⟩
  · refine ⟨putsCvs_vfOp (op := fun a b _ => addVal o.rm.toNat a b) rfl h hf hrm rfl,
      putsCvs_vfOp (op := fun a b _ => addVal o.rm.toNat a (negVal b)) rfl h hf hrm rfl,
      putsCvs_vfOp (op := fun a b _ => mulVal a b) rfl h hf hrm rfl,
      putsCvs_vfOp (op := fun a b _ => divVal a b) rfl h hf hrm rfl,
      putsCvs_vfOp (op := fun a b d => fmaVal o.rm.toNat a b d) rfl h hf hrm rfl,
      putsCvs_vfOp (op := fun a b _ => .val (minVal a b)) rfl h hf hrm rfl,
      putsCvs_vfOp (op := fun a b _ => .val (maxVal a b)) rfl h hf hrm rfl, fun u hidx herr => ?_⟩
    have hu := upsetCaught_of_err hidx herr
    exact ⟨answers_vfOp_caught rfl h hf hrm hu, answers_vfOp_caught rfl h hf hrm hu, answers_vfOp_caught rfl h hf hrm hu,
      answers_vfOp_caught rfl h hf hrm hu, answers_vfOp_caught rfl h hf hrm hu⟩
  · refine ⟨putsCvs_vuOp (op := fun f a rm sat => sqrtOp f (decVal f a) rm sat) rfl h hf hrm hrsv rfl,
      putsCvs_vuOp (op := fun f a rm sat => rcpOp f (decVal f a) rm sat) rfl h hf hrm hrsv rfl,
      putsCvs_vuOp (op := fun f a rm sat => rsqrtOp f (decVal f a) rm sat) rfl h hf hrm hrsv rfl,
      putsCvs_vuOp (op := fun f a rm sat => exp2Op f (decVal f a) rm sat) rfl h hf hrm hrsv rfl,
      putsCvs_vuOp (op := fun f a rm sat => log2Op f (decVal f a) rm sat) rfl h hf hrm hrsv rfl,
      putsCvs_vuOp (op := fun f a _ _ => signOp (fun f a => a % 2 ^ (fmtW f - 1)) f a) rfl h hf hrm hrsv rfl,
      putsCvs_vuOp (op := fun f a _ _ => signOp (fun f a => (a + 2 ^ (fmtW f - 1)) % 2 ^ fmtW f) f a) rfl h hf hrm hrsv rfl,
      fun u hidx herr => ?_⟩
    have hu := upsetCaught_of_err hidx herr
    exact ⟨answers_vuOp_caught rfl h hf hrm hrsv hu, answers_vuOp_caught rfl h hf hrm hrsv hu,
      answers_vuOp_caught rfl h hf hrm hrsv hu, answers_vuOp_caught rfl h hf hrm hrsv hu,
      answers_vuOp_caught rfl h hf hrm hrsv hu⟩

end Sys2Proof.Machine
end

section
/-! PROOFS. A vector load whose corrected word is the one at which its bank row meets ST_CE_LIMIT (R273, R276): the MEM record
of the row finds the logbook queue full, and counts the dropped record, of a severity that the logbook does not have, in the
register of the corrections themselves. -/

namespace Sys2Proof.Machine

open Sys2Proof.Claims

/-! ### Registers that a correction leaves alone -/

/-- The capture of a spool error takes two registers (R296). -/
theorem rd_spoolErr (s : State) (p o port type synd : Nat) (g : Fld) (h50 : g.off ≠ 0x050) (h54 : g.off ≠ 0x054) :
    rd (spoolErr s p o port type synd) stPg g = rd s stPg g := by
  have h0 : ∀ (y : State) (f : Fld) (v : Nat), f.off = 0x050 → rd (wr y stPg f v) stPg g = rd y stPg g := fun y f v hf =>
    rd_wr_ne _ _ _ _ _ _ (by omega)
  have h4 : ∀ (y : State) (f : Fld) (v : Nat), f.off = 0x054 → rd (wr y stPg f v) stPg g = rd y stPg g := fun y f v hf =>
    rd_wr_ne _ _ _ _ _ _ (by omega)
  rw [spoolErr, h4 _ st_ERR_WORD _ rfl, h4 _ st_ERR_SYND _ rfl, h0 _ st_ERR_LINE _ rfl, h0 _ st_ERR_BANK _ rfl,
    h0 _ st_ERR_PTILE _ rfl, h0 _ st_ERR_PORT _ rfl, h0 _ st_ERR_TYPE _ rfl]

theorem wr_eq_regs {s y : State} (h : ∃ r, y = { s with regs := r }) (p : Nat) (f : Fld) (v : Nat) :
    ∃ r, wr y p f v = { s with regs := r } := by
  obtain ⟨r, rfl⟩ := h
  exact ⟨_, rfl⟩

/-- The capture of a spool error changes registers alone. -/
theorem spoolErr_eq_regs (s : State) (p o port type synd : Nat) : ∃ r, spoolErr s p o port type synd = { s with regs := r } := by
  have h0 : ∃ r, s = { s with regs := r } := ⟨s.regs, rfl⟩
  have h1 := wr_eq_regs (wr_eq_regs (wr_eq_regs h0 stPg st_ERR_TYPE type) stPg st_ERR_PORT port) stPg st_ERR_PTILE p
  exact wr_eq_regs (wr_eq_regs (wr_eq_regs (wr_eq_regs h1 stPg st_ERR_BANK _) stPg st_ERR_LINE _) stPg st_ERR_SYND _)
    stPg st_ERR_WORD _

/-- A fault bit takes PG_FAULT and FORCED of its page (R544, R546). -/
theorem rd_raiseF_ne (s : State) (page page' : Nat) (f g : Fld) (hfault : page' * 0x1000 + g.off ≠ page * 0x1000 + pg_FAULT.off)
    (hforced : page' * 0x1000 + g.off ≠ page * 0x1000 + pg_FORCED.off) : rd (raiseF s page f) page' g = rd s page' g := by
  have hset : ∀ v, rd (setW s page pg_FAULT.off v) page' g = rd s page' g := fun v => by
    rw [rd, rdi, regW_setW_ne _ _ _ _ _ _ (by simpa using hfault)]; rfl
  have hreport : ∀ (y : State) b, rd (report y page b) page' g = rd y page' g := fun y b => by
    unfold report; split <;> rfl
  unfold raiseF raiseBit
  dsimp only
  split
  · exact hset _
  · rw [hreport, rd_wr_ne _ _ _ _ _ _ hforced, hset]

theorem rd_congr {x y : State} (h : x.regs = y.regs) (page : Nat) (f : Fld) : rd x page f = rd y page f := by
  rw [rd, rdi, regW, h]; rfl

theorem rd_inc_ne (s : State) (page page' n : Nat) (f g : Fld) (h : page' * 0x1000 + g.off ≠ page * 0x1000 + f.off) :
    rd (inc s page f n) page' g = rd s page' g := rd_wr_ne s page f _ page' g h

/-- A repair log with room takes its record in flash (R488). -/
theorem repairWrite_frame {s : State} (hroom : s.repairN < 65536) (kind a b seq : Nat) :
    (repairWrite s kind a b seq).regs = s.regs ∧ (repairWrite s kind a b seq).logQ = s.logQ
      ∧ (repairWrite s kind a b seq).ticks = s.ticks := by
  rw [repairWrite, if_neg (by omega)]
  exact ⟨rfl, rfl, rfl⟩

theorem raiseF_logQ (s : State) (page : Nat) (f : Fld) : (raiseF s page f).logQ = s.logQ := by
  unfold raiseF raiseBit report
  dsimp only
  split
  · rfl
  · split <;> rfl

theorem raiseF_ticks (s : State) (page : Nat) (f : Fld) : (raiseF s page f).ticks = s.ticks := by
  unfold raiseF raiseBit report
  dsimp only
  split
  · rfl
  · split <;> rfl

/-! ### A dropped record in the counter of corrections -/

/-- The counter of dropped records of that severity is the register of the corrections. -/
theorem rdi_dropAt_ceCnt (s : State) : rdi s evPg ev_DROP (severityAt stPg st_CE_CNT) = rd s stPg st_CE_CNT := by
  have hplace : evPg * 0x1000 + (ev_DROP.off + ev_DROP.stride * severityAt stPg st_CE_CNT) = stPg * 0x1000 + st_CE_CNT.off := by
    decide
  rw [rdi, regW, hplace]; rfl

theorem rd_inci_dropAt_ceCnt (s : State) (n : Nat) :
    rd (inci s evPg ev_DROP (severityAt stPg st_CE_CNT) n) stPg st_CE_CNT = min (rd s stPg st_CE_CNT + n) (2 ^ 32 - 1) := by
  rw [← rdi_dropAt_ceCnt, inci, rdi_wri_same _ _ _ _ _ (by decide), rdi_dropAt_ceCnt]
  simp only [Fld.max, ev_DROP]
  omega

/-- A request of severity 1 drops the last of `fullQueue`. -/
theorem pushLog_fullQueue (sev : Nat) (r : LogReq) (hsev : r.sev = 1) (hcycle : r.cycle = 0) :
    (pushLog (fullQueue sev) r).2 = some (waitingReq sev) := by
  obtain ⟨_, code, source, payload, _⟩ := r
  subst hsev hcycle
  rfl

theorem rd_logReq_fullQueue_ceCnt (s : State) (code source : Nat) (payload : List Byte)
    (hfull : s.logQ = fullQueue (severityAt stPg st_CE_CNT)) (hcycle : aonCycle s = 0) :
    rd (logReq s 1 code source payload) stPg st_CE_CNT = min (rd s stPg st_CE_CNT + 1) (2 ^ 32 - 1) := by
  have hcount : ∀ y : State, rd (raiseF (inci (inc y evPg ev_QDROP 1) evPg ev_DROP (severityAt stPg st_CE_CNT) 1) evPg ev_F_DROP)
      stPg st_CE_CNT = min (rd y stPg st_CE_CNT + 1) (2 ^ 32 - 1) := fun y => by
    rw [rd_raiseF_ne _ _ _ _ _ (by decide) (by decide), rd_inci_dropAt_ceCnt, rd_inc_ne _ _ _ _ _ _ (by decide)]
  have hdrop := pushLog_fullQueue (severityAt stPg st_CE_CNT)
    { sev := 1, code := code, source := source, payload := payload, cycle := aonCycle s } rfl hcycle
  rw [← hfull] at hdrop
  simp only [logReq, hdrop]
  exact hcount _

/-! ### A correction whose record counts as another -/

/-- The tile 0 runs, a bank row meets ST_CE_LIMIT at its first correction, and the record of that counts a dropped one in
ST_CE_CNT. -/
def correcting : State :=
  wr (wr { State.reset with nextStitch := 1, logQ := fullQueue (severityAt stPg st_CE_CNT) } (tlPg 0) tl_STATUS_RUNNING 1)
    stPg st_CE_LIMIT 1

/-- The repair and the record of a bank row at its limit, from a full queue. -/
theorem rd_limitRecord_ceCnt {s : State} (hroom : s.repairN < 65536) (hfull : s.logQ = fullQueue (severityAt stPg st_CE_CNT))
    (hcycle : aonCycle s = 0) (kind a b seq code source : Nat) (payload : List Byte) :
    rd (logReq (inc (raiseF (repairWrite s kind a b seq) stPg st_F_CE_LIMIT) stPg st_REPAIR_PEND 1) 1 code source payload)
      stPg st_CE_CNT = min (rd s stPg st_CE_CNT + 1) (2 ^ 32 - 1) := by
  obtain ⟨hregs, hlogQ, hticks⟩ := repairWrite_frame hroom kind a b seq
  rw [rd_logReq_fullQueue_ceCnt, rd_inc_ne _ _ _ _ _ _ (by decide), rd_raiseF_ne _ _ _ _ _ (by decide) (by decide),
    rd_congr hregs]
  · rw [inc, inci, wri_logQ, raiseF_logQ, hlogQ, hfull]
  · rw [aonCycle, inc, inci, wri_ticks, raiseF_ticks, hticks]; exact hcycle

/-- A first correction that meets ST_CE_LIMIT counts itself, and its record counts the dropped one. -/
theorem rd_spoolCorrect_ceCnt {s : State} (hce : s.spoolCe = []) (hrepair : s.repairN = 0)
    (hfull : s.logQ = fullQueue (severityAt stPg st_CE_CNT)) (hcycle : aonCycle s = 0) (hlimit : rd s stPg st_CE_LIMIT = 1)
    (hcount : rd s stPg st_CE_CNT = 0) (p o port : Nat) (synd : Option (BitVec 8)) :
    rd (spoolCorrect s p o port synd) stPg st_CE_CNT = 2 := by
  unfold spoolCorrect
  generalize hs' : spoolErr s p o port 1 (syndOf s (p * 0x100000 + o / 8) synd) = s'
  have hcount' : rd (inc s' stPg st_CE_CNT 1) stPg st_CE_CNT = 1 := by
    have hbefore : rdi s' stPg st_CE_CNT 0 = 0 :=
      hs' ▸ (rd_spoolErr s p o port 1 _ st_CE_CNT (by decide) (by decide)).trans hcount
    rw [inc, inci, hbefore]
    exact rd_wr_same _ _ _ _ (by decide)
  have hlimit' : rd (inc s' stPg st_CE_CNT 1) stPg st_CE_LIMIT = 1 := by
    rw [rd_inc_ne _ _ _ _ _ _ (by decide), ← hs', rd_spoolErr s p o port 1 _ st_CE_LIMIT (by decide) (by decide), hlimit]
  obtain ⟨r, hregs⟩ := spoolErr_eq_regs s p o port 1 (syndOf s (p * 0x100000 + o / 8) synd)
  obtain ⟨r', hregs'⟩ := wr_eq_regs ⟨r, hs'.symm.trans hregs⟩ stPg st_CE_CNT (min (rd s' stPg st_CE_CNT + 1) st_CE_CNT.max)
  rw [inc, inci, ← rd, ← wr, hregs'] at hcount' hlimit'
  rw [inc, inci, ← rd, ← wr, hregs']
  dsimp only
  rw [hce, smGet_nil]
  split
  case isFalse hne => exact absurd hlimit'.symm hne
  case isTrue =>
    refine (rd_limitRecord_ceCnt ?_ ?_ ?_ ..).trans ?_
    · dsimp only
      omega
    · exact hfull
    · exact hcycle
    · rw [rd_congr (y := { s with regs := r' }) (by rfl), hcount']
      rfl

/-- vx.ld v0, g0. -/
def vldOp : VldOp := { v := 0, gA := 0, rsv := 0 }

theorem correcting_executes : Executes correcting 0 .vx [] [vldOp.gA] := by
  refine ⟨⟨?ready, ?here, by decide, by decide⟩, by decide⟩
  case ready => unfold Ready; decide
  case here => unfold Here; decide

theorem correcting_clean : SpClean correcting := ⟨rfl, rfl⟩

/-- A read of a clean spool that finds a correctable error counts it (R273). -/
theorem spoolLocal_corrected {s : State} (hclean : SpClean s) (t : Tile) (o n : Nat) :
    spoolLocal s t o n .corrected = (true, spoolCorrect s (s.ptile t.toNat) o portLocal none) := by
  rw [spoolLocal, spoolCheck, spIsBad_clean hclean, spWeakIn_clean hclean]; rfl

theorem answers_correcting : ∃ y, Answers (.vxLd 0 vldOp .corrected) correcting
    ((spoolCorrect (issuedTo correcting 0 .vx) ((issuedTo correcting 0 .vx).ptile 0) 0 portLocal none).setV 0 vldOp.v y) := by
  have hans := answers_of_vxOp (i := .vxLd 0 vldOp .corrected) rfl correcting_executes rfl rfl
  have haddr : ((issuedTo correcting 0 .vx).g 0 vldOp.gA).toNat = 0 := by rw [issuedTo_vx_g]; rfl
  rw [haddr, if_neg (by decide), spoolLocal_corrected (spClean_issuedTo correcting_clean 0 .vx)] at hans
  exact ⟨_, hans⟩

theorem correcting_ceCnt (s' : State) (h : exec (.vxLd 0 vldOp .corrected) correcting = .next s') : rd s' stPg st_CE_CNT = 2 := by
  obtain ⟨y, hans⟩ := answers_correcting
  rw [hans] at h
  cases h
  have hcount := rd_spoolCorrect_ceCnt (s := issuedTo correcting 0 .vx) rfl rfl rfl rfl (by decide) (by decide)
    ((issuedTo correcting 0 .vx).ptile 0) 0 portLocal none
  exact hcount

/-- Refutes O31: the load of `correcting` is stated to raise ST_CE_CNT from 0 to 1, and the record of its bank row then adds 1
to that register. -/
theorem not_vectorIntegersAndMoves : ¬ Obligations.VectorIntegersAndMoves := by
  unfold Obligations.VectorIntegersAndMoves
  intro h
  obtain ⟨-, hmoves, -⟩ := h
  obtain ⟨hloads, -⟩ := hmoves correcting 0 correcting_clean
  obtain ⟨-, -, hcorrected, -⟩ := hloads vldOp correcting_executes rfl (by decide) (by decide)
  obtain ⟨s', hnext, -, hcount⟩ := hcorrected
  rw [correcting_ceCnt s' hnext] at hcount
  exact absurd hcount (by decide)

end Sys2Proof.Machine
end

section
/-! PROOFS. Conversions, cut and uncut, reductions and summary registers of the vector engine (R137 to R143, R152 to R155). -/

namespace Sys2Proof.Machine

open Sys2Proof.Claims

/-! ### What an issue leaves for conversions and reductions to read -/

section
variable (s : State) (t u : Tile) (e : Engine)

theorem issuedTo_rd_vx (f : Fld) (h : f.off < 0x1000) : rd (issuedTo s t e) (vxPg u) f = rd s (vxPg u) f :=
  issuedTo_rdi_vx s t u e f 0 (by simpa using h)

theorem issuedTo_rd64_vx (lo hi : Fld) (hlo : lo.off < 0x1000) (hhi : hi.off < 0x1000) :
    rd64 (issuedTo s t e) (vxPg u) lo hi = rd64 s (vxPg u) lo hi := by
  rw [rd64, issuedTo_rd_vx s t u e lo hlo, issuedTo_rd_vx s t u e hi hhi]; rfl

@[simp] theorem issuedTo_srCtx (rm j : Nat) : srCtx (issuedTo s t e) u rm j = srCtx s u rm j := by
  have hseed : vxSeed (issuedTo s t e) u = vxSeed s u := by
    rw [vxSeed, issuedTo_rd64_vx s t u e _ _ (by decide) (by decide)]; rfl
  simp only [srCtx, srDraw, hseed, issuedTo_rd_vx s t u e vx_SR_STREAM (by decide), issuedTo_rd_vx s t u e vx_SR_STEP (by decide),
    issuedTo_rd64_vx s t u e vx_SR_BASE_LO vx_SR_BASE_HI (by decide) (by decide)]

@[simp] theorem issuedTo_vx_lineCells (m dir r : Nat) :
    lineCells ((issuedTo s t .vx).tile t) m dir r = lineCells (s.tile t) m dir r := by
  simp only [lineCells, issuedTo_vx_treg]

@[simp] theorem issuedTo_vx_tileReg (m : BitVec 3) : tileReg (issuedTo s t .vx) t m.toNat = tileReg s t m.toNat := by
  have hscl : ((issuedTo s t .vx).tile t).scl = (s.tile t).scl := by rw [issuedTo_vx_tile]
  simp only [tileReg, TileSt.reg, issuedTo_tagFmt, issuedTo_tagBdir, issuedTo_vx_treg, hscl]

end

/-! ### Conversions (R137, R138) -/

theorem putsV_vxCvt {s : State} {t : Tile} {o : VcvtOp} (h : Executes s t .vx [] []) (hrm : badRmCvt o.rm = false)
    (hpart : o.p.toNat * min (fmtW o.fs.toNat) (fmtW o.fd.toNat) < max (fmtW o.fs.toNat) (fmtW o.fd.toNat))
    (hfs : isJ o.fs.toNat = false) (hfd : isJ o.fd.toNat = false) :
    let fs := o.fs.toNat
    let fd := o.fd.toNat
    let n := 4096 / max (fmtW fs) (fmtW fd)
    let so := if fmtW fs < fmtW fd then o.p.toNat * n else 0
    let d0 := if fmtW fd < fmtW fs then o.p.toNat * n else 0
    let dst := vElems (s.v t o.vD) fd
    let cs := (List.range n).map (fun i => cvtElem fs fd ((vElems (s.v t o.vS) fs).getD (so + i) 0) o.rm.toNat (o.sat == 1)
      (srCtx s t o.rm.toNat (o.p.toNat * n + i)))
    PutsV (.vxCvt t o) s t o.vD (vPack fd (dst.take d0 ++ cs.map (·.bits) ++ dst.drop (d0 + n))) (anySat cs) (anyInv cs) := by
  have hans := answers_of_vxOp (i := .vxCvt t o) rfl h
    (by rw [hrm, Bool.false_or]; exact decide_eq_false (Nat.not_le.mpr hpart)) (by simp [badJ, hfs, hfd])
  simp only [issuedTo_vx_readV, issuedTo_srCtx] at hans
  exact putsV_of_answers hans

theorem gives_vxSrctx {s : State} {t : Tile} {o : VsrctxOp} (h : Executes s t .vx [] [o.gR, o.gE]) (hrsv : o.rsv = 0) :
    Gives (.vxSrctx t o) s fun s' =>
      rd s' (vxPg t) vx_SR_STREAM = (s.g t o.gR).toNat % 2 ^ 32 ∧ rd s' (vxPg t) vx_SR_STEP = (s.g t o.gR).toNat / 2 ^ 32
        ∧ rd64 s' (vxPg t) vx_SR_BASE_LO vx_SR_BASE_HI = (s.g t o.gE).toNat ∧ (s'.tile t).v = (s.tile t).v
        ∧ VectorFrame s s' t := by
  have hans := answers_of_vxOp (i := .vxSrctx t o) rfl h (by simp [hrsv]) rfl
  simp only [issuedTo_vx_g] at hans
  have hne : ∀ (x : State) (f g : Fld) (v : Nat), g.off ≠ f.off → rd (wr x (vxPg t) f v) (vxPg t) g = rd x (vxPg t) g :=
    fun x f g v hoff => rd_wr_ne _ _ _ _ _ _ (by omega)
  have hsame : ∀ (x : State) (f : Fld) (v : Nat), f.hi = 31 → f.lo = 0 → rd (wr x (vxPg t) f v) (vxPg t) f = v % 2 ^ 32 :=
    fun x f v hhi hlo => by rw [rd_wr_same _ _ _ _ (by omega), hhi, hlo]
  have hR := (s.g t o.gR).isLt
  have hE := (s.g t o.gE).isLt
  refine gives_of_answers hans ⟨?_, ?_, ?_, ?_, ?_⟩
  · rw [rd_settle, wr64, hne _ _ _ _ (by decide), hne _ _ _ _ (by decide), hne _ _ _ _ (by decide), hsame _ _ _ rfl rfl]
  · rw [rd_settle, wr64, hne _ _ _ _ (by decide), hne _ _ _ _ (by decide), hsame _ _ _ rfl rfl]
    omega
  · rw [rd64, rd_settle, rd_settle, wr64, hne _ _ _ _ (by decide), hsame _ _ _ rfl rfl, hsame _ _ _ rfl rfl]
    omega
  · rw [tile_settle, wr64, tile_wr, tile_wr, tile_wr, tile_wr, issuedTo_vx_v]
  · have hR := vectorFrame_wr_vx (vectorFrame_wr_vx (vectorFrame_issuedTo s t) t vx_SR_STREAM (s.g t o.gR).toNat (by decide))
      t vx_SR_STEP ((s.g t o.gR).toNat / 2 ^ 32) (by decide)
    exact vectorFrame_settle s (vectorFrame_wr_vx (vectorFrame_wr_vx hR t vx_SR_BASE_LO _ (by decide)) t vx_SR_BASE_HI _ (by decide))

/-! ### Cut and uncut (R139 to R141) -/

/-- A legal descriptor in a clean spool is read and acted on (R139). -/
theorem withDesc_legal {s : State} {t : Tile} {gC : BitVec 5} {pc word : Nat} {d : CutDesc} (body : State → CutDesc → State)
    (hclean : SpClean s) (haddr : spoolOk64 (s.g t gC).toNat 64 = true)
    (hdesc : cutDesc (memRead s.spool (spKey (s.ptile t.toNat) (s.g t gC).toNat) 64) = some d) :
    withDesc s t gC .ok pc word body = body s d := by
  simp only [withDesc, haddr, spoolLocal_ok hclean, spRead, hdesc]
  rfl

theorem answers_vxCut {s : State} {t : Tile} {o : VcutOp} {d : CutDesc} (h : Executes s t .vx [(o.tD.toNat, true)] [o.gC])
    (hrm : badRmCvt o.rm = false) (hfd : o.fd.toNat < 5) (hclean : SpClean s) (haddr : spoolOk64 (s.g t o.gC).toNat 64 = true)
    (hdesc : cutDesc (memRead s.spool (spKey (s.ptile t.toNat) (s.g t o.gC).toNat) 64) = some d)
    (hok : cutOk d (kLen o.fd.toNat * fmtW o.fs.toNat / 8) (if isJ o.fs.toNat then kLen o.fd.toNat / 32 else 0) = true) :
    let s1 := issuedTo s t .vx
    let rows := (List.range 64).map (fun i => rowBlocks s1 t d o.fd.toNat o.rm.toNat (o.sat == 1) i
      (rowSrc s1 (s.ptile t.toNat) d o.fs.toNat (kLen o.fd.toNat) i))
    Answers (.vxCut t o .ok) s (raiseEvents (setTag (s1.modTile t (fun ts => (rows.zipIdx).foldl (fun ts x =>
        setKScl (setKVec ts o.tD.toNat o.fd.toNat o.bdir.toNat x.2 (x.1.flatMap (·.codes))) o.tD.toNat x.2 (x.1.map (·.scale))) ts))
      t o.tD.toNat o.fd.toNat o.bdir.toNat) t (rows.any (fun r => r.any (·.sat))) (rows.any (fun r => r.any (·.inv)))) := by
  have hclean1 := spClean_issuedTo hclean t .vx
  have hans := answers_of_vxOp (i := .vxCut t o .ok) rfl h hrm (decide_eq_false (by omega))
  rw [withDesc_legal _ hclean1 (by simpa using haddr) (by simpa using hdesc)] at hans
  simp only [hok, localReads_ok hclean1, issuedTo_ptile, not_true_eq_false, if_false] at hans
  exact hans

theorem answers_vxUncut {s : State} {t : Tile} {o : VuncutOp} {d : CutDesc} (h : Executes s t .vx [(o.tS.toNat, false)] [o.gC])
    (hrm : badRmCvt o.rm = false) (hrsv : o.rsv = 0) (hclean : SpClean s)
    (hfmt : isJ (tileReg (issuedTo s t .vx) t o.tS.toNat).fmt = true)
    (haddr : spoolOk64 (s.g t o.gC).toNat 64 = true)
    (hdesc : cutDesc (memRead s.spool (spKey (s.ptile t.toNat) (s.g t o.gC).toNat) 64) = some d)
    (hok : cutOk d (kLen (tileReg (issuedTo s t .vx) t o.tS.toNat).fmt * fmtW o.fd.toNat / 8)
      (if isJ o.fd.toNat then kLen (tileReg (issuedTo s t .vx) t o.tS.toNat).fmt / 32 else 0) = true) :
    let s1 := issuedTo s t .vx
    let r := tileReg s1 t o.tS.toNat
    let rows := (List.range 64).map (fun i =>
      uncutRow s1 t d o.fd.toNat o.rm.toNat (o.sat == 1) i ((List.range (kLen r.fmt)).map (r.src i)))
    Answers (.vxUncut t o .ok) s (raiseEvents (localWrites s1 t .ok ((rows.zipIdx).flatMap (fun x =>
        (d.base + x.2 * d.pitch, x.1.1) :: (if isJ o.fd.toNat then [(d.sbase + x.2 * d.spitch, x.1.2.1)] else [])))) t
      (rows.any (fun x => x.2.2.1)) (rows.any (fun x => x.2.2.2))) := by
  have hans := answers_of_vxOp (i := .vxUncut t o .ok) rfl h (by simp [hrm, hrsv]) rfl
  rw [if_neg (not_not_intro hfmt),
    withDesc_legal _ (spClean_issuedTo hclean t .vx) (by simpa using haddr) (by simpa using hdesc)] at hans
  simp only [hok, not_true_eq_false, if_false] at hans
  exact hans

/-! ### Reductions (R142, R143) -/

theorem not_lt_four {op : BitVec 3} (h : op.toNat < 5) : decide (4 < op.toNat) = false := decide_eq_false (by omega)

theorem sumCaught_none (op n : Nat) : sumCaught op none n = false := by simp [sumCaught, upsetCaught]

section
variable {s : State} {t : Tile} {o : VvredOp} (h : Executes s t .vx [] []) (hrm : o.rm.toNat < 4) (hop : o.op.toNat < 5)
  (hrsv : o.rsv = 0) (hf : o.f = 6 ∨ o.f = 7)
include h hrm hop hrsv hf

/-- The tree's result, joined with the summary register where the instruction accumulates. -/
theorem answers_vxVred :
    let g := redFmt o.op.toNat o.f.toNat
    let r := tree o.op.toNat g o.rm.toNat (if o.f.toNat = 6 then 7 else 6)
      ((vElems (s.v t o.vS) o.f.toNat).map (redIn o.op.toNat o.f.toNat))
    let c := if o.acc = 1 then redOp o.op.toNat g o.rm.toNat (readU s t o.uD.toNat % 2 ^ fmtW g) r.1 else cvOk r.1
    Answers (.vxVred t o none) s (raiseEvents (writeU (issuedTo s t .vx) t o.uD.toNat c.bits) t false (r.2 || c.inv)) := by
  have hans := answers_of_vxOp (i := .vxVred t o none) rfl h (by simp [badRm_of_lt hrm, not_lt_four hop, hrsv]) (badF_of_float hf)
  simp only [sumCaught_none, Bool.false_eq_true, if_false, issuedTo_vx_readV, issuedTo_readU] at hans
  exact hans

theorem putsU_vxVred (hacc : o.acc = 0) :
    let g := redFmt o.op.toNat o.f.toNat
    let r := tree o.op.toNat g o.rm.toNat (if o.f.toNat = 6 then 7 else 6)
      ((vElems (s.v t o.vS) o.f.toNat).map (redIn o.op.toNat o.f.toNat))
    PutsU (.vxVred t o none) s t o.uD r.1 r.2 := by
  have hans := answers_vxVred h hrm hop hrsv hf
  simp only [hacc, show ¬ (0 : BitVec 1) = 1 by decide, if_false, cvOk, Bool.or_false] at hans
  exact putsU_of_answers hans

theorem putsU_vxVred_acc (hacc : o.acc = 1) :
    let g := redFmt o.op.toNat o.f.toNat
    let r := tree o.op.toNat g o.rm.toNat (if o.f.toNat = 6 then 7 else 6)
      ((vElems (s.v t o.vS) o.f.toNat).map (redIn o.op.toNat o.f.toNat))
    let c := redOp o.op.toNat g o.rm.toNat (readU s t o.uD.toNat % 2 ^ fmtW g) r.1
    PutsU (.vxVred t o none) s t o.uD c.bits (r.2 || c.inv) := by
  have hans := answers_vxVred h hrm hop hrsv hf
  simp only [hacc, if_true] at hans
  exact putsU_of_answers hans

end

theorem putsV_vxTred {s : State} {t : Tile} {o : VtredOp} (h : Executes s t .vx [(o.tS.toNat, false)] []) (hrm : o.rm.toNat < 4)
    (hop : o.op.toNat < 5) (hrsv : o.rsv = 0) (hfmt : tagFmt s t o.tS.toNat = 6) :
    let op := o.op.toNat
    let g := redFmt op 6
    let rs := (List.range 64).map (fun r =>
      tree op g o.rm.toNat 6 ((lineCells (s.tile t) o.tS.toNat o.dir.toNat r).map (redIn op 6)))
    PutsV (.vxTred t o none) s t o.vD (vPack g (rs.map (·.1) ++ (if g = 7 then [] else (lanes (s.v t o.vD)).drop 64)))
      false (rs.any (·.2)) := by
  have hans := answers_of_vxOp (i := .vxTred t o none) rfl h (by simp [badRm_of_lt hrm, not_lt_four hop, hrsv]) rfl
  simp only [issuedTo_tagFmt, hfmt, ne_eq, not_true_eq_false, sumCaught_none, Bool.false_eq_true, if_false, rowUpset, treeOf,
    issuedTo_vx_lineCells, issuedTo_vx_readV] at hans
  exact putsV_of_answers hans

/-! ### Exact maxima and the drift measure (R152, R154) -/

theorem putsU_vxTamax {s : State} {t : Tile} {o : VtamaxOp} (h : Executes s t .vx [(o.tS.toNat, false)] []) (hrsv : o.rsv = 0) :
    let r := tileReg s t o.tS.toNat
    let vs := (List.range 64).flatMap (fun i => (List.range (kLen r.fmt)).map (fun k => absVal (srcVal (r.src i k))))
    let m := decVal 7 (cvtVal 7 (vs.foldl maxVal (.zero false)) rmRUP false 0).bits
    let m := if o.acc = 1 then maxVal m (decVal 7 (readU s t o.uD.toNat)) else m
    PutsU (.vxTamax t o) s t o.uD (cvtVal 7 m rmRUP false 0).bits (vs.contains .nan) := by
  have hans := answers_of_vxOp (i := .vxTamax t o) rfl h (by simp [hrsv]) rfl
  simp only [issuedTo_vx_tileReg, issuedTo_readU] at hans
  exact putsU_of_answers hans

theorem zipIdx_map_range {α : Type} (g : Nat → α) (n : Nat) :
    ((List.range n).map g).zipIdx = (List.range n).map (fun i => (g i, i)) := by
  exact List.ext_getElem (by simp) (by simp)

/-- The numbered elements of two registers side by side. -/
theorem zipIdx_zip_vElems (x y : BitVec 4096) (f : Nat) : ((vElems x f).zip (vElems y f)).zipIdx
    = (List.range (vCount f)).map (fun i => ((vElem x f i, vElem y f i), i)) := by
  rw [zip_vElems, zipIdx_map_range]

theorem putsU_vxRdiff {s : State} {t : Tile} {o : VrdiffOp} (h : Executes s t .vx [] []) (hrsv : o.rsv = 0) (hf : o.f = 6 ∨ o.f = 7) :
    let f := o.f.toNat
    let vs := (List.range (vCount f)).map (fun i =>
      rdiffElem 0 (decVal f (vElem (s.v t o.vA) f i)) (decVal f (vElem (s.v t o.vB) f i)))
    let m := decVal 6 (cvtVal 6 (vs.foldl maxVal (.zero false)) rmRUP false 0).bits
    let m := if o.acc = 1 then maxVal m (decVal 6 (readU s t o.uD.toNat)) else m
    PutsU (.vxRdiff t o none) s t o.uD (cvtVal 6 m rmRUP false 0).bits false := by
  have hans := answers_of_vxOp (i := .vxRdiff t o none) rfl h (by simp [hrsv]) (badF_of_float hf)
  simp only [upsetCaught, Bool.false_eq_true, if_false, errAt, issuedTo_vx_readV, zipIdx_zip_vElems, List.map_map,
    Function.comp_def, issuedTo_readU] at hans
  exact putsU_of_answers hans

/-! ### Summary registers and the tracker (R153, R155) -/

theorem readU_settle (s x : State) (t : Tile) (u : Nat) : readU (settle s x) t u = readU x t u := rfl

theorem gives_vxEvt {s : State} {t : Tile} {o : VevtOp} (h : Executes s t .vx [] []) (hrsv : o.rsv = 0) :
    Gives (.vxEvt t o) s fun s' =>
      readU s' t o.uD.toNat = rd s (vxPg t) vx_EVENT_SAT + 2 * rd s (vxPg t) vx_EVENT_INVALID
        ∧ rd s' (vxPg t) vx_EVENT_SAT = 0 ∧ rd s' (vxPg t) vx_EVENT_INVALID = 0 ∧ (s'.tile t).v = (s.tile t).v
        ∧ VectorFrame s s' t := by
  have hans := answers_of_vxOp (i := .vxEvt t o) rfl h (by simp [hrsv]) rfl
  simp only [issuedTo_eventSat, issuedTo_eventInvalid] at hans
  have hsat := rd_event_le s t vx_EVENT_SAT rfl
  have hinv := rd_event_le s t vx_EVENT_INVALID rfl
  refine gives_of_answers hans ⟨?_, ?_, ?_, ?_, ?_⟩
  · rw [readU_settle, readU_wr_event _ t vx_EVENT_INVALID 0 o.uD rfl, readU_wr_event _ t vx_EVENT_SAT 0 o.uD rfl, readU_writeU,
      if_pos rfl]
    omega
  · rw [rd_settle, rd_wr_field _ _ vx_EVENT_INVALID _ vx_EVENT_SAT rfl (by decide) (by decide) (by decide),
      rd_wr_same _ _ _ _ (by decide), Nat.zero_mod]
  · rw [rd_settle, rd_wr_same _ _ _ _ (by decide), Nat.zero_mod]
  · rw [tile_settle, tile_wr, tile_wr, writeU_tile, issuedTo_vx_v]
  · have hU := vectorFrame_writeU (vectorFrame_issuedTo s t) o.uD
      (rd s (vxPg t) vx_EVENT_SAT + 2 * rd s (vxPg t) vx_EVENT_INVALID)
    exact vectorFrame_settle s
      (vectorFrame_wr_vx (vectorFrame_wr_vx hU t vx_EVENT_SAT 0 (by decide)) t vx_EVENT_INVALID 0 (by decide))

theorem putsU_vxPick {s : State} {t : Tile} {o : VpickOp} (h : Executes s t .vx [] [o.gI]) (hrsv : o.rsv = 0)
    (hf : badJ o.f = false) (hidx : (s.g t o.gI).toNat % 512 < vCount o.f.toNat) :
    PutsU (.vxPick t o) s t o.uD (vElem (s.v t o.vS) o.f.toNat ((s.g t o.gI).toNat % 512)) false := by
  have hans := answers_of_vxOp (i := .vxPick t o) rfl h (by simp [hrsv]) hf
  have hbits : bits (s.g t o.gI).toNat 8 0 = (s.g t o.gI).toNat % 512 := by rw [bits_eq, Nat.pow_zero, Nat.div_one]; rfl
  simp only [issuedTo_vx_g, hbits, Nat.not_le.mpr hidx, if_false, issuedTo_vx_readV] at hans
  exact putsU_of_answers hans

theorem putsU_vxUset {s : State} {t : Tile} {o : VusetOp} (h : Executes s t .vx [] [o.gS]) (hrsv : o.rsv = 0) :
    PutsU (.vxUset t o) s t o.uD (s.g t o.gS).toNat false := by
  have hans := answers_of_vxOp (i := .vxUset t o) rfl h (by simp [hrsv]) rfl
  simp only [issuedTo_vx_g] at hans
  exact putsU_of_answers hans

theorem gives_vxTrk {s : State} {t : Tile} {o : VtrkOp} (h : Executes s t .vx [] [o.gE]) (hrsv : o.rsv = 0) (hf : badJ o.f = false) :
    Gives (.vxTrk t o) s fun s' =>
      let v := absVal (decVal o.f.toNat (readU s t o.uS.toNat))
      s'.net = s.net ++ [.observation t (s.tile t).tagNo (BitVec.ofNat 12 (s.g t o.gE).toNat)
          (BitVec.ofNat 32 (cvtVal 6 v rmRUP false 0).bits)]
        ∧ (s'.tile t).loose.length = (s.tile t).loose.length + 1 ∧ (s'.tile t).pc = (s.tile t).pc + 1
        ∧ s'.spool = s.spool ∧ s'.lp = s.lp := by
  have hans := answers_of_vxOp (i := .vxTrk t o) rfl h (by simp [hrsv]) hf
  have htag : ((issuedTo s t .vx).tile t).tagNo = (s.tile t).tagNo := by rw [issuedTo_vx_tile]
  have hloose : ((issuedTo s t .vx).tile t).loose = (s.tile t).loose := by rw [issuedTo_vx_tile]
  simp only [issuedTo_vx_g, issuedTo_readU, htag] at hans
  refine gives_of_answers hans ⟨?_, ?_, ?_, ?_, ?_⟩
  · rw [settle_net, modTile_net, send_net, issuedTo_net]
  · rw [tile_settle, tile_modTile_same, tile_send]
    simp [hloose]
  · rw [tile_settle, tile_modTile_same, tile_send]
    simp
  · rw [settle_spool, modTile_spool, send_spool, issuedTo_spool]
  · rw [settle_lp, modTile_lp, send_lp, issuedTo_lp]

theorem queues_vectorSummaries (s : State) (t : Tile) (o : VcvtOp) (x : VsrctxOp) (c : VcutOp) (n : VuncutOp) (v : VvredOp)
    (r : VtredOp) (m : VtamaxOp) (d : VrdiffOp) (a : VevtOp) (p : VpickOp) (w : VusetOp) (k : VtrkOp) (u : Option Upset) (e : Ecc) :
    (∀ i ∈ [Instr.vxCvt t o, .vxVred t v u, .vxTred t r u, .vxTamax t m, .vxRdiff t d u, .vxEvt t a], Queues s t .vx i [])
      ∧ Queues s t .vx (.vxSrctx t x) [x.gR, x.gE] ∧ Queues s t .vx (.vxCut t c e) [c.gC]
      ∧ Queues s t .vx (.vxUncut t n e) [n.gC] ∧ Queues s t .vx (.vxPick t p) [p.gI]
      ∧ Queues s t .vx (.vxUset t w) [w.gS] ∧ Queues s t .vx (.vxTrk t k) [k.gE] := by
  simp only [List.forall_mem_cons]
  refine ⟨⟨?_, ?_, ?_, ?_, ?_, ?_, List.forall_mem_nil _⟩, queues_of_issueVx (insVxSrctx t x) rfl,
    queues_of_issueVx (insVxCut t c e) rfl, queues_of_issueVx (insVxUncut t n e) rfl, queues_of_issueVx (insVxPick t p) rfl,
    queues_of_issueVx (insVxUset t w) rfl, queues_of_issueVx (insVxTrk t k) rfl⟩
  · exact queues_of_issueVx (insVxCvt t o) rfl
  · exact queues_of_issueVx (insVxVred t v u) rfl
  · exact queues_of_issueVx (insVxTred t r u) rfl
  · exact queues_of_issueVx (insVxTamax t m) rfl
  · exact queues_of_issueVx (insVxRdiff t d u) rfl
  · exact queues_of_issueVx (insVxEvt t a) rfl

/-- Settles O32: each instruction acts on the state after issue, in which every register and cell that it reads is as before,
and its result goes to a vector register, a summary register or memory. -/
theorem vectorConversionsAndSummaries : Obligations.VectorConversionsAndSummaries := by
  unfold Obligations.VectorConversionsAndSummaries
  refine ⟨fun s t => ⟨fun o h => ?_, fun o h hrsv => gives_vxSrctx h hrsv, fun o d h hrm hfd hclean => ?_,
      fun o d h hrm hrsv hclean => ?_⟩,
    fun s t => ⟨fun o h hrm hop hrsv hf => ⟨putsU_vxVred h hrm hop hrsv hf, putsU_vxVred_acc h hrm hop hrsv hf⟩,
      fun o h hrm hop hrsv hfmt => putsV_vxTred h hrm hop hrsv hfmt, fun o h hrsv => putsU_vxTamax h hrsv,
      fun o h hrsv hf => putsU_vxRdiff h hrsv hf, fun o h hrsv => gives_vxEvt h hrsv,
      fun o h hrsv hf => putsU_vxPick h hrsv hf, fun o h hrsv => putsU_vxUset h hrsv,
      fun o h hrsv hf => gives_vxTrk h hrsv hf⟩,
    queues_vectorSummaries⟩
  · exact fun hrm hpart hfs hfd => putsV_vxCvt h hrm hpart hfs hfd
  · exact fun haddr hdesc hok => answers_vxCut h hrm hfd hclean haddr hdesc hok
  · exact fun hfmt haddr hdesc hok => answers_vxUncut h hrm hrsv hclean hfmt haddr hdesc hok

end Sys2Proof.Machine
end

section
/-! PROOFS. The grid instructions of the vector engine (R145, R147): terms added to the words of an open accumulator, raw words
and their values. -/

namespace Sys2Proof.Machine

open Sys2Proof.Claims

/-! ### Terms added to an accumulator -/

/-- Terms added to words of accumulator `n`, in order: `ws` are (word, term). -/
def addTerms (ts : TileSt) (lay n : Nat) (ws : List (Nat × Nat)) : TileSt :=
  (ws.zipIdx).foldl (fun ts x => accAdd ts lay n x.1.1 x.1.2) ts

theorem addTerms_eq_foldl (ts : TileSt) (lay n : Nat) (ws : List (Nat × Nat)) :
    addTerms ts lay n ws = ws.foldl (fun ts x => accAdd ts lay n x.1 x.2) ts := by
  conv_rhs => rw [← List.zipIdx_map_fst 0 ws, List.foldl_map]
  rfl

/-- Additions change the words of the accumulators alone. -/
theorem addTerms_eq (ts : TileSt) (lay n : Nat) (ws : List (Nat × Nat)) : ∃ a, addTerms ts lay n ws = { ts with acc := a } := by
  rw [addTerms_eq_foldl]
  induction ws generalizing ts with
  | nil => exact ⟨ts.acc, rfl⟩
  | cons x ws ih => exact ih (accAdd ts lay n x.1 x.2)

theorem addTerms_v (ts : TileSt) (lay n : Nat) (ws : List (Nat × Nat)) : (addTerms ts lay n ws).v = ts.v := by
  obtain ⟨_, h⟩ := addTerms_eq ts lay n ws; rw [h]

theorem readAcc_accAdd (ts : TileSt) (lay n i w j : Nat) :
    (accAdd ts lay n i w).readAcc n j = if i = j then gridAdd lay (ts.readAcc n j) w % 2 ^ 128 else ts.readAcc n j := by
  rw [accAdd, readAcc_writeAcc]
  by_cases h : i = j
  · rw [if_pos (by omega), if_pos h, h]
  · rw [if_neg (by omega), if_neg h]

/-- A word receives the terms that name it, in their order. -/
theorem readAcc_addTerms (ts : TileSt) (lay n j : Nat) (ws : List (Nat × Nat)) :
    (addTerms ts lay n ws).readAcc n j
      = (ws.filter (fun x => x.1 = j)).foldl (fun a x => gridAdd lay a x.2 % 2 ^ 128) (ts.readAcc n j) := by
  rw [addTerms_eq_foldl]
  induction ws generalizing ts with
  | nil => rfl
  | cons x ws ih =>
    rw [List.foldl_cons, ih, readAcc_accAdd]
    by_cases h : x.1 = j
    · rw [if_pos h, List.filter_cons_of_pos (by simpa using h), List.foldl_cons]
    · rw [if_neg h, List.filter_cons_of_neg (by simpa using h)]

theorem readAcc_addTerms_of_notMem {lay n j : Nat} {ws : List (Nat × Nat)} (ts : TileSt) (h : ∀ x ∈ ws, x.1 ≠ j) :
    (addTerms ts lay n ws).readAcc n j = ts.readAcc n j := by
  rw [readAcc_addTerms, List.filter_eq_nil_iff.mpr (by simpa using h)]; rfl

/-! ### Terms at one word, and at a word each -/

theorem readAcc_addTerms_one (ts : TileSt) (lay n w k : Nat) (term : Nat → Nat) :
    (addTerms ts lay n ((List.range k).map (fun i => (w, term i)))).readAcc n w
      = ((List.range k).map term).foldl (fun a x => gridAdd lay a x % 2 ^ 128) (ts.readAcc n w) := by
  rw [readAcc_addTerms, List.filter_eq_self.mpr (by simp), List.foldl_map, List.foldl_map]

theorem readAcc_addTerms_each (ts : TileSt) (lay n w k : Nat) (term : Nat → Nat) (j : Nat) (hj : j < k) :
    (addTerms ts lay n ((List.range k).map (fun i => (w + i, term i)))).readAcc n (w + j)
      = gridAdd lay (ts.readAcc n (w + j)) (term j) % 2 ^ 128 := by
  have hcount : (List.range k).count j = 1 := List.count_eq_one_of_mem List.nodup_range (List.mem_range.mpr hj)
  have hhit : (List.range k).filter (fun i => w + i = w + j) = [j] := by
    simp only [Nat.add_left_cancel_iff]
    rw [List.filter_eq, hcount]; rfl
  rw [readAcc_addTerms, List.filter_map]
  simp only [Function.comp_def, hhit]
  rfl

/-! ### What an issue leaves for grid instructions to read -/

section
variable (s : State) (t u : Tile) (e : Engine)

@[simp] theorem issuedTo_accState (n : BitVec 2) : accState (issuedTo s t e) u n.toNat = accState s u n.toNat :=
  issuedTo_rdi_mx s t u e _ _ (by simp only [mx_ACC_STATE]; omega)
@[simp] theorem issuedTo_accTerm (n : BitVec 2) (v : Val) : accTerm (issuedTo s t e) u n.toNat v = accTerm s u n.toNat v := by
  rw [accTerm, issuedTo_accLay, issuedTo_accHem]; rfl
@[simp] theorem issuedTo_vx_readAcc (n i : Nat) : ((issuedTo s t .vx).tile t).readAcc n i = (s.tile t).readAcc n i := by
  rw [issuedTo_vx_tile]; rfl
@[simp] theorem issuedTo_vx_wordIdx (r : BitVec 5) : wordIdx (issuedTo s t .vx) t r = (s.g t r).toNat % 4096 := by
  rw [wordIdx, issuedTo_vx_g, bits_eq, Nat.pow_zero, Nat.div_one]; rfl

end

/-! ### Grid additions (R145) -/

/-- Terms at words of an open accumulator are added to it, one after the other. -/
theorem gridAdds_open {s : State} {t : Tile} {n pc word : Nat} {ws : List (Nat × Nat)} (hws : ∀ x ∈ ws, x.1 < 4096)
    (hopen : accState s t n = accOpen) :
    gridAdds s t n none pc word ws = s.modTile t (fun ts => addTerms ts (accLay s t n) n ws) := by
  have hlegal : ws.any (fun x => decide (4095 < x.1)) = false := by
    simpa using fun a b hab => Nat.le_of_lt_succ (hws (a, b) hab)
  simp only [gridAdds, hlegal, hopen, upsetCaught, Bool.false_eq_true, if_false, ne_eq, not_true_eq_false]
  rfl

theorem gridAdds_illegal {s : State} {t : Tile} {n pc word : Nat} {u : Option Upset} {ws : List (Nat × Nat)}
    (h : ∃ x ∈ ws, 4095 < x.1) : gridAdds s t n u pc word ws = vxTrap s t cIllegal pc word := by
  have hany : ws.any (fun x => decide (4095 < x.1)) = true := by simpa using h
  rw [gridAdds, if_pos hany]

/-- Beside words of accumulators, grid additions change the tile's counts of issue alone. -/
theorem addTerms_frame (s : State) (t : Tile) (lay n : Nat) (ws : List (Nat × Nat)) :
    let s' := settle s ((issuedTo s t .vx).modTile t (fun ts => addTerms ts lay n ws))
    (s'.tile t).v = (s.tile t).v ∧ s'.spool = s.spool ∧ s'.lp = s.lp := by
  refine ⟨?_, ?_, ?_⟩
  · rw [tile_settle, tile_modTile_same, addTerms_v, issuedTo_vx_v]
  · rw [settle_spool, modTile_spool, issuedTo_spool]
  · rw [settle_lp, modTile_lp, issuedTo_lp]

theorem vElems_zipIdx (x : BitVec 4096) (f : Nat) : (vElems x f).zipIdx = (List.range (vCount f)).map (fun i => (vElem x f i, i)) :=
  zipIdx_map_range _ _

section
variable {s : State} {t : Tile} {o : VgaccOp} (h : Executes s t .vx [] [o.gC]) (hrsv : o.rsv = 0) (hf : o.f = 6 ∨ o.f = 7)
include h hrsv hf

/-- The terms of vx.gacc, at the words that M gives them. -/
theorem answers_vxGacc : Answers (.vxGacc t o none) s (gridAdds (issuedTo s t .vx) t o.aD.toNat none (s.tile t).pc.toNat o.enc
    ((List.range (vCount o.f.toNat)).map (fun i => ((if o.m = 0 then (s.g t o.gC).toNat % 4096 + i else (s.g t o.gC).toNat % 4096),
      accTerm s t o.aD.toNat (decVal o.f.toNat (vElem (s.v t o.vS) o.f.toNat i)))))) := by
  have hans := answers_of_vxOp (i := .vxGacc t o none) rfl h (by simp [hrsv]) (badF_of_float hf)
  simp only [vElems_zipIdx, List.map_map, Function.comp_def, issuedTo_vx_wordIdx, issuedTo_accTerm, issuedTo_vx_readV] at hans
  exact hans

/-- M = 1: every term at the word that gC names. -/
theorem gives_vxGacc_one (hm : o.m = 1) (hopen : accState s t o.aD.toNat = accOpen) :
    let f := o.f.toNat
    let n := o.aD.toNat
    let w := (s.g t o.gC).toNat % 4096
    Gives (.vxGacc t o none) s fun s' =>
      (s'.tile t).readAcc n w = ((List.range (vCount f)).map (fun i =>
          accTerm s t n (decVal f (vElem (s.v t o.vS) f i)))).foldl
            (fun a x => gridAdd (accLay s t n) a x % 2 ^ 128) ((s.tile t).readAcc n w)
        ∧ (∀ i < 4096, i ≠ w → (s'.tile t).readAcc n i = (s.tile t).readAcc n i)
        ∧ (s'.tile t).v = (s.tile t).v ∧ s'.spool = s.spool ∧ s'.lp = s.lp := by
  intro f n w
  have hw : w < 4096 := Nat.mod_lt _ (by decide)
  have hans := answers_vxGacc h hrsv hf
  simp only [hm, show ¬ (1 : BitVec 1) = 0 by decide, if_false] at hans
  rw [gridAdds_open (by simpa using fun _ _ => hw) (by simpa using hopen), issuedTo_accLay] at hans
  refine ⟨_, hans, ?_, fun i _ hi => ?_, addTerms_frame s t _ _ _⟩
  · rw [tile_settle, tile_modTile_same, readAcc_addTerms_one, issuedTo_vx_readAcc]
  · rw [tile_settle, tile_modTile_same, readAcc_addTerms_of_notMem _ (by simpa using fun _ _ => hi.symm), issuedTo_vx_readAcc]

/-- M = 0: a term at each word from the one that gC names on. -/
theorem gives_vxGacc_each (hm : o.m = 0) (hfits : (s.g t o.gC).toNat % 4096 + vCount o.f.toNat ≤ 4096)
    (hopen : accState s t o.aD.toNat = accOpen) :
    let f := o.f.toNat
    let n := o.aD.toNat
    let w := (s.g t o.gC).toNat % 4096
    Gives (.vxGacc t o none) s fun s' =>
      (∀ i < vCount f, (s'.tile t).readAcc n (w + i)
          = gridAdd (accLay s t n) ((s.tile t).readAcc n (w + i))
              (accTerm s t n (decVal f (vElem (s.v t o.vS) f i))) % 2 ^ 128)
        ∧ (∀ i < 4096, i < w ∨ w + vCount f ≤ i → (s'.tile t).readAcc n i = (s.tile t).readAcc n i)
        ∧ (s'.tile t).v = (s.tile t).v ∧ s'.spool = s.spool ∧ s'.lp = s.lp := by
  dsimp only
  have hans := answers_vxGacc h hrsv hf
  simp only [hm, if_true] at hans
  rw [gridAdds_open (fun x hx => ?_) (by simpa using hopen), issuedTo_accLay] at hans
  refine ⟨_, hans, fun i hi => ?_, fun i _ hi => ?_, addTerms_frame s t _ _ _⟩
  · rw [tile_settle, tile_modTile_same, readAcc_addTerms_each _ _ _ _ _ _ _ hi, issuedTo_vx_readAcc]
  · rw [tile_settle, tile_modTile_same, readAcc_addTerms_of_notMem _ (fun x hx => ?_), issuedTo_vx_readAcc]
    obtain ⟨k, hk, rfl⟩ := List.mem_map.mp hx
    have hk := List.mem_range.mp hk
    dsimp only
    omega
  · obtain ⟨k, hk, rfl⟩ := List.mem_map.mp hx
    have hk := List.mem_range.mp hk
    dsimp only
    omega

theorem answers_vxGacc_illegal (hm : o.m = 0) (hover : 4096 < (s.g t o.gC).toNat % 4096 + vCount o.f.toNat) :
    Answers (.vxGacc t o none) s (vxTrap (issuedTo s t .vx) t cIllegal (s.tile t).pc.toNat o.enc) := by
  have hans := answers_vxGacc h hrsv hf
  simp only [hm, if_true] at hans
  have hlast : vCount o.f.toNat - 1 < vCount o.f.toNat := by
    have hw := Nat.mod_lt (s.g t o.gC).toNat (show 0 < 4096 by decide)
    omega
  rwa [gridAdds_illegal ⟨_, List.mem_map_of_mem (List.mem_range.mpr hlast), by omega⟩] at hans

end

theorem answers_vxGtacc {s : State} {t : Tile} {o : VgtaccOp} (h : Executes s t .vx [(o.tS.toNat, false)] [o.gC]) (hrsv : o.rsv = 0)
    (hfmt : tagFmt s t o.tS.toNat = 6) (hfits : (s.g t o.gC).toNat % 4096 + 64 ≤ 4096) (hopen : accState s t o.aD.toNat = accOpen) :
    let n := o.aD.toNat
    let w := (s.g t o.gC).toNat % 4096
    Answers (.vxGtacc t o none) s ((issuedTo s t .vx).modTile t (fun ts => addTerms ts (accLay s t n) n
      ((List.range 64).flatMap (fun r => (lineCells (s.tile t) o.tS.toNat o.dir.toNat r).map (fun c =>
        (w + r, accTerm s t n (decVal 6 c))))))) := by
  intro n w
  have hans := answers_of_vxOp (i := .vxGtacc t o none) rfl h (by simp [hrsv]) rfl
  simp only [issuedTo_tagFmt, hfmt, ne_eq, not_true_eq_false, if_false, issuedTo_vx_wordIdx, issuedTo_vx_lineCells,
    issuedTo_accTerm] at hans
  rw [gridAdds_open (fun x hx => ?_) (by simpa using hopen), issuedTo_accLay] at hans
  · exact hans
  · obtain ⟨r, hr, hx⟩ := List.mem_flatMap.mp hx
    obtain ⟨c, -, rfl⟩ := List.mem_map.mp hx
    have hr := List.mem_range.mp hr
    dsimp only
    omega

theorem answers_vxGdot {s : State} {t : Tile} {o : VgdotOp} (h : Executes s t .vx [] [o.gC]) (hrsv : o.rsv = 0)
    (hopen : accState s t o.aD.toNat = accOpen) :
    let n := o.aD.toNat
    let w := (s.g t o.gC).toNat % 4096
    let f := if o.w = 0 then 6 else 7
    Answers (.vxGdot t o none) s ((issuedTo s t .vx).modTile t (fun ts => addTerms ts (accLay s t n) n
      ((List.range (vCount f)).map (fun i => (w, accTerm s t n
        (match mulVal (decVal f (vElem (s.v t o.vA) f i)) (decVal f (vElem (s.v t o.vB) f i)) with
          | .val v => v
          | _ => .nan)))))) := by
  intro n w f
  have hw : w < 4096 := Nat.mod_lt _ (by decide)
  have hans := answers_of_vxOp (i := .vxGdot t o none) rfl h (by simp [hrsv]) rfl
  simp only [issuedTo_vx_wordIdx, issuedTo_accTerm, issuedTo_vx_readV, zip_vElems, List.map_map, Function.comp_def] at hans
  rw [gridAdds_open (by simpa using fun _ _ => hw) (by simpa using hopen), issuedTo_accLay] at hans
  exact hans

/-! ### Raw words and their values (R147) -/

theorem putsV_vxGrd {s : State} {t : Tile} {o : VgrdOp} (h : Executes s t .vx [] [o.gC]) (hrsv : o.rsv = 0) :
    let n := o.aS.toNat
    let w := (s.g t o.gC).toNat % 4096
    let k := if accLay s t n = 0 then 32 else 64
    w + k ≤ 4096 → PutsV (.vxGrd t o none) s t o.vD (BitVec.ofNat 4096 (packCells.leCat (8 * gBytes (accLay s t n))
      ((List.range k).map (fun j => (s.tile t).readAcc n (w + j))))) false false := by
  dsimp only
  intro hfits
  have hans := answers_of_vxOp (i := .vxGrd t o none) rfl h (by simp [hrsv]) rfl
  simp only [issuedTo_vx_wordIdx, issuedTo_accLay, issuedTo_vx_readAcc, upsetCaught, disturb, Bool.false_eq_true, if_false] at hans
  rw [if_neg (by omega)] at hans
  exact putsV_of_answers hans

theorem putsCvs_vxGcvt {s : State} {t : Tile} {o : VgcvtOp} (h : Executes s t .vx [] [o.gC]) (hrm : badRmCvt o.rm = false)
    (hrsv : o.rsv = 0) (hfd : badJ o.fd = false) :
    let n := o.aS.toNat
    let fd := o.fd.toNat
    let w := (s.g t o.gC).toNat % 4096
    w + vCount fd ≤ 4096 → PutsCvs (.vxGcvt t o none) s t o.vD fd ((List.range (vCount fd)).map (fun j =>
      cvtVal fd ((gridValue (accLay s t n) (hemInt (accHem s t n)) ((s.tile t).readAcc n (w + j))).getD .nan)
        o.rm.toNat (o.sat == 1) (srCtx s t o.rm.toNat j))) := by
  dsimp only
  intro hfits
  have hans := answers_of_vxOp (i := .vxGcvt t o none) rfl h (by simp [hrm, hrsv]) hfd
  simp only [issuedTo_vx_wordIdx, issuedTo_accLay, issuedTo_accHem, issuedTo_vx_readAcc, issuedTo_srCtx, upsetCaught, disturb,
    Bool.false_eq_true, if_false] at hans
  rw [if_neg (by omega)] at hans
  exact putsCvs_of_answers hans

/-- Settles O33: an instruction's terms go one after the other to the words that they name, and raw words and values are read
from an accumulator that the issue left alone. -/
theorem vectorGridMode : Obligations.VectorGridMode := by
  unfold Obligations.VectorGridMode
  refine ⟨fun s t => ⟨fun o h hrsv hf => ⟨?_, ?_, ?_⟩, fun o h hrsv hfmt => ?_, fun o h hrsv => ?_,
      fun o h hrsv => putsV_vxGrd h hrsv, fun o h hrm hrsv hfd => putsCvs_vxGcvt h hrm hrsv hfd⟩,
    fun s t a b d r c m g u e => ⟨queues_of_issueVx (insVxGacc t a u) rfl, queues_of_issueVx (insVxGtacc t b u) rfl,
      queues_of_issueVx (insVxGdot t d u) rfl, queues_of_issueVx (insVxGrd t r u) rfl, queues_of_issueVx (insVxGcvt t c u) rfl,
      queues_of_issueVx (insVxGcomb t m u e) rfl, queues_of_issueVx (insVxGdec t g e) rfl⟩⟩
  · exact fun hm hopen => gives_vxGacc_one h hrsv hf hm hopen
  · exact fun hm hfits hopen => gives_vxGacc_each h hrsv hf hm hfits hopen
  · exact fun hm hover => answers_vxGacc_illegal h hrsv hf hm hover
  · exact fun hfits hopen => answers_vxGtacc h hrsv hfmt hfits hopen
  · exact fun hopen => answers_vxGdot h hrsv hopen

end Sys2Proof.Machine
end

section
/-! PROOFS. The control core: an instruction that runs issues and puts one result (R161, R165), and from it the scalar
instructions (R171), comparisons (R172) and predicate logic (R173). -/

namespace Sys2Proof.Machine

open Sys2Proof.Claims

/-! ### The frame of an issue cycle -/

theorem advance_pending (s : State) (t : Tile) : (advance s t).pending = s.pending := by
  rw [advance, countIssue_eq]
  by_cases hm : s.hmode t = true
  · rw [if_pos hm]; rfl
  · rw [if_neg hm]
    dsimp only
    split <;> simp [inc, inci, wr64, progress, State.modTile, State.setTile]

/-- The address of a register names its page and its offset. -/
theorem regKey_ne {page off page' off' : Nat} (h : ¬ (page = page' ∧ off = off')) (hoff : off < 0x1000) (hoff' : off' < 0x1000) :
    page * 0x1000 + off ≠ page' * 0x1000 + off' := by
  omega

/-- An issue cycle changes its own tile and the counts of issue alone (R165). -/
theorem onlyTile_advance (s : State) (t : Tile) : OnlyTile s (advance s t) t := by
  obtain ⟨hspool, hlp, hflash, hnet, hlogQ, hnetReq, hfuses⟩ := advance_frame s t
  refine ⟨advance_tile_ne s t, fun a => by rw [hspool], fun a => by rw [hlp], fun a => by rw [hflash], hlogQ, hnet, hnetReq,
    hfuses, advance_pending s t, fun page off hsy hgs hoff => ?_⟩
  refine advance_regW s t page off (regKey_ne hsy hoff (by decide)) (regKey_ne ?_ hoff (by decide))
    (regKey_ne ?_ hoff (by decide))
  · exact fun ⟨hpage, hlo⟩ => hgs ⟨hpage, .inl hlo⟩
  · exact fun ⟨hpage, hhi⟩ => hgs ⟨hpage, .inr hhi⟩

theorem onlyTile_modTile {s x : State} {t : Tile} (h : OnlyTile s x t) (f : TileSt → TileSt) : OnlyTile s (x.modTile t f) t := by
  obtain ⟨htile, hrest⟩ := h
  exact ⟨fun u hu => by rw [tile_modTile_ne _ _ _ _ hu, htile u hu], hrest⟩

theorem onlyTile_settle {s x : State} {t : Tile} (h : OnlyTile s x t) : OnlyTile s (settle s x) t := by
  obtain ⟨htile, hspool, hlp, hflash, hlogQ, hnet, hnetReq, -, -, hregs⟩ := h
  exact ⟨htile, hspool, hlp, hflash, hlogQ, hnet, hnetReq, rfl, rfl, hregs⟩

/-- A tile's own change after its issue cycle stays on the tile. -/
theorem onlyTile_issued (s : State) (t : Tile) (f : TileSt → TileSt) : OnlyTile s (settle s ((advance s t).modTile t f)) t :=
  onlyTile_settle (onlyTile_modTile (onlyTile_advance s t) f)

/-! ### One result of one issue -/

/-- A predicate reads what was written; p0 reads 1 (R161). -/
theorem readP_writeP (ts : TileSt) (i d : BitVec 3) (b : Bool) :
    (ts.writeP d b).readP i = if i = d then (if d = 0 then true else b) else ts.readP i := by
  by_cases h : i = d
  · subst h
    rw [if_pos rfl]
    by_cases h0 : i = 0
    · subst h0; rfl
    · rw [if_neg h0, readP_writeP_same ts i b h0]
  · rw [if_neg h, readP_writeP_ne ts d i b h]

theorem writeP_eq (ts : TileSt) (d : BitVec 3) (b : Bool) : ∃ p, ts.writeP d b = { ts with p := p } := by
  unfold TileSt.writeP
  split
  · exact ⟨_, rfl⟩
  · exact ⟨_, rfl⟩

@[simp] theorem advance_pc (s : State) (t : Tile) : ((advance s t).tile t).pc = (s.tile t).pc + 1 := by rw [advance_tile]

@[simp] theorem advance_dstore (s : State) (t : Tile) : ((advance s t).tile t).dstore = (s.tile t).dstore := by rw [advance_tile]

theorem readG_writeP (ts : TileSt) (d : BitVec 3) (b hm : Bool) (r : BitVec 5) : (ts.writeP d b).readG hm r = ts.readG hm r := by
  obtain ⟨p, hp⟩ := writeP_eq ts d b
  rw [hp]; rfl

theorem p_settle (s x : State) (t : Tile) (i : BitVec 3) : (settle s x).p t i = x.p t i := rfl

section
variable {x : State} {t : Tile} {f : TileSt → TileSt}

theorem g_modTile_of {r : BitVec 5} (h : ∀ ts hm, (f ts).readG hm r = ts.readG hm r) :
    (x.modTile t f).g t r = x.g t r := by
  rw [State.g, tile_modTile_same, h]; rfl

theorem p_modTile_of {i : BitVec 3} (h : ∀ ts, (f ts).p = ts.p) : (x.modTile t f).p t i = x.p t i := by
  rw [State.p, tile_modTile_same, TileSt.readP, h]; rfl

end

/-- What an answer with a scalar register written after the issue cycle gives. -/
theorem puts_of_answers {c : Instr} {s : State} {t : Tile} {d : BitVec 5} {v : W64}
    (h : Answers c s ((advance s t).setG t d v)) : Puts c s t d v := by
  refine gives_of_answers h ⟨fun r => ?_, fun i => ?_, ?_, fun a => ?_, onlyTile_issued s t _⟩
  · rw [g_settle, g_setG, advance_g]
  · rw [← advance_p s t t i, State.p, tile_settle, setG_eq, TileSt.readP, writeG_p]; rfl
  · rw [tile_settle, setG_pc, advance_pc]
  · rw [tile_settle, setG_eq, writeG_dstore, advance_dstore]

/-- What an answer with a predicate written after the issue cycle gives. -/
theorem putsP_of_answers {c : Instr} {s : State} {t : Tile} {d : BitVec 3} {v : Bool}
    (h : Answers c s ((advance s t).modTile t (fun ts => ts.writeP d v))) : PutsP c s t d v := by
  obtain ⟨p, hp⟩ := writeP_eq ((advance s t).tile t) d v
  refine gives_of_answers h ⟨fun i => ?_, fun r => ?_, ?_, fun a => ?_, onlyTile_issued s t _⟩
  · rw [State.p, tile_settle, tile_modTile_same, readP_writeP]
    exact if_congr Iff.rfl rfl (advance_p s t t i)
  · rw [g_settle, g_modTile_of (readG_writeP · d v · r), advance_g]
  · rw [tile_settle, tile_modTile_same, hp]; exact advance_pc s t
  · rw [tile_settle, tile_modTile_same, hp]; exact congrArg (memByte · a) (advance_dstore s t)

/-! ### An instruction of the control core -/

/-- An instruction whose registers hold values, whose guard is 1 and whose reserved fields are 0 has its effect. -/
theorem answers_of_coreOp {c : Instr} {s : State} {t : Tile} {rs : List (BitVec 5)} {g i : Bool} {w : Nat} {body : State → State}
    (hexec : exec c s = coreOp s t rs g i w body) (hready : Ready s t) (hhere : Here s t rs) (hg : g = true) (hi : i = false) :
    Answers c s (body s) := by
  obtain ⟨ht, hc, hp⟩ := hready
  rw [Answers, hexec, coreOp_runs s t rs g i w body ht hc hp hhere hg hi]

/-- A guard of 0 leaves the issue cycle alone (R168). -/
theorem answers_of_coreOp_skipped {c : Instr} {s : State} {t : Tile} {rs : List (BitVec 5)} {g i : Bool} {w : Nat}
    {body : State → State} (hexec : exec c s = coreOp s t rs g i w body) (hready : Ready s t) (hg : g = false) :
    Answers c s (advance s t) := by
  obtain ⟨ht, hc, hp⟩ := hready
  rw [Answers, hexec, hg, coreOp_skips s t rs i w body ht hc hp]

/-- A nonzero reserved field raises ILLEGAL with the instruction word (R170). -/
theorem answers_of_coreOp_illegal {c : Instr} {s : State} {t : Tile} {rs : List (BitVec 5)} {g i : Bool} {w : Nat}
    {body : State → State} (hexec : exec c s = coreOp s t rs g i w body) (hready : Ready s t) (hhere : Here s t rs)
    (hg : g = true) (hi : i = true) : Answers c s (precise s t cIllegal (BitVec.ofNat 64 w)) := by
  obtain ⟨ht, hc, hp⟩ := hready
  rw [Answers, hexec, hg, hi, coreOp_illegal s t rs w body ht hc hp hhere]; rfl

/-- An instruction without register operands finds them there. -/
theorem here_nil (s : State) (t : Tile) : Here s t [] := rfl

end Sys2Proof.Machine
end

section
/-! PROOFS. The scalar instructions of the control core (R171). -/

namespace Sys2Proof.Machine

open Sys2Proof.Claims

/-! ### Major 0x01 and the immediate forms -/

theorem puts_of_coreOp {c : Instr} {s : State} {t : Tile} {rs : List (BitVec 5)} {g : Bool} {w : Nat} {d : BitVec 5}
    {v : State → W64} (hexec : exec c s = coreOp s t rs g false w (fun s => (advance s t).setG t d (v s)))
    (hready : Ready s t) (hhere : Here s t rs) (hg : g = true) : Puts c s t d (v s) :=
  puts_of_answers (answers_of_coreOp hexec hready hhere hg rfl)

theorem puts_rOp {c : Instr} {s : State} {t : Tile} {o : ROp} {fn : Nat} {f : W64 → W64 → W64} {v : W64}
    (hexec : exec c s = rOp t o fn f s) (hready : Ready s t) (hhere : Here s t [o.gD, o.gA, o.gB]) (hg : s.p t o.pG = true)
    (hv : f (s.g t o.gA) (s.g t o.gB) = v) : Puts c s t o.gD v := by
  subst hv
  exact puts_of_coreOp (v := fun s => f (s.g t o.gA) (s.g t o.gB)) hexec hready hhere hg

theorem puts_rOp1 {c : Instr} {s : State} {t : Tile} {o : ROp} {fn : Nat} {f : W64 → W64} {v : W64}
    (hexec : exec c s = rOp1 t o fn f s) (hready : Ready s t) (hhere : Here s t [o.gD, o.gA]) (hg : s.p t o.pG = true)
    (hv : f (s.g t o.gA) = v) : Puts c s t o.gD v := by
  subst hv
  exact puts_of_coreOp (v := fun s => f (s.g t o.gA)) hexec hready hhere hg

theorem puts_iOp {c : Instr} {s : State} {t : Tile} {o : IOp} {maj : Nat} {f : W64 → W64 → W64} {v : W64}
    (hexec : exec c s = iOp t o maj f s) (hready : Ready s t) (hhere : Here s t [o.gD, o.gA]) (hg : s.p t o.pG = true)
    (hv : f (s.g t o.gA) (o.imm.signExtend 64) = v) : Puts c s t o.gD v := by
  subst hv
  exact puts_of_coreOp (v := fun s => f (s.g t o.gA) (imm13 o.imm)) hexec hready hhere hg

/-! ### The values of R171 -/

theorem shiftLeft_eq_ofNat (a : W64) (n : Nat) : a <<< n = BitVec.ofNat 64 (a.toNat * 2 ^ n) := by
  apply BitVec.eq_of_toNat_eq
  simp [Nat.shiftLeft_eq]

theorem ushiftRight_eq_ofNat (a : W64) (n : Nat) : a >>> n = BitVec.ofNat 64 (a.toNat / 2 ^ n) := by
  apply BitVec.eq_of_toNat_eq
  have hlt : a.toNat / 2 ^ n < 2 ^ 64 := lt_of_le_of_lt (Nat.div_le_self _ _) a.isLt
  rw [BitVec.toNat_ushiftRight, Nat.shiftRight_eq_div_pow, BitVec.toNat_ofNat, Nat.mod_eq_of_lt hlt]

theorem sshiftRight_eq_ofInt (a : W64) (n : Nat) : a.sshiftRight n = BitVec.ofInt 64 (a.toInt / 2 ^ n) := by
  rw [BitVec.sshiftRight, Int.shiftRight_eq_div_pow]
  norm_cast

theorem mul_eq_ofNat (a b : W64) : a * b = BitVec.ofNat 64 (a.toNat * b.toNat) := by
  apply BitVec.eq_of_toNat_eq
  rw [BitVec.toNat_mul, BitVec.toNat_ofNat]

theorem mulHi_toNat (a b : W64) : mulHi a.toNat b.toNat = BitVec.ofNat 64 (a.toNat * b.toNat / 2 ^ 64) := by
  rw [mulHi, ← BitVec.ofInt_natCast]
  norm_cast

theorem udiv_eq_ofNat (a b : W64) : a / b = BitVec.ofNat 64 (a.toNat / b.toNat) := by
  apply BitVec.eq_of_toNat_eq
  rw [BitVec.toNat_udiv, BitVec.toNat_ofNat, Nat.mod_eq_of_lt (lt_of_le_of_lt (Nat.div_le_self _ _) a.isLt)]

theorem umod_eq_ofNat (a b : W64) : a % b = BitVec.ofNat 64 (a.toNat % b.toNat) := by
  apply BitVec.eq_of_toNat_eq
  rw [BitVec.toNat_umod, BitVec.toNat_ofNat, Nat.mod_eq_of_lt (lt_of_le_of_lt (Nat.mod_le _ _) a.isLt)]

/-- A choice by a strict order, as a choice by the weak order the other way. -/
theorem ite_slt (a b x y : W64) : (if b.slt a then x else y) = if a.toInt ≤ b.toInt then y else x := by
  by_cases h : a.toInt ≤ b.toInt
  · rw [if_pos h, if_neg (by simpa [BitVec.slt] using h)]
  · rw [if_neg h, if_pos (by simpa [BitVec.slt] using h)]

theorem ite_ult (a b x y : W64) : (if b.ult a then x else y) = if a.toNat ≤ b.toNat then y else x := by
  by_cases h : a.toNat ≤ b.toNat
  · rw [if_pos h, if_neg (by simpa [BitVec.ult] using h)]
  · rw [if_neg h, if_pos (by simpa [BitVec.ult] using h)]

/-- The number of leading zeros is that of the highest bit set. -/
theorem clz64_spec (a : W64) :
    clz64 a ≤ 64 ∧ a.toNat < 2 ^ (64 - clz64 a) ∧ (clz64 a < 64 → 2 ^ (63 - clz64 a) ≤ a.toNat) := by
  unfold clz64
  by_cases h : a = 0
  · subst h; simp
  · have hne : a.toNat ≠ 0 := fun e => h (BitVec.eq_of_toNat_eq e)
    have hlog : Nat.log2 a.toNat < 64 := (Nat.log2_lt hne).2 a.isLt
    rw [if_neg h, show 64 - (63 - Nat.log2 a.toNat) = Nat.log2 a.toNat + 1 by omega,
      show 63 - (63 - Nat.log2 a.toNat) = Nat.log2 a.toNat by omega]
    exact ⟨by omega, Nat.lt_log2_self, fun _ => Nat.log2_self_le hne⟩

theorem foldl_b2n_eq (p : Nat → Bool) : ∀ (l : List Nat) (n : Nat), l.foldl (fun n i => n + b2n (p i)) n = n + l.countP p
  | [], _ => rfl
  | i :: l, n => by
    rw [List.foldl_cons, foldl_b2n_eq p l, List.countP_cons, b2n]
    omega

theorem popc64_eq (a : W64) : popc64 a = (List.range 64).countP (fun i => a.getLsbD i) := by
  rw [popc64, foldl_b2n_eq, Nat.zero_add]

theorem movz_eq_ofNat (i : BitVec 16) (n : Nat) : i.setWidth 64 <<< n = BitVec.ofNat 64 (i.toNat * 2 ^ n) := by
  rw [shiftLeft_eq_ofNat, BitVec.toNat_setWidth, Nat.mod_eq_of_lt (by omega)]

theorem addi_eq_ofInt (a b : W64) : a + b = BitVec.ofInt 64 (a.toInt + b.toInt) := by
  rw [BitVec.ofInt_add, BitVec.ofInt_toInt, BitVec.ofInt_toInt]

/-- c.movk replaces one field of sixteen bits. -/
theorem movk_getLsbD (a : W64) (pos : BitVec 2) (x : BitVec 16) (i : Nat) (hi : i < 64) :
    (BitVec.ofNat 64 (setBits a.toNat (16 * pos.toNat + 15) (16 * pos.toNat) x.toNat)).getLsbD i
      = if 16 * pos.toNat ≤ i ∧ i < 16 * pos.toNat + 16 then x.getLsbD (i - 16 * pos.toNat) else a.getLsbD i := by
  rw [BitVec.getLsbD_ofNat, testBit_setBits, show 16 * pos.toNat + 15 + 1 - 16 * pos.toNat = 16 by omega]
  simp [hi, BitVec.getLsbD]

/-! ### c.shi -/

section
variable (imm : BitVec 13) (a : W64)

/-- IMM13[5:0] is the amount, IMM13[7:6] the kind and IMM13[12:8] the reserved field. -/
theorem shi_fields : bits imm.toNat 5 0 = imm.toNat % 64 ∧ bits imm.toNat 7 6 = imm.toNat / 64 % 4
    ∧ bits imm.toNat 12 8 = imm.toNat / 256 := by
  have := imm.isLt
  simp only [bits_eq]
  omega

theorem shiVal_left (h : imm.toNat < 64) : shiVal imm.toNat a = a <<< (imm.toNat % 64) := by
  obtain ⟨hamount, hkind, -⟩ := shi_fields imm
  rw [shiVal, hamount, hkind, show imm.toNat / 64 % 4 = 0 by omega]; rfl

theorem shiVal_right (h : 64 ≤ imm.toNat ∧ imm.toNat < 128) : shiVal imm.toNat a = a >>> (imm.toNat % 64) := by
  obtain ⟨hamount, hkind, -⟩ := shi_fields imm
  rw [shiVal, hamount, hkind, show imm.toNat / 64 % 4 = 1 by omega]; rfl

theorem shiVal_signed (h : 128 ≤ imm.toNat ∧ imm.toNat < 192) : shiVal imm.toNat a = a.sshiftRight (imm.toNat % 64) := by
  obtain ⟨hamount, hkind, -⟩ := shi_fields imm
  rw [shiVal, hamount, hkind, show imm.toNat / 64 % 4 = 2 by omega]; rfl

theorem shiVal_rotate (h : 192 ≤ imm.toNat ∧ imm.toNat < 256) : shiVal imm.toNat a = a.rotateRight (imm.toNat % 64) := by
  obtain ⟨hamount, hkind, -⟩ := shi_fields imm
  rw [shiVal, hamount, hkind, show imm.toNat / 64 % 4 = 3 by omega]; rfl

theorem shi_reserved : (bits imm.toNat 12 8 != 0) = decide (256 ≤ imm.toNat) := by
  obtain ⟨-, -, hrsv⟩ := shi_fields imm
  rw [hrsv, Bool.eq_iff_iff]
  simp only [bne_iff_ne, decide_eq_true_eq]
  omega

end

/-! ### The instructions -/

section
variable {s : State} {t : Tile}

theorem puts_cShi {o : IOp} (hready : Ready s t) (hhere : Here s t [o.gD, o.gA]) (hg : s.p t o.pG = true)
    (h : o.imm.toNat < 256) : Puts (.cShi t o) s t o.gD (shiVal o.imm.toNat (s.g t o.gA)) :=
  puts_of_answers (answers_of_coreOp (exec_cShi s t o) hready hhere hg (by rw [shi_reserved]; simpa using h))

theorem answers_cShi_illegal {o : IOp} (hready : Ready s t) (hhere : Here s t [o.gD, o.gA]) (hg : s.p t o.pG = true)
    (h : 256 ≤ o.imm.toNat) : Answers (.cShi t o) s (precise s t cIllegal (BitVec.ofNat 64 (o.enc 6))) :=
  answers_of_coreOp_illegal (exec_cShi s t o) hready hhere hg (by rw [shi_reserved]; simpa using h)

/-- c.getu reads the summary register once no queued vx instruction writes it (R155). -/
theorem answers_cGetu {x : RfOp} (hready : Ready s t) (hhere : Here s t [x.gD]) (hg : s.p t x.pG = true) (hu : x.gA.toNat < 8)
    (hfn : x.fn = 0) : Answers (.cGetu t x) s (afterSummary s t x.gA.toNat (fun s =>
      (advance s t).setG t x.gD (BitVec.ofNat 64 (readU s t x.gA.toNat)))) := by
  have h := answers_of_coreOp (exec_cGetu s t x) hready hhere hg (by simp [hfn, hu])
  rwa [Nat.mod_eq_of_lt hu] at h

end

/-- Settles O8: each instruction puts its function of the registers that it reads, and each function is the one of R171. -/
theorem scalarInstructions : Obligations.ScalarInstructions := by
  unfold Obligations.ScalarInstructions
  refine ⟨fun s t o hr hh hg => ?_, fun s t o u x hr => ⟨fun hh => ?_, fun hh hg => ?_, fun hh hg => ?_, fun hh hg hu hfn => ?_⟩,
    fun s t o hr hh hg => ?_⟩
  · exact ⟨puts_rOp (exec_cAdd s t o) hr hh hg rfl, puts_rOp (exec_cSub s t o) hr hh hg rfl,
      puts_rOp (exec_cAnd s t o) hr hh hg rfl, puts_rOp (exec_cOr s t o) hr hh hg rfl, puts_rOp (exec_cXor s t o) hr hh hg rfl,
      puts_rOp (exec_cShl s t o) hr hh hg (shiftLeft_eq_ofNat _ _), puts_rOp (exec_cShr s t o) hr hh hg (ushiftRight_eq_ofNat _ _),
      puts_rOp (exec_cSar s t o) hr hh hg (sshiftRight_eq_ofInt _ _), puts_rOp (exec_cMul s t o) hr hh hg (mul_eq_ofNat _ _),
      puts_rOp (exec_cMulhu s t o) hr hh hg (mulHi_toNat _ _), puts_rOp (exec_cMulh s t o) hr hh hg rfl,
      puts_rOp (exec_cDivu s t o) hr hh hg (by rw [udiv_eq_ofNat]; rfl), puts_rOp (exec_cRemu s t o) hr hh hg (by rw [umod_eq_ofNat]),
      puts_rOp (exec_cMin s t o) hr hh hg (ite_slt _ _ _ _), puts_rOp (exec_cMax s t o) hr hh hg (ite_slt _ _ _ _),
      puts_rOp (exec_cMinu s t o) hr hh hg (ite_ult _ _ _ _), puts_rOp (exec_cMaxu s t o) hr hh hg (ite_ult _ _ _ _)⟩
  · exact puts_of_coreOp (v := fun s => if s.p t o.pG then s.g t o.gA else s.g t o.gB) (exec_cSel s t o) hr hh rfl
  · obtain ⟨hle, hlt, hge⟩ := clz64_spec (s.g t o.gA)
    exact ⟨puts_rOp1 (exec_cSextb s t o) hr hh hg rfl, puts_rOp1 (exec_cSexth s t o) hr hh hg rfl,
      puts_rOp1 (exec_cSextw s t o) hr hh hg rfl, ⟨_, hle, hlt, hge, puts_rOp1 (exec_cClz s t o) hr hh hg rfl⟩,
      puts_rOp1 (exec_cPopc s t o) hr hh hg (by rw [popc64_eq])⟩
  · rw [← movz_eq_ofNat]
    exact ⟨puts_of_coreOp (exec_cMovz s t u) hr hh hg, _, puts_of_coreOp (exec_cMovk s t u) hr hh hg,
      fun i hi => movk_getLsbD _ _ _ i hi⟩
  · have h := answers_cGetu hr hh hg hu hfn
    refine ⟨fun hq => puts_of_answers ?_, fun hq => ?_⟩
    · rwa [afterSummary, if_neg (by simp [hq])] at h
    · rwa [afterSummary, if_pos hq] at h
  · have hadd : s.g t o.gA + o.imm.signExtend 64 = BitVec.ofInt 64 ((s.g t o.gA).toInt + o.imm.toInt) := by
      rw [addi_eq_ofInt, BitVec.toInt_signExtend_of_le (by decide)]
    refine ⟨puts_iOp (exec_cAddi s t o) hr hh hg hadd, puts_iOp (exec_cAndi s t o) hr hh hg rfl,
      puts_iOp (exec_cOri s t o) hr hh hg rfl, puts_iOp (exec_cXori s t o) hr hh hg rfl, fun h => ?_, fun h => ?_, fun h => ?_,
      fun h => ?_, answers_cShi_illegal hr hh hg⟩
    · rw [← shiVal_left o.imm _ h]; exact puts_cShi hr hh hg (by omega)
    · rw [← shiVal_right o.imm _ h]; exact puts_cShi hr hh hg (by omega)
    · rw [← shiVal_signed o.imm _ h]; exact puts_cShi hr hh hg (by omega)
    · rw [← shiVal_rotate o.imm _ h]; exact puts_cShi hr hh hg (by omega)

end Sys2Proof.Machine
end

section
/-! PROOFS. Comparisons and predicate logic of the control core (R172, R173). -/

namespace Sys2Proof.Machine

open Sys2Proof.Claims

/-! ### Conditions -/

section
variable (a b : W64)

theorem bne_eq_decide : (a != b) = decide (a ≠ b) := by rw [Bool.eq_iff_iff]; simp

theorem intCond_eq : intCond 0 a b = some (decide (a = b)) := rfl
theorem intCond_ne : intCond 1 a b = some (decide (a ≠ b)) := congrArg some (bne_eq_decide a b)
theorem intCond_slt : intCond 2 a b = some (decide (a.toInt < b.toInt)) := rfl
theorem intCond_sge : intCond 3 a b = some (decide (b.toInt ≤ a.toInt)) := by
  simp only [intCond, BitVec.slt, ← decide_not, Int.not_lt]
theorem intCond_ult : intCond 4 a b = some (decide (a.toNat < b.toNat)) := rfl
theorem intCond_uge : intCond 5 a b = some (decide (b.toNat ≤ a.toNat)) := by
  simp only [intCond, BitVec.ult, ← decide_not, Nat.not_lt]
theorem intCond_test : intCond 6 a b = some (decide (a &&& b ≠ 0)) := congrArg some (bne_eq_decide (a &&& b) 0)

end

/-- Of two values at most one is below the other. -/
theorem valLt_asymm (x y : Val) (h : valLt x y = true) : valLt y x = false := by
  cases x <;> cases y <;> simp_all [valLt]
  all_goals omega

theorem unordered_eq (x y : Val) : unordered x y = decide (x = .nan ∨ y = .nan) := by
  rw [unordered, Bool.eq_iff_iff]; simp

section
variable (f : Nat) (a b : W64)

theorem floatCond_eq : floatCond 0 f a b =
    some (decide (¬ (decVal f a.toNat = .nan ∨ decVal f b.toNat = .nan)) && !valLt (decVal f a.toNat) (decVal f b.toNat)
      && !valLt (decVal f b.toNat) (decVal f a.toNat)) := by
  rw [floatCond, fEq, unordered_eq, decide_not]

theorem floatCond_ne : floatCond 1 f a b =
    some (decide (decVal f a.toNat = .nan ∨ decVal f b.toNat = .nan) || valLt (decVal f a.toNat) (decVal f b.toNat)
      || valLt (decVal f b.toNat) (decVal f a.toNat)) := by
  rw [floatCond, fEq, unordered_eq, Bool.not_and, Bool.not_and, Bool.not_not, Bool.not_not, Bool.not_not]

theorem floatCond_lt : floatCond 2 f a b =
    some (decide (¬ (decVal f a.toNat = .nan ∨ decVal f b.toNat = .nan)) && valLt (decVal f a.toNat) (decVal f b.toNat)) := by
  rw [floatCond, fLt, unordered_eq, decide_not]

/-- Above or equal is not below, unless there is a NaN. -/
theorem floatCond_ge : floatCond 3 f a b =
    some (decide (¬ (decVal f a.toNat = .nan ∨ decVal f b.toNat = .nan)) && !valLt (decVal f a.toNat) (decVal f b.toNat)) := by
  have hcomm : unordered (decVal f b.toNat) (decVal f a.toNat) = unordered (decVal f a.toNat) (decVal f b.toNat) :=
    Bool.or_comm _ _
  have hasymm := valLt_asymm (decVal f b.toNat) (decVal f a.toNat)
  rw [floatCond, fLe, fLt, fEq, hcomm, unordered_eq, decide_not, Bool.and_assoc, ← Bool.and_or_distrib_left]
  cases hlt : valLt (decVal f b.toNat) (decVal f a.toNat) with
  | true => rw [hasymm hlt]; rfl
  | false => rfl

end

/-- The fields of FN (R172): CC, the kind of the operands, and three bits that are zero. -/
theorem cmpFn_fields (fn : BitVec 8) : bits fn.toNat 2 0 = fn.toNat % 8 ∧ bits fn.toNat 4 3 = fn.toNat / 8 % 4
    ∧ bits fn.toNat 7 5 = fn.toNat / 32 := by
  have := fn.isLt
  simp only [bits_eq]
  omega

theorem cmpCond_int (fn : BitVec 8) (a b : W64) (h : fn.toNat < 8) : cmpCond fn a b = intCond fn.toNat a b := by
  obtain ⟨hcc, hkind, hzero⟩ := cmpFn_fields fn
  rw [cmpCond, hcc, hkind, hzero, if_neg (by omega), show fn.toNat / 8 % 4 = 0 by omega, Nat.mod_eq_of_lt h]; rfl

theorem cmpCond_float (fn : BitVec 8) (f : Nat) (a b : W64) (h : fn.toNat / 8 = 1 ∧ f = 6 ∨ fn.toNat / 8 = 2 ∧ f = 7) :
    cmpCond fn a b = floatCond (fn.toNat % 8) f a b := by
  obtain ⟨hcc, hkind, hzero⟩ := cmpFn_fields fn
  rw [cmpCond, hcc, hkind, hzero, if_neg (by omega)]
  rcases h with ⟨hk, rfl⟩ | ⟨hk, rfl⟩
  · rw [hk]; rfl
  · rw [hk]; rfl

/-! ### The instructions -/

section
variable {s : State} {t : Tile}

/-- c.cmp puts the condition that its FN names. -/
theorem putsP_cCmp {o : CmpOp} (hready : Ready s t) (hhere : Here s t [o.gA, o.gB]) (hg : s.p t o.pG = true) (hrsv : o.rsv = 0)
    {cond : W64 → W64 → Bool} (hcond : ∀ a b, cmpCond o.fn a b = some (cond a b)) :
    PutsP (.cCmp t o) s t o.pD (cond (s.g t o.gA) (s.g t o.gB)) := by
  have h := answers_of_coreOp (exec_cCmp s t o) hready hhere hg (by simp [hrsv, hcond])
  simp only [hcond, Option.getD_some] at h
  exact putsP_of_answers h

/-- c.cmpi puts the condition that the high bits of IMM13 name. -/
theorem putsP_cCmpi {o : CmpiOp} (hready : Ready s t) (hhere : Here s t [o.gA]) (hg : s.p t o.pG = true) (hrsv : o.rsv = 0)
    {cond : W64 → W64 → Bool} (hcond : ∀ a b, intCond (o.imm.toNat / 1024) a b = some (cond a b)) :
    PutsP (.cCmpi t o) s t o.pD (cond (s.g t o.gA) ((o.imm.setWidth 10).signExtend 64)) := by
  have hcc : bits o.imm.toNat 12 10 = o.imm.toNat / 1024 := by
    have := o.imm.isLt
    rw [bits_eq]
    omega
  have hexec := exec_cCmpi s t o
  rw [execCCmpi, hcc] at hexec
  have h := answers_of_coreOp hexec hready hhere hg (by simp [hrsv, hcond])
  simp only [hcond, Option.getD_some] at h
  exact putsP_of_answers h

theorem putsP_predOp {c : Instr} {o : PredOp} {fn : Nat} {f : Bool → Bool → Bool} (hexec : exec c s = predOp t o fn f s)
    (hready : Ready s t) (hg : s.p t o.pG = true) (h1 : o.rsv1 = 0) (h2 : o.rsv2 = 0) (h3 : o.rsv3 = 0) :
    PutsP c s t o.pD (f (s.p t o.pA) (s.p t o.pB)) :=
  putsP_of_answers (answers_of_coreOp hexec hready (here_nil s t) hg (by simp [h1, h2, h3]))

end

/-- Settles O9: c.cmp and c.cmpi put the condition that `intCond` or `floatCond` gives, which are the orders of R172. -/
theorem comparesAndPredicates : Obligations.ComparesAndPredicates := by
  unfold Obligations.ComparesAndPredicates
  refine fun s t hr => ⟨fun o hh hg hrsv hfn => ?_, fun o f hh hg hrsv hf => ?_, fun o hh hg hrsv => ?_, fun o hg h1 h2 h3 => ?_⟩
  · have put : ∀ {cc : Nat} {cond : W64 → W64 → Bool}, (∀ a b, intCond cc a b = some (cond a b)) → o.fn.toNat = cc →
        PutsP (.cCmp t o) s t o.pD (cond (s.g t o.gA) (s.g t o.gB)) := fun hcond hcc =>
      putsP_cCmp hr hh hg hrsv fun a b => by rw [cmpCond_int o.fn a b hfn, hcc, hcond]
    exact ⟨fun h => put intCond_eq (congrArg BitVec.toNat h), fun h => put intCond_ne (congrArg BitVec.toNat h),
      fun h => put intCond_slt (congrArg BitVec.toNat h), fun h => put intCond_sge (congrArg BitVec.toNat h),
      fun h => put intCond_ult (congrArg BitVec.toNat h), fun h => put intCond_uge (congrArg BitVec.toNat h),
      fun h => put intCond_test (congrArg BitVec.toNat h)⟩
  · have put : ∀ {cc : Nat} {cond : W64 → W64 → Bool}, (∀ a b, floatCond cc f a b = some (cond a b)) → o.fn.toNat % 8 = cc →
        PutsP (.cCmp t o) s t o.pD (cond (s.g t o.gA) (s.g t o.gB)) := fun hcond hcc =>
      putsP_cCmp hr hh hg hrsv fun a b => by rw [cmpCond_float o.fn f a b hf, hcc, hcond]
    exact ⟨put (floatCond_eq f), put (floatCond_ne f), put (floatCond_lt f), put (floatCond_ge f)⟩
  · have put : ∀ {cc : Nat} {cond : W64 → W64 → Bool}, (∀ a b, intCond cc a b = some (cond a b)) → o.imm.toNat / 1024 = cc →
        PutsP (.cCmpi t o) s t o.pD (cond (s.g t o.gA) ((o.imm.setWidth 10).signExtend 64)) := fun hcond hcc =>
      putsP_cCmpi hr hh hg hrsv fun a b => by rw [hcc, hcond]
    exact ⟨put intCond_eq, put intCond_ne, put intCond_slt, put intCond_sge, put intCond_ult, put intCond_uge, put intCond_test⟩
  · exact ⟨putsP_predOp (exec_predicateAnd s t o) hr hg h1 h2 h3, putsP_predOp (exec_predicateOr s t o) hr hg h1 h2 h3,
      putsP_predOp (exec_predicateXor s t o) hr hg h1 h2 h3, putsP_predOp (exec_predicateAndn s t o) hr hg h1 h2 h3,
      putsP_predOp (exec_predicateNot s t o) hr hg h1 h2 h3⟩

end Sys2Proof.Machine
end

section
/-! PROOFS. The control core's accesses of the data store (R163, R164, R175) and its branches (R162, R174). -/

namespace Sys2Proof.Machine

open Sys2Proof.Claims

/-! ### Data-store accesses -/

section
variable {c : Instr} {s : State} {t : Tile} {o : IOp} {maj w : Nat} {e : Ecc} {f : Nat → State → State}
  (hexec : exec c s = dsOp t o maj w e f s) (hruns : Runs s t [o.gD, o.gA] o.pG)
include hexec hruns

/-- A misaligned access, or one beyond the store, raises DADDR with its address (R163). -/
theorem answers_dsOp_daddr (h : (s.g t o.gA + o.imm.signExtend 64).toNat % w ≠ 0
      ∨ 0x10000 < (s.g t o.gA + o.imm.signExtend 64).toNat + w) :
    Answers c s (precise s t cDaddr (s.g t o.gA + o.imm.signExtend 64)) := by
  obtain ⟨hready, hhere, hg⟩ := hruns
  have hans := answers_of_coreOp hexec hready hhere hg rfl
  dsimp only at hans
  rwa [if_pos (by exact h)] at hans

/-- An aligned access within the store acts by what it finds there (R164). -/
theorem answers_dsOp (h : (s.g t o.gA + o.imm.signExtend 64).toNat % w = 0)
    (hin : (s.g t o.gA + o.imm.signExtend 64).toNat + w ≤ 0x10000) :
    Answers c s (dsEcc s t e ((s.g t o.gA + o.imm.signExtend 64).toNat / 8) (f (s.g t o.gA + o.imm.signExtend 64).toNat)) := by
  obtain ⟨hready, hhere, hg⟩ := hruns
  have hans := answers_of_coreOp hexec hready hhere hg rfl
  dsimp only at hans
  rwa [if_neg (by rw [imm13, not_or]; exact ⟨not_not.mpr h, not_lt.mpr hin⟩)] at hans

end

/-- A load puts the bytes of the store, zero-extended (R175). -/
theorem puts_dsLoad {c : Instr} {s : State} {t : Tile} {o : IOp} {maj w : Nat} (hexec : exec c s = dsLoad t o maj w .ok s)
    (hruns : Runs s t [o.gD, o.gA] o.pG) (h : (s.g t o.gA + o.imm.signExtend 64).toNat % w = 0)
    (hin : (s.g t o.gA + o.imm.signExtend 64).toNat + w ≤ 0x10000) :
    Puts c s t o.gD (BitVec.ofNat 64 (leNat (memRead (s.tile t).dstore (s.g t o.gA + o.imm.signExtend 64).toNat w))) :=
  puts_of_answers (answers_dsOp hexec hruns h hin)

/-- Bytes written to the tile's store after the issue cycle. -/
theorem stores_of_answers {c : Instr} {s : State} {t : Tile} {a : Nat} {bs : List Byte}
    (h : Answers c s ((advance s t).modTile t (fun ts => dsWrite ts a bs))) : Stores c s t a bs := by
  refine gives_of_answers h ⟨fun x => ?_, fun r => ?_, fun i => ?_, ?_, onlyTile_issued s t _⟩
  · rw [tile_settle, tile_modTile_same, dsWrite, memByte_memWrite, advance_dstore]
  · rw [g_settle, g_modTile_of, advance_g]; exact fun _ _ => rfl
  · rw [p_settle, p_modTile_of, advance_p]; exact fun _ => rfl
  · rw [tile_settle, tile_modTile_same]; exact advance_pc s t

/-- A store writes the low bytes of gS (R175). -/
theorem stores_dsStore {c : Instr} {s : State} {t : Tile} {o : IOp} {maj w : Nat} (hexec : exec c s = dsStore t o maj w .ok s)
    (hruns : Runs s t [o.gD, o.gA] o.pG) (h : (s.g t o.gA + o.imm.signExtend 64).toNat % w = 0)
    (hin : (s.g t o.gA + o.imm.signExtend 64).toNat + w ≤ 0x10000) :
    Stores c s t (s.g t o.gA + o.imm.signExtend 64).toNat (leBytes w (s.g t o.gD).toNat) :=
  stores_of_answers (answers_dsOp hexec hruns h hin)

/-- What a load and a store of one width do that find no good word: DADDR, the fence, or the correction. -/
theorem answers_dsOp_faults {c d : Instr} {s : State} {t : Tile} {o : IOp} {e : Ecc} {n maj maj' : Nat}
    (hc : exec c s = dsLoad t o maj n e s) (hd : exec d s = dsStore t o maj' n e s)
    (hruns : Runs s t [o.gD, o.gA] o.pG) :
    let a := s.g t o.gA + o.imm.signExtend 64
    ((a.toNat % n ≠ 0 ∨ 0x10000 < a.toNat + n) → Answers c s (precise s t cDaddr a) ∧ Answers d s (precise s t cDaddr a))
      ∧ (a.toNat % n = 0 → a.toNat + n ≤ 0x10000 →
          (e = .uncorrectable → Answers c s (storeUe s t 1 (a.toNat / 8)) ∧ Answers d s (storeUe s t 1 (a.toNat / 8)))
            ∧ (e = .corrected → Answers c s (withhold s t rowEcc .passing) ∧ Answers d s (withhold s t rowEcc .passing))) := by
  refine ⟨fun h => ⟨answers_dsOp_daddr hc hruns h, answers_dsOp_daddr hd hruns h⟩, fun h hin => ⟨?_, ?_⟩⟩
  · rintro rfl
    exact ⟨answers_dsOp hc hruns h hin, answers_dsOp hd hruns h hin⟩
  · rintro rfl
    exact ⟨answers_dsOp hc hruns h hin, answers_dsOp hd hruns h hin⟩

/-- Settles O10: the address is checked before what the store holds is found, and a good access loads or stores its bytes. -/
theorem dataStoreAccesses : Obligations.DataStoreAccesses := by
  unfold Obligations.DataStoreAccesses
  refine ⟨fun s t o e hruns he => ?_, fun s t o e hruns he => ?_, fun s t o e hruns => ?_⟩
  · subst he
    exact ⟨puts_dsLoad (exec_cLdb s t o .ok) hruns (Nat.mod_one _), puts_dsLoad (exec_cLdh s t o .ok) hruns,
      puts_dsLoad (exec_cLdw s t o .ok) hruns, puts_dsLoad (exec_cLdd s t o .ok) hruns⟩
  · subst he
    exact ⟨stores_dsStore (exec_cStb s t o .ok) hruns (Nat.mod_one _), stores_dsStore (exec_cSth s t o .ok) hruns,
      stores_dsStore (exec_cStw s t o .ok) hruns, stores_dsStore (exec_cStd s t o .ok) hruns⟩
  · exact ⟨answers_dsOp_faults (exec_cLdb s t o e) (exec_cStb s t o e) hruns,
      answers_dsOp_faults (exec_cLdh s t o e) (exec_cSth s t o e) hruns,
      answers_dsOp_faults (exec_cLdw s t o e) (exec_cStw s t o e) hruns,
      answers_dsOp_faults (exec_cLdd s t o e) (exec_cStd s t o e) hruns⟩

/-! ### Branches -/

theorem jump_tile (s : State) (t : Tile) (n : Nat) :
    (jump s t n).tile t = { issueStep (s.hmode t) (s.tile t) with
      pc := BitVec.ofNat 15 n, issued := (s.tile t).issued + (if s.hmode t then 0 else 1) } := by
  rw [jump, tile_modTile_same, countIssue_tile]

@[simp] theorem jump_hmode (s : State) (t u : Tile) (n : Nat) : (jump s t n).hmode u = s.hmode u := countIssue_hmode s t u

@[simp] theorem jump_g (s : State) (t : Tile) (n : Nat) (r : BitVec 5) : (jump s t n).g t r = s.g t r := by
  rw [State.g, jump_hmode, jump_tile]; rfl

/-- The marks of a taken branch outside its tile are those of any issue cycle. -/
theorem onlyTile_jump (s : State) (t : Tile) (n : Nat) : OnlyTile s (jump s t n) t := by
  obtain ⟨-, hrest⟩ := onlyTile_advance s t
  exact ⟨fun u hu => by rw [jump, tile_modTile_ne _ _ _ _ hu, countIssue_tile_ne s t u hu], hrest⟩

section
variable {c : Instr} {s : State} {t : Tile} {n : Nat}

/-- A taken branch goes to its target and changes nothing else but the counts of issue (R165, R174). -/
theorem gives_of_answers_jump (h : Answers c s (jump s t n)) (hn : n ≤ 0x3FFF) :
    Gives c s fun s' => (s'.tile t).pc.toNat = n ∧ (∀ r, s'.g t r = s.g t r) ∧ (∀ i, s'.p t i = s.p t i)
      ∧ (s'.tile t).dstore = (s.tile t).dstore ∧ OnlyTile s s' t := by
  refine gives_of_answers h ⟨?_, fun r => ?_, fun i => ?_, ?_, onlyTile_settle (onlyTile_jump s t n)⟩
  · rw [tile_settle, jump_tile, BitVec.toNat_ofNat]; omega
  · rw [g_settle, jump_g]
  · rw [State.p, tile_settle, jump_tile]; rfl
  · rw [tile_settle, jump_tile]

/-- A taken branch that links puts a register beside it (R174). -/
theorem gives_of_answers_link {d : BitVec 5} {v : W64} (h : Answers c s ((jump s t n).setG t d v)) (hn : n ≤ 0x3FFF) :
    Gives c s fun s' => (s'.tile t).pc.toNat = n ∧ (∀ r, s'.g t r = if r = d then (if d = 0 then 0 else v) else s.g t r)
      ∧ (∀ i, s'.p t i = s.p t i) ∧ (s'.tile t).dstore = (s.tile t).dstore ∧ OnlyTile s s' t := by
  refine gives_of_answers h ⟨?_, fun r => ?_, fun i => ?_, ?_, onlyTile_settle (onlyTile_modTile (onlyTile_jump s t n) _)⟩
  · rw [tile_settle, setG_pc, jump_tile, BitVec.toNat_ofNat]; omega
  · rw [g_settle, g_setG, jump_g]
  · rw [State.p, tile_settle, setG_eq, TileSt.readP, writeG_p, jump_tile]; rfl
  · rw [tile_settle, setG_eq, writeG_dstore, jump_tile]

end

theorem branchTo_inside {s : State} {t : Tile} {target : Int} {f : State → State} (h0 : 0 ≤ target) (h1 : target ≤ 0x3FFF) :
    branchTo s t target f = f (jump s t target.toNat) := if_pos ⟨h0, h1⟩

theorem branchTo_outside {s : State} {t : Tile} {target : Int} {f : State → State} (h : target < 0 ∨ 0x3FFF < target) :
    branchTo s t target f = precise s t cIaddr (BitVec.ofInt 64 target) := if_neg (by omega)

section
variable {s : State} {t : Tile} (hready : Ready s t)
include hready

theorem answers_cBr (o : BrOp) : Answers (.cBr t o) s
    (if s.p t o.pG != (o.n == 1) then branchTo s t (((s.tile t).pc.toNat : Int) + o.off.toInt) id else advance s t) :=
  answers_of_coreOp (exec_cBr s t o) hready (here_nil s t) rfl rfl

theorem answers_cJal (o : JOp) (hhere : Here s t [o.gD]) : Answers (.cJal t o) s
    (branchTo s t (((s.tile t).pc.toNat : Int) + o.off.toInt)
      (fun x => x.setG t o.gD (BitVec.ofNat 64 ((s.tile t).pc.toNat + 1)))) :=
  answers_of_coreOp (exec_cJal s t o) hready hhere rfl rfl

theorem answers_cJr (o : RfOp) (hhere : Here s t [o.gA]) (hg : s.p t o.pG = true) (hfn : o.fn = 0) : Answers (.cJr t o) s
    (if (s.g t o.gA).toNat ≤ 0x3FFF then jump s t (s.g t o.gA).toNat else precise s t cIaddr (s.g t o.gA)) :=
  answers_of_coreOp (exec_cJr s t o) hready hhere hg (by simp [hfn])

end

/-- Settles O12: a branch that is taken goes to its target in the store, and raises IADDR where the target lies outside. -/
theorem branches : Obligations.Branches := by
  unfold Obligations.Branches
  refine fun s t hr => ⟨fun o => ?_, fun o hh => ?_, fun o hh hg hfn => ?_⟩
  · have h := answers_cBr hr o
    refine ⟨fun hp => ?_, fun hp h0 h1 => ?_, fun hp hout => ?_⟩
    · rwa [if_neg (by simp [hp])] at h
    · rw [if_pos (by simpa using hp), branchTo_inside h0 h1] at h
      exact gives_of_answers_jump h (by omega)
    · rwa [if_pos (by simpa using hp), branchTo_outside hout] at h
  · have h := answers_cJal hr o hh
    refine ⟨fun h0 h1 => ?_, fun hout => ?_⟩
    · rw [branchTo_inside h0 h1] at h
      exact gives_of_answers_link h (by omega)
    · rwa [branchTo_outside hout] at h
  · have h := answers_cJr hr o hh hg hfn
    refine ⟨fun hin => ?_, fun hout => ?_⟩
    · rw [if_pos hin] at h
      exact gives_of_answers_jump h hin
    · rwa [if_neg (by omega)] at h

end Sys2Proof.Machine
end

section
/-! PROOFS. What a cause of the control core changes (R188, R198), and from it the loose accesses and their responses (R176,
R177). -/

namespace Sys2Proof.Machine

open Sys2Proof.Claims

/-! ### A fault bit and a cause -/

/-- A fault bit changes registers and the waiting interrupts (R544, R545). -/
theorem raiseBit_eq (s : State) (page b : Nat) :
    ∃ r i h, raiseBit s page b = { s with regs := r, irqs := i, hostIrqs := h } := by
  unfold raiseBit report
  dsimp only
  split
  · exact ⟨_, _, _, rfl⟩
  · split
    · exact ⟨_, _, _, rfl⟩
    · exact ⟨_, _, _, rfl⟩

theorem rd_raiseBit_ne (s : State) (page b page' : Nat) (g : Fld) (hfault : page' * 0x1000 + g.off ≠ page * 0x1000 + pg_FAULT.off)
    (hforced : page' * 0x1000 + g.off ≠ page * 0x1000 + pg_FORCED.off) : rd (raiseBit s page b) page' g = rd s page' g :=
  rd_raiseF_ne s page page' { pg_FAULT with lo := b } g hfault hforced

/-- A cause of the control core, or of what acts on it: the engines' are 1 and 2 (R198). -/
def coreSrc (c : Cause) : Prop := c.src ≠ 1 ∧ c.src ≠ 2

theorem causeCapture_core (s : State) (t : Tile) {c : Cause} (h : coreSrc c) : causeCapture s t c.code c.src c.pc = s := by
  rw [causeCapture, if_neg h.1, if_neg h.2]

theorem causeBit_core (s : State) (t : Tile) {c : Cause} (h : coreSrc c) :
    causeBit s t c.code c.src = if 1 ≤ c.code ∧ c.code ≤ 7 then raiseBit s (tlPg t) (c.code - 1) else s := by
  rw [causeBit, if_neg h.1, if_neg h.2]

/-- The bit of a core's cause changes registers and the waiting interrupts alone. -/
theorem causeBit_core_eq (s : State) (t : Tile) {c : Cause} (h : coreSrc c) :
    ∃ r i h, causeBit s t c.code c.src = { s with regs := r, irqs := i, hostIrqs := h } := by
  rw [causeBit_core s t h]
  split
  · exact raiseBit_eq s _ _
  · exact ⟨_, _, _, rfl⟩

/-- The bit of a core's cause stands in the first registers of the TL page. -/
theorem rd_causeBit_core (s : State) (t : Tile) {c : Cause} (h : coreSrc c) (page : Nat) (g : Fld)
    (hfault : page * 0x1000 + g.off ≠ tlPg t * 0x1000 + pg_FAULT.off)
    (hforced : page * 0x1000 + g.off ≠ tlPg t * 0x1000 + pg_FORCED.off) :
    rd (causeBit s t c.code c.src) page g = rd s page g := by
  rw [causeBit_core s t h]
  split
  · exact rd_raiseBit_ne s _ _ _ g hfault hforced
  · rfl

theorem hasProgram_causeBit_core (s : State) (t : Tile) {c : Cause} (h : coreSrc c) :
    (causeBit s t c.code c.src).hasProgram t = s.hasProgram t := by
  simp only [State.hasProgram]
  rw [rd_causeBit_core s t h _ _ (by simp [tl_STATUS_RUNNING, pg_FAULT]) (by simp [tl_STATUS_RUNNING, pg_FORCED]),
    rd_causeBit_core s t h _ _ (by simp [tl_STATUS_SLEEP, pg_FAULT]) (by simp [tl_STATUS_SLEEP, pg_FORCED])]

/-- What a core's cause changes (R188, R580): registers, interrupts, the tile's causes while it has a program, and the trap row
of the stall net. -/
theorem raiseCause_core (s : State) (t : Tile) {c : Cause} (h : coreSrc c) :
    ∃ r i h q, raiseCause s t c = { s with
      regs := r, irqs := i, hostIrqs := h, netReq := q,
      tiles := if s.hasProgram t then (s.modTile t (fun ts => { ts with causes := ts.causes ++ [c] })).tiles else s.tiles } := by
  obtain ⟨r, i, hi, hbit⟩ := causeBit_core_eq s t h
  have hprog := hasProgram_causeBit_core s t h
  unfold raiseCause
  rw [causeCapture_core _ t h]
  dsimp only
  rw [hprog, hbit]
  cases s.hasProgram t with
  | false => exact ⟨r, i, hi, s.netReq, rfl⟩
  | true =>
    rw [if_pos rfl, if_pos rfl]
    split
    · exact ⟨r, i, hi, s.netReq, rfl⟩
    · exact ⟨r, i, hi, _, rfl⟩

theorem tile_raiseCause_core (s : State) (t : Tile) {c : Cause} (h : coreSrc c) (hprog : s.hasProgram t = true) :
    (raiseCause s t c).tile t = { s.tile t with causes := (s.tile t).causes ++ [c] } := by
  obtain ⟨_, _, _, _, heq⟩ := raiseCause_core s t h
  rw [heq, hprog, if_pos rfl]
  exact tile_modTile_same s t (fun ts => { ts with causes := ts.causes ++ [c] })

theorem raiseCause_core_memory (s : State) (t : Tile) {c : Cause} (h : coreSrc c) :
    (raiseCause s t c).spool = s.spool ∧ (raiseCause s t c).lp = s.lp ∧ (raiseCause s t c).flash = s.flash := by
  obtain ⟨_, _, _, _, heq⟩ := raiseCause_core s t h
  rw [heq]
  exact ⟨rfl, rfl, rfl⟩

theorem rd_raiseCause_core (s : State) (t : Tile) {c : Cause} (h : coreSrc c) (page : Nat) (g : Fld)
    (hfault : page * 0x1000 + g.off ≠ tlPg t * 0x1000 + pg_FAULT.off)
    (hforced : page * 0x1000 + g.off ≠ tlPg t * 0x1000 + pg_FORCED.off) :
    rd (raiseCause s t c) page g = rd s page g := by
  rw [← rd_causeBit_core s t h page g hfault hforced]
  unfold raiseCause
  rw [causeCapture_core _ t h]
  dsimp only
  split
  · split
    · rfl
    · rfl
  · rfl

/-! ### Loose accesses at issue -/

section
variable {c : Instr} {s : State} {t : Tile} {o : IOp} {maj w : Nat} {kind : State → LooseKind}
  {msg : State → BitVec 48 → Nat → NetMsg} (hexec : exec c s = looseOp t o maj w kind msg s) (hruns : Runs s t [o.gD, o.gA] o.pG)
  (hroom : (s.tile t).loose.length < 16)
include hexec hruns hroom

/-- An aligned loose access joins the outstanding ones and leaves for its endpoint (R176). -/
theorem answers_looseOp (h : ((s.g t o.gA + o.imm.signExtend 64).setWidth 48).toNat % w = 0) :
    Answers c s (post (withLoose s t (kind s) ((s.g t o.gA + o.imm.signExtend 64).setWidth 48) w)
      (msg s ((s.g t o.gA + o.imm.signExtend 64).setWidth 48) (s.tile t).tagNo)) := by
  obtain ⟨hready, hhere, hg⟩ := hruns
  have hans := answers_of_coreOp hexec hready hhere hg rfl
  dsimp only [imm13] at hans
  rwa [if_neg (by omega), if_neg (not_not.mpr h)] at hans

/-- A misaligned one raises DADDR before issue (R176). -/
theorem answers_looseOp_daddr (h : ((s.g t o.gA + o.imm.signExtend 64).setWidth 48).toNat % w ≠ 0) :
    Answers c s (precise s t cDaddr (((s.g t o.gA + o.imm.signExtend 64).setWidth 48).setWidth 64)) := by
  obtain ⟨hready, hhere, hg⟩ := hruns
  have hans := answers_of_coreOp hexec hready hhere hg rfl
  dsimp only [imm13] at hans
  rwa [if_neg (by omega), if_pos h] at hans

end

section
variable {c d : Instr} {s : State} {t : Tile} {o : IOp} {maj maj' w : Nat} (hc : exec c s = looseLoad t o maj w s)
  (hd : exec d s = looseStore t o maj' w s) (hruns : Runs s t [o.gD, o.gA] o.pG) (hroom : (s.tile t).loose.length < 16)
include hc hd hruns hroom

/-- The loose load and the loose store of one width, aligned. -/
theorem answers_loose (h : ((s.g t o.gA + o.imm.signExtend 64).setWidth 48).toNat % w = 0) :
    let a : BitVec 48 := (s.g t o.gA + o.imm.signExtend 64).setWidth 48
    let me := Party.tile (BitVec.ofNat 3 s.module) t
    Answers c s (post (withLoose s t (.load o.gD (s.hmode t && decide (28 ≤ o.gD.toNat))) a w) (.lseRead me a w (s.tile t).tagNo))
      ∧ Answers d s (post (withLoose s t .store a w) (.lseWrite me a (leBytes w (s.g t o.gD).toNat) (s.tile t).tagNo)) := by
  have hload := answers_looseOp hc hruns hroom h
  have hstore := answers_looseOp hd hruns hroom h
  exact ⟨hload, hstore⟩

theorem answers_loose_daddr (h : ((s.g t o.gA + o.imm.signExtend 64).setWidth 48).toNat % w ≠ 0) :
    let a : BitVec 48 := (s.g t o.gA + o.imm.signExtend 64).setWidth 48
    Answers c s (precise s t cDaddr (a.setWidth 64)) ∧ Answers d s (precise s t cDaddr (a.setWidth 64)) :=
  ⟨answers_looseOp_daddr hc hruns hroom h, answers_looseOp_daddr hd hruns hroom h⟩

end

/-- c.lfence waits for the loose stores and for the stores that a vx.trk will send (R176, R371). -/
theorem storesDone_iff (ts : TileSt) :
    storesDone ts = true ↔ (∀ l ∈ ts.loose, l.kind ≠ .store ∧ l.kind ≠ .trk) ∧ trkQueued ts = false := by
  simp [storesDone]

theorem answers_cLfence {s : State} {t : Tile} {f : RfOp} (hready : Ready s t) (hg : s.p t f.pG = true) (hfn : f.fn = 0) :
    Answers (.cLfence t f) s (if storesDone (s.tile t) then advance s t else withhold s t rowDma .lfence) :=
  answers_of_coreOp (exec_cLfence s t f) hready (here_nil s t) hg (by simp [hfn])

/-! ### Responses -/

/-- No message in flight fits. -/
theorem takeMsg_none {s : State} {p : NetMsg → Bool} (h : ∀ m ∈ s.net, p m = false) : takeMsg s p = (none, s) := by
  rw [takeMsg, List.find?_eq_none.mpr fun m hm => by simp [h m hm]]

/-- With no response in flight that fits, the one that the command brings is taken (log entry 13). -/
theorem takeRsp_arriving {s : State} {t : Tile} {tag : Nat} (rsp : Nat) (data : List Byte)
    (hnet : ∀ r d, .lseRsp (.tile (BitVec.ofNat 3 s.module) t) tag r d ∉ s.net)
    (hpkt : ∀ p h d, .pkt p h d ∈ s.net → h.type = tyLseResp → h.addr / 2 ^ 48 ≠ tag % 65536) :
    takeRsp s t tag rsp data = (rsp, data, s) := by
  rw [takeRsp, takeMsg_none]
  intro m hm
  split
  case h_1 dst g r d =>
    rw [Bool.and_eq_false_iff, beq_eq_false_iff_ne, beq_eq_false_iff_ne, ← not_and_or]
    rintro ⟨rfl, rfl⟩
    exact hnet r d hm
  case h_2 p h d =>
    rw [Bool.and_eq_false_iff, beq_eq_false_iff_ne, beq_eq_false_iff_ne, ← not_and_or]
    exact fun ⟨htype, haddr⟩ => hpkt p h d hm htype haddr
  case h_3 => rfl

/-- The credit of a request returns, and no other request waits for it (R286). -/
theorem rspCredit_eq {s : State} (hwait : s.lseWait = []) (t : Tile) (a tag : Nat) :
    ∃ l, rspCredit s t a tag = { s with lseOut := l } := by
  unfold rspCredit
  split
  · exact ⟨_, rfl⟩
  · refine ⟨(lseReturn s (modOf a) (.tile (BitVec.ofNat 3 s.module) t) tag).lseOut, ?_⟩
    unfold lsePump lseReturn
    dsimp only
    rw [hwait]
    obtain ⟨⟩ := s
    cases hwait
    rfl

theorem tile_congr {x s : State} (h : x.tiles = s.tiles) (t : Tile) : x.tile t = s.tile t := by
  rw [State.tile, h]; rfl

theorem hasProgram_congr {x s : State} (h : x.regs = s.regs) (t : Tile) : x.hasProgram t = s.hasProgram t := by
  rw [State.hasProgram, rd_congr h, rd_congr h]; rfl

/-- A response that finds its loose access, and nothing else in flight, completes that one. -/
theorem answers_lseResp {s : State} {t : Tile} {l : Loose} {rsp : BitVec 8} {data : List Byte} (ht : t.toNat < s.ntiles)
    (hfind : (s.tile t).loose.find? (fun x => x.tag == l.tag) = some l)
    (hnet : ∀ r d, .lseRsp (.tile (BitVec.ofNat 3 s.module) t) l.tag r d ∉ s.net)
    (hpkt : ∀ p h d, .pkt p h d ∈ s.net → h.type = tyLseResp → h.addr / 2 ^ 48 ≠ l.tag % 65536) (hwait : s.lseWait = []) :
    ∃ x : State, x.tiles = s.tiles ∧ x.regs = s.regs ∧ x.spool = s.spool ∧ x.lp = s.lp
      ∧ Answers (.lseResp t l.tag rsp data) s (looseDone x t l rsp.toNat data) := by
  obtain ⟨q, hq⟩ := rspCredit_eq (s := progress s) hwait t l.addr.toNat l.tag
  refine ⟨{ progress s with lseOut := q }, rfl, rfl, rfl, rfl, ?_⟩
  rw [Answers, exec_lseResp, execLseResp, onTile_of_lt s t _ ht, hfind, done]
  simp only [takeRsp_arriving rsp.toNat data hnet hpkt, hq]

/-- The BUS cause of a loose access whose response is not OK (R177). -/
def busOf (l : Loose) (rsp : Nat) : Cause :=
  { code := cBus, src := 0, kind := .deferred, pc := l.pc, info := BitVec.ofNat 64 (l.addr.toNat + rsp * 2 ^ 48), ord := l.ord,
    inHandler := l.inHandler }

theorem coreSrc_busOf (l : Loose) (rsp : Nat) : coreSrc (busOf l rsp) := ⟨Nat.zero_ne_one, Nat.zero_ne_add_one 1⟩

theorem busCause_eq (s : State) (t : Tile) (l : Loose) (rsp : Nat) : busCause s t l rsp = raiseCause s t (busOf l rsp) := rfl

theorem readG_writeG_self (ts : TileSt) (hm : Bool) (r : BitVec 5) (v : W64) :
    (ts.writeG hm r v).readG hm r = if r = 0 then 0 else v := by
  by_cases h : r = 0
  · subst h; rfl
  · rw [if_neg h, readG_writeG_same ts hm r v h]

/-- The tile after the response of a loose load: the load leaves the outstanding accesses, and its register is written. -/
def looseLoaded (l : Loose) (bank : Bool) (gD : BitVec 5) (v : W64) (ts : TileSt) : TileSt :=
  { ts with loose := ts.loose.erase l }.writeG bank gD v

theorem looseDone_load {s : State} {t : Tile} {l : Loose} {gD : BitVec 5} {bank : Bool} (hkind : l.kind = .load gD bank)
    (rsp : Nat) (data : List Byte) : looseDone s t l rsp data =
      let s' := s.modTile t (looseLoaded l bank gD (if rsp = rOK then BitVec.ofNat 64 (leNat (data.take l.size)) else 0))
      if rsp = rOK then s' else busCause s' t l rsp := by
  rw [looseDone, hkind]; rfl

theorem looseLoaded_fields (ts : TileSt) (l : Loose) (bank : Bool) (gD : BitVec 5) (v : W64) :
    (looseLoaded l bank gD v ts).readG bank gD = (if gD = 0 then 0 else v)
      ∧ (looseLoaded l bank gD v ts).loose = ts.loose.erase l ∧ (looseLoaded l bank gD v ts).causes = ts.causes
      ∧ (looseLoaded l bank gD v ts).dstore = ts.dstore := by
  refine ⟨readG_writeG_self _ _ _ _, ?_⟩
  obtain ⟨g, gh, hw⟩ := writeG_eq { ts with loose := ts.loose.erase l } bank gD v
  rw [looseLoaded, hw]
  exact ⟨rfl, rfl, rfl⟩

/-- Settles O11: an access joins and leaves, or faults, at issue; its response writes the register, and one other than OK is a
BUS cause of the core. -/
theorem looseAccessesAndResponses : Obligations.LooseAccessesAndResponses := by
  unfold Obligations.LooseAccessesAndResponses
  refine ⟨fun s t o f hruns hroom => ?_, fun s t l gD bank data ht hfind hkind hnet hpkt hwait => ⟨?_, fun r hr hprog => ?_⟩⟩
  · have lld := exec_cLld s t o
    have lst := exec_cLst s t o
    have lldw := exec_cLldw s t o
    have lstw := exec_cLstw s t o
    refine ⟨answers_loose lld lst hruns hroom, answers_loose lldw lstw hruns hroom, answers_loose_daddr lld lst hruns hroom,
      answers_loose_daddr lldw lstw hruns hroom, fun hg hfn => ?_⟩
    have hans := answers_cLfence hruns.1 hg hfn
    refine ⟨fun hstores htrk => ?_, fun hleft => ?_⟩
    · rwa [if_pos ((storesDone_iff _).mpr ⟨hstores, htrk⟩)] at hans
    · have hwaits : ¬ storesDone (s.tile t) = true := fun h => by
        obtain ⟨hstores, htrk⟩ := (storesDone_iff _).mp h
        rcases hleft with ⟨l, hl, hk⟩ | hq
        · obtain ⟨hstore, htrk'⟩ := hstores l hl
          exact hk.elim hstore htrk'
        · rw [htrk] at hq; exact Bool.noConfusion hq
      rwa [if_neg hwaits] at hans
  · obtain ⟨x, htiles, -, hspool, hlp, hans⟩ := answers_lseResp (rsp := 0) (data := data) ht hfind hnet hpkt hwait
    obtain ⟨hreg, hloose, hcauses, hdstore⟩ :=
      looseLoaded_fields (s.tile t) l bank gD (BitVec.ofNat 64 (leNat (data.take l.size)))
    rw [looseDone_load hkind, if_pos (by rfl), if_pos (by rfl)] at hans
    refine gives_of_answers hans ⟨?_, ?_, ?_, ?_, hspool, hlp⟩
    all_goals rw [tile_settle, tile_modTile_same, tile_congr htiles]
    exacts [hreg, hloose, hcauses, hdstore]
  · obtain ⟨x, htiles, hregs, hspool, hlp, hans⟩ := answers_lseResp (rsp := r) (data := data) ht hfind hnet hpkt hwait
    obtain ⟨hreg, -, hcauses, -⟩ := looseLoaded_fields (s.tile t) l bank gD 0
    have hne : r.toNat ≠ rOK := fun h => hr (BitVec.eq_of_toNat_eq h)
    rw [looseDone_load hkind, if_neg hne, if_neg hne, busCause_eq] at hans
    obtain ⟨hspool', hlp', -⟩ := raiseCause_core_memory (x.modTile t (looseLoaded l bank gD 0)) t (coreSrc_busOf l r.toNat)
    have htile := tile_raiseCause_core (x.modTile t (looseLoaded l bank gD 0)) t (coreSrc_busOf l r.toNat)
      ((hasProgram_congr hregs t).trans hprog)
    rw [tile_modTile_same, tile_congr htiles] at htile
    refine gives_of_answers hans ⟨?_, ?_, hspool'.trans hspool, hlp'.trans hlp⟩
    · rw [tile_settle, htile]; exact hreg.trans (ite_self 0)
    · rw [tile_settle, htile, hcauses]; rfl

end Sys2Proof.Machine
end

section
/-! PROOFS. Traps (R188 to R195): what entry and return change, and the instructions c.tret, c.trap, c.halt and c.sleep. -/

namespace Sys2Proof.Machine

open Sys2Proof.Claims

/-! ### Fields of one page -/

/-- Two fields of a page lie in different registers, or in different bits of one. -/
def Fld.apart (f g : Fld) : Bool :=
  decide (g.off ≠ f.off) || (decide (g.hi < f.lo ∨ f.hi < g.lo) && decide (f.lo ≤ f.hi) && decide (f.hi < 32))

/-- A field keeps its value when another field of its page is stored. -/
theorem rd_wr_apart (s : State) (p : Nat) (f : Fld) (v : Nat) (g : Fld) (h : f.apart g = true) : rd (wr s p f v) p g = rd s p g := by
  by_cases ho : g.off = f.off
  · simp only [Fld.apart, ho, ne_eq, not_true_eq_false, decide_false, Bool.false_or, Bool.and_eq_true, decide_eq_true_eq] at h
    obtain ⟨⟨hbits, hf⟩, h32⟩ := h
    exact rd_wr_field s p f v g ho hbits hf h32
  · exact rd_wr_ne s p f v p g (by omega)

/-- A field reads a value that fits it. -/
theorem rd_wr_fits (s : State) (p : Nat) (f : Fld) (v : Nat) (h : f.hi < 32) (hv : v < 2 ^ (f.hi + 1 - f.lo)) :
    rd (wr s p f v) p f = v := by
  rw [rd_wr_same s p f v h, Nat.mod_eq_of_lt hv]

@[simp] theorem rd_request (s : State) (t : Tile) (row p : Nat) (f : Fld) : rd (request s t row) p f = rd s p f := rfl

section
variable (s : State) (t : Tile) (row : Nat)
@[simp] theorem request_hmode (u : Tile) : (request s t row).hmode u = s.hmode u := rfl
@[simp] theorem hmode_send (m : NetMsg) (u : Tile) : (send s m).hmode u = s.hmode u := rfl
@[simp] theorem request_spool : (request s t row).spool = s.spool := rfl
@[simp] theorem request_lp : (request s t row).lp = s.lp := rfl
@[simp] theorem request_flash : (request s t row).flash = s.flash := rfl
end

/-! ### Trap entry (R192) -/

section
variable (s : State) (t : Tile)

theorem request_eq (row : Nat) : ∃ q, request s t row = { s with netReq := q } := ⟨_, rfl⟩

/-- The requests of a handler are on the stall net alone. -/
theorem trapRequests_eq : ∃ q, trapRequests s t = { s with netReq := q } := by
  unfold trapRequests
  dsimp only
  split
  · obtain ⟨q, hsync⟩ := request_eq (unrequestAll s t) t rowSync
    obtain ⟨q', htrap⟩ := request_eq { unrequestAll s t with netReq := q } t rowTrap
    exact ⟨q', by rw [hsync, htrap]; rfl⟩
  · obtain ⟨q, htrap⟩ := request_eq (unrequestAll s t) t rowTrap
    exact ⟨q, by rw [htrap]; rfl⟩

theorem trapRequests_frame : (trapRequests s t).regs = s.regs ∧ (trapRequests s t).tiles = s.tiles
    ∧ (trapRequests s t).spool = s.spool ∧ (trapRequests s t).lp = s.lp ∧ (trapRequests s t).flash = s.flash := by
  obtain ⟨_, heq⟩ := trapRequests_eq s t
  rw [heq]
  exact ⟨rfl, rfl, rfl, rfl, rfl⟩

theorem request_contains (row : Nat) : (request s t row).netReq.contains (t, row) = true := by
  unfold request
  dsimp only
  split
  · assumption
  · simp

/-- A tile with one precise cause pending, outside the handler, does not issue, and takes the cause once its loose accesses and
engines have finished (R189, R192). -/
theorem answers_trapEntry {s : State} {t : Tile} {c : Cause} (ht : t.toNat < s.ntiles) (hrun : rd s (tlPg t) tl_STATUS_RUNNING = 1)
    (hm : s.hmode t = false) (hen : rd s (tlPg t) tl_CTRL_TRAP_EN = 1) (hcauses : (s.tile t).causes = [c]) (hkind : c.kind = .precise)
    (hloose : (s.tile t).loose = []) (hdrained : enginesDrained (s.tile t) = true) (e : Ecc) :
    Answers (.trapEntry t e) s (enterTrap s t c) := by
  have hdue : causeDue (s.tile t) false = true := by simp [causeDue, hcauses]
  have hstays : fetchCheck s t e = s := if_pos (.inl (by simp [canIssue, hm, hdue]))
  have htake : takeTrap s t = enterTrap s t c := by
    simp only [takeTrap]
    rw [hm, hrun, hdue, if_neg (by decide), hcauses]
    simp [firstCause, hkind, hen, hloose, hdrained]
  rw [Answers, exec_trapEntry, execTrapEntry, onTile_of_lt s t _ ht, hstays, htake, done]

end

/-- The TL page after steps 3 and 4 of trap entry (R192): what is saved of the index, the cause and the predicates, and HMODE. -/
def trapSaved (s : State) (t : Tile) (c : Cause) : State :=
  let p := tlPg t
  let x := wr (wr s p tl_TRAP_PC (trapPc s t c)) p tl_TRAP_AUX (trapAux c)
  let x := wr (wr (wr x p tl_CAUSE c.code) p tl_SRC c.src) p tl_MULTI (b2n (!((s.tile t).causes.erase c).isEmpty))
  let x := wr64 x p tl_TRAP_INFO_LO tl_TRAP_INFO_HI c.info.toNat
  wr (wr x p tl_PRED ((s.tile t).p.toNat / 2)) p tl_STATUS_HMODE 1

/-- The tile in its handler: it stands at TRAP_VEC, and of the causes those that are not precise stay pending (R189, R192). -/
def trapEntered (s : State) (t : Tile) (c : Cause) (ts : TileSt) : TileSt :=
  { ts.unheld with causes := ((s.tile t).causes.erase c).filter (fun d => d.kind != .precise),
                   pc := BitVec.ofNat 15 (rd (trapSaved s t c) (tlPg t) tl_TRAP_VEC) }

theorem enterTrap_eq (s : State) (t : Tile) (c : Cause) :
    enterTrap s t c = trapRequests ((trapSaved s t c).modTile t (trapEntered s t c)) t := rfl

theorem rd_enterTrap (s : State) (t : Tile) (c : Cause) (p : Nat) (f : Fld) : rd (enterTrap s t c) p f = rd (trapSaved s t c) p f := by
  obtain ⟨hregs, -⟩ := trapRequests_frame ((trapSaved s t c).modTile t (trapEntered s t c)) t
  rw [enterTrap_eq, rd_congr hregs, rd_modTile]

theorem enterTrap_tile (s : State) (t : Tile) (c : Cause) : (enterTrap s t c).tile t = trapEntered s t c (s.tile t) := by
  obtain ⟨-, htiles, -⟩ := trapRequests_frame ((trapSaved s t c).modTile t (trapEntered s t c)) t
  have hsaved : (trapSaved s t c).tile t = s.tile t := by simp only [trapSaved, wr64, tile_wr]
  rw [enterTrap_eq, tile_congr htiles, tile_modTile_same, hsaved]

theorem enterTrap_memory (s : State) (t : Tile) (c : Cause) :
    (enterTrap s t c).spool = s.spool ∧ (enterTrap s t c).lp = s.lp ∧ (enterTrap s t c).flash = s.flash := by
  obtain ⟨-, -, hmem⟩ := trapRequests_frame ((trapSaved s t c).modTile t (trapEntered s t c)) t
  rw [enterTrap_eq]
  simpa only [trapSaved, wr64, modTile_spool, modTile_lp, modTile_flash, wr_spool, wr_lp, wr_flash] using hmem

theorem enterTrap_hold (s : State) (t : Tile) (c : Cause) : (enterTrap s t c).netReq.contains (t, rowTrap) = true :=
  request_contains _ t rowTrap

section
variable (s : State) (t : Tile) (c : Cause)

/-- The registers of trap entry hold what they have room for. -/
theorem trapSaved_fields :
    rd (trapSaved s t c) (tlPg t) tl_TRAP_PC = trapPc s t c % 2 ^ 14 ∧ rd (trapSaved s t c) (tlPg t) tl_CAUSE = c.code % 2 ^ 8
      ∧ rd (trapSaved s t c) (tlPg t) tl_SRC = c.src % 2 ^ 4
      ∧ rd (trapSaved s t c) (tlPg t) tl_MULTI = b2n (!((s.tile t).causes.erase c).isEmpty) % 2
      ∧ rd (trapSaved s t c) (tlPg t) tl_TRAP_INFO_LO = c.info.toNat % 2 ^ 32
      ∧ rd (trapSaved s t c) (tlPg t) tl_TRAP_INFO_HI = c.info.toNat / 2 ^ 32 % 2 ^ 32
      ∧ rd (trapSaved s t c) (tlPg t) tl_PRED = (s.tile t).p.toNat / 2 % 2 ^ 7
      ∧ rd (trapSaved s t c) (tlPg t) tl_STATUS_HMODE = 1
      ∧ rd (trapSaved s t c) (tlPg t) tl_TRAP_VEC = rd s (tlPg t) tl_TRAP_VEC := by
  refine ⟨?_, ?_, ?_, ?_, ?_, ?_, ?_, ?_, ?vec⟩
  case vec => simp (disch := decide) only [trapSaved, wr64, rd_wr_apart]
  all_goals
    simp (disch := decide) only [trapSaved, wr64, rd_wr_apart, rd_wr_same]
    rfl

end

/-- Trap entry for one pending precise cause (R192). -/
theorem gives_trapEntry {s : State} {t : Tile} {c : Cause} {i : Instr} (h : Answers i s (enterTrap s t c))
    (hcauses : (s.tile t).causes = [c]) (hkind : c.kind = .precise) (hpc : c.pc < 0x4000) (hcode : c.code < 256) (hsrc : c.src < 16) :
    Gives i s fun s' =>
      rd s' (tlPg t) tl_TRAP_PC = c.pc ∧ rd s' (tlPg t) tl_CAUSE = c.code ∧ rd s' (tlPg t) tl_SRC = c.src
        ∧ rd s' (tlPg t) tl_MULTI = 0 ∧ rd64 s' (tlPg t) tl_TRAP_INFO_LO tl_TRAP_INFO_HI = c.info.toNat
        ∧ rd s' (tlPg t) tl_PRED = (s.tile t).p.toNat / 2 ∧ s'.hmode t = true
        ∧ (s'.tile t).pc.toNat = rd s (tlPg t) tl_TRAP_VEC ∧ (s'.tile t).causes = [] ∧ s'.netReq.contains (t, rowTrap) = true
        ∧ s'.spool = s.spool ∧ s'.lp = s.lp ∧ s'.flash = s.flash := by
  obtain ⟨fpc, fcode, fsrc, fmulti, flo, fhi, fpred, fhmode, fvec⟩ := trapSaved_fields s t c
  obtain ⟨hspool, hlp, hflash⟩ := enterTrap_memory s t c
  have hrest : (s.tile t).causes.erase c = [] := by simp [hcauses]
  have htrapPc : trapPc s t c = c.pc := by simp [trapPc, hkind, hpc]
  have hinfo := c.info.isLt
  have hpred := (s.tile t).p.isLt
  have hvec : rd s (tlPg t) tl_TRAP_VEC < 2 ^ 14 := rdi_lt s (tlPg t) tl_TRAP_VEC 0
  refine gives_of_answers h ⟨?_, ?_, ?_, ?_, ?_, ?_, ?_, ?_, ?_, ?_, ?_, ?_, ?_⟩
  · rw [rd_settle, rd_enterTrap, fpc, htrapPc]; omega
  · rw [rd_settle, rd_enterTrap, fcode]; omega
  · rw [rd_settle, rd_enterTrap, fsrc]; omega
  · rw [rd_settle, rd_enterTrap, fmulti, hrest]; rfl
  · rw [rd64, rd_settle, rd_settle, rd_enterTrap, rd_enterTrap, flo, fhi]; omega
  · rw [rd_settle, rd_enterTrap, fpred]; omega
  · rw [hmode_settle, State.hmode, rd_enterTrap, fhmode]; rfl
  · rw [tile_settle, enterTrap_tile, trapEntered, fvec, BitVec.toNat_ofNat, Nat.mod_eq_of_lt (by omega)]
  · rw [tile_settle, enterTrap_tile, trapEntered, hrest]; rfl
  · rw [settle_netReq, enterTrap_hold]
  · rw [settle_spool, hspool]
  · rw [settle_lp, hlp]
  · rw [settle_flash, hflash]

/-! ### Return (R195) -/

section
variable (s : State) (t : Tile)

theorem coreSrc_zero {c : Cause} (h : c.src = 0) : coreSrc c := ⟨by omega, by omega⟩

/-- What a precise cause of the core changes on its tile: its causes, while the tile has a program. -/
theorem precise_frame (code : Nat) (info : W64) :
    (∃ cs, (precise s t code info).tile t = { s.tile t with causes := cs }) ∧ (precise s t code info).hmode t = s.hmode t
      ∧ (precise s t code info).spool = s.spool ∧ (precise s t code info).lp = s.lp ∧ (precise s t code info).flash = s.flash := by
  let c : Cause := { code := code, src := 0, kind := .precise, pc := (s.tile t).pc.toNat, info := info, ord := (s.tile t).ord + 1,
                     inHandler := s.hmode t }
  have hsrc : coreSrc c := coreSrc_zero rfl
  obtain ⟨hspool, hlp, hflash⟩ := raiseCause_core_memory s t hsrc
  refine ⟨?_, ?_, hspool, hlp, hflash⟩
  · obtain ⟨_, _, _, _, heq⟩ := raiseCause_core s t hsrc
    cases hprog : s.hasProgram t with
    | true => exact ⟨_, tile_raiseCause_core s t hsrc hprog⟩
    | false =>
      refine ⟨(s.tile t).causes, tile_congr ?_ t⟩
      rw [precise, heq, hprog]; rfl
  · rw [State.hmode, precise, rd_raiseCause_core s t hsrc _ _ (by simp [tl_STATUS_HMODE, pg_FAULT])
      (by simp [tl_STATUS_HMODE, pg_FORCED])]
    rfl

/-- A fault bit leaves the tiles and the memories alone, and HMODE, which is no fault bit. -/
theorem raiseF_frame (page : Nat) (f : Fld) : (raiseF s page f).tiles = s.tiles ∧ (raiseF s page f).hmode t = s.hmode t
    ∧ (raiseF s page f).spool = s.spool ∧ (raiseF s page f).lp = s.lp ∧ (raiseF s page f).flash = s.flash := by
  have hmode : (raiseF s page f).hmode t = s.hmode t := by
    rw [State.hmode, rd_raiseF_ne _ _ _ _ _ (by simp only [tlPg, tl_STATUS_HMODE, pg_FAULT]; omega)
      (by simp only [tlPg, tl_STATUS_HMODE, pg_FORCED]; omega)]
    rfl
  obtain ⟨r, i, h, heq⟩ := raiseBit_eq s page f.lo
  refine ⟨?_, hmode, ?_, ?_, ?_⟩
  all_goals rw [raiseF, heq]

theorem tackCause_frame (k : Nat) : (∃ cs, (tackCause s t k).tile t = { s.tile t with causes := cs })
    ∧ (tackCause s t k).hmode t = s.hmode t ∧ (tackCause s t k).spool = s.spool ∧ (tackCause s t k).lp = s.lp
    ∧ (tackCause s t k).flash = s.flash := by
  obtain ⟨htiles, hmode, hspool, hlp, hflash⟩ := raiseF_frame s t (syPg t) sy_F_TACK
  obtain ⟨⟨cs, htile⟩, hmode', hspool', hlp', hflash'⟩ :=
    precise_frame (raiseF s (syPg t) sy_F_TACK) t cSync (BitVec.ofNat 64 (2 * 2 ^ 48 + k))
  rw [tile_congr htiles] at htile
  exact ⟨⟨cs, htile⟩, hmode'.trans hmode, hspool'.trans hspool, hlp'.trans hlp, hflash'.trans hflash⟩

@[simp] theorem tile_unrequest (row : Nat) (u : Tile) : (unrequest s t row).tile u = s.tile u := rfl

@[simp] theorem tile_unrequestAll (u : Tile) : (unrequestAll s t).tile u = s.tile u := rfl

/-- On return a tack wait whose line broke ends in a cause (R251); it changes nothing else of the tile. -/
theorem brokenTack_frame : (∃ a cs, (brokenTack s t).tile t = { s.tile t with tackWait := a, causes := cs })
    ∧ (brokenTack s t).hmode t = s.hmode t ∧ (brokenTack s t).spool = s.spool ∧ (brokenTack s t).lp = s.lp
    ∧ (brokenTack s t).flash = s.flash := by
  unfold brokenTack
  split
  case h_1 => exact ⟨⟨_, _, rfl⟩, rfl, rfl, rfl, rfl⟩
  case h_2 k _ =>
    split
    case isFalse => exact ⟨⟨_, _, rfl⟩, rfl, rfl, rfl, rfl⟩
    case isTrue =>
      obtain ⟨⟨cs, htile⟩, hframe⟩ :=
        tackCause_frame (unrequest (s.modTile t (fun ts => { ts with tackWait := none })) t rowSync) t k.1.toNat
      refine ⟨⟨none, cs, htile.trans ?_⟩, hframe⟩
      rw [tile_unrequest, tile_modTile_same]

end

/-- The tile after a return (R195): TRAP_PC, and p1 to p7 from TRAP_PRED. -/
def returned (s : State) (t : Tile) (ts : TileSt) : TileSt :=
  { ts with pc := BitVec.ofNat 15 (rd s (tlPg t) tl_TRAP_PC), p := BitVec.ofNat 8 (2 * rd s (tlPg t) tl_PRED + 1) }

theorem countIssue_handler {s : State} {t : Tile} (h : s.hmode t = true) :
    countIssue s t = (progress s).modTile t (issueStep true) := by rw [countIssue_eq, h, if_pos rfl]

/-- The state of a return before a broken tack line is looked for (R195, R251). -/
def leftHandler (s : State) (t : Tile) : State :=
  unrequest (wr ((countIssue s t).modTile t (returned (countIssue s t) t)) (tlPg t) tl_STATUS_HMODE 0) t rowTrap

theorem trapReturn_eq (s : State) (t : Tile) : trapReturn s t =
    if ((brokenTack (leftHandler s t) t).tile t).causes.isEmpty then brokenTack (leftHandler s t) t
    else request (brokenTack (leftHandler s t) t) t rowTrap := rfl

theorem leftHandler_frame {s : State} {t : Tile} (h : s.hmode t = true) :
    (leftHandler s t).tile t = returned s t (issueStep true (s.tile t)) ∧ (leftHandler s t).hmode t = false
      ∧ (leftHandler s t).spool = s.spool ∧ (leftHandler s t).lp = s.lp ∧ (leftHandler s t).flash = s.flash := by
  refine ⟨?_, ?_, ?_⟩
  · rw [leftHandler, tile_unrequest, tile_wr, tile_modTile_same, countIssue_handler h, tile_modTile_same]; rfl
  · have hclear : rd (wr ((countIssue s t).modTile t (returned (countIssue s t) t)) (tlPg t) tl_STATUS_HMODE 0) (tlPg t)
        tl_STATUS_HMODE = 0 := rd_wr_same _ _ _ _ (by decide)
    exact beq_eq_false_iff_ne.mpr (hclear.trans_ne Nat.zero_ne_one)
  · rw [leftHandler, countIssue_handler h]
    exact ⟨rfl, rfl, rfl⟩

/-- A return from the handler: its index, its predicates and HMODE (R195). -/
theorem trapReturn_frame {s : State} {t : Tile} (h : s.hmode t = true) :
    (∃ a cs, (trapReturn s t).tile t = { returned s t (issueStep true (s.tile t)) with tackWait := a, causes := cs })
      ∧ (trapReturn s t).hmode t = false ∧ (trapReturn s t).spool = s.spool ∧ (trapReturn s t).lp = s.lp
      ∧ (trapReturn s t).flash = s.flash := by
  obtain ⟨htile, hmode, hspool, hlp, hflash⟩ := leftHandler_frame h
  obtain ⟨⟨a, cs, htile'⟩, hmode', hspool', hlp', hflash'⟩ := brokenTack_frame (leftHandler s t) t
  rw [htile] at htile'
  rw [trapReturn_eq]
  split
  case isTrue => exact ⟨⟨a, cs, htile'⟩, hmode'.trans hmode, hspool'.trans hspool, hlp'.trans hlp, hflash'.trans hflash⟩
  case isFalse =>
    rw [tile_request, request_hmode, request_spool, request_lp, request_flash]
    exact ⟨⟨a, cs, htile'⟩, hmode'.trans hmode, hspool'.trans hspool, hlp'.trans hlp, hflash'.trans hflash⟩

/-- TRAP_PRED holds p1 to p7 (R192, R195). -/
theorem returned_readP (s : State) (t : Tile) (ts : TileSt) (i : BitVec 3) (h : i ≠ 0) :
    (returned s t ts).readP i = (rd s (tlPg t) tl_PRED).testBit (i.toNat - 1) := by
  have hi : i.toNat ≠ 0 := fun e => h (BitVec.eq_of_toNat_eq e)
  have hlt := i.isLt
  obtain ⟨n, hn⟩ : ∃ n, i.toNat = n + 1 := ⟨i.toNat - 1, by omega⟩
  have h0 : (i == 0) = false := beq_eq_false_iff_ne.mpr h
  rw [returned, TileSt.readP, h0, Bool.false_or, BitVec.getLsbD_ofNat, hn, Nat.testBit_succ,
    show (2 * rd s (tlPg t) tl_PRED + 1) / 2 = rd s (tlPg t) tl_PRED by omega]
  simp; omega

theorem returned_pc (s : State) (t : Tile) (ts : TileSt) : (returned s t ts).pc.toNat = rd s (tlPg t) tl_TRAP_PC := by
  have hpc : rd s (tlPg t) tl_TRAP_PC < 2 ^ 14 := rdi_lt s (tlPg t) tl_TRAP_PC 0
  rw [returned, BitVec.toNat_ofNat, Nat.mod_eq_of_lt (by omega)]

/-! ### c.halt and c.sleep (R166, R187) -/

section
variable (s : State) (t : Tile)

/-- What an issue cycle leaves alone, before the index moves (cf. `advance_frame`). -/
theorem countIssue_frame : (countIssue s t).spool = s.spool ∧ (countIssue s t).lp = s.lp ∧ (countIssue s t).flash = s.flash
    ∧ (countIssue s t).net = s.net := by
  obtain ⟨hspool, hlp, hflash, hnet, -⟩ := advance_frame s t
  exact ⟨hspool, hlp, hflash, hnet⟩

/-- No request of the tile is left. -/
theorem unrequestAll_not_mem : ∀ r ∈ (unrequestAll s t).netReq, r.1 ≠ t := by
  intro r hr
  simpa using (List.mem_filter.mp hr).2

theorem haltTile_status : rd (haltTile s t) (tlPg t) tl_STATUS_RUNNING = 0 ∧ rd (haltTile s t) (tlPg t) tl_STATUS_HALTED = 1
    ∧ (haltTile s t).hmode t = false := by
  have hread : ∀ f, rd (haltTile s t) (tlPg t) f
      = rd (wr (wr (wr s (tlPg t) tl_STATUS_RUNNING 0) (tlPg t) tl_STATUS_HALTED 1) (tlPg t) tl_STATUS_HMODE 0) (tlPg t) f :=
    fun _ => rfl
  refine ⟨?_, ?_, ?_⟩
  · rw [hread, rd_wr_apart _ _ _ _ _ (by decide), rd_wr_apart _ _ _ _ _ (by decide)]; exact rd_wr_same _ _ _ _ (by decide)
  · rw [hread, rd_wr_apart _ _ _ _ _ (by decide)]; exact rd_wr_same _ _ _ _ (by decide)
  · rw [State.hmode, hread, rd_wr_same _ _ _ _ (by decide)]; rfl

theorem haltTile_tile : (haltTile s t).tile t = { s.tile t with causes := [] } := by
  rw [haltTile, tile_unrequestAll, tile_modTile_same]; rfl

theorem haltTile_frame : (haltTile s t).spool = s.spool ∧ (haltTile s t).lp = s.lp ∧ (haltTile s t).net = s.net := ⟨rfl, rfl, rfl⟩

/-- A tile that has gone to sleep (R187, R194). -/
def asleep (s : State) (t : Tile) : State :=
  unrequestAll ((wr (wr s (tlPg t) tl_STATUS_RUNNING 0) (tlPg t) tl_STATUS_SLEEP 1).modTile t
    (fun ts => { ts with rung := false })) t

theorem asleep_status : rd (asleep s t) (tlPg t) tl_STATUS_RUNNING = 0 ∧ rd (asleep s t) (tlPg t) tl_STATUS_SLEEP = 1 := by
  have hread : ∀ f, rd (asleep s t) (tlPg t) f
      = rd (wr (wr s (tlPg t) tl_STATUS_RUNNING 0) (tlPg t) tl_STATUS_SLEEP 1) (tlPg t) f := fun _ => rfl
  refine ⟨?_, ?_⟩
  · rw [hread, rd_wr_apart _ _ _ _ _ (by decide)]; exact rd_wr_same _ _ _ _ (by decide)
  · rw [hread]; exact rd_wr_same _ _ _ _ (by decide)

theorem asleep_frame : (asleep s t).spool = s.spool ∧ (asleep s t).lp = s.lp := ⟨rfl, rfl⟩

theorem asleep_tile : (asleep s t).tile t = { s.tile t with rung := false } := by
  rw [asleep, tile_unrequestAll, tile_modTile_same, tile_wr, tile_wr]

end

section
variable {s : State} {t : Tile} {o : RfOp} (hready : Ready s t) (hg : s.p t o.pG = true) (hfn : o.fn = 0)
include hready hg hfn

theorem gives_cHalt : Gives (.cHalt t o) s fun s' => rd s' (tlPg t) tl_STATUS_RUNNING = 0 ∧ rd s' (tlPg t) tl_STATUS_HALTED = 1
    ∧ s'.hmode t = false ∧ s'.net = s.net ++ [.halted t] ∧ (∀ r ∈ s'.netReq, r.1 ≠ t)
    ∧ (s'.tile t).dstore = (s.tile t).dstore ∧ s'.spool = s.spool ∧ s'.lp = s.lp := by
  have hans : Answers (.cHalt t o) s (send (haltTile (countIssue s t) t) (.halted t)) :=
    answers_of_coreOp (exec_cHalt s t o) hready (here_nil s t) hg (by simp [hfn])
  obtain ⟨hrun, hhalted, hmode⟩ := haltTile_status (countIssue s t) t
  obtain ⟨hspool, hlp, -, hnet⟩ := countIssue_frame s t
  obtain ⟨hspool', hlp', hnet'⟩ := haltTile_frame (countIssue s t) t
  refine gives_of_answers hans ⟨?_, ?_, ?_, ?_, ?_, ?_, ?_, ?_⟩
  · rw [rd_settle, rd_send, hrun]
  · rw [rd_settle, rd_send, hhalted]
  · rw [hmode_settle, hmode_send, hmode]
  · rw [settle_net, send_net, hnet', hnet]
  · rw [settle_netReq, send_netReq]; exact unrequestAll_not_mem _ t
  · rw [tile_settle, tile_send, haltTile_tile, countIssue_tile]
  · rw [settle_spool, send_spool, hspool', hspool]
  · rw [settle_lp, send_lp, hlp', hlp]

theorem answers_cSleep : Answers (.cSleep t o) s
    (if s.hmode t then precise s t cPriv (iw (o.enc 0x26)) else asleep (advance s t) t) :=
  answers_of_coreOp (exec_cSleep s t o) hready (here_nil s t) hg (by simp [hfn])

theorem gives_cSleep (hm : s.hmode t = false) : Gives (.cSleep t o) s fun s' =>
    rd s' (tlPg t) tl_STATUS_RUNNING = 0 ∧ rd s' (tlPg t) tl_STATUS_SLEEP = 1
      ∧ (s'.tile t).pc = (s.tile t).pc + 1 ∧ (∀ r ∈ s'.netReq, r.1 ≠ t)
      ∧ (s'.tile t).dstore = (s.tile t).dstore ∧ s'.spool = s.spool ∧ s'.lp = s.lp := by
  have hans := answers_cSleep hready hg hfn
  rw [hm, if_neg Bool.false_ne_true] at hans
  obtain ⟨hrun, hsleep⟩ := asleep_status (advance s t) t
  obtain ⟨hspool, hlp, -⟩ := advance_frame s t
  obtain ⟨hspool', hlp'⟩ := asleep_frame (advance s t) t
  refine gives_of_answers hans ⟨?_, ?_, ?_, ?_, ?_, ?_, ?_⟩
  · rw [rd_settle, hrun]
  · rw [rd_settle, hsleep]
  · rw [tile_settle, asleep_tile]; exact advance_pc s t
  · rw [settle_netReq]; exact unrequestAll_not_mem _ t
  · rw [tile_settle, asleep_tile]; exact advance_dstore s t
  · rw [settle_spool, hspool', hspool]
  · rw [settle_lp, hlp', hlp]

theorem answers_cTret : Answers (.cTret t o) s (if s.hmode t then trapReturn s t else precise s t cPriv (iw (o.enc 0x23))) :=
  answers_of_coreOp (exec_cTret s t o) hready (here_nil s t) hg (by simp [hfn])

end

/-- Settles O13: entry saves and enters, return restores, and c.trap, c.halt and c.sleep end the flow of a program. -/
theorem trapsAndReturns : Obligations.TrapsAndReturns := by
  unfold Obligations.TrapsAndReturns
  refine ⟨fun s t c ht hrun hm hen hcauses hkind hloose hdrained hpc hcode hsrc e => ?_, fun s t o hruns hfn => ?_,
    fun s t hr => ⟨fun o hg hrsv => ?_, fun o hg hfn => ⟨gives_cHalt hr hg hfn, gives_cSleep hr hg hfn, fun hm => ?_⟩⟩⟩
  · exact gives_trapEntry (answers_trapEntry ht hrun hm hen hcauses hkind hloose hdrained e) hcauses hkind hpc hcode hsrc
  · obtain ⟨hr, -, hg⟩ := hruns
    have hans := answers_cTret hr hg hfn
    refine ⟨fun hm => ?_, fun hm => ?_⟩
    · rw [hm, if_pos rfl] at hans
      obtain ⟨⟨a, cs, htile⟩, hmode, hspool, hlp, hflash⟩ := trapReturn_frame hm
      refine gives_of_answers hans ⟨?_, fun i hi => ?_, ?_, ?_, ?_, ?_, ?_, ?_⟩
      · rw [tile_settle, htile]; exact returned_pc s t (issueStep true (s.tile t))
      · rw [State.p, tile_settle, htile]; exact returned_readP s t (issueStep true (s.tile t)) i hi
      · rw [hmode_settle, hmode]
      · rw [tile_settle, htile]; rfl
      · rw [tile_settle, htile]; rfl
      · rw [settle_spool, hspool]
      · rw [settle_lp, hlp]
      · rw [settle_flash, hflash]
    · rwa [hm, if_neg Bool.false_ne_true] at hans
  · exact answers_of_coreOp (exec_cTrap s t o) hr (here_nil s t) hg (by simp [hrsv])
  · have hans := answers_cSleep hr hg hfn
    rwa [hm, if_pos rfl] at hans

end Sys2Proof.Machine
end

section
/-! PROOFS. The pages of a tile (R178, R179) and the variant sources of c.rdv (R180). -/

namespace Sys2Proof.Machine

open Sys2Proof.Claims

/-! ### pg.rd and pg.wr -/

section
variable {s : State} {t : Tile} {o : POp} (hruns : Runs s t [o.gD, o.gA] o.pG) (hrsv : o.rsv = 0)
  (hdrained : enginesDrained (s.tile t) = true)
include hruns hrsv hdrained

theorem answers_pgRd : Answers (.pgRd t o) s
    (let r := if pgOff s t o % 4 = 0 then pageRead s (selPg t o.sel) (pgOff s t o) else (0, s)
     (advance r.2 t).setG t o.gD (BitVec.ofNat 64 r.1)) := by
  obtain ⟨hready, hhere, hg⟩ := hruns
  have hans := answers_of_coreOp (exec_pgRd s t o) hready hhere hg (by simp [hrsv])
  rwa [afterEngines, if_pos hdrained] at hans

theorem answers_pgWr : Answers (.pgWr t o) s
    (if pgWrOk (s.hmode t) o.sel (pgOff s t o) then
      advance (pageStore .tile s (selPg t o.sel) (pgOff s t o) ((s.g t o.gD).toNat % 2 ^ 32)).2 t
     else precise s t cPriv (iw (o.enc 0x29))) := by
  obtain ⟨hready, hhere, hg⟩ := hruns
  have hans := answers_of_coreOp (exec_pgWr s t o) hready hhere hg (by simp [hrsv])
  rwa [afterEngines, if_pos hdrained] at hans

end

/-! ### c.rdv -/

/-- The register that c.rdv writes, whatever else the source changes before the issue cycle. -/
theorem g_setG_advance (x : State) (t : Tile) (d : BitVec 5) (v : W64) :
    ((advance x t).setG t d v).g t d = if d = 0 then 0 else v := by rw [g_setG, if_pos rfl]

/-- An issue cycle and a scalar write leave the sampled fraction alone. -/
theorem rdv_setG_advance (x : State) (t : Tile) (d : BitVec 5) (v : W64) :
    (((advance x t).setG t d v).tile t).rdv = (x.tile t).rdv := by
  obtain ⟨g, gh, h⟩ := setG_tile_eq (advance x t) t d v
  rw [h, advance_tile]

theorem drawEntropy_word (s : State) : (drawEntropy s).1 = if rd s scPg sc_ENT_FAILED = 1 then 0 else Config.entropy s.entIdx := by
  rw [drawEntropy]
  split
  · rfl
  · rfl

theorem ofNat_hallNs (s : State) : BitVec.ofNat 64 (hallNs s) = BitVec.ofNat 64 (s.hallTime / 2 ^ 48) := by
  apply BitVec.eq_of_toNat_eq
  rw [BitVec.toNat_ofNat, BitVec.toNat_ofNat, hallNs, Nat.mod_mod]

/-- Settles O14: a page access goes by `pageRead` and `pageStore` where it is a register's and the table of R179 allows it, and
each SEL of c.rdv puts its source. -/
theorem pageAndVariantAccess : Obligations.PageAndVariantAccess := by
  unfold Obligations.PageAndVariantAccess
  refine fun s t => ⟨fun o hruns hrsv hdrained => ?_, fun o ⟨hready, hhere, hg⟩ => ?_⟩
  · have hread := answers_pgRd hruns hrsv hdrained
    have hwrite := answers_pgWr hruns hrsv hdrained
    refine ⟨fun h => ?_, fun h => ?_, fun h => ?_, fun h => ?_⟩
    · rwa [if_pos (by exact h)] at hread
    · rwa [if_neg (by exact h)] at hread
    · rwa [if_pos (by exact h)] at hwrite
    · rwa [if_neg (by rw [pgOff, h]; exact Bool.false_ne_true)] at hwrite
  · have hexec := exec_cRdv s t o
    rw [execCRdv] at hexec
    have run := answers_of_coreOp hexec hready hhere hg
    refine ⟨fun himm => ?_, fun himm => ?_, fun himm => ?_, fun himm => ?_, fun himm => ?_, fun himm v hv => ?_, fun himm => ?_⟩
    all_goals
      rw [himm] at run
      have hans := run rfl
    · exact puts_of_answers hans
    · exact puts_of_answers hans
    · exact puts_of_answers hans
    · exact puts_of_answers hans
    · refine gives_of_answers hans ⟨?_, ?_⟩
      · exact (g_setG_advance _ t o.gD _).trans (by rw [ofNat_hallNs])
      · exact (rdv_setG_advance _ t o.gD _).trans (congrArg TileSt.rdv (tile_modTile_same s t _))
    · simp only [hv] at hans
      refine gives_of_answers hans ⟨?_, ?_⟩
      · exact g_setG_advance _ t o.gD _
      · exact (rdv_setG_advance _ t o.gD _).trans (congrArg TileSt.rdv (tile_modTile_same s t _))
    · refine gives_of_answers hans ((g_setG_advance _ t o.gD _).trans ?_)
      rw [drawEntropy_word, ite_or]

end Sys2Proof.Machine
end

section
/-! PROOFS. Guards, reserved fields and bad formats (R165, R168, R170, R581): the core skips or traps, and an engine
instruction with an illegal field, a format that it does not take or a bad address traps on the state after issue. -/

namespace Sys2Proof.Machine

open Sys2Proof.Claims

/-! ### The control core -/

/-- The comparisons that R172 does not name have no condition. -/
theorem cmpCond_undefined {fn : BitVec 8} (h : fn.toNat = 7 ∨ 24 ≤ fn.toNat ∨ (8 ≤ fn.toNat ∧ 4 ≤ fn.toNat % 8)) (a b : W64) :
    cmpCond fn a b = none := by
  have hint : intCond 7 a b = none := rfl
  have hfloat : ∀ cc f, 4 ≤ cc → floatCond cc f a b = none := fun cc f hcc => by
    obtain ⟨n, rfl⟩ := Nat.exists_eq_add_of_le' hcc
    rfl
  obtain ⟨hcc, hkind, hzero⟩ := cmpFn_fields fn
  rw [cmpCond, hcc, hkind, hzero]
  rcases h with h | h | ⟨h, hc⟩
  · rw [h]; exact hint
  · by_cases hhigh : fn.toNat / 32 = 0
    · rw [if_neg (by omega), show fn.toNat / 8 % 4 = 3 by omega]; rfl
    · rw [if_pos (by omega)]
  · split
    · rfl
    · split
      · omega
      · exact hfloat _ _ hc
      · exact hfloat _ _ hc
      · rfl

/-- The commands of R171, R175 and R176 leave their issue cycle alone under a guard of 0. -/
theorem registerCommands_skip {s : State} {t : Tile} (h : Ready s t) {o : ROp} {i : IOp} (e : Ecc) (ho : s.p t o.pG = false)
    (hi : s.p t i.pG = false) {c : Instr} (hc : c ∈ [Instr.cAdd t o, .cSub t o, .cMul t o, .cDivu t o, .cAddi t i, .cShi t i,
      .cLdd t i e, .cStd t i e, .cLld t i, .cLst t i]) : Answers c s (advance s t) := by
  simp only [List.mem_cons, List.not_mem_nil, or_false] at hc
  rcases hc with rfl | rfl | rfl | rfl | rfl | rfl | rfl | rfl | rfl | rfl
  · exact answers_of_coreOp_skipped (by rw [exec_cAdd, execCAdd, rOp]) h ho
  · exact answers_of_coreOp_skipped (by rw [exec_cSub, execCSub, rOp]) h ho
  · exact answers_of_coreOp_skipped (by rw [exec_cMul, execCMul, rOp]) h ho
  · exact answers_of_coreOp_skipped (by rw [exec_cDivu, execCDivu, rOp]) h ho
  · exact answers_of_coreOp_skipped (by rw [exec_cAddi, execCAddi, iOp]) h hi
  · exact answers_of_coreOp_skipped (by rw [exec_cShi, execCShi]) h hi
  · exact answers_of_coreOp_skipped (by rw [exec_cLdd, execCLdd, dsLoad, dsOp]) h hi
  · exact answers_of_coreOp_skipped (by rw [exec_cStd, execCStd, dsStore, dsOp]) h hi
  · exact answers_of_coreOp_skipped (by rw [exec_cLld, execCLld, looseLoad, looseOp]) h hi
  · exact answers_of_coreOp_skipped (by rw [exec_cLst, execCLst, looseStore, looseOp]) h hi

/-- So do the commands with three registers and a function field. -/
theorem functionCommands_skip {s : State} {t : Tile} (h : Ready s t) {f : RfOp} (e : Ecc) (hf : s.p t f.pG = false) {c : Instr}
    (hc : c ∈ [Instr.cLfence t f, .cJr t f, .cTret t f, .cHalt t f, .cSleep t f, .dmGo t f e, .dmFence t f, .sySig t f,
      .syWait t f, .syRealign t f e, .mbSend t f e, .mbRecv t f]) : Answers c s (advance s t) := by
  simp only [List.mem_cons, List.not_mem_nil, or_false] at hc
  rcases hc with rfl | rfl | rfl | rfl | rfl | rfl | rfl | rfl | rfl | rfl | rfl | rfl
  · exact answers_of_coreOp_skipped (by rw [exec_cLfence, execCLfence]) h hf
  · exact answers_of_coreOp_skipped (by rw [exec_cJr, execCJr]) h hf
  · exact answers_of_coreOp_skipped (by rw [exec_cTret, execCTret]) h hf
  · exact answers_of_coreOp_skipped (by rw [exec_cHalt, execCHalt]) h hf
  · exact answers_of_coreOp_skipped (by rw [exec_cSleep, execCSleep]) h hf
  · exact answers_of_coreOp_skipped (by rw [exec_dmGo, execDmGo]) h hf
  · exact answers_of_coreOp_skipped (by rw [exec_dmFence, execDmFence]) h hf
  · exact answers_of_coreOp_skipped (by rw [exec_sySig, execSySig]) h hf
  · exact answers_of_coreOp_skipped (by rw [exec_syWait, execSyWait]) h hf
  · exact answers_of_coreOp_skipped (by rw [exec_syRealign, execSyRealign]) h hf
  · exact answers_of_coreOp_skipped (by rw [exec_mbSend, execMbSend]) h hf
  · exact answers_of_coreOp_skipped (by rw [exec_mbRecv, execMbRecv]) h hf

/-! ### The matrix engine -/

section
variable {s : State} {t : Tile} {us : List (Nat × Bool)} {rs : List (BitVec 5)}

/-- A matrix instruction whose effect on the state after issue is a trap. -/
theorem answers_mxTrap {i : Instr} {body : State → Nat → State} {code word : Nat}
    (hexec : exec i s = engineOp s t .mx i rs body) (h : Executes s t .mx (tregUses i) rs)
    (htrap : ∀ pc, body (issuedTo s t .mx) pc = mxTrap (issuedTo s t .mx) t code pc word) :
    Answers i s (mxTrap (issuedTo s t .mx) t code (s.tile t).pc.toNat word) := by
  rw [Answers, hexec, engineOp_runs s t .mx i rs body h, htrap]

theorem traps_mxOpen {o : OpenOp} (h : Executes s t .mx [] [o.gS, o.gT]) (hbad : o.rsv ≠ 0 ∨ o.hsrc = 3) :
    Answers (.mxOpen t o) s (mxTrap (issuedTo s t .mx) t cIllegal (s.tile t).pc.toNat o.enc) :=
  answers_mxTrap (exec_mxOpen s t o) h fun _ => if_pos hbad

theorem traps_mxMma {o : MmaOp} {u : Option Upset} (h : Executes s t .mx [(o.tA.toNat, false), (o.tB.toNat, false)] [])
    (hbad : o.rsv ≠ 0) : Answers (.mxMma t o u) s (mxTrap (issuedTo s t .mx) t cIllegal (s.tile t).pc.toNat o.enc) :=
  answers_mxTrap (exec_mxMma s t o u) h fun _ => if_pos hbad

theorem traps_mxClose {o : CloseOp} {u : Option Upset} (h : Executes s t .mx [] [o.gD]) (hbad : o.rsv ≠ 0) :
    Answers (.mxClose t o u) s (mxTrap (issuedTo s t .mx) t cIllegal (s.tile t).pc.toNat o.enc) :=
  answers_mxTrap (exec_mxClose s t o u) h fun _ => if_pos hbad

theorem traps_mxDrop {o : DropOp} (h : Executes s t .mx [] []) (hbad : o.rsv ≠ 0) :
    Answers (.mxDrop t o) s (mxTrap (issuedTo s t .mx) t cIllegal (s.tile t).pc.toNat o.enc) :=
  answers_mxTrap (exec_mxDrop s t o) h fun _ => if_pos hbad

/-- mx.st: a reserved bit or illegal rows first, then the address (R103, R110). -/
theorem traps_mxSt {o : MxStOp} (u : Option Upset) (h : Executes s t .mx [] [o.gA, o.gC, o.gD]) :
    (o.rsv ≠ 0 ∨ accRows (s.g t o.gC) = none →
        Answers (.mxSt t o u) s (mxTrap (issuedTo s t .mx) t cIllegal (s.tile t).pc.toNat o.enc))
      ∧ ∀ r, o.rsv = 0 → accRows (s.g t o.gC) = some r → rawOk (s.g t o.gA).toNat r.2 (accLay s t o.aD.toNat) = false →
          Answers (.mxSt t o u) s (mxTrap (issuedTo s t .mx) t cAddr (s.tile t).pc.toNat o.enc) := by
  refine ⟨fun hbad => answers_mxTrap (exec_mxSt s t o u) h fun pc => ?_,
    fun r hrsv hrows hraw => answers_mxTrap (exec_mxSt s t o u) h fun pc => ?_⟩
  · by_cases hrsv : o.rsv = 0
    · simp [runMxSt, hrsv, hbad.resolve_left (not_not_intro hrsv)]
    · exact if_pos hrsv
  · simp [runMxSt, hrsv, hrows, hraw]

/-- mx.la: a reserved bit, user mode or illegal rows first, then the address (R112). -/
theorem traps_mxLa {o : MxLaOp} (e : Ecc) (h : Executes s t .mx [] [o.gA, o.gC]) :
    (o.rsv ≠ 0 ∨ s.hmode t = false ∨ accRows (s.g t o.gC) = none →
        Answers (.mxLa t o e) s (mxTrap (issuedTo s t .mx) t cIllegal (s.tile t).pc.toNat o.enc))
      ∧ ∀ r, o.rsv = 0 → s.hmode t = true → accRows (s.g t o.gC) = some r →
          rawOk (s.g t o.gA).toNat r.2 (accLay s t o.aD.toNat) = false →
          Answers (.mxLa t o e) s (mxTrap (issuedTo s t .mx) t cAddr (s.tile t).pc.toNat o.enc) := by
  refine ⟨fun hbad => answers_mxTrap (exec_mxLa s t o e) h fun pc => ?_,
    fun r hrsv hmode hrows hraw => answers_mxTrap (exec_mxLa s t o e) h fun pc => ?_⟩
  · rcases hbad with hrsv | hmode | hrows
    · exact if_pos (Or.inl hrsv)
    · simp [runMxLa, hmode]
    · simp [runMxLa, hrows]
  · simp [runMxLa, hrsv, hmode, hrows, hraw]

/-- mx.lt by rows: the direction, then the addresses (R92, R101, R103); T = 1 is legal by rows with narrow plain formats. -/
theorem traps_mxLt {o : LtOp} (e : Ecc) (h : Executes s t .mx [(o.tD.toNat, true)] [o.gA, o.gP]) :
    let f := o.fmt.toNat
    let x := ltAddr (s.g t o.gA) (s.g t o.gP)
    let traps := fun code => Answers (.mxLt t o e) s (mxTrap (issuedTo s t .mx) t code (s.tile t).pc.toNat o.enc)
    (o.rsv ≠ 0 ∨ (o.t = 1 ∧ (32 < fmtW f ∨ isJ f = true ∨ o.bdir = 1)) → traps cIllegal)
      ∧ (o.rsv = 0 → o.t = 0 → badDir f o.bdir.toNat = true → traps cFmt)
      ∧ (o.rsv = 0 → o.t = 0 → badDir f o.bdir.toNat = false →
          ltAddrOk x 64 (kLen f * fmtW f / 8) (sclBlocks f) = false → traps cAddr)
      ∧ (o.rsv = 0 → o.t = 1 → fmtW f ≤ 32 → isJ f = false → o.bdir = 0 →
          ltAddrOk x (kLen f) (8 * fmtW f) (sclBlocks f) = false → traps cAddr) := by
  refine ⟨fun hbad => ?_, fun hrsv ht hdir => ?_, fun hrsv ht hdir haddr => ?_, fun hrsv ht hw hj hb haddr => ?_⟩
  all_goals refine answers_mxTrap (exec_mxLt s t o e) h fun pc => ?_
  · exact if_pos hbad
  · simp [runMxLt, hrsv, ht, hdir]
  · simp [runMxLt, hrsv, ht, hdir, haddr]
  · have hlen : 64 * fmtW o.fmt.toNat / 8 = 8 * fmtW o.fmt.toNat := by omega
    have hdir : badDir o.fmt.toNat o.bdir.toNat = false := by rw [hb]; exact Bool.and_false _
    have hrow : o.bdir ≠ 1#1 := by rw [hb]; decide
    simp [runMxLt, hrsv, ht, hdir, hj, hrow, hlen, haddr, Nat.not_lt.mpr hw]

/-- mx.stt: reserved bits, then the formats against the tag, then the addresses (R92, R102, R103). -/
theorem traps_mxStt {o : SttOp} (e : Ecc) (h : Executes s t .mx [(o.tS.toNat, false)] [o.gA, o.gP]) :
    let f := o.fmt.toNat
    let bad := badDir f o.bdir.toNat || tagFmt s t o.tS.toNat != f || tagBdir s t o.tS.toNat != o.bdir.toNat
    let traps := fun code => Answers (.mxStt t o e) s (mxTrap (issuedTo s t .mx) t code (s.tile t).pc.toNat o.enc)
    (o.rsv1 ≠ 0 ∨ o.rsv2 ≠ 0 → traps cIllegal)
      ∧ (o.rsv1 = 0 → o.rsv2 = 0 → bad = true → traps cFmt)
      ∧ (o.rsv1 = 0 → o.rsv2 = 0 → bad = false →
          ltAddrOk (ltAddr (s.g t o.gA) (s.g t o.gP)) 64 (kLen f * fmtW f / 8) (sclBlocks f) = false → traps cAddr) := by
  refine ⟨fun hbad => ?_, fun h1 h2 hbad => ?_, fun h1 h2 hok haddr => ?_⟩
  all_goals refine answers_mxTrap (exec_mxStt s t o e) h fun pc => ?_
  · exact if_pos hbad
  · simp only [Bool.or_eq_true, bne_iff_ne, or_assoc] at hbad
    rw [runMxStt, if_neg (by simp [h1, h2]), issuedTo_tagFmt, issuedTo_tagBdir, if_pos hbad]
  · simp only [Bool.or_eq_false_iff, bne_eq_false_iff_eq, and_assoc] at hok
    obtain ⟨hdir, hfmt, hbdir⟩ := hok
    simp [runMxStt, h1, h2, hdir, hfmt, hbdir, haddr]

theorem traps_mxTag {o : TagOp} (h : Executes s t .mx [(o.tD.toNat, true)] []) :
    (o.rsv ≠ 0 → Answers (.mxTag t o) s (mxTrap (issuedTo s t .mx) t cIllegal (s.tile t).pc.toNat o.enc))
      ∧ (o.rsv = 0 → badDir o.fmt.toNat o.bdir.toNat = true →
          Answers (.mxTag t o) s (mxTrap (issuedTo s t .mx) t cFmt (s.tile t).pc.toNat o.enc)) := by
  refine ⟨fun hrsv => answers_mxTrap (exec_mxTag s t o) h fun _ => if_pos hrsv,
    fun hrsv hdir => answers_mxTrap (exec_mxTag s t o) h fun pc => ?_⟩
  simp [runMxTag, hrsv, hdir]

end

/-! ### The vector engine -/

section
variable (s : State) (t : Tile) (rs : List (BitVec 5)) (word pc : Nat) (badFmt : Bool) (body : State → Nat → State)

theorem vxOp_run_illegal : (vxOp t rs word true badFmt body).run s pc = vxTrap s t cIllegal pc word := by
  simp only [vxOp, if_true]

theorem vxOp_run_badFmt : (vxOp t rs word false true body).run s pc = vxTrap s t cFmt pc word := by
  simp only [vxOp, if_true, Bool.false_eq_true, if_false]

end

section
variable {s : State} {t : Tile} {i : Instr} {rs : List (BitVec 5)} {word : Nat} {illegal badFmt : Bool}
  {body : State → Nat → State}
  (hexec : exec i s = issueVx s t i (vxOp t rs word illegal badFmt body)) (h : Executes s t .vx (tregUses i) rs)
include hexec h

/-- A reserved bit or an illegal field raises ILLEGAL (R157, R581). -/
theorem vxOp_illegal (hbad : illegal = true) :
    Answers i s (vxTrap (issuedTo s t .vx) t cIllegal (s.tile t).pc.toNat word) := by
  subst hbad
  have hrun := engineOp_runs s t .vx i rs (vxOp t rs word true badFmt body).run h
  rw [Answers, hexec, issueVx]
  refine hrun.trans ?_
  rw [vxOp_run_illegal]

/-- After that a format that the instruction does not take raises FMT (R128, R581). -/
theorem vxOp_format (hword : illegal = false) (hbad : badFmt = true) :
    Answers i s (vxTrap (issuedTo s t .vx) t cFmt (s.tile t).pc.toNat word) := by
  subst hword hbad
  have hrun := engineOp_runs s t .vx i rs (vxOp t rs word false true body).run h
  rw [Answers, hexec, issueVx]
  refine hrun.trans ?_
  rw [vxOp_run_badFmt]

/-- A check of the instruction's own that fails after both. -/
theorem vxOp_body {code : Nat} (hword : illegal = false) (hfmt : badFmt = false)
    (htrap : ∀ pc, body (issuedTo s t .vx) pc = vxTrap (issuedTo s t .vx) t code pc word) :
    Answers i s (vxTrap (issuedTo s t .vx) t code (s.tile t).pc.toNat word) :=
  htrap _ ▸ answers_of_vxOp hexec h hword hfmt

end

theorem badRm_eq {rm : BitVec 3} : (badRm rm = true ↔ 3 < rm.toNat) ∧ (badRm rm = false ↔ rm.toNat ≤ 3) := by simp [badRm]

theorem badF_of_ne {f : BitVec 4} (h6 : f ≠ 6) (h7 : f ≠ 7) : badF f = true := by
  rw [badF, bne_iff_ne.2 h6, bne_iff_ne.2 h7]; rfl

theorem badI_of_ne {f : BitVec 4} (h10 : f ≠ 10) (h11 : f ≠ 11) (h14 : f ≠ 14) (h15 : f ≠ 15) : badI f = true := by
  rw [badI, bne_iff_ne.2 h10, bne_iff_ne.2 h11, bne_iff_ne.2 h14, bne_iff_ne.2 h15]; rfl

section
variable {s : State} {t : Tile} {i : Instr} {m : Nat} {u : Option Upset} (h : Executes s t .vx (tregUses i) [])
include h

theorem traps_vfOp {o : VfOp} {op : Val → Val → Val → Res} (hexec : exec i s = issueVx s t i (vfOp t o m u op)) :
    (3 < o.rm.toNat → Answers i s (vxTrap (issuedTo s t .vx) t cIllegal (s.tile t).pc.toNat (o.enc m)))
      ∧ (o.rm.toNat ≤ 3 → o.f ≠ 6 → o.f ≠ 7 →
          Answers i s (vxTrap (issuedTo s t .vx) t cFmt (s.tile t).pc.toNat (o.enc m))) :=
  ⟨fun hrm => vxOp_illegal hexec h (badRm_eq.1.2 hrm),
    fun hrm h6 h7 => vxOp_format hexec h (badRm_eq.2.2 hrm) (badF_of_ne h6 h7)⟩

theorem traps_vuOp {o : VuOp} {op : Nat → Nat → Nat → Bool → Cv} (hexec : exec i s = issueVx s t i (vuOp t o m u op)) :
    (3 < o.rm.toNat ∨ o.rsv ≠ 0 → Answers i s (vxTrap (issuedTo s t .vx) t cIllegal (s.tile t).pc.toNat (o.enc m)))
      ∧ (o.rm.toNat ≤ 3 → o.rsv = 0 → o.f ≠ 6 → o.f ≠ 7 →
          Answers i s (vxTrap (issuedTo s t .vx) t cFmt (s.tile t).pc.toNat (o.enc m))) :=
  ⟨fun hbad => vxOp_illegal hexec h (by simpa [badRm] using hbad),
    fun hrm hrsv h6 h7 => vxOp_format hexec h (by simp [badRm, hrm, hrsv]) (badF_of_ne h6 h7)⟩

theorem traps_viOp {o : ViOp} {op : Nat → Nat → Nat → Nat} (hexec : exec i s = issueVx s t i (viOp t o m u op)) :
    (o.rsv ≠ 0 → Answers i s (vxTrap (issuedTo s t .vx) t cIllegal (s.tile t).pc.toNat (o.enc m)))
      ∧ (o.rsv = 0 → o.f ≠ 10 → o.f ≠ 11 → o.f ≠ 14 → o.f ≠ 15 →
          Answers i s (vxTrap (issuedTo s t .vx) t cFmt (s.tile t).pc.toNat (o.enc m))) :=
  ⟨fun hbad => vxOp_illegal hexec h (bne_iff_ne.2 hbad),
    fun hrsv h10 h11 h14 h15 => vxOp_format hexec h (bne_eq_false_iff_eq.2 hrsv) (badI_of_ne h10 h11 h14 h15)⟩

end

/-- vx.cvt: a rounding mode or a part that does not exist first, then a J-format on either side (R137, R157). -/
theorem traps_vxCvt {s : State} {t : Tile} (o : VcvtOp) (h : Executes s t .vx [] []) :
    let part := o.p.toNat * min (fmtW o.fs.toNat) (fmtW o.fd.toNat)
    let w := max (fmtW o.fs.toNat) (fmtW o.fd.toNat)
    let traps := fun code => Answers (.vxCvt t o) s (vxTrap (issuedTo s t .vx) t code (s.tile t).pc.toNat o.enc)
    (badRmCvt o.rm = true ∨ w ≤ part → traps cIllegal)
      ∧ (badRmCvt o.rm = false → part < w → isJ o.fs.toNat = true ∨ isJ o.fd.toNat = true → traps cFmt) := by
  intro part w traps
  refine ⟨fun hbad => vxOp_illegal (exec_vxCvt s t o) h ?_, fun hrm hpart hj => vxOp_format (exec_vxCvt s t o) h ?_ ?_⟩
  · rw [Bool.or_eq_true, decide_eq_true_iff]; exact hbad
  · rw [Bool.or_eq_false_iff, decide_eq_false_iff_not, Nat.not_le]; exact ⟨hrm, hpart⟩
  · rw [Bool.or_eq_true]; exact hj

/-- An access of 512 bytes of the spool outside it or at no multiple of 64 (R134). -/
theorem spoolOk64_false {a : Nat} (h : a % 64 ≠ 0 ∨ 0x500000 < a + 512) : spoolOk64 a 512 = false := by
  rw [spoolOk64, Bool.and_eq_false_iff, decide_eq_false_iff_not, decide_eq_false_iff_not]
  omega

theorem traps_vxLd {s : State} {t : Tile} {o : VldOp} (e : Ecc) (h : Executes s t .vx [] [o.gA]) :
    (o.rsv ≠ 0 → Answers (.vxLd t o e) s (vxTrap (issuedTo s t .vx) t cIllegal (s.tile t).pc.toNat (o.enc 0x20)))
      ∧ (o.rsv = 0 → (s.g t o.gA).toNat % 64 ≠ 0 ∨ 0x500000 < (s.g t o.gA).toNat + 512 →
          Answers (.vxLd t o e) s (vxTrap (issuedTo s t .vx) t cAddr (s.tile t).pc.toNat (o.enc 0x20))) := by
  refine ⟨fun hrsv => vxOp_illegal (exec_vxLd s t o e) h (bne_iff_ne.2 hrsv),
    fun hrsv haddr => vxOp_body (exec_vxLd s t o e) h (bne_eq_false_iff_eq.2 hrsv) rfl fun pc => ?_⟩
  simp [spoolOk64_false haddr]

theorem traps_vxSt {s : State} {t : Tile} {o : VldOp} (h : Executes s t .vx [] [o.gA]) :
    (o.rsv ≠ 0 → Answers (.vxSt t o) s (vxTrap (issuedTo s t .vx) t cIllegal (s.tile t).pc.toNat (o.enc 0x21)))
      ∧ (o.rsv = 0 → (s.g t o.gA).toNat % 64 ≠ 0 ∨ 0x500000 < (s.g t o.gA).toNat + 512 →
          Answers (.vxSt t o) s (vxTrap (issuedTo s t .vx) t cAddr (s.tile t).pc.toNat (o.enc 0x21))) := by
  refine ⟨fun hrsv => vxOp_illegal (exec_vxSt s t o) h (bne_iff_ne.2 hrsv),
    fun hrsv haddr => vxOp_body (exec_vxSt s t o) h (bne_eq_false_iff_eq.2 hrsv) rfl fun pc => ?_⟩
  simp [spoolOk64_false haddr]

/-- vx.uncut of a register without a J-format raises FMT (R141). -/
theorem traps_vxUncut {s : State} {t : Tile} {o : VuncutOp} (e : Ecc) (h : Executes s t .vx [(o.tS.toNat, false)] [o.gC]) :
    (badRmCvt o.rm = true ∨ o.rsv ≠ 0 →
        Answers (.vxUncut t o e) s (vxTrap (issuedTo s t .vx) t cIllegal (s.tile t).pc.toNat o.enc))
      ∧ (badRmCvt o.rm = false → o.rsv = 0 → isJ (tagFmt s t o.tS.toNat) = false →
          Answers (.vxUncut t o e) s (vxTrap (issuedTo s t .vx) t cFmt (s.tile t).pc.toNat o.enc)) := by
  refine ⟨fun hbad => vxOp_illegal (exec_vxUncut s t o e) h (by simpa using hbad),
    fun hrm hrsv hj => vxOp_body (exec_vxUncut s t o e) h (by simp [hrm, hrsv]) rfl fun pc => ?_⟩
  have hfmt : (tileReg (issuedTo s t .vx) t o.tS.toNat).fmt = tagFmt s t o.tS.toNat := issuedTo_tagFmt s t t .vx o.tS
  exact if_pos (by rw [hfmt, hj]; decide)

/-- vx.tred of a register that does not hold format 6 raises FMT (R142). -/
theorem traps_vxTred {s : State} {t : Tile} {o : VtredOp} (u : Option Upset) (h : Executes s t .vx [(o.tS.toNat, false)] []) :
    (3 < o.rm.toNat ∨ 4 < o.op.toNat ∨ o.rsv ≠ 0 →
        Answers (.vxTred t o u) s (vxTrap (issuedTo s t .vx) t cIllegal (s.tile t).pc.toNat o.enc))
      ∧ (o.rm.toNat ≤ 3 → o.op.toNat ≤ 4 → o.rsv = 0 → tagFmt s t o.tS.toNat ≠ 6 →
          Answers (.vxTred t o u) s (vxTrap (issuedTo s t .vx) t cFmt (s.tile t).pc.toNat o.enc)) := by
  refine ⟨fun hbad => vxOp_illegal (exec_vxTred s t o u) h (by simpa [badRm, or_assoc] using hbad),
    fun hrm hop hrsv htag => vxOp_body (exec_vxTred s t o u) h (by simp [badRm, hrm, hop, hrsv]) rfl fun pc => ?_⟩
  simp [htag]

section
variable {s : State} {t : Tile} (u : Option Upset) (h : Executes s t .vx [] [])
include h

/-- The floating instructions with two sources (R128, R129). -/
theorem floatCommands_trap (o : VfOp) : ∀ c ∈ [(Instr.vxAdd t o u, 0), (.vxSub t o u, 1), (.vxMul t o u, 2), (.vxDiv t o u, 3),
      (.vxFma t o u, 4), (.vxMin t o, 5), (.vxMax t o, 6)],
    (3 < o.rm.toNat → Answers c.1 s (vxTrap (issuedTo s t .vx) t cIllegal (s.tile t).pc.toNat (o.enc c.2)))
      ∧ (o.rm.toNat ≤ 3 → o.f ≠ 6 → o.f ≠ 7 →
          Answers c.1 s (vxTrap (issuedTo s t .vx) t cFmt (s.tile t).pc.toNat (o.enc c.2))) := by
  simp only [List.forall_mem_cons, List.not_mem_nil, false_imp_iff, implies_true, and_true]
  refine ⟨?_, ?_, ?_, ?_, ?_, ?_, ?_⟩
  · exact traps_vfOp h (exec_vxAdd s t o u)
  · exact traps_vfOp h (exec_vxSub s t o u)
  · exact traps_vfOp h (exec_vxMul s t o u)
  · exact traps_vfOp h (exec_vxDiv s t o u)
  · exact traps_vfOp h (exec_vxFma s t o u)
  · exact traps_vfOp h (exec_vxMin s t o)
  · exact traps_vfOp h (exec_vxMax s t o)

/-- The floating instructions with one source (R128, R129). -/
theorem unaryCommands_trap (o : VuOp) : ∀ c ∈ [(Instr.vxSqrt t o u, 7), (.vxRcp t o u, 8), (.vxRsqrt t o u, 9),
      (.vxExp2 t o u, 10), (.vxLog2 t o u, 11), (.vxAbs t o, 12), (.vxNeg t o, 13)],
    (3 < o.rm.toNat ∨ o.rsv ≠ 0 → Answers c.1 s (vxTrap (issuedTo s t .vx) t cIllegal (s.tile t).pc.toNat (o.enc c.2)))
      ∧ (o.rm.toNat ≤ 3 → o.rsv = 0 → o.f ≠ 6 → o.f ≠ 7 →
          Answers c.1 s (vxTrap (issuedTo s t .vx) t cFmt (s.tile t).pc.toNat (o.enc c.2))) := by
  simp only [List.forall_mem_cons, List.not_mem_nil, false_imp_iff, implies_true, and_true]
  refine ⟨?_, ?_, ?_, ?_, ?_, ?_, ?_⟩
  · exact traps_vuOp h (exec_vxSqrt s t o u)
  · exact traps_vuOp h (exec_vxRcp s t o u)
  · exact traps_vuOp h (exec_vxRsqrt s t o u)
  · exact traps_vuOp h (exec_vxExp2 s t o u)
  · exact traps_vuOp h (exec_vxLog2 s t o u)
  · exact traps_vuOp h (exec_vxAbs s t o)
  · exact traps_vuOp h (exec_vxNeg s t o)

/-- The integer instructions (R128, R132). -/
theorem integerCommands_trap (o : ViOp) : ∀ c ∈ [(Instr.vxIadd t o u, 14), (.vxIsub t o u, 15), (.vxImul t o u, 16),
      (.vxAnd t o, 17), (.vxOr t o, 18), (.vxXor t o, 19), (.vxShl t o, 20), (.vxShr t o, 21)],
    (o.rsv ≠ 0 → Answers c.1 s (vxTrap (issuedTo s t .vx) t cIllegal (s.tile t).pc.toNat (o.enc c.2)))
      ∧ (o.rsv = 0 → o.f ≠ 10 → o.f ≠ 11 → o.f ≠ 14 → o.f ≠ 15 →
          Answers c.1 s (vxTrap (issuedTo s t .vx) t cFmt (s.tile t).pc.toNat (o.enc c.2))) := by
  simp only [List.forall_mem_cons, List.not_mem_nil, false_imp_iff, implies_true, and_true]
  refine ⟨?_, ?_, ?_, ?_, ?_, ?_, ?_, ?_⟩
  · exact traps_viOp h (exec_vxIadd s t o u)
  · exact traps_viOp h (exec_vxIsub s t o u)
  · exact traps_viOp h (exec_vxImul s t o u)
  · exact traps_viOp h (exec_vxAnd s t o)
  · exact traps_viOp h (exec_vxOr s t o)
  · exact traps_viOp h (exec_vxXor s t o)
  · exact traps_viOp h (exec_vxShl s t o)
  · exact traps_viOp h (exec_vxShr s t o)

end

/-! ### The families of O15 -/

/-- Guards and reserved fields of the control core (R165, R168, R170). -/
theorem coreGuardsAndFields (s : State) (t : Tile) (hready : Ready s t) :
    (∀ (o : ROp) (i : IOp) (f : RfOp) (e : Ecc), s.p t o.pG = false → s.p t i.pG = false → s.p t f.pG = false →
        ∀ c ∈ [Instr.cAdd t o, .cSub t o, .cMul t o, .cDivu t o, .cAddi t i, .cShi t i, .cLdd t i e, .cStd t i e, .cLld t i,
          .cLst t i] ++ [.cLfence t f, .cJr t f, .cTret t f, .cHalt t f, .cSleep t f, .dmGo t f e, .dmFence t f, .sySig t f,
          .syWait t f, .syRealign t f e, .mbSend t f e, .mbRecv t f], Answers c s (advance s t))
      ∧ (∀ (o : PredOp), s.p t o.pG = true → o.rsv1 ≠ 0 ∨ o.rsv2 ≠ 0 ∨ o.rsv3 ≠ 0 →
          Answers (.predicateAnd t o) s (precise s t cIllegal (BitVec.ofNat 64 (o.enc 0)))
            ∧ Answers (.predicateNot t o) s (precise s t cIllegal (BitVec.ofNat 64 (o.enc 4))))
      ∧ (∀ (o : CmpOp), Here s t [o.gA, o.gB] → s.p t o.pG = true →
          o.rsv ≠ 0 ∨ o.fn.toNat = 7 ∨ 24 ≤ o.fn.toNat ∨ (8 ≤ o.fn.toNat ∧ 4 ≤ o.fn.toNat % 8) →
          Answers (.cCmp t o) s (precise s t cIllegal (BitVec.ofNat 64 o.enc)))
      ∧ (∀ (f : RfOp), s.p t f.pG = true → f.fn ≠ 0 →
          Answers (.cTret t f) s (precise s t cIllegal (BitVec.ofNat 64 (f.enc 0x23)))
            ∧ Answers (.cHalt t f) s (precise s t cIllegal (BitVec.ofNat 64 (f.enc 0x25)))
            ∧ Answers (.dmFence t f) s (precise s t cIllegal (BitVec.ofNat 64 (f.enc 0x33)))) := by
  refine ⟨fun o i f e ho hi hf => ?_, fun o hg hbad => ?_, fun o hhere hg hbad => ?_, fun f hg hfn => ?_⟩
  · exact List.forall_mem_append.2
      ⟨fun _ => registerCommands_skip hready e ho hi, fun _ => functionCommands_skip hready e hf⟩
  · have hrsv : (o.rsv1 != 0 || o.rsv2 != 0 || o.rsv3 != 0) = true := by simpa [or_assoc] using hbad
    exact ⟨answers_of_coreOp_illegal (by rw [exec_predicateAnd, execPredicateAnd, predOp]) hready (here_nil s t) hg hrsv,
      answers_of_coreOp_illegal (by rw [exec_predicateNot, execPredicateNot, predOp]) hready (here_nil s t) hg hrsv⟩
  · refine answers_of_coreOp_illegal (by rw [exec_cCmp, execCCmp]) hready hhere hg ?_
    rw [Bool.or_eq_true, bne_iff_ne]
    exact hbad.imp_right fun hfn => by rw [cmpCond_undefined hfn]; rfl
  · have hill : (f.fn != 0) = true := bne_iff_ne.2 hfn
    exact ⟨answers_of_coreOp_illegal (by rw [exec_cTret, execCTret]) hready (here_nil s t) hg hill,
      answers_of_coreOp_illegal (by rw [exec_cHalt, execCHalt]) hready (here_nil s t) hg hill,
      answers_of_coreOp_illegal (by rw [exec_dmFence, execDmFence]) hready (here_nil s t) hg hill⟩

/-- Settles O15: the core's guard and reserved fields are those of every core instruction; an engine instruction that acts
at once meets its own checks in the order of R581, on the state after issue. -/
theorem guardsAndReservedFields : Obligations.GuardsAndReservedFields := by
  unfold Obligations.GuardsAndReservedFields
  refine ⟨coreGuardsAndFields, fun s t u e => ?_, fun s t u e => ?_⟩
  · exact ⟨fun _ => traps_mxOpen, fun _ => traps_mxMma, fun _ => traps_mxClose, fun _ => traps_mxSt u, fun _ => traps_mxLa e,
      fun _ => traps_mxLt e, fun _ => traps_mxStt e, fun _ => traps_mxTag, fun _ => traps_mxDrop⟩
  · refine ⟨fun h => ⟨floatCommands_trap u h, unaryCommands_trap u h, integerCommands_trap u h, fun o => ⟨fun hbad => ?_, ?_⟩,
      fun o hrsv => vxOp_illegal (exec_vxSel s t o) h (bne_iff_ne.2 hrsv), fun o => traps_vxCvt o h⟩,
      fun o h => ?_, fun o h => ⟨fun hrsv => vxOp_illegal (exec_vxBcast s t o) h (bne_iff_ne.2 hrsv),
        fun hrsv => vxOp_format (exec_vxBcast s t o) h (bne_eq_false_iff_eq.2 hrsv)⟩,
      fun b r v w k m a d g hr p x => ?_, fun o => ⟨fun h hrsv => ?_, fun h hrsv => ?_⟩,
      fun o h => ⟨fun hrsv => vxOp_illegal (exec_vxPick s t o) h (bne_iff_ne.2 hrsv),
        fun hrsv => vxOp_format (exec_vxPick s t o) h (bne_eq_false_iff_eq.2 hrsv)⟩,
      fun o h hrsv => vxOp_format (exec_vxTrk s t o) h (bne_eq_false_iff_eq.2 hrsv),
      fun o h hrsv => vxOp_format (exec_vxGacc s t o u) h (bne_eq_false_iff_eq.2 hrsv),
      fun o h => ⟨fun hrsv => vxOp_illegal (exec_vxRdiff s t o u) h (bne_iff_ne.2 hrsv),
        fun hrsv => vxOp_format (exec_vxRdiff s t o u) h (bne_eq_false_iff_eq.2 hrsv)⟩,
      fun o h => ⟨fun hbad => vxOp_illegal (exec_vxGcvt s t o u) h (by simpa using hbad),
        fun hrm hrsv => vxOp_format (exec_vxGcvt s t o u) h (by simp [hrm, hrsv])⟩,
      fun o h => ⟨vxOp_illegal (exec_vxCut s t o e) h,
        fun hrm hfd => vxOp_format (exec_vxCut s t o e) h hrm (decide_eq_true hfd)⟩,
      fun _ => traps_vxUncut e,
      fun o h => ⟨fun hbad => vxOp_illegal (exec_vxVred s t o u) h (by simpa [badRm, or_assoc] using hbad),
        fun hrm hop hrsv => vxOp_format (exec_vxVred s t o u) h (by simp [badRm, hrm, hop, hrsv])⟩,
      fun _ => traps_vxTred u⟩
    · exact vxOp_illegal (exec_vxCmp s t o) h (by simpa using hbad)
    · exact fun hcc hrsv hF hI => vxOp_format (exec_vxCmp s t o) h (by simp [hcc, hrsv]) (by rw [hF, hI]; rfl)
    · simp only [List.forall_mem_cons, List.not_mem_nil, false_imp_iff, implies_true, and_true]
      exact ⟨traps_vxLd e h, traps_vxSt h⟩
    · exact ⟨fun h hrsv => vxOp_illegal (exec_vxBob s t b) h (bne_iff_ne.2 hrsv),
        fun h hrsv => vxOp_illegal (exec_vxSrctx s t r) h (bne_iff_ne.2 hrsv),
        fun h hrsv => vxOp_illegal (exec_vxEvt s t v) h (bne_iff_ne.2 hrsv),
        fun h hrsv => vxOp_illegal (exec_vxUset s t w) h (bne_iff_ne.2 hrsv),
        fun h hrsv => vxOp_illegal (exec_vxTrk s t k) h (bne_iff_ne.2 hrsv),
        fun h hrsv => vxOp_illegal (exec_vxTamax s t m) h (bne_iff_ne.2 hrsv),
        fun h hrsv => vxOp_illegal (exec_vxGacc s t a u) h (bne_iff_ne.2 hrsv),
        fun h hrsv => vxOp_illegal (exec_vxGtacc s t d u) h (bne_iff_ne.2 hrsv),
        fun h hrsv => vxOp_illegal (exec_vxGdot s t g u) h (bne_iff_ne.2 hrsv),
        fun h hrsv => vxOp_illegal (exec_vxGrd s t hr u) h (bne_iff_ne.2 hrsv),
        fun h hrsv => vxOp_illegal (exec_vxGcomb s t p u e) h (bne_iff_ne.2 hrsv),
        fun h hrsv => vxOp_illegal (exec_vxGdec s t x e) h (bne_iff_ne.2 hrsv)⟩
    · exact ⟨vxOp_illegal (exec_vxLdt s t o) h (bne_iff_ne.2 hrsv), vxOp_illegal (exec_vxLdc s t o) h (bne_iff_ne.2 hrsv)⟩
    · exact ⟨vxOp_illegal (exec_vxWrt s t o) h (bne_iff_ne.2 hrsv), vxOp_illegal (exec_vxWrc s t o) h (bne_iff_ne.2 hrsv)⟩

end Sys2Proof.Machine
end

section
/-! PROOFS. The DMA queue and its transfers (R182 to R184). -/

namespace Sys2Proof.Machine

open Sys2Proof.Claims

/-! ### Records to log -/

theorem inci_eq (s : State) (page : Nat) (f : Fld) (i n : Nat) : ∃ r, inci s page f i n = { s with regs := r } := ⟨_, rfl⟩

/-- What a request to log changes: the queue of sixteen and, when it is full, the registers and interrupts of the EV page. -/
theorem logReq_eq (s : State) (sev code source : Nat) (payload : List Byte) :
    ∃ r i h q, logReq s sev code source payload = { s with regs := r, irqs := i, hostIrqs := h, logQ := q } := by
  unfold logReq
  generalize pushLog s.logQ _ = r
  obtain ⟨q, dropped⟩ := r
  cases dropped with
  | none => exact ⟨_, _, _, _, rfl⟩
  | some d =>
    dsimp only
    obtain ⟨r, hcount⟩ := inci_eq { s with logQ := q } evPg ev_QDROP 0 1
    obtain ⟨r', hcount'⟩ := inci_eq { s with logQ := q, regs := r } evPg ev_DROP d.sev 1
    rw [inc, hcount, hcount', raiseF]
    obtain ⟨r'', i, h, hbit⟩ := raiseBit_eq { s with logQ := q, regs := r' } evPg ev_F_DROP.lo
    exact ⟨r'', i, h, q, hbit⟩

theorem logReq_tiles (s : State) (sev code source : Nat) (payload : List Byte) :
    (logReq s sev code source payload).tiles = s.tiles := by
  obtain ⟨_, _, _, _, heq⟩ := logReq_eq s sev code source payload
  rw [heq]

/-! ### Issue of dm.go and dm.fence -/

section
variable {s : State} {t : Tile} {o : RfOp} {e : Ecc}

/-- The descriptor that dm.go reads, at the end of the queue (R182). -/
def dmaEnqueue (a pc : Nat) (ts : TileSt) : TileSt :=
  { ts with tagNo := ts.tagNo + 1,
            dma := ts.dma ++ [{ desc := a, pc := pc, ord := ts.ord, bytes := dsRead ts a 64, active := false, sent := 0,
                                tag := ts.tagNo, rsp := 0, read := false, told := false }] }

section
variable (hruns : Runs s t [o.gA] o.pG) (hfn : o.fn = 0)
include hruns hfn

theorem answers_dmGo_full (h : 8 ≤ (s.tile t).dma.length) : Answers (.dmGo t o e) s (withhold s t rowDma .dmaFull) := by
  obtain ⟨hready, hhere, hg⟩ := hruns
  have hans := answers_of_coreOp (c := .dmGo t o e) (by rw [exec_dmGo, execDmGo]) hready hhere hg (bne_eq_false_iff_eq.2 hfn)
  rwa [if_pos h] at hans

theorem answers_dmGo_daddr (hroom : (s.tile t).dma.length < 8) (h : (s.g t o.gA).toNat % 64 ≠ 0 ∨ 0x10000 ≤ (s.g t o.gA).toNat) :
    Answers (.dmGo t o e) s (precise s t cDaddr (s.g t o.gA)) := by
  obtain ⟨hready, hhere, hg⟩ := hruns
  have hans := answers_of_coreOp (c := .dmGo t o e) (by rw [exec_dmGo, execDmGo]) hready hhere hg (bne_eq_false_iff_eq.2 hfn)
  dsimp only at hans
  rwa [if_neg (Nat.not_le.2 hroom), if_pos h] at hans

theorem answers_dmGo (hroom : (s.tile t).dma.length < 8) (h : (s.g t o.gA).toNat % 64 = 0) (hin : (s.g t o.gA).toNat < 0x10000) :
    Answers (.dmGo t o e) s (dsEcc s t e ((s.g t o.gA).toNat / 8) fun x =>
      (advance x t).modTile t (dmaEnqueue (s.g t o.gA).toNat (x.tile t).pc.toNat)) := by
  obtain ⟨hready, hhere, hg⟩ := hruns
  have hans := answers_of_coreOp (c := .dmGo t o e) (by rw [exec_dmGo, execDmGo]) hready hhere hg (bne_eq_false_iff_eq.2 hfn)
  dsimp only at hans
  rw [if_neg (Nat.not_le.2 hroom), if_neg (by omega)] at hans
  exact hans

/-- A good read puts the descriptor at the end of the queue and changes nothing else but the counts of issue (R182). -/
theorem gives_dmGo (hroom : (s.tile t).dma.length < 8) (h : (s.g t o.gA).toNat % 64 = 0) (hin : (s.g t o.gA).toNat < 0x10000) :
    Gives (.dmGo t o .ok) s fun s' =>
      (s'.tile t).dma = (s.tile t).dma ++
          [{ desc := (s.g t o.gA).toNat, pc := (s.tile t).pc.toNat, ord := (s.tile t).ord + 1,
             bytes := memRead (s.tile t).dstore (s.g t o.gA).toNat 64, active := false, sent := 0, tag := (s.tile t).tagNo,
             rsp := 0, read := false, told := false }]
        ∧ (s'.tile t).tagNo = (s.tile t).tagNo + 1 ∧ (s'.tile t).pc = (s.tile t).pc + 1
        ∧ (∀ r, s'.g t r = s.g t r) ∧ (∀ i, s'.p t i = s.p t i)
        ∧ (s'.tile t).dstore = (s.tile t).dstore ∧ OnlyTile s s' t := by
  have htile : ((advance s t).modTile t (dmaEnqueue (s.g t o.gA).toNat (s.tile t).pc.toNat)).tile t
      = dmaEnqueue (s.g t o.gA).toNat (s.tile t).pc.toNat ((advance s t).tile t) := tile_modTile_same _ _ _
  have hans : Answers (.dmGo t o .ok) s ((advance s t).modTile t (dmaEnqueue (s.g t o.gA).toNat (s.tile t).pc.toNat)) :=
    answers_dmGo hruns hfn hroom h hin
  refine gives_of_answers hans ⟨?_, ?_, ?_, fun r => ?_, fun i => ?_, ?_, onlyTile_issued s t _⟩
  · rw [tile_settle, htile, advance_tile]; rfl
  · rw [tile_settle, htile, advance_tile]; rfl
  · rw [tile_settle, htile]; exact advance_pc s t
  · rw [g_settle, g_modTile_of, advance_g]; exact fun _ _ => rfl
  · rw [p_settle, p_modTile_of, advance_p]; exact fun _ => rfl
  · rw [tile_settle, htile]; exact advance_dstore s t

end

theorem answers_dmFence (hruns : Runs s t [] o.pG) (hfn : o.fn = 0) :
    Answers (.dmFence t o) s (if (s.tile t).dma.isEmpty then advance s t else withhold s t rowDma .dmFence) := by
  obtain ⟨hready, hhere, hg⟩ := hruns
  exact answers_of_coreOp (by rw [exec_dmFence, execDmFence]) hready hhere hg (bne_eq_false_iff_eq.2 hfn)

end

/-! ### The start of a transfer -/

section
variable {s : State} {t : Tile} (ecc : Ecc) (ht : t.toNat < s.ntiles)
include ht

/-- Nothing starts without a waiting descriptor, or while the chip stalls (R26, R193, R206). -/
theorem answers_dmaStart_idle (h : nextDma (s.tile t) = none ∨ enginesRun s t = false) :
    Answers (.dmaTransferStart t ecc) s s := by
  rw [Answers, exec_dmaTransferStart, execDmaTransferStart, onTile_of_lt s t _ ht, done]
  cases hnext : nextDma (s.tile t) with
  | none => rfl
  | some e =>
    have hstall := h.resolve_left (by rw [hnext]; exact Option.some_ne_none e)
    simp only [hstall, Bool.false_eq_true, not_false_eq_true, true_or, or_true, if_true]

variable {e : DmaEnt} (hnext : nextDma (s.tile t) = some e) (hon : s.tileOff t = false) (hrun : enginesRun s t = true)
  (hclash : engineClash (s.tile t) e = false) (htwo : ((s.tile t).dma.filter (·.active)).length < 2)
include hnext hon hrun hclash htwo

/-- The first waiting descriptor fails its checks, or its transfer becomes active and begins (R183, R184). -/
theorem answers_dmaStart : Answers (.dmaTransferStart t ecc) s
    (if (parseDma e.bytes).fails then dmaFail s t e rDescBad
     else dmaBegin (dmaSet s t e { e with active := true }) t { e with active := true } ecc) := by
  have hfree : ¬ (2 ≤ ((s.tile t).dma.filter (·.active)).length ∨ s.tileOff t = true ∨ ¬ enginesRun s t = true
      ∨ engineClash (s.tile t) e = true) := by
    rw [hon, hrun, hclash, Nat.not_le.2 htwo |> eq_false]; decide
  rw [Answers, exec_dmaTransferStart, execDmaTransferStart, onTile_of_lt s t _ ht, done, hnext]
  exact congrArg (fun x => Host.Outcome.next (settle s x)) (if_neg hfree)

end

/-- A transfer within the module moves no line as it starts. -/
theorem dmaBegin_near {s x : State} {e : DmaEnt} (t : Tile) (ecc : Ecc) (hpins : x.pins = s.pins)
    (hstream : (parseDma e.bytes).dstSp ≠ 4) (hsrc : (parseDma e.bytes).srcFar s = false)
    (hdst : (parseDma e.bytes).dstFar s = false) : dmaBegin x t e ecc = x := by
  have hsrc' : (parseDma e.bytes).srcFar x = false := by rw [← hsrc, DmaDesc.srcFar, State.module, hpins]; rfl
  have hdst' : (parseDma e.bytes).dstFar x = false := by rw [← hdst, DmaDesc.dstFar, State.module, hpins]; rfl
  simp only [dmaBegin, hsrc', hdst', hstream, Bool.false_eq_true, if_false]

/-! ### The end of a transfer -/

section
variable {s : State} {t : Tile} {e : DmaEnt} (rsp : BitVec 8) (remote : List Byte) (ecc : Ecc) (ht : t.toNat < s.ntiles)
  (hfind : (s.tile t).dma.find? (·.active) = some e)
include ht hfind

theorem answers_dmaComplete : Answers (.dmaTransferComplete t rsp remote ecc) s
    (if (if e.rsp ≠ 0 then e.rsp else rsp.toNat) = 0 then dmaEnd (dmaCredits s t e) t e remote ecc
     else
      let x := if (parseDma e.bytes).dstSp = 4 then dmaCredits s t e else dmaPartial (dmaCredits s t e) t e remote ecc
      if (x.tile t).off then x else dmaFail x t e (if e.rsp ≠ 0 then e.rsp else rsp.toNat)) := by
  rw [Answers, exec_dmaTransferComplete, execDmaTransferComplete, onTile_of_lt s t _ ht, done]
  dsimp only
  rw [hfind]

/-- Without a failure from outside the transfer ends by itself. -/
theorem answers_dmaComplete_ok (hrsp : e.rsp = 0) :
    Answers (.dmaTransferComplete t 0 remote ecc) s (dmaEnd (dmaCredits s t e) t e remote ecc) := by
  have hans := answers_dmaComplete 0 remote ecc ht hfind
  rwa [hrsp, if_pos (by decide)] at hans

/-- A response other than OK raises the DMA cause (R184). -/
theorem answers_dmaComplete_failed (hbad : rsp ≠ 0 ∨ e.rsp ≠ 0) :
    let x := if (parseDma e.bytes).dstSp = 4 then dmaCredits s t e else dmaPartial (dmaCredits s t e) t e remote ecc
    (x.tile t).off = false → Answers (.dmaTransferComplete t rsp remote ecc) s
      (dmaFail x t e (if e.rsp ≠ 0 then e.rsp else rsp.toNat)) := by
  intro x hx
  have hans := answers_dmaComplete rsp remote ecc ht hfind
  have hworst : (if e.rsp ≠ 0 then e.rsp else rsp.toNat) ≠ 0 := by
    split
    · assumption
    · next h => exact fun h0 => hbad.elim (fun hr => hr (BitVec.eq_of_toNat_eq h0)) h
  rw [if_neg hworst] at hans
  dsimp only at hans
  rwa [if_neg (by rw [hx]; decide)] at hans

end

section
variable {s : State} {t : Tile} {e : DmaEnt} (remote : List Byte) (ecc : Ecc)

theorem dmaEnd_sent (hstream : (parseDma e.bytes).dstSp ≠ 4) (hsent : e.sent = 1) :
    dmaEnd s t e remote ecc = dmaSignals s t e := by
  simp only [dmaEnd, hstream, hsent, if_false, if_true]

/-- The lines move as the transfer ends; then its signals go, unless the destination still owes responses (R287). -/
theorem dmaEnd_moves (hstream : (parseDma e.bytes).dstSp ≠ 4) (hsent : e.sent ≠ 1) :
    let r := dmaRun (dmaSet s t e { e with sent := 1 }) t { e with sent := 1 } remote ecc
    (r.2.tile t).off = false →
      (r.1 = rOK → dmaEnd s t e remote ecc = if (parseDma e.bytes).dstFar s = true then r.2 else dmaSignals r.2 t e)
        ∧ (r.1 ≠ rOK → dmaEnd s t e remote ecc = dmaFail r.2 t e r.1) := by
  intro r hon
  have hend : dmaEnd s t e remote ecc = if r.1 ≠ rOK then dmaFail r.2 t e r.1
      else if (parseDma e.bytes).dstFar s = true then r.2 else dmaSignals r.2 t e := by
    unfold dmaEnd
    dsimp only
    rw [if_neg hstream, if_neg hsent, if_neg (by rw [hon]; decide)]
  exact ⟨fun hok => by rw [hend, if_neg (not_not_intro hok)], fun hbad => by rw [hend, if_pos hbad]⟩

end

/-! ### The queue after a transfer -/

/-- A core's cause leaves the DMA queue alone. -/
theorem dma_raiseCause_core (s : State) (t : Tile) {c : Cause} (h : coreSrc c) :
    ((raiseCause s t c).tile t).dma = (s.tile t).dma := by
  cases hprog : s.hasProgram t with
  | true => rw [tile_raiseCause_core s t h hprog]
  | false =>
    obtain ⟨_, _, _, _, heq⟩ := raiseCause_core s t h
    rw [heq, hprog]; rfl

theorem coreSrc_four {c : Cause} (h : c.src = 4) : coreSrc c := ⟨by omega, by omega⟩

/-- A signal at a counter of the tile leaves its DMA queue alone, whether it saturates the counter or not (R238). -/
theorem dma_sySignal (s : State) (t : Tile) (c n : Nat) (pc : Option Nat) :
    ((sySignal s t c n pc).tile t).dma = (s.tile t).dma := by
  have hcause : ∀ (x : State) k info, ((deferred x t cSync 4 k info).tile t).dma = (x.tile t).dma := fun x k info => by
    rw [deferred, dma_raiseCause_core _ t (coreSrc_four rfl), tile_modTile_same]; rfl
  unfold sySignal sySaturate
  dsimp only
  split
  · rw [tile_congr (logReq_tiles _ _ _ _ _), hcause, tile_congr (raiseF_frame _ t _ _).1]; rfl
  · rfl

/-- A signal that is sent changes no tile: it joins the messages, the packets of a port, or its failure is reported. -/
theorem postSignal_tiles (s : State) (c : LinkClass) (src : Sender) (w : W64) : (postSignal s c src w).tiles = s.tiles := by
  unfold postSignal sendPkt failPkt
  dsimp only
  split
  · rfl
  · split
    · rfl
    · split
      · rfl
      · rw [if_neg (by decide), if_neg (by decide), if_pos rfl]
        split <;> rfl

/-- LOC_CTR of the oldest transfer changes its mark and no order. -/
theorem dmaLocal_ords (s : State) (t : Tile) {k : Nat} (h : ∀ x ∈ (s.tile t).dma, x.ord ≠ k) :
    ∀ x ∈ ((dmaLocal s t).tile t).dma, x.ord ≠ k := by
  unfold dmaLocal
  split
  next e es hdma =>
    rw [hdma] at h
    have htold : ∀ x ∈ ((s.modTile t (fun ts => { ts with dma := { e with told := true } :: es })).tile t).dma, x.ord ≠ k := by
      rw [tile_modTile_same]
      intro x hx
      rcases List.mem_cons.1 hx with rfl | hx
      · exact h e List.mem_cons_self
      · exact h x (List.mem_cons_of_mem e hx)
    split
    · dsimp only
      split
      · rw [dma_sySignal]; exact htold
      · exact htold
    · rw [hdma]; exact h
  · exact h

/-- Once it signals, a transfer has left the queue (R184). -/
theorem dmaSignals_leaves (s : State) (t : Tile) (e : DmaEnt) : ∀ x ∈ ((dmaSignals s t e).tile t).dma, x.ord ≠ e.ord := by
  have hleft : ∀ x ∈ (((progress s).modTile t (fun ts => { ts with dma := ts.dma.filter (fun x => x.ord != e.ord) })).tile t).dma,
      x.ord ≠ e.ord := by
    rw [tile_modTile_same]
    exact fun x hx => bne_iff_ne.1 (List.mem_filter.1 hx).2
  unfold dmaSignals
  dsimp only
  refine dmaLocal_ords _ t ?_
  split
  · rw [tile_congr (postSignal_tiles _ _ _ _), tile_modTile_same]; exact hleft
  · exact hleft

/-! ### A line between two addresses of the data store -/

theorem dmaMove_store {t : Tile} {d : DmaDesc} (hsrc : d.srcSp = 3) (hdst : d.dstSp = 3) (a b i tag : Nat) (remote : List Byte)
    (s : State) : dmaMove t d tag remote [(a, b, i)] .ok s
      = (rOK, true, (progress s).modTile t (fun ts => dsWrite ts b (dsRead (s.tile t) a 64))) := by
  simp [dmaMove, dmaRead, dmaStoreRead, dmaWrite, hsrc, hdst]

/-- Settles O16: dm.go and dm.fence act on the queue as the core issues them; the start and the end of a transfer take the
branch that the descriptor and the responses name, and its entry, once signalled, is not in the queue. -/
theorem dmaCopies : Obligations.DmaCopies := by
  unfold Obligations.DmaCopies
  refine ⟨fun s t o => ⟨fun hruns hfn => ⟨fun hroom h hin => ?_, fun e => answers_dmGo_daddr hruns hfn,
    fun e => answers_dmGo_full hruns hfn⟩, fun hruns hfn => ⟨fun hdma => ?_, fun hdma => ?_⟩, fun ht ecc => ?_⟩,
    fun s t e remote ecc ht hfind => ?_, fun s t d a b i tag remote hsrc hdst => ?_⟩
  · exact ⟨gives_dmGo hruns hfn hroom h hin, answers_dmGo hruns hfn hroom h hin, answers_dmGo hruns hfn hroom h hin⟩
  · have hans := answers_dmFence hruns hfn
    rwa [hdma, if_pos List.isEmpty_nil] at hans
  · have hans := answers_dmFence hruns hfn
    rwa [if_neg (by rwa [List.isEmpty_iff])] at hans
  · refine ⟨answers_dmaStart_idle ecc ht, fun e hnext hon hrun hclash htwo => ?_⟩
    have hans := answers_dmaStart ecc ht hnext hon hrun hclash htwo
    have hstarts : (parseDma e.bytes).fails = false → Answers (.dmaTransferStart t ecc) s
        (dmaBegin (dmaSet s t e { e with active := true }) t { e with active := true } ecc) := fun h => by
      rwa [if_neg (by rw [h]; decide)] at hans
    refine ⟨fun h => by rwa [if_pos h] at hans, hstarts, fun h hstream hs hd => ?_⟩
    have hbegin := hstarts h
    rwa [dmaBegin_near (s := s) (x := dmaSet s t e { e with active := true }) (e := { e with active := true }) t ecc rfl
      hstream hs hd] at hbegin
  · refine ⟨fun hrsp hsent hstream => ?_, fun hrsp hsent hstream hon => ?_,
      fun rsp hbad => answers_dmaComplete_failed rsp remote ecc ht hfind hbad, dmaSignals_leaves s t e⟩
    · have hans := answers_dmaComplete_ok remote ecc ht hfind hrsp
      rwa [dmaEnd_sent remote ecc hstream hsent] at hans
    · have hans := answers_dmaComplete_ok remote ecc ht hfind hrsp
      obtain ⟨hok, hfails⟩ := dmaEnd_moves remote ecc hstream hsent hon
      exact ⟨fun h => by rwa [hok h] at hans, fun h => by rwa [hfails h] at hans⟩
  · rw [dmaMove_store hsrc hdst]
    have htile : ((progress s).modTile t (fun ts => dsWrite ts b (dsRead (s.tile t) a 64))).tile t
        = dsWrite ((progress s).tile t) b (dsRead (s.tile t) a 64) := tile_modTile_same _ _ _
    refine ⟨rfl, rfl, ?_, fun x hx => ?_, rfl, rfl, rfl⟩
    · rw [htile]
      have hsame := memRead_memWrite_same (s.tile t).dstore b (memRead (s.tile t).dstore a 64)
      rwa [length_memRead] at hsame
    · rw [htile]
      exact memByte_memWrite_outside _ _ _ _ (by rwa [dsRead, length_memRead])

end Sys2Proof.Machine
end

section
/-! PROOFS. The counters of the SY block and the doldrums detector (R237, R238, R263, R264): an event whose own record finds the
logbook queue full, and counts the dropped one, of a severity that the logbook does not have, in a register of the event. -/

namespace Sys2Proof.Machine

open Sys2Proof.Claims

/-! ### A signal whose record changes the production count -/

/-- Counter 0 of tile 0 is one below its maximum, and the record of its saturation counts a dropped one in its PROD_CNT. -/
def nearlyFull : State :=
  wri { State.reset with logQ := fullQueue (severityAt (syPg 0) sy_PC_PROD_CNT) } (syPg 0) sy_CNT_COUNT 0 65534

/-- A target word that adds 1 to counter 0 of tile 0. -/
def oneSignal : W64 := BitVec.ofNat 64 (2 ^ 32)

theorem nearlyFull_produced (s' : State) (h : exec (.signal .mgmt oneSignal) nearlyFull = .next s') :
    rdi s' (syPg 0) sy_PC_PROD_CNT 0 = 2 := by
  cases h
  decide

/-- Refutes O17: the signal of `nearlyFull` is stated to leave 1 in PROD_CNT of its counter, and the record of the saturation
that it causes then adds 1 to that register. -/
theorem not_signalsAndWaits : ¬ Obligations.SignalsAndWaits := by
  unfold Obligations.SignalsAndWaits
  intro h
  obtain ⟨-, ⟨hsignal, -⟩, -⟩ := h
  obtain ⟨s', hnext, -, hproduced, -⟩ := hsignal nearlyFull .mgmt oneSignal (by decide) (by decide) (by decide) (by decide)
    (by decide) rfl (Or.inl rfl)
  rw [show BitVec.ofNat 11 (wordTile oneSignal.toNat) = 0 from by decide, show wordCtr oneSignal.toNat = 0 from by decide,
    nearlyFull_produced s' hnext] at hproduced
  exact absurd hproduced (by decide)

/-! ### An episode whose record changes its own count -/

/-- The detector is enabled and its window has passed while tile 0 requests a stall, and the record of the episode counts a
dropped one in EPISODES. -/
def becalmed : State :=
  wr { State.reset with netReq := [(0, rowDma)], dlFired := false, dlCount := 2 ^ 26, logQ := fullQueue (severityAt dlPg dl_EPISODES) }
    dlPg dl_ENABLE 1

theorem becalmed_stallTiles : stallTiles becalmed = [0] := by
  have hlist : becalmed.tileList = 0 :: (List.range 1087).map (fun i => BitVec.ofNat 11 (i + 1)) := by
    rw [State.tileList, show becalmed.ntiles = 1087 + 1 from by decide, List.range_succ_eq_map, List.map_cons, List.map_map]; rfl
  have hnone : ∀ t ∈ (List.range 1087).map (fun i => BitVec.ofNat 11 (i + 1)),
      ¬ (becalmed.netReq.any (fun q => q.1 == t)) = true := fun t ht => by
    obtain ⟨i, hi, rfl⟩ := List.mem_map.1 ht
    have hsmall : i + 1 < 2 ^ 11 := by have := List.mem_range.1 hi; omega
    have hreq : becalmed.netReq = [(0, rowDma)] := rfl
    rw [hreq]
    simp only [List.any_cons, List.any_nil, Bool.or_false, beq_iff_eq]
    exact fun h0 => absurd (congrArg BitVec.toNat h0) (by rw [BitVec.toNat_ofNat, Nat.mod_eq_of_lt hsmall]; exact nofun)
  rw [stallTiles, hlist, List.filter_cons_of_pos (by decide), List.filter_eq_nil_iff.2 hnone]

theorem becalmed_episodes (s' : State) (h : exec .doldrums becalmed = .next s') : rd s' dlPg dl_EPISODES = 2 := by
  rw [exec_doldrums, execDoldrums, becalmed_stallTiles] at h
  cases h
  decide

/-- Refutes O21: the episode of `becalmed` is stated to leave 1 in EPISODES, and its own record then adds 1 to that register. -/
theorem not_programsStartAndStall : ¬ Obligations.ProgramsStartAndStall := by
  unfold Obligations.ProgramsStartAndStall
  intro h
  obtain ⟨-, -, hdoldrums⟩ := h
  obtain ⟨hfires, -⟩ := hdoldrums becalmed 0 [] becalmed_stallTiles (by decide)
  obtain ⟨s', hnext, -, -, -, hepisodes, -⟩ := hfires rfl (by decide)
  rw [becalmed_episodes s' hnext] at hepisodes
  exact absurd hepisodes (by decide)

end Sys2Proof.Machine
end

section
/-! PROOFS. A step without a command (R180, R358): what the parts of one CCLK cycle leave alone. -/

namespace Sys2Proof.Machine

open Sys2Proof.Claims

/-! ### Ports and the clock beside the memories -/

/-- The memories, the tiles, the messages and the counts of cycles are as before. -/
def SameCore (s x : State) : Prop :=
  x.spool = s.spool ∧ x.lp = s.lp ∧ x.flash = s.flash ∧ x.tiles = s.tiles ∧ x.net = s.net ∧ x.ticks = s.ticks
    ∧ x.cycles = s.cycles

theorem sameCore_refl (s : State) : SameCore s s := ⟨rfl, rfl, rfl, rfl, rfl, rfl, rfl⟩

theorem sameCore_trans {s x y : State} (h : SameCore s x) (h' : SameCore x y) : SameCore s y := by
  obtain ⟨h1, h2, h3, h4, h5, h6, h7⟩ := h
  obtain ⟨h1', h2', h3', h4', h5', h6', h7'⟩ := h'
  exact ⟨h1'.trans h1, h2'.trans h2, h3'.trans h3, h4'.trans h4, h5'.trans h5, h6'.trans h6, h7'.trans h7⟩

section
variable (s : State)

theorem sameCore_wr (p : Nat) (f : Fld) (v : Nat) : SameCore s (wr s p f v) := ⟨rfl, rfl, rfl, rfl, rfl, rfl, rfl⟩

theorem sameCore_setPort (p : Nat) (x : PortSt) : SameCore s (setPort s p x) := ⟨rfl, rfl, rfl, rfl, rfl, rfl, rfl⟩

theorem sameCore_raiseF (p : Nat) (f : Fld) : SameCore s (raiseF s p f) := by
  obtain ⟨_, _, _, heq⟩ := raiseBit_eq s p f.lo
  rw [raiseF, heq]
  exact ⟨rfl, rfl, rfl, rfl, rfl, rfl, rfl⟩

theorem sameCore_logReq (sev code source : Nat) (payload : List Byte) : SameCore s (logReq s sev code source payload) := by
  obtain ⟨_, _, _, _, heq⟩ := logReq_eq s sev code source payload
  rw [heq]
  exact ⟨rfl, rfl, rfl, rfl, rfl, rfl, rfl⟩

/-! ### The calibrations (R317) -/

theorem sameCore_calEnd (p : Nat) : SameCore s (calEnd s p) := sameCore_trans (sameCore_setPort s p _) (sameCore_wr _ _ _ _)

theorem sameCore_spared (p w : Nat) : SameCore s (spared s p w) :=
  sameCore_trans (sameCore_trans (sameCore_setPort s p _) (sameCore_wr _ _ _ _))
    (sameCore_trans (sameCore_raiseF _ _ _) (sameCore_logReq _ _ _ _ _))

theorem sameCore_calibrateIdle (p : Nat) (c : Cal) : SameCore s (calibrateIdle s p c) := by
  unfold calibrateIdle
  dsimp only
  split
  · exact sameCore_trans (sameCore_setPort s p _) (sameCore_wr _ _ _ _)
  · split
    · exact sameCore_trans (sameCore_calEnd s p) (sameCore_spared _ _ _)
    · split
      · exact sameCore_calEnd s p
      · exact sameCore_setPort s p _

theorem sameCore_calGo (p : Nat) : SameCore s (calGo s p) := by
  unfold calGo
  split
  · split
    · exact sameCore_trans (sameCore_wr s _ _ _) (sameCore_calibrateIdle _ _ _)
    · exact sameCore_refl s
  · exact sameCore_refl s

theorem sameCore_forEach_calGo (ps : List Nat) : ∀ s, SameCore s (forEach ps (fun p s => calGo s p) s) := by
  induction ps with
  | nil => exact sameCore_refl
  | cons p ps ih => exact fun s => sameCore_trans (sameCore_calGo s p) (ih _)

theorem sameCore_calTick : SameCore s (calTick s) := by
  unfold calTick
  split
  · exact sameCore_forEach_calGo _ s
  · exact sameCore_refl s

/-! ### The parts of a cycle -/

/-- Beside `SameCore` the messages of the management core, the TW engine's run and the root PLL's lock are as before. -/
def SameAon (s x : State) : Prop :=
  SameCore s x ∧ x.mgmtBox = s.mgmtBox ∧ x.mgmtRcv = s.mgmtRcv ∧ x.twRun = s.twRun
    ∧ rd x ckPg ck_ROOT_LOCK = rd s ckPg ck_ROOT_LOCK

theorem sameAon_trans {s x y : State} (h : SameAon s x) (h' : SameAon x y) : SameAon s y := by
  obtain ⟨h1, h2, h3, h4, h5⟩ := h
  obtain ⟨h1', h2', h3', h4', h5'⟩ := h'
  exact ⟨sameCore_trans h1 h1', h2'.trans h2, h3'.trans h3, h4'.trans h4, h5'.trans h5⟩

theorem sameAon_aonAcc (a : Nat) : SameAon s { s with aonAcc := a } := ⟨⟨rfl, rfl, rfl, rfl, rfl, rfl, rfl⟩, rfl, rfl, rfl, rfl⟩

theorem sameAon_wr_ev (f : Fld) (v : Nat) (h : f.off < 0x1000) : SameAon s (wr s evPg f v) :=
  ⟨sameCore_wr s evPg f v, rfl, rfl, rfl,
    rd_wr_ne s evPg f v ckPg ck_ROOT_LOCK (by simp only [ckPg, evPg, ck_ROOT_LOCK]; omega)⟩

/-- The always-on domain counts time in registers of the EV page (R463, R464). -/
theorem sameAon_tickTime : SameAon s (tickTime s) := by
  have hsub : ∀ a n, SameAon s (wr { s with aonAcc := a } evPg ev_SUBSEC n) := fun a n =>
    sameAon_trans (sameAon_aonAcc s a) (sameAon_wr_ev _ ev_SUBSEC n (by decide))
  unfold tickTime
  dsimp only
  split
  · exact ⟨sameCore_refl s, rfl, rfl, rfl, rfl⟩
  · split
    · exact sameAon_aonAcc s _
    · split
      · exact hsub _ _
      · exact sameAon_trans (hsub _ _) (sameAon_wr_ev _ ev_SEC _ (by decide))

/-- Tiles whose engines rest stay as they are. -/
theorem drainEngines_idle (h : ∀ t, enginesIdle (s.tile t) = true) : drainEngines s = s := by
  have hall : ∀ ts : List Tile, forEach ts (fun t s => drainTile s t) s = s := fun ts => by
    induction ts with
    | nil => rfl
    | cons t ts ih =>
      have hidle : drainTile s t = s := if_pos (h t)
      rw [forEach, List.foldl_cons, hidle]
      exact ih
  exact hall _

theorem takeMgmt_idle (hbox : s.mgmtBox = []) (hrcv : s.mgmtRcv = []) : takeMgmt s = s := by
  rw [takeMgmt, hrcv, hbox]

theorem twTick_idle (h : s.twRun = none) : twTick s = s := by rw [twTick, h]

end

/-- The counts of the core clock, before the engines and the management core act (R180, R210, R263). -/
def tickCounts (s : State) : State :=
  let x := if dutyCycle s then
      wr64 { s with throtNow := s.throtNow + 1 } thPg th_THROT_CYC_LO th_THROT_CYC_HI
        (rd64 s thPg th_THROT_CYC_LO th_THROT_CYC_HI + 1)
    else s
  let x := if isStall s then { x with stallCycles := x.stallCycles + 1, stitchStall := x.stitchStall + 1 } else x
  let x := if netRaised s then { x with dlCount := x.dlCount + 1 } else x
  { x with cycles := x.cycles + 1, hallTime := if x.cycles % 2 = 1 then (x.hallTime + x.rate) % 2 ^ 112 else x.hallTime }

theorem tickCore_eq (s : State) : tickCore s = takeMgmt (drainEngines (tickCounts s)) := rfl

theorem tickCounts_frame (s : State) : SameCore { s with cycles := s.cycles + 1 } (tickCounts s)
    ∧ (tickCounts s).mgmtBox = s.mgmtBox ∧ (tickCounts s).mgmtRcv = s.mgmtRcv ∧ (tickCounts s).twRun = s.twRun := by
  have hduty : ∃ r n, (if dutyCycle s then
      wr64 { s with throtNow := s.throtNow + 1 } thPg th_THROT_CYC_LO th_THROT_CYC_HI
        (rd64 s thPg th_THROT_CYC_LO th_THROT_CYC_HI + 1)
    else s) = { s with regs := r, throtNow := n } := by
    split
    · exact ⟨_, _, rfl⟩
    · exact ⟨_, _, rfl⟩
  obtain ⟨r, n, heq⟩ := hduty
  unfold tickCounts
  rw [heq]
  cases isStall s with
  | true => cases netRaised s <;> exact ⟨⟨rfl, rfl, rfl, rfl, rfl, rfl, rfl⟩, rfl, rfl, rfl⟩
  | false => cases netRaised s <;> exact ⟨⟨rfl, rfl, rfl, rfl, rfl, rfl, rfl⟩, rfl, rfl, rfl⟩

/-- One cycle of a core that rests counts itself and changes nothing else of `SameCore`. -/
theorem tickCore_idle {s : State} (hidle : ∀ t, enginesIdle (s.tile t) = true) (hbox : s.mgmtBox = []) (hrcv : s.mgmtRcv = [])
    (htw : s.twRun = none) : SameCore { s with cycles := s.cycles + 1 } (calTick (twTick (tickCore s))) := by
  obtain ⟨hsame, hbox', hrcv', htw'⟩ := tickCounts_frame s
  obtain ⟨-, -, -, htiles, -⟩ := id hsame
  have hcore : tickCore s = tickCounts s := by
    rw [tickCore_eq, drainEngines_idle _ fun t => by rw [tile_congr htiles]; exact hidle t,
      takeMgmt_idle _ (hbox'.trans hbox) (hrcv'.trans hrcv)]
  rw [hcore, twTick_idle _ (htw'.trans htw)]
  exact sameCore_trans hsame (sameCore_calTick _)

/-- The always-on part of a cycle: the tick is counted, time goes on, and disturbances strike. -/
def tickAon (s : State) : State := strikeTick (tickTime { s with ticks := s.ticks + 1 })

theorem tick_eq (s : State) :
    tick s = if rd (tickAon s) ckPg ck_ROOT_LOCK = 1 then calTick (twTick (tickCore (tickAon s))) else tickAon s := rfl

theorem tickAon_frame (s : State) : SameAon { s with ticks := s.ticks + 1 } (tickAon s) :=
  sameAon_tickTime { s with ticks := s.ticks + 1 }

/-- A cycle without the root PLL's lock, or of a module that rests, counts its tick, and under the lock its cycle. -/
theorem tick_idle {s : State} (h : rd s ckPg ck_ROOT_LOCK = 0
      ∨ ((∀ t, enginesIdle (s.tile t) = true) ∧ s.mgmtBox = [] ∧ s.mgmtRcv = [] ∧ s.twRun = none)) :
    SameCore { s with ticks := s.ticks + 1, cycles := s.cycles + rd s ckPg ck_ROOT_LOCK } (tick s) := by
  obtain ⟨hsame, hbox', hrcv', htw', hticked⟩ := tickAon_frame s
  have hlock : rd (tickAon s) ckPg ck_ROOT_LOCK = rd s ckPg ck_ROOT_LOCK := hticked
  have hbit : rd s ckPg ck_ROOT_LOCK < 2 := rdi_lt s ckPg ck_ROOT_LOCK 0
  rw [tick_eq, hlock]
  by_cases hlocked : rd s ckPg ck_ROOT_LOCK = 1
  · obtain ⟨hidle, hbox, hrcv, htw⟩ := h.resolve_left (by omega)
    obtain ⟨hspool, hlp, hflash, htiles, hnet, hticks, hcycles⟩ := hsame
    rw [if_pos hlocked, hlocked]
    have hcore := tickCore_idle (s := tickAon s) (fun t => by rw [tile_congr htiles]; exact hidle t) (hbox'.trans hbox)
      (hrcv'.trans hrcv) (htw'.trans htw)
    exact sameCore_trans (x := { tickAon s with cycles := (tickAon s).cycles + 1 }) ⟨hspool, hlp, hflash, htiles, hnet, hticks, congrArg (· + 1) hcycles⟩ hcore
  · rw [if_neg hlocked, show rd s ckPg ck_ROOT_LOCK = 0 by omega]
    exact hsame

/-- Settles O2: a step on an empty queue is a tick; each part of a tick, while the engines, the management core and the TW
engine rest, leaves the memories, the tiles and the messages alone. -/
theorem emptyQueueStepIsOneCycle : Obligations.EmptyQueueStepIsOneCycle := by
  unfold Obligations.EmptyQueueStepIsOneCycle
  intro s hpending
  refine ⟨settle s (tick s), by rw [step, hpending, done], hpending, rfl, fun h => ?_⟩
  obtain ⟨hspool, hlp, hflash, htiles, hnet, hticks, hcycles⟩ := tick_idle h
  exact ⟨hspool, hlp, hflash, htiles, hnet, hticks, hcycles⟩

end Sys2Proof.Machine
end

section
/-! PROOFS. What a register write, a register read and an access of LPDDR5X leave of the host's queues. -/

namespace Sys2Proof.Machine

open Sys2Proof.Claims

/-- The host's queues, as a function that `simp` takes through the model's operations. -/
def hostQueues (s : State) : SMap (Option HostQ) := s.queues

/-- A part of the state other than the queues may change. -/
theorem hostQueues_congr {x y : State} (h : y.queues = x.queues) : hostQueues y = hostQueues x := h

@[simp] theorem hostQueues_ite (c : Prop) [Decidable c] (x y : State) :
    hostQueues (if c then x else y) = if c then hostQueues x else hostQueues y := apply_ite hostQueues c x y

theorem hostQueues_ite_of {c : Prop} [Decidable c] {x y : State} (h : hostQueues x = hostQueues y) :
    hostQueues (if c then x else y) = hostQueues y := by
  rw [hostQueues_ite, h, ite_self]

@[simp] theorem hostQueues_forEach {α : Type} (l : List α) (f : α → State → State)
    (h : ∀ a x, hostQueues (f a x) = hostQueues x) (s : State) : hostQueues (forEach l f s) = hostQueues s := by
  induction l generalizing s with
  | nil => rfl
  | cons a l ih => exact (ih (f a s)).trans (h a s)

section
variable (s : State)

@[simp] theorem hostQueues_setW (page off v : Nat) : hostQueues (setW s page off v) = hostQueues s := by
  unfold hostQueues; rfl
@[simp] theorem hostQueues_wri (page : Nat) (f : Fld) (i v : Nat) : hostQueues (wri s page f i v) = hostQueues s := by
  simp [wri]
@[simp] theorem hostQueues_wr (page : Nat) (f : Fld) (v : Nat) : hostQueues (wr s page f v) = hostQueues s := by
  simp [wr]
@[simp] theorem hostQueues_modTile (t : Tile) (f : TileSt → TileSt) : hostQueues (State.modTile s t f) = hostQueues s := by
  unfold hostQueues; rfl
@[simp] theorem hostQueues_send (m : NetMsg) : hostQueues (send s m) = hostQueues s := by
  unfold hostQueues; rfl
@[simp] theorem hostQueues_inci (page : Nat) (f : Fld) (i n : Nat) : hostQueues (inci s page f i n) = hostQueues s := by
  simp [inci]
@[simp] theorem hostQueues_inc (page : Nat) (f : Fld) (n : Nat) : hostQueues (inc s page f n) = hostQueues s := by
  simp [inc]
@[simp] theorem hostQueues_incWrap (page : Nat) (f : Fld) (n : Nat) : hostQueues (incWrap s page f n) = hostQueues s := by
  simp [incWrap]
@[simp] theorem hostQueues_wr64 (page : Nat) (lo hi : Fld) (v : Nat) : hostQueues (wr64 s page lo hi v) = hostQueues s := by
  simp [wr64]
@[simp] theorem hostQueues_wrej (page : Nat) : hostQueues (wrej s page) = hostQueues s := by
  simp [wrej]
@[simp] theorem hostQueues_countWrite (page : Nat) : hostQueues (countWrite s page) = hostQueues s := by
  simp [countWrite]
@[simp] theorem hostQueues_report (page b : Nat) : hostQueues (report s page b) = hostQueues s := by
  unfold report
  split <;> exact hostQueues_congr rfl
@[simp] theorem hostQueues_quietPage (page : Nat) : hostQueues (quietPage s page) = hostQueues s :=
  hostQueues_congr rfl
@[simp] theorem hostQueues_raiseBit (page b : Nat) : hostQueues (raiseBit s page b) = hostQueues s := by
  simp [raiseBit]
@[simp] theorem hostQueues_raiseF (page : Nat) (f : Fld) : hostQueues (raiseF s page f) = hostQueues s := by
  simp [raiseF]
@[simp] theorem hostQueues_logReq (sev code source : Nat) (payload : List Byte) :
    hostQueues (logReq s sev code source payload) = hostQueues s := by
  unfold logReq
  dsimp only
  split
  · exact hostQueues_congr rfl
  · simp only [hostQueues_raiseF, hostQueues_inci, hostQueues_inc]
    exact hostQueues_congr rfl
@[simp] theorem hostQueues_lpWrite (a : Nat) (bs : List Byte) : hostQueues (lpWrite s a bs) = hostQueues s := by
  unfold hostQueues; rfl
@[simp] theorem hostQueues_flWrite (a : Nat) (bs : List Byte) : hostQueues (flWrite s a bs) = hostQueues s := by
  unfold hostQueues; rfl
@[simp] theorem hostQueues_unrequestAll (t : Tile) : hostQueues (unrequestAll s t) = hostQueues s := by
  unfold hostQueues; rfl
@[simp] theorem hostQueues_progress : hostQueues (progress s) = hostQueues s := by
  unfold hostQueues; rfl
@[simp] theorem hostQueues_acceptRec (q : LogReq) : hostQueues (acceptRec s q) = hostQueues s := by
  unfold acceptRec
  dsimp only
  rw [hostQueues_ite_of (by dsimp only [hostQueues]), hostQueues_wr, hostQueues_ite, hostQueues_raiseF, hostQueues_inci]
  exact ite_self _
@[simp] theorem hostQueues_putCopy (i : Nat) (c : TimeCopy) : hostQueues (putCopy s i c) = hostQueues s := by
  simp [putCopy]
@[simp] theorem hostQueues_evClearOp : hostQueues (evClearOp s) = hostQueues s := by
  unfold evClearOp
  simp only [hostQueues_acceptRec, hostQueues_wr, hostQueues_forEach _ _ fun _ _ => hostQueues_wri _ _ _ _ _]
  exact hostQueues_congr rfl
@[simp] theorem hostQueues_optReinitOp : hostQueues (optReinitOp s) = hostQueues s := by
  unfold optReinitOp
  split
  · rfl
  · simp only [hostQueues_wr, hostQueues_putCopy]
    exact hostQueues_congr rfl
@[simp] theorem hostQueues_calSecOp (v : Nat) : hostQueues (calSecOp s v) = hostQueues s := by
  simp [calSecOp]
@[simp] theorem hostQueues_repairWrite (kind a b seq : Nat) : hostQueues (repairWrite s kind a b seq) = hostQueues s := by
  unfold repairWrite
  split
  · exact hostQueues_logReq _ _ _ _ _
  · dsimp only [hostQueues]
    exact hostQueues_flWrite s _ _
@[simp] theorem hostQueues_nmPut (e : Nat) (x : NmEnt) : hostQueues (nmPut s e x) = hostQueues s := by
  unfold hostQueues; rfl
@[simp] theorem hostQueues_setPort (p : Nat) (x : PortSt) : hostQueues (setPort s p x) = hostQueues s := by
  unfold hostQueues; rfl
@[simp] theorem hostQueues_fifoReset (row unit : Nat) : hostQueues (fifoReset s row unit) = hostQueues s := by
  unfold fifoReset
  split
  · rfl
  · exact hostQueues_congr rfl
@[simp] theorem hostQueues_ethFifoReset (n : Nat) : hostQueues (ethFifoReset s n) = hostQueues s := by
  simp [ethFifoReset]
@[simp] theorem hostQueues_holdW (n off v : Nat) : hostQueues (holdW s n off v) = hostQueues s := by
  unfold hostQueues; rfl
@[simp] theorem hostQueues_nmStore (off v : Nat) : hostQueues (nmStore s off v) = hostQueues s := by
  unfold nmStore
  split <;> exact hostQueues_nmPut _ _ _
theorem hostQueues_setHeld (h : SMap (Option W32)) (n off v : Nat) :
    hostQueues (setW { s with loHeld := h } n off v) = hostQueues s :=
  (hostQueues_setW _ _ _ _).trans (hostQueues_congr rfl)

@[simp] theorem hostQueues_storeReg (b : Blk) (n off v : Nat) (fs : List Fld) :
    hostQueues (storeReg s b n off v fs) = hostQueues s := by
  unfold storeReg
  split
  · exact hostQueues_holdW _ _ _ _
  split
  · rw [hostQueues_setHeld]
    split <;> simp
  · simp
@[simp] theorem hostQueues_unmask (n old : Nat) : hostQueues (unmask s n old) = hostQueues s := by
  simp [unmask]
@[simp] theorem hostQueues_forceFaults (n v : Nat) : hostQueues (forceFaults s n v) = hostQueues s := by
  unfold forceFaults
  split <;> simp
@[simp] theorem hostQueues_clearCounters (n : Nat) : hostQueues (clearCounters s n) = hostQueues s := by
  unfold clearCounters
  split
  · rfl
  · refine (hostQueues_forEach _ _ (fun f x => hostQueues_forEach _ _ (fun _ _ => hostQueues_wri _ _ _ _ _) x) _).trans ?_
    exact hostQueues_ite_of (hostQueues_congr rfl)
@[simp] theorem hostQueues_headerAct (n off v oldMask : Nat) : hostQueues (headerAct s n off v oldMask) = hostQueues s := by
  simp [headerAct]
@[simp] theorem hostQueues_pageStore (who : Writer) (n off v : Nat) :
    hostQueues (pageStore who s n off v).2 = hostQueues s := by
  unfold pageStore
  split
  · rfl
  · dsimp only
    simp only [apply_ite Prod.snd, hostQueues_ite, hostQueues_wrej, hostQueues_headerAct, hostQueues_countWrite, hostQueues_progress,
      hostQueues_storeReg, ite_self]
@[simp] theorem hostQueues_calEnd (p : Nat) : hostQueues (calEnd s p) = hostQueues s := by
  simp [calEnd]
@[simp] theorem hostQueues_dmaNote (t : Tile) (p : DmaEnt → Bool) (rsp : Nat) :
    hostQueues (dmaNote s t p rsp) = hostQueues s := by
  simp [dmaNote]
@[simp] theorem hostQueues_lseReturn (q : Nat) (src : Party) (tag : Nat) :
    hostQueues (lseReturn s q src tag) = hostQueues s :=
  hostQueues_congr rfl
@[simp] theorem hostQueues_failLse (a tag : Nat) : hostQueues (failLse s a tag) = hostQueues s := by
  unfold failLse
  dsimp only
  split
  · simp
  · split <;> simp
@[simp] theorem hostQueues_failPkt (ty addr : Nat) (data : List Byte) (lost : Bool) :
    hostQueues (failPkt s ty addr data lost) = hostQueues s := by
  unfold failPkt
  split
  · simp
  split
  · split <;> simp
  split
  · split <;> simp
  · simp
@[simp] theorem hostQueues_queuePkt (p : Nat) (c : LinkClass) (ty flags addr : Nat) (data : List Byte) :
    hostQueues (queuePkt s p c ty flags addr data) = hostQueues s := by
  simp [queuePkt]
@[simp] theorem hostQueues_sendPkt (p : Nat) (c : LinkClass) (ty flags addr : Nat) (data : List Byte) :
    hostQueues (sendPkt s p c ty flags addr data) = hostQueues s := by
  simp [sendPkt]
@[simp] theorem hostQueues_sendRcv (p : Nat) (m : RcvMsg) : hostQueues (sendRcv s p m) = hostQueues s := by
  simp [sendRcv]
@[simp] theorem hostQueues_cxCtrlPkt (p gid attempt kind hem : Nat) :
    hostQueues (cxCtrlPkt s p gid attempt kind hem) = hostQueues s := by
  simp [cxCtrlPkt]
@[simp] theorem hostQueues_updatePartner : hostQueues (updatePartner s) = hostQueues s := by
  simp [updatePartner]
@[simp] theorem hostQueues_clearPend (k : Nat) : hostQueues (clearPend s k) = hostQueues s := by
  simp [clearPend]
@[simp] theorem hostQueues_sendDecision (ts : List Tile) (gid : Nat) (k : DecKind) (hem attempt : Nat) :
    hostQueues (sendDecision s ts gid k hem attempt) = hostQueues s := by
  simp [sendDecision]
@[simp] theorem hostQueues_ctrlEdge (d : CxDesc) (e : CxSrc) (attempt kind hem : Nat) :
    hostQueues (ctrlEdge s d e attempt kind hem) = hostQueues s := by
  unfold ctrlEdge
  split <;> simp
@[simp] theorem hostQueues_cxLast (gid op : Nat) : hostQueues (cxLast s gid op) = hostQueues s := by
  simp [cxLast]
@[simp] theorem hostQueues_abortDesc (d : CxDesc) (ts : List Tile) (hem attempt cause : Nat) (from_ : Option CxSrc) :
    hostQueues (abortDesc s d ts hem attempt cause from_) = hostQueues s := by
  unfold abortDesc
  simp only [hostQueues_logReq, hostQueues_cxLast, hostQueues_inc, hostQueues_raiseF]
  exact (hostQueues_congr rfl).trans ((hostQueues_forEach _ _ (fun _ _ => hostQueues_ctrlEdge _ _ _ _ _ _) _).trans
    (hostQueues_sendDecision _ _ _ _ _ _))
@[simp] theorem hostQueues_abortGroup (g : CxGroup) (cause : Nat) (from_ : Option CxSrc) :
    hostQueues (abortGroup s g cause from_) = hostQueues s := by
  simp [abortGroup]
@[simp] theorem hostQueues_abortWhere (p : CxGroup → Bool) (cause : Nat) :
    hostQueues (abortWhere s p cause) = hostQueues s := by
  simp [abortWhere]
@[simp] theorem hostQueues_abortStow : hostQueues (abortStow s) = hostQueues s := by
  unfold abortStow
  split
  · exact (hostQueues_logReq _ _ _ _ _).trans (hostQueues_congr rfl)
  · rfl
@[simp] theorem hostQueues_setRoot (id : Nat) : hostQueues (setRoot s id) = hostQueues s := by
  unfold setRoot
  refine (hostQueues_wr _ _ _ _).trans ((hostQueues_ite_of ?_).trans (hostQueues_congr rfl))
  simp
@[simp] theorem hostQueues_dropLock (cause : Nat) : hostQueues (dropLock s cause) = hostQueues s := by
  simp [dropLock]
@[simp] theorem hostQueues_acquire : hostQueues (acquire s) = hostQueues s := by
  unfold acquire
  simp only [hostQueues_wr, hostQueues_dropLock]
  exact hostQueues_congr rfl
@[simp] theorem hostQueues_reparent : hostQueues (reparent s) = hostQueues s := by
  unfold reparent
  extract_lets was cs lost s' root
  have hs' : hostQueues s' = hostQueues s := hostQueues_ite_of (hostQueues_raiseF _ _ _)
  have hroot : hostQueues root = hostQueues s := by simp [root, hs']
  clear_value s' root
  split
  · simp [hs', hroot]
  split
  · simp [hs']
  · simp [hs']
@[simp] theorem hostQueues_lpErr (a type : Nat) : hostQueues (lpErr s a type) = hostQueues s := by
  simp [lpErr]
@[simp] theorem hostQueues_lpUe (a : Nat) : hostQueues (lpUe s a) = hostQueues s := by
  simp [lpUe]
theorem hostQueues_with_lpCe (m : SMap Nat) : hostQueues { s with lpCe := m } = hostQueues s := hostQueues_congr rfl
theorem hostQueues_with_lpWeak (m : List Nat) : hostQueues { s with lpWeak := m } = hostQueues s := hostQueues_congr rfl
theorem hostQueues_with_lateObs (m : List (Nat × W32)) : hostQueues { s with lateObs := m } = hostQueues s := hostQueues_congr rfl
theorem hostQueues_with_offers (m : SMap (Option Announce)) : hostQueues { s with offers := m } = hostQueues s :=
  hostQueues_congr rfl

@[simp] theorem hostQueues_lpCorrect (a : Nat) : hostQueues (lpCorrect s a) = hostQueues s := by
  unfold lpCorrect
  dsimp only
  rw [hostQueues_ite_of (by simp only [hostQueues_logReq, hostQueues_raiseF, hostQueues_repairWrite]), hostQueues_with_lpCe,
    hostQueues_wr, hostQueues_inc, hostQueues_lpErr]
theorem lpFixes_cons (l : Nat) (ls : List Nat) :
    lpFixes (l :: ls) s = lpFixes ls (lpCorrect { s with lpWeak := s.lpWeak.erase l } (l * 64)) := by
  delta lpFixes
  rfl

@[simp] theorem hostQueues_lpFixes (ls : List Nat) : hostQueues (lpFixes ls s) = hostQueues s := by
  induction ls generalizing s with
  | nil => rfl
  | cons l ls ih => rw [lpFixes_cons, ih, hostQueues_lpCorrect, hostQueues_with_lpWeak]

@[simp] theorem hostQueues_lpCheck (a n : Nat) (e : Ecc) : hostQueues (lpCheck s a n e).2 = hostQueues s := by
  unfold lpCheck
  split
  · simp
  · cases e
    · simp
    · simp
    · exact (hostQueues_lpUe _ _).trans ((hostQueues_congr rfl).trans (hostQueues_lpFixes _ _))
@[simp] theorem hostQueues_lpPut (a : Nat) (bs : List Byte) (e : Ecc) : hostQueues (lpPut s a bs e).2 = hostQueues s := by
  unfold lpPut
  simp only [apply_ite Prod.snd, hostQueues_ite, hostQueues_lpWrite, hostQueues_lpCheck, ite_self]
@[simp] theorem hostQueues_tackAnnounce (k : Nat) : hostQueues (tackAnnounce s k) = hostQueues s := by
  unfold tackAnnounce
  split
  · refine (hostQueues_forEach _ _ (fun _ _ => hostQueues_cxCtrlPkt _ _ _ _ _ _) _).trans (hostQueues_congr rfl)
  · rfl
@[simp] theorem hostQueues_ring (t : Tile) : hostQueues (ring s t) = hostQueues s := by
  simp [ring]
@[simp] theorem hostQueues_clearSync (t : Tile) : hostQueues (clearSync s t) = hostQueues s := by
  simp [clearSync]
@[simp] theorem hostQueues_beginProgram : hostQueues (beginProgram s) = hostQueues s := by
  unfold beginProgram
  rw [hostQueues_forEach _ _ fun t x => by simp]
  dsimp only [hostQueues]
  exact (hostQueues_wr64 _ _ _ _ _).trans (hostQueues_wr64 _ _ _ _ _)
@[simp] theorem hostQueues_startTile (t : Tile) : hostQueues (startTile s t) = hostQueues s := by
  unfold startTile
  simp only [hostQueues_ite, hostQueues_modTile, hostQueues_wr, hostQueues_clearSync, hostQueues_unrequestAll, ite_self]
@[simp] theorem hostQueues_floodRcv (m : RcvMsg) (but : Option Nat) : hostQueues (floodRcv s m but) = hostQueues s := by
  simp [floodRcv]
@[simp] theorem hostQueues_holdJob (code : Nat) (but : Option Nat) : hostQueues (holdJob s code but) = hostQueues s := by
  unfold holdJob
  split
  · split
    · rfl
    · exact (hostQueues_logReq _ _ _ _ _).trans (hostQueues_congr rfl)
  · simp only [hostQueues_floodRcv, hostQueues_wr, hostQueues_abortStow]
    exact hostQueues_congr rfl
@[simp] theorem hostQueues_setState (p st : Nat) : hostQueues (setState s p st) = hostQueues s := by
  simp [setState]
@[simp] theorem hostQueues_handOver (p q : Nat) : hostQueues (handOver s p q) = hostQueues s := by
  simp [handOver]
@[simp] theorem hostQueues_failWaiting (q : Nat) : hostQueues (failWaiting s q) = hostQueues s := by
  unfold failWaiting
  refine (hostQueues_forEach _ _ (fun m x => ?_) _).trans (hostQueues_congr rfl)
  have hput : hostQueues { x with lseWait := x.lseWait ++ [m] } = hostQueues x := hostQueues_congr rfl
  split
  · split
    · simp
    · exact hput
  · split
    · simp
    · exact hput
  · rfl
@[simp] theorem hostQueues_failHeld (p : Nat) : hostQueues (failHeld s p) = hostQueues s := by
  simp [failHeld]
@[simp] theorem hostQueues_pathLost (p : Nat) : hostQueues (pathLost s p) = hostQueues s := by
  unfold pathLost
  simp only [hostQueues_ite, hostQueues_holdJob, hostQueues_abortWhere, hostQueues_logReq, hostQueues_failWaiting, ite_self,
    hostQueues_forEach _ _ fun _ _ => hostQueues_failHeld _ _]
  exact hostQueues_congr rfl
@[simp] theorem hostQueues_failPort (p : Nat) : hostQueues (failPort s p) = hostQueues s := by
  unfold failPort
  split <;> simp
@[simp] theorem hostQueues_leaveActive (p : Nat) : hostQueues (leaveActive s p) = hostQueues s := by
  simp [leaveActive]
@[simp] theorem hostQueues_spared (p w : Nat) : hostQueues (spared s p w) = hostQueues s := by
  simp [spared]
@[simp] theorem hostQueues_calibrateIdle (p : Nat) (c : Cal) : hostQueues (calibrateIdle s p c) = hostQueues s := by
  unfold calibrateIdle
  dsimp only
  split
  · simp
  split
  · simp
  · split <;> simp
@[simp] theorem hostQueues_calBegin (p : Nat) (c : Cal) : hostQueues (calBegin s p c) = hostQueues s := by
  simp [calBegin]
@[simp] theorem hostQueues_beginTraining (p : Nat) : hostQueues (beginTraining s p) = hostQueues s := by
  simp [beginTraining]
@[simp] theorem hostQueues_enablePort (p : Nat) : hostQueues (enablePort s p) = hostQueues s := by
  simp [enablePort]
@[simp] theorem hostQueues_disablePort (p : Nat) : hostQueues (disablePort s p) = hostQueues s := by
  unfold disablePort
  dsimp only
  split
  · simp
  · rw [hostQueues_reparent, hostQueues_setPort, hostQueues_ite_of (hostQueues_failPort _ _), hostQueues_with_offers,
      hostQueues_setState, hostQueues_leaveActive, hostQueues_wr]
@[simp] theorem hostQueues_writeFail : hostQueues (writeFail s) = hostQueues s := by
  unfold writeFail
  simp only [hostQueues_wr, hostQueues_raiseF]
  exact hostQueues_congr rfl
@[simp] theorem hostQueues_armT0 (v : Nat) : hostQueues (armT0 s v) = hostQueues s := by
  unfold armT0
  dsimp only
  split
  · rw [hostQueues_raiseF]
    dsimp only [hostQueues]
    exact hostQueues_wr64 _ _ _ _ _
  · dsimp only [hostQueues]
    exact (hostQueues_wr64 _ _ _ _ _).trans ((hostQueues_wr64 _ _ _ _ _).trans (hostQueues_wr64 _ _ _ _ _))
@[simp] theorem hostQueues_lateObs (entry : Nat) : hostQueues (lateObs s entry) = hostQueues s := by
  simp [lateObs]
@[simp] theorem hostQueues_nmTake (x : Nat × W32) : hostQueues (nmTake s x) = hostQueues s := by
  simp [nmTake]
@[simp] theorem hostQueues_nmWriteTable : hostQueues (nmWriteTable s) = hostQueues s := by
  simp [nmWriteTable]
@[simp] theorem hostQueues_driftOne (i : Nat) (a : W32) (first : Bool) :
    hostQueues (driftOne s i a first) = hostQueues s := by
  simp [driftOne]
@[simp] theorem hostQueues_commitOne (first : Option Nat) (i : Nat) :
    hostQueues (commitOne first i s) = hostQueues s := by
  simp [commitOne]

@[simp] theorem hostQueues_commitOp : hostQueues (commitOp s) = hostQueues s := by
  unfold commitOp
  dsimp only
  rw [hostQueues_forEach _ _ fun _ _ => hostQueues_nmTake _ _, hostQueues_with_lateObs, hostQueues_wr, hostQueues_incWrap,
    hostQueues_nmWriteTable, hostQueues_forEach _ _ fun _ _ => hostQueues_commitOne _ _ _, hostQueues_wr, hostQueues_wr, hostQueues_wr]
@[simp] theorem hostQueues_loadOp : hostQueues (loadOp s) = hostQueues s := by
  simp [loadOp]
@[simp] theorem hostQueues_coldOp : hostQueues (coldOp s) = hostQueues s := by
  simp [coldOp]
@[simp] theorem hostQueues_bbResult (r : W128) : hostQueues (bbResult s r) = hostQueues s := by
  simp [bbResult]
@[simp] theorem hostQueues_bbGoOp : hostQueues (bbGoOp s) = hostQueues s := by
  simp [bbGoOp]
@[simp] theorem hostQueues_bbKatOp : hostQueues (bbKatOp s) = hostQueues s := by
  simp [bbKatOp]
@[simp] theorem hostQueues_katFailedOp : hostQueues (katFailedOp s) = hostQueues s := by
  simp [katFailedOp]
@[simp] theorem hostQueues_lpStore (a : Nat) (bs : List Byte) (e : Ecc) :
    hostQueues (lpStore s a bs e).2 = hostQueues s := by
  unfold lpStore
  induction pieces 64 a bs.length generalizing s e with
  | nil => rfl
  | cons p ps ih => exact (ih _ _).trans (hostQueues_lpPut _ _ _ _)

@[simp] theorem hostQueues_putOwn (b : Nat) (e e' : List Byte) : hostQueues (putOwn s b e e').2 = hostQueues s := by
  unfold putOwn
  split <;> simp
theorem hostQueues_putSection (b old n : Nat) (r : Nat × State) (j : Nat) :
    hostQueues (putSection b old n r j).2 = hostQueues r.2 := by
  simp [putSection, apply_ite Prod.snd]

theorem hostQueues_putSections (b old n : Nat) (js : List Nat) (r : Nat × State) :
    hostQueues (js.foldl (putSection b old n) r).2 = hostQueues r.2 := by
  induction js generalizing r with
  | nil => rfl
  | cons j js ih => exact (ih _).trans (hostQueues_putSection _ _ _ _ _)

@[simp] theorem hostQueues_homeCommit (n : Nat) : hostQueues (homeCommit s n).2 = hostQueues s := by
  unfold homeCommit
  simp only [apply_ite Prod.snd, hostQueues_ite, hostQueues_wr, hostQueues_lpWrite, hostQueues_putSections, ite_self]
@[simp] theorem hostQueues_twinPut (off : Nat) (data : List Byte) : hostQueues (twinPut s off data) = hostQueues s := by
  unfold twinPut
  dsimp only [hostQueues]
  exact hostQueues_send s _
@[simp] theorem hostQueues_copySections (es : List (List Byte)) : hostQueues (copySections s es) = hostQueues s := by
  simp [copySections]
@[simp] theorem hostQueues_twinCopy (n : Nat) (seed : Bool) : hostQueues (twinCopy s n seed) = hostQueues s := by
  unfold twinCopy
  dsimp only
  split
  · simp
  · split
    · simp
    · simp only [hostQueues_copySections, hostQueues_wr]
      exact hostQueues_congr rfl
@[simp] theorem hostQueues_twCommitOp (rsp : Nat) : hostQueues (twCommitOp s rsp) = hostQueues s := by
  unfold twCommitOp
  dsimp only
  split
  · rfl
  split
  · simp
  split
  · dsimp only [hostQueues]
    exact (hostQueues_homeCommit _ _).trans ((hostQueues_wr _ _ _ _).trans (hostQueues_wr _ _ _ _))
  · simp
@[simp] theorem hostQueues_twSeedOp (rsp : Nat) : hostQueues (twSeedOp s rsp) = hostQueues s := by
  simp [twSeedOp]
@[simp] theorem hostQueues_runAllOp : hostQueues (runAllOp s) = hostQueues s := by
  simp [runAllOp]
@[simp] theorem hostQueues_itPut (p : Nat) (x : ItTile) : hostQueues (itPut s p x) = hostQueues s := by
  unfold hostQueues; rfl
@[simp] theorem hostQueues_releaseNow : hostQueues (releaseNow s) = hostQueues s := by
  unfold releaseNow
  split
  · exact hostQueues_congr rfl
  · rfl
@[simp] theorem hostQueues_abandonTests : hostQueues (abandonTests s) = hostQueues s := by
  simp [abandonTests]
@[simp] theorem hostQueues_mgGoOp : hostQueues (mgGoOp s) = hostQueues s := by
  simp [mgGoOp]
@[simp] theorem hostQueues_lkCfgAct (p was : Nat) : hostQueues (lkCfgAct s p was) = hostQueues s := by
  simp [lkCfgAct]
@[simp] theorem hostQueues_freshFree : hostQueues (freshFree s).2 = hostQueues s :=
  hostQueues_congr rfl

@[simp] theorem hostQueues_calWlAct (p w : Nat) : hostQueues (calWlAct s p w) = hostQueues s := by
  unfold calWlAct
  split <;> simp
@[simp] theorem hostQueues_enCfgAct (n was : Nat) : hostQueues (enCfgAct s n was) = hostQueues s := by
  simp [enCfgAct]

end

end Sys2Proof.Machine
end

section
/-! PROOFS. REG_WRITE and REG_READ leave the host's queues: what the actions of the blocks do (R541 to R549). -/

namespace Sys2Proof.Machine

open Sys2Proof.Claims

@[simp] theorem hostQueues_onBit (v b : Nat) (f : State → State) (h : ∀ x, hostQueues (f x) = hostQueues x) (s : State) :
    hostQueues (onBit v b f s) = hostQueues s :=
  hostQueues_ite_of (h s)

section
variable (s : State)

theorem hostQueues_drawEntropy : hostQueues (drawEntropy s).2 = hostQueues s := by
  unfold drawEntropy
  split
  · rfl
  · rw [hostQueues_wr]
    exact hostQueues_congr rfl

theorem hostQueues_drawWords (n : Nat) : hostQueues (drawWords n s).2 = hostQueues s := by
  induction n generalizing s with
  | zero => rfl
  | succ n ih => exact (ih _).trans (hostQueues_drawEntropy s)

@[simp] theorem hostQueues_challengeOp : hostQueues (challengeOp s) = hostQueues s := by
  simp [challengeOp, hostQueues_drawWords]

/-- No action of a tile page is open to host software (R199, R553). -/
theorem tlAct_of_not_mgmtOnly (t : Tile) (off v : Nat) (h40 : off ≠ 0x040) (h80 : off ≠ 0x080) (h108 : off ≠ 0x108) :
    tlAct s t off v = s := by
  simp [tlAct, h40, h80, h108]

theorem hostQueues_blockAct (n off v was : Nat) (b : Blk) (h : b = .tl → off ≠ 0x040 ∧ off ≠ 0x080 ∧ off ≠ 0x108) :
    hostQueues (blockAct s n off v was b) = hostQueues s := by
  cases b
  case tl =>
    obtain ⟨h40, h80, h108⟩ := h rfl
    exact congrArg hostQueues (tlAct_of_not_mgmtOnly s _ off v h40 h80 h108)
  case ev =>
    have hset : hostQueues { s with optSet := true } = hostQueues s := hostQueues_congr rfl
    simp [blockAct, hset]
  case tm =>
    have hset : hostQueues { s with epoch := some (rd64 s n tm_EPOCH_LO tm_EPOCH_HI) } = hostQueues s := hostQueues_congr rfl
    simp [blockAct, hset]
  case gs =>
    have hset : hostQueues { s with recovery := none } = hostQueues s := hostQueues_congr rfl
    simp [blockAct, hset]
  all_goals simp [blockAct]

/-- A write that REG_WRITE does not refuse leaves the host's queues (R522). -/
theorem hostQueues_pageWrite (n off v : Nat) (h : mgmtOnly s n off v = false) (x : State) :
    hostQueues (pageWrite .host x n off v).2 = hostQueues x := by
  unfold pageWrite
  dsimp only
  split
  · simp
  split
  next b hb =>
    have htl : b = .tl → off ≠ 0x040 ∧ off ≠ 0x080 ∧ off ≠ 0x108 := by
      rintro rfl
      have h' : off ≠ 0x01C ∧ off ≠ 0x040 ∧ off ≠ 0x080 ∧ off ≠ 0x108 := by simpa [mgmtOnly, hb, and_assoc] using h
      exact h'.2
    split
    · simp
    · rw [hostQueues_blockAct _ _ _ _ _ _ htl, hostQueues_pageStore]
  next => simp

theorem hostQueues_freshSense : hostQueues (freshSense s).2 = hostQueues s := hostQueues_congr rfl

@[simp] theorem hostQueues_latchRec : hostQueues (latchRec s) = hostQueues s := by
  simp [latchRec]

theorem hostQueues_readFx (n off : Nat) : hostQueues (readFx s n off) = hostQueues s := by
  unfold readFx
  split <;> simp [hostQueues_freshSense]

theorem hostQueues_pageRead (n off : Nat) : hostQueues (pageRead s n off).2 = hostQueues s := by
  unfold pageRead
  split
  · rw [hostQueues_readFx, hostQueues_freshSense]
  · exact hostQueues_readFx s n off

end

end Sys2Proof.Machine
end

section
/-! PROOFS. Host commands: what the fetch of an entry and its completion do, and the data and register commands (R513 to
R522). -/

namespace Sys2Proof.Machine

open Sys2Proof.Claims

/-! ### Completions -/

/-- The memories, their bad and weak words and lines, and the tiles, as one value. -/
def memParts (s : State) :=
  (s.spool, s.spoolBad, s.spoolWeak, s.lp, s.lpBad, s.lpWeak, s.flash, s.tiles)

theorem sameMem_of_parts {s x : State} (h : memParts x = memParts s) : SameMem s x := by
  simpa only [SameMem, memParts, Prod.mk.injEq] using h

/-- A queue after its head entry, fetched as `h` says, completed. -/
def posted (h : HostQ) (c : Cpl) : HostQ := { h with head := (h.head + 1) % 2 ^ 32, cpls := h.cpls ++ [c] }

theorem queueGet_queuePut (s : State) (k : Nat) (v : Option HostQ) : queueGet (queuePut s k v) k = v :=
  smGet_smPut_same _ _ _ _

theorem queuePut_net (s : State) (k : Nat) (v : Option HostQ) : (queuePut s k v).net = s.net := rfl

theorem queuePut_regs (s : State) (k : Nat) (v : Option HostQ) : (queuePut s k v).regs = s.regs := rfl

theorem memParts_queuePut (s : State) (k : Nat) (v : Option HostQ) : memParts (queuePut s k v) = memParts s := rfl

theorem memParts_settle (s x : State) : memParts (settle s x) = memParts x := rfl

theorem queueGet_congr {x y : State} (h : hostQueues x = hostQueues y) (k : Nat) : queueGet x k = queueGet y k :=
  congrArg (fun m => smGet (fun _ => none) m k) h

theorem complete_eq {s : State} {k : Nat} {h : HostQ} (hq : queueGet s k = some h) (e : List Byte) (st d : Nat) :
    complete s k e st d = queuePut s k (some { h with cpls := h.cpls ++ [cplOf e st d] }) := by
  rw [complete, pushCpl, hq]

section
variable {s x : State} {q : QRef} {h : HostQ} {e : List Byte}

/-- A command that completes in a state whose queues are those after the fetch completes its entry. -/
theorem complete_taken (hx : hostQueues x = hostQueues (taken s q h)) (st d : Nat) :
    complete x (qref q) e st d = queuePut x (qref q) (some (posted h (cplOf e st d))) :=
  complete_eq ((queueGet_congr hx _).trans (queueGet_queuePut _ _ _)) e st d

/-- What a command's completion needs: its body completes the entry in a state `x` with the queues after the fetch, and the
messages, the registers and the memories of `x` are all that is said of the state after it. -/
theorem posts_of_body {c : Instr} {op st d : Nat} {body : State → Nat → List Byte → State} {P : State → Prop}
    (hexec : Machine.exec c s = hostCmd q op body s) (r : EntryRuns s q op h e)
    (hbody : body (taken s q h) (qref q) e = complete x (qref q) e st d) (hx : hostQueues x = hostQueues (taken s q h))
    (hP : ∀ s' : State, s'.net = x.net → s'.regs = x.regs → memParts s' = memParts x → P s') : Posts c s q h e st d P := by
  refine ⟨_, hexec.trans (hostCmd_runs s q op h e body r), ?_⟩
  rw [hbody, complete_taken hx]
  refine ⟨?_, hP _ ?_ ?_ ?_⟩
  · rw [queueGet, settle_queues]
    exact queueGet_queuePut _ _ _
  · rw [settle_net, queuePut_net]
  · rw [settle_regs, queuePut_regs]
  · rw [memParts_settle, memParts_queuePut]

end

/-! ### What the operations of a command change -/

theorem lpErr_eq (s : State) (a type : Nat) : ∃ r, lpErr s a type = { s with regs := r } :=
  wr_eq_regs (wr_eq_regs (wr_eq_regs (wr_eq_regs ⟨s.regs, rfl⟩ _ _ _) _ _ _) _ _ _) _ _ _

/-- An uncorrectable line is counted, flagged and logged, and no memory changes (R280). -/
theorem lpUe_eq (s : State) (a : Nat) :
    ∃ r i h q, lpUe s a = { s with regs := r, irqs := i, hostIrqs := h, logQ := q } := by
  unfold lpUe
  dsimp only
  obtain ⟨r, herr⟩ := lpErr_eq s a 2
  rw [herr, raiseF]
  obtain ⟨r, i, h, hbit⟩ := raiseBit_eq { s with regs := r } (lpPgOf a) lp_F_UE.lo
  rw [hbit, inc]
  obtain ⟨r, hcount⟩ := inci_eq { s with regs := r, irqs := i, hostIrqs := h } (lpPgOf a) lp_UE_CNT 0 1
  rw [hcount]
  obtain ⟨r, i, h, q, hlog⟩ := logReq_eq { s with regs := r, irqs := i, hostIrqs := h } 3 0x0204 (lpPgOf a) 
    (leBytes 5 a ++ b1 (lpChan a))
  exact ⟨r, i, h, q, hlog⟩

theorem lpCheck_bad (s : State) (a n : Nat) (e : Ecc) (h : lpIsBad s a n = true) :
    lpCheck s a n e = (false, lpUe s (lpBadAt s a n)) := by
  rw [lpCheck, if_pos h]

theorem memParts_lpUe (s : State) (a : Nat) : memParts (lpUe s a) = memParts s := by
  obtain ⟨_, _, _, _, heq⟩ := lpUe_eq s a
  rw [heq]; rfl

theorem net_lpUe (s : State) (a : Nat) : (lpUe s a).net = s.net := by
  obtain ⟨_, _, _, _, heq⟩ := lpUe_eq s a
  rw [heq]

/-- A signal or a message that is posted joins the messages or the packets of a port, or its failure is reported. -/
theorem post_eq (s : State) (m : NetMsg) (h : (∃ src w, m = .signal src w) ∨ ∃ st w d r, m = .mbox st w d r) :
    ∃ p n, post s m = { s with ports := p, net := n } := by
  have hfail : ∀ (ty addr : Nat) (data : List Byte), ty = tySignal ∨ ty = tyMailbox →
      ∃ p n, failPkt s ty addr data false = { s with ports := p, net := n } := by
    rintro ty addr data (rfl | rfl)
    · rw [failPkt, if_neg (by decide), if_neg (by decide), if_pos rfl]
      split <;> exact ⟨_, _, rfl⟩
    · rw [failPkt, if_neg (by decide), if_neg (by decide), if_neg (by decide)]
      split <;> exact ⟨_, _, rfl⟩
  have hsend : ∀ (p : Nat) (c : LinkClass) (ty addr : Nat) (data : List Byte), ty = tySignal ∨ ty = tyMailbox →
      ∃ p' n, sendPkt s p c ty 0 addr data = { s with ports := p', net := n } := by
    intro p c ty addr data hty
    rw [sendPkt]
    split
    · exact ⟨_, _, rfl⟩
    split
    · exact ⟨_, _, rfl⟩
    · exact hfail ty addr data hty
  obtain ⟨src, w, rfl⟩ | ⟨st, w, d, r, rfl⟩ := h
  · rw [post, postSignal]
    split
    · exact ⟨_, _, rfl⟩
    · exact hsend _ _ _ _ _ (.inl rfl)
  · rw [post]
    split
    · exact ⟨_, _, rfl⟩
    · exact hsend _ _ _ _ _ (.inr rfl)

theorem post_frame (s : State) (m : NetMsg) (h : (∃ src w, m = .signal src w) ∨ ∃ st w d r, m = .mbox st w d r) :
    hostQueues (post s m) = hostQueues s ∧ (post s m).regs = s.regs ∧ memParts (post s m) = memParts s := by
  obtain ⟨p, n, heq⟩ := post_eq s m h
  rw [heq]
  exact ⟨rfl, rfl, rfl⟩

end Sys2Proof.Machine
end

section
/-! PROOFS. Writes of LPDDR5X that begin or end inside a line (R280). -/

namespace Sys2Proof.Machine

open Sys2Proof.Claims

/-! ### Lines without an error -/

/-- The lines of a part of a range are lines of the range. -/
theorem lpTouch_part {a n o k l : Nat} (ha : a ≤ o) (hn : o + k ≤ a + n) (h : lpTouch o k l = true) : lpTouch a n l = true := by
  simp only [lpTouch, Bool.and_eq_true, decide_eq_true_eq] at h ⊢
  omega

theorem lpGood_of_subset {s x : State} {a n o k : Nat} (h : LpGood s a n) (ha : a ≤ o) (hn : o + k ≤ a + n)
    (hbad : ∀ l ∈ x.lpBad, l ∈ s.lpBad) (hweak : ∀ l ∈ x.lpWeak, l ∈ s.lpWeak) : LpGood x o k := by
  obtain ⟨hb, hw⟩ := h
  rw [lpIsBad, List.any_eq_false] at hb
  rw [List.filter_eq_nil_iff] at hw
  exact ⟨List.any_eq_false.2 fun l hl ht => hb l (hbad l hl) (lpTouch_part ha hn ht),
    List.filter_eq_nil_iff.2 fun l hl ht => hw l (hweak l hl) (lpTouch_part ha hn ht)⟩

theorem lpPut_good {s : State} {a : Nat} {bs : List Byte} (h : LpGood s a bs.length) : lpPut s a bs .ok = (rOK, lpWrite s a bs) := by
  rw [lpPut, lpCheck_good s a _ h]
  exact ite_self _

/-! ### The pieces of a write -/

theorem memWrite_append (xs ys : List Byte) (m : SMap Byte) (a : Nat) :
    memWrite m a (xs ++ ys) = memWrite (memWrite m a xs) (a + xs.length) ys := by
  induction xs generalizing m a with
  | nil => rfl
  | cons x xs ih =>
    rw [List.cons_append, memWrite, ih, memWrite, List.length_cons, Nat.add_assoc, Nat.add_comm 1]

/-- The pieces lie one after the other from `o` to `z`. -/
def Consecutive (z : Nat) : Nat → List (Nat × Nat) → Prop
  | o, [] => o = z
  | o, p :: ps => p.1 = o ∧ Consecutive z (o + p.2) ps

theorem consecutive_filter {z : Nat} (ps : List (Nat × Nat)) {o : Nat} (h : Consecutive z o ps) :
    Consecutive z o (ps.filter (fun x => x.2 != 0)) := by
  induction ps generalizing o with
  | nil => exact h
  | cons p ps ih =>
    obtain ⟨ho, hps⟩ := h
    by_cases hp : p.2 = 0
    · rw [List.filter_cons_of_neg (by simp [hp])]
      exact ih (by rwa [hp] at hps)
    · rw [List.filter_cons_of_pos (by simp [hp])]
      exact ⟨ho, ih hps⟩

theorem consecutive_le {z : Nat} {ps : List (Nat × Nat)} {o : Nat} (h : Consecutive z o ps) : o ≤ z := by
  induction ps generalizing o with
  | nil => exact h.le
  | cons p ps ih => exact Nat.le_of_add_right_le (ih h.2)

theorem consecutive_pieces (u a n : Nat) : Consecutive (a + n) a (pieces u a n) := by
  refine consecutive_filter _ ⟨rfl, rfl, rfl, ?_⟩
  have hm := Nat.div_mul_le_self (n - min n ((u - a % u) % u)) u
  have hh := Nat.min_le_left n ((u - a % u) % u)
  show a + min n ((u - a % u) % u) + (n - min n ((u - a % u) % u)) / u * u
    + (n - min n ((u - a % u) % u) - (n - min n ((u - a % u) % u)) / u * u) = a + n
  generalize min n ((u - a % u) % u) = k at *
  omega

/-- Pieces in lines without an error are written one after the other, as one write. -/
theorem putPieces_good (a : Nat) (bs : List Byte) (ps : List (Nat × Nat)) {o : Nat} {s : State} (ha : a ≤ o)
    (hps : Consecutive (a + bs.length) o ps) (hgood : LpGood s o (a + bs.length - o)) :
    ∃ b w, putPieces 64 lpPut a bs ps .ok s
      = (rOK, { s with lp := memWrite s.lp o (bs.drop (o - a)), lpBad := b, lpWeak := w }) := by
  induction ps generalizing o s with
  | nil =>
    obtain rfl := hps
    refine ⟨s.lpBad, s.lpWeak, ?_⟩
    rw [Nat.add_sub_cancel_left, List.drop_length]
    rfl
  | cons p ps ih =>
    obtain ⟨o', n⟩ := p
    obtain ⟨rfl, hps⟩ := hps
    have hz := consecutive_le hps
    have hlen : ((bs.drop (o' - a)).take n).length = n := by
      rw [List.length_take, List.length_drop]; omega
    have hput := lpPut_good (s := s) (a := o') (bs := (bs.drop (o' - a)).take n)
      (lpGood_of_subset hgood (Nat.le_refl _) (by omega) (fun _ h => h) (fun _ h => h))
    have hrest : LpGood (lpWrite s o' ((bs.drop (o' - a)).take n)) (o' + n) (a + bs.length - (o' + n)) :=
      lpGood_of_subset hgood (by omega) (by omega) (fun _ h => List.mem_of_mem_filter h) (fun _ h => List.mem_of_mem_filter h)
    obtain ⟨b, w, hps⟩ := ih (by omega) hps hrest
    refine ⟨b, w, ?_⟩
    have hbytes : memWrite s.lp o' (bs.drop (o' - a))
        = memWrite (memWrite s.lp o' ((bs.drop (o' - a)).take n)) (o' + n) (bs.drop (o' + n - a)) := by
      have := memWrite_append ((bs.drop (o' - a)).take n) (bs.drop (o' + n - a)) s.lp o'
      rw [hlen] at this
      rw [← this, show o' + n - a = o' - a + n by omega, ← List.drop_drop, List.take_append_drop]
    rw [putPieces, hput]
    dsimp only
    rw [ite_self, hps, hbytes]
    rfl

/-- A write to lines without an error stores its bytes; registers and flash are as before (R280). -/
theorem lpStore_good {s : State} {a : Nat} {bs : List Byte} (h : LpGood s a bs.length) :
    (lpStore s a bs .ok).1 = rOK ∧ (lpStore s a bs .ok).2.lp = memWrite s.lp a bs ∧ (lpStore s a bs .ok).2.regs = s.regs
      ∧ (lpStore s a bs .ok).2.flash = s.flash := by
  obtain ⟨b, w, heq⟩ := putPieces_good a bs _ (Nat.le_refl a) (consecutive_pieces 64 a bs.length)
    (s := s) (by rwa [Nat.add_sub_cancel_left])
  rw [lpStore, heq, Nat.sub_self, List.drop_zero]
  exact ⟨rfl, rfl, rfl, rfl⟩

/-! ### A line that is uncorrectable -/

/-- A write that begins inside an uncorrectable line is answered so (R280). -/
theorem lpStore_bad {s : State} {a : Nat} {bs : List Byte} (hpos : 64 ≤ bs.length) (ha : a % 64 ≠ 0)
    (hbad : lpIsBad s a (64 - a % 64) = true) : (lpStore s a bs .ok).1 = rUe := by
  have hh : min bs.length ((64 - a % 64) % 64) = 64 - a % 64 := by omega
  obtain ⟨ps, hps⟩ : ∃ ps, pieces 64 a bs.length = (a, 64 - a % 64) :: ps :=
    ⟨_, by rw [pieces, hh]; exact List.filter_cons_of_pos (by simp; omega)⟩
  have hlen : (bs.take (64 - a % 64)).length = 64 - a % 64 := by rw [List.length_take]; omega
  have hput : (lpPut s a (bs.take (64 - a % 64)) .ok).1 = rUe := by
    rw [lpPut, hlen, if_neg (by omega), lpCheck_bad s a _ _ hbad]; rfl
  rw [lpStore, hps, putPieces, Nat.sub_self, List.drop_zero]
  dsimp only
  rw [hput]
  rfl

/-- The messages, the spools and the tiles are as before. -/
structure SameOutside (s x : State) : Prop where
  net : x.net = s.net
  spool : x.spool = s.spool
  tiles : x.tiles = s.tiles

theorem SameOutside.refl (s : State) : SameOutside s s := ⟨rfl, rfl, rfl⟩

theorem SameOutside.trans {s x y : State} (h : SameOutside s x) (h' : SameOutside x y) : SameOutside s y :=
  ⟨h'.net.trans h.net, h'.spool.trans h.spool, h'.tiles.trans h.tiles⟩

theorem sameOutside_logReq (s : State) (sev code source : Nat) (payload : List Byte) :
    SameOutside s (logReq s sev code source payload) := by
  obtain ⟨_, _, _, _, heq⟩ := logReq_eq s sev code source payload
  exact heq ▸ ⟨rfl, rfl, rfl⟩

theorem sameOutside_raiseF (s : State) (page : Nat) (f : Fld) : SameOutside s (raiseF s page f) := by
  obtain ⟨_, _, _, heq⟩ := raiseBit_eq s page f.lo
  exact (show raiseF s page f = _ from heq) ▸ ⟨rfl, rfl, rfl⟩

theorem sameOutside_lpUe (s : State) (a : Nat) : SameOutside s (lpUe s a) := by
  obtain ⟨_, _, _, _, heq⟩ := lpUe_eq s a
  exact heq ▸ ⟨rfl, rfl, rfl⟩

theorem sameOutside_repairWrite (s : State) (kind a b seq : Nat) : SameOutside s (repairWrite s kind a b seq) := by
  unfold repairWrite
  split
  · exact sameOutside_logReq _ _ _ _ _
  · exact ⟨rfl, rfl, rfl⟩

theorem sameOutside_lpCorrect (s : State) (a : Nat) : SameOutside s (lpCorrect s a) := by
  have hcount : SameOutside s (wr (inc (lpErr s a 1) (lpPgOf a) lp_CE_CNT 1) (lpPgOf a) lp_ERR_SYMBOL
      (Config.eccSymbol (a / 64) (rd s (lpPgOf a) lp_CE_CNT) % 18)) := by
    obtain ⟨r, h⟩ := lpErr_eq s a 1
    obtain ⟨r', h'⟩ := inci_eq { s with regs := r } (lpPgOf a) lp_CE_CNT 0 1
    rw [h, inc, h']
    exact ⟨rfl, rfl, rfl⟩
  unfold lpCorrect
  dsimp only
  revert hcount
  generalize wr (inc (lpErr s a 1) (lpPgOf a) lp_CE_CNT 1) (lpPgOf a) lp_ERR_SYMBOL _ = x
  intro hcount
  have hx : ∀ m, SameOutside s { x with lpCe := m } := fun _ => hcount.trans ⟨rfl, rfl, rfl⟩
  split
  · exact (hx _).trans ((sameOutside_repairWrite _ _ _ _ _).trans ((sameOutside_raiseF _ _ _).trans
      (sameOutside_logReq _ _ _ _ _)))
  · exact hx _

theorem sameOutside_lpFixes (ls : List Nat) (s : State) : SameOutside s (lpFixes ls s) := by
  induction ls generalizing s with
  | nil => exact .refl s
  | cons l ls ih =>
    rw [lpFixes_cons]
    have hweak : SameOutside s { s with lpWeak := s.lpWeak.erase l } := ⟨rfl, rfl, rfl⟩
    exact hweak.trans ((sameOutside_lpCorrect _ (l * 64)).trans (ih _))

theorem sameOutside_lpCheck (s : State) (a n : Nat) : SameOutside s (lpCheck s a n .ok).2 := by
  unfold lpCheck
  split
  · exact sameOutside_lpUe _ _
  · exact sameOutside_lpFixes _ _

theorem sameOutside_lpPut (s : State) (a : Nat) (bs : List Byte) : SameOutside s (lpPut s a bs .ok).2 := by
  unfold lpPut
  dsimp only
  split
  · exact ⟨rfl, rfl, rfl⟩
  split
  · exact (sameOutside_lpCheck s a bs.length).trans ⟨rfl, rfl, rfl⟩
  · exact sameOutside_lpCheck s a bs.length

theorem sameOutside_putPieces (a : Nat) (bs : List Byte) (ps : List (Nat × Nat)) (s : State) :
    SameOutside s (putPieces 64 lpPut a bs ps .ok s).2 := by
  induction ps generalizing s with
  | nil => exact .refl s
  | cons p ps ih =>
    rw [putPieces, ite_self]
    exact (sameOutside_lpPut _ _ _).trans (ih _)

theorem sameOutside_lpStore (s : State) (a : Nat) (bs : List Byte) : SameOutside s (lpStore s a bs .ok).2 :=
  sameOutside_putPieces a bs _ s

end Sys2Proof.Machine
end

section
/-! PROOFS. The host data commands, and the register, log and region commands (R517, R522). -/

namespace Sys2Proof.Machine

open Sys2Proof.Claims

section
variable {s : State} {q : QRef} {h : HostQ} {e : List Byte}

/-! ### The state after the fetch, and what a command sends -/

theorem taken_net : (taken s q h).net = s.net := queuePut_net _ _ _

theorem taken_regs : (taken s q h).regs = s.regs := queuePut_regs _ _ _

theorem memParts_taken : memParts (taken s q h) = memParts s := memParts_queuePut _ _ _

theorem taken_lp : (taken s q h).lp = s.lp := congrArg (fun m => m.2.2.2.1) (memParts_taken (q := q) (h := h))

theorem lpGood_taken {a n : Nat} : LpGood (taken s q h) a n ↔ LpGood s a n := Iff.rfl

theorem lpIsBad_taken {a n : Nat} : lpIsBad (taken s q h) a n = lpIsBad s a n := rfl

theorem copyBad_taken (a n f : Nat) : copyBad (taken s q h) a n f = copyBad s a n f := rfl

theorem memParts_send (x : State) (m : NetMsg) : memParts (send x m) = memParts x := rfl

theorem answered_net (x : State) : (answered x q).net = x.net := rfl

theorem answered_regs (x : State) : (answered x q).regs = x.regs := rfl

theorem memParts_answered (x : State) : memParts (answered x q) = memParts x := rfl

theorem hostQueues_answered (x : State) : hostQueues (answered x q) = hostQueues x := hostQueues_congr rfl

/-- A command that sends one message, or none, and changes nothing else. -/
theorem posts_sent {c : Instr} {op st d : Nat} {body : State → Nat → List Byte → State} {ms : List NetMsg} {x : State}
    (hexec : Machine.exec c s = hostCmd q op body s) (r : EntryRuns s q op h e)
    (hbody : body (taken s q h) (qref q) e = complete x (qref q) e st d) (hx : hostQueues x = hostQueues (taken s q h))
    (hnet : x.net = ms) (hregs : x.regs = s.regs) (hmem : memParts x = memParts s) :
    Posts c s q h e st d fun s' => s'.net = ms ∧ s'.regs = s.regs ∧ SameMem s s' :=
  posts_of_body hexec r hbody hx fun _ hn hr hm => ⟨hn.trans hnet, hr.trans hregs, sameMem_of_parts (hm.trans hmem)⟩

/-- A command that is answered at once changes nothing else. -/
theorem posts_quiet {c : Instr} {op st d : Nat} {body : State → Nat → List Byte → State}
    (hexec : Machine.exec c s = hostCmd q op body s) (r : EntryRuns s q op h e)
    (hbody : body (taken s q h) (qref q) e = complete (taken s q h) (qref q) e st d) :
    Posts c s q h e st d fun s' => s'.net = s.net ∧ s'.regs = s.regs ∧ SameMem s s' :=
  posts_sent hexec r hbody rfl taken_net taken_regs memParts_taken

/-- A command that sends one message and changes nothing else. -/
theorem posts_send {c : Instr} {op st d : Nat} {body : State → Nat → List Byte → State} {m : NetMsg}
    (hexec : Machine.exec c s = hostCmd q op body s) (r : EntryRuns s q op h e)
    (hbody : body (taken s q h) (qref q) e = complete (send (taken s q h) m) (qref q) e st d) :
    Posts c s q h e st d fun s' => s'.net = s.net ++ [m] ∧ s'.regs = s.regs ∧ SameMem s s' :=
  posts_sent hexec r hbody (hostQueues_send _ _) (by rw [send_net, taken_net]) (by rw [send_regs, taken_regs])
    (by rw [memParts_send, memParts_taken])

/-- The read of the bytes that a command names. -/
theorem needMem_good {a n : Nat} {read : State → State} (hm : LpGood s a n) :
    needMem (taken s q h) (qref q) e a n read = read (taken s q h) := by
  rw [needMem, lpCheck_good (taken s q h) a n (lpGood_taken.2 hm)]
  exact if_pos rfl

/-- What a command leaves that ends in an uncorrectable line (R280). -/
theorem posts_lpUe {c : Instr} {op a n : Nat} {body : State → Nat → List Byte → State}
    (hexec : Machine.exec c s = hostCmd q op body s) (r : EntryRuns s q op h e)
    (hbody : ∃ read, body (taken s q h) (qref q) e = needMem (taken s q h) (qref q) e a n read) (hm : lpIsBad s a n = true) :
    Posts c s q h e csErrUe rUe fun s' => s'.net = s.net ∧ SameMem s s' := by
  obtain ⟨read, hbody⟩ := hbody
  refine posts_of_body (x := lpUe (taken s q h) (lpBadAt (taken s q h) a n)) hexec r (hbody.trans ?_) (hostQueues_lpUe _ _) ?_
  · rw [needMem, lpCheck_bad (taken s q h) a n .ok (lpIsBad_taken.trans hm)]
    exact if_neg Bool.false_ne_true
  · intro s' hn _ hmem
    rw [net_lpUe, taken_net] at hn
    rw [memParts_lpUe, memParts_taken] at hmem
    exact ⟨hn, sameMem_of_parts hmem⟩

/-! ### NOP and the copies -/

theorem nop_posts (r : EntryRuns s q 0x01 h e) :
    Posts (.nop q) s q h e csOK 0 fun s' => s'.net = s.net ∧ s'.regs = s.regs ∧ SameMem s s' :=
  posts_quiet (exec_nop s q) r rfl

section
variable {data : List Byte} {syn : Nat}

theorem copyIn_refused (r : EntryRuns s q 0x02 h e) {x : Nat × Nat} (hx : copyBad s (arg e 2) (arg e 3) 0x18 = some x) :
    Posts (.copyIn q data syn) s q h e x.1 x.2 fun s' => s'.net = s.net ∧ s'.regs = s.regs ∧ SameMem s s' := by
  refine posts_quiet (exec_copyIn s q data syn) r ?_
  rw [← copyBad_taken (q := q) (h := h)] at hx
  simp only [hx]

theorem copyIn_failed (r : EntryRuns s q 0x02 h e) (hx : copyBad s (arg e 2) (arg e 3) 0x18 = none) (hsyn : syn ≠ 0) :
    Posts (.copyIn q data syn) s q h e csRdmaErr syn fun s' =>
      s'.net = s.net ++ [.rdmaReadReq q.port.toNat (arg e 0) (hostKey e 1) (arg e 3)] ∧ s'.regs = s.regs ∧ SameMem s s' := by
  refine posts_send (exec_copyIn s q data syn) r ?_
  rw [← copyBad_taken (q := q) (h := h)] at hx
  simp only [hx]
  exact if_pos hsyn

/-- The state in which the host's bytes are written. -/
def copyReady (s : State) (q : QRef) (h : HostQ) (e : List Byte) : State :=
  answered (send (taken s q h) (.rdmaReadReq q.port.toNat (arg e 0) (hostKey e 1) (arg e 3))) q

theorem hostQueues_copyReady : hostQueues (copyReady s q h e) = hostQueues (taken s q h) :=
  (hostQueues_answered _).trans (hostQueues_send _ _)

theorem copyReady_net :
    (copyReady s q h e).net = s.net ++ [.rdmaReadReq q.port.toNat (arg e 0) (hostKey e 1) (arg e 3)] := by
  rw [copyReady, answered_net, send_net, taken_net]

theorem copyReady_regs : (copyReady s q h e).regs = s.regs := by
  rw [copyReady, answered_regs, send_regs, taken_regs]

theorem memParts_copyReady : memParts (copyReady s q h e) = memParts s := by
  rw [copyReady, memParts_answered, memParts_send, memParts_taken]

/-- COPY_IN of bytes that the host sent completes as their write is answered. -/
theorem posts_copyIn {st : Nat} {P : State → Prop} (r : EntryRuns s q 0x02 h e)
    (hx : copyBad s (arg e 2) (arg e 3) 0x18 = none) (hdata : data.length = arg e 3)
    (hst : (lpStore (copyReady s q h e) (arg e 2) data .ok).1 = st) (hkind : st = rOK ∨ st = rUe)
    (hP : ∀ s' : State, s'.net = (lpStore (copyReady s q h e) (arg e 2) data .ok).2.net →
      s'.regs = (lpStore (copyReady s q h e) (arg e 2) data .ok).2.regs →
      memParts s' = memParts (lpStore (copyReady s q h e) (arg e 2) data .ok).2 → P s') :
    Posts (.copyIn q data 0) s q h e (if st = rOK then csOK else csErrUe) (if st = rOK then 0 else rUe) P := by
  refine posts_of_body (exec_copyIn s q data 0) r ?_ ((hostQueues_lpStore _ _ _ _).trans hostQueues_copyReady) hP
  rw [← copyBad_taken (q := q) (h := h)] at hx
  simp only [hx]
  rw [if_neg (by simp), List.take_of_length_le hdata.le, ← copyReady, hst]
  obtain rfl | rfl := hkind
  · rw [if_pos rfl, if_pos rfl, if_pos rfl]
  · rw [if_neg (by decide), if_neg (by decide), if_neg (by decide)]

theorem copyIn_stored (r : EntryRuns s q 0x02 h e) (hx : copyBad s (arg e 2) (arg e 3) 0x18 = none)
    (hm : LpGood s (arg e 2) (arg e 3)) (hdata : data.length = arg e 3) :
    Posts (.copyIn q data 0) s q h e csOK 0 fun s' =>
      (∀ x, memByte s'.lp x = if arg e 2 ≤ x ∧ x < arg e 2 + arg e 3 then data.getD (x - arg e 2) 0 else memByte s.lp x)
        ∧ s'.net = s.net ++ [.rdmaReadReq q.port.toNat (arg e 0) (hostKey e 1) (arg e 3)]
        ∧ s'.spool = s.spool ∧ s'.flash = s.flash ∧ s'.regs = s.regs ∧ s'.tiles = s.tiles := by
  have hready := memParts_copyReady (s := s) (q := q) (h := h) (e := e)
  simp only [memParts, Prod.mk.injEq] at hready
  obtain ⟨hspool, _, _, hlp, hlpBad, hlpWeak, hflash, htiles⟩ := hready
  obtain ⟨hst, hlp', hregs, hflash'⟩ := lpStore_good (s := copyReady s q h e) (a := arg e 2) (bs := data)
    (by rw [LpGood, lpIsBad, hlpBad, hlpWeak, hdata]; exact hm)
  obtain ⟨hnet, hspool', htiles'⟩ := sameOutside_lpStore (copyReady s q h e) (arg e 2) data
  refine posts_copyIn r hx hdata hst (.inl rfl) fun s' hn hr hmem => ?_
  simp only [memParts, Prod.mk.injEq] at hmem
  obtain ⟨hspool'', _, _, hlp'', _, _, hflash'', htiles''⟩ := hmem
  refine ⟨fun x => ?_, hn.trans (hnet.trans copyReady_net), hspool''.trans (hspool'.trans hspool),
    hflash''.trans (hflash'.trans hflash), hr.trans (hregs.trans copyReady_regs), htiles''.trans (htiles'.trans htiles)⟩
  rw [hlp'', hlp', memByte_memWrite, hdata, hlp]

theorem copyIn_ue (r : EntryRuns s q 0x02 h e) (hx : copyBad s (arg e 2) (arg e 3) 0x18 = none)
    (hdata : data.length = arg e 3) (hpos : 0 < arg e 3) (ha : arg e 2 % 64 ≠ 0)
    (hbad : lpIsBad s (arg e 2) (64 - arg e 2 % 64) = true) :
    Posts (.copyIn q data 0) s q h e csErrUe rUe fun s' =>
      s'.net = s.net ++ [.rdmaReadReq q.port.toNat (arg e 0) (hostKey e 1) (arg e 3)]
        ∧ s'.spool = s.spool ∧ s'.tiles = s.tiles := by
  have hlines : arg e 3 % 64 = 0 := by
    by_contra hne
    unfold copyBad at hx
    split at hx
    · cases hx
    · rw [if_pos (.inl hne)] at hx; cases hx
  have hready := memParts_copyReady (s := s) (q := q) (h := h) (e := e)
  simp only [memParts, Prod.mk.injEq] at hready
  obtain ⟨hspool, _, _, _, hlpBad, _, _, htiles⟩ := hready
  have hst := lpStore_bad (s := copyReady s q h e) (bs := data) (by omega) ha (by rw [lpIsBad, hlpBad]; exact hbad)
  obtain ⟨hnet, hspool', htiles'⟩ := sameOutside_lpStore (copyReady s q h e) (arg e 2) data
  refine posts_copyIn r hx hdata hst (.inr rfl) fun s' hn _ hmem => ?_
  simp only [memParts, Prod.mk.injEq] at hmem
  obtain ⟨hspool'', _, _, _, _, _, _, htiles''⟩ := hmem
  exact ⟨hn.trans (hnet.trans copyReady_net), hspool''.trans (hspool'.trans hspool), htiles''.trans (htiles'.trans htiles)⟩

theorem copyOut_refused (r : EntryRuns s q 0x03 h e) {x : Nat × Nat} (hx : copyBad s (arg e 0) (arg e 3) 0x08 = some x) :
    Posts (.copyOut q syn) s q h e x.1 x.2 fun s' => s'.net = s.net ∧ s'.regs = s.regs ∧ SameMem s s' := by
  refine posts_quiet (exec_copyOut s q syn) r ?_
  rw [← copyBad_taken (q := q) (h := h)] at hx
  simp only [hx]

theorem copyOut_sent (r : EntryRuns s q 0x03 h e) (hx : copyBad s (arg e 0) (arg e 3) 0x08 = none)
    (hm : LpGood s (arg e 0) (arg e 3)) :
    Posts (.copyOut q syn) s q h e (if syn = 0 then csOK else csRdmaErr) syn fun s' =>
      s'.net = s.net ++ [.rdmaWrite q.port.toNat (arg e 1) (hostKey e 2) (memRead s.lp (arg e 0) (arg e 3))]
        ∧ s'.regs = s.regs ∧ SameMem s s' := by
  rw [← copyBad_taken (q := q) (h := h)] at hx
  by_cases hsyn : syn = 0
  · subst hsyn
    rw [if_pos rfl]
    refine posts_sent (x := answered (send (taken s q h) _) q) (exec_copyOut s q 0) r ?_
      ((hostQueues_answered _).trans (hostQueues_send _ _)) (by rw [answered_net, send_net, taken_net])
      (by rw [answered_regs, send_regs, taken_regs]) (by rw [memParts_answered, memParts_send, memParts_taken])
    simp only [hx]
    rw [needMem_good hm, if_neg (by simp), taken_lp]
  · rw [if_neg hsyn]
    refine posts_send (exec_copyOut s q syn) r ?_
    simp only [hx]
    rw [needMem_good hm, if_pos hsyn, taken_lp]

theorem copyOut_ue (r : EntryRuns s q 0x03 h e) (hx : copyBad s (arg e 0) (arg e 3) 0x08 = none)
    (hm : lpIsBad s (arg e 0) (arg e 3) = true) :
    Posts (.copyOut q syn) s q h e csErrUe rUe fun s' => s'.net = s.net ∧ SameMem s s' := by
  rw [← copyBad_taken (q := q) (h := h)] at hx
  exact posts_lpUe (exec_copyOut s q syn) r ⟨_, by simp only [hx]; rfl⟩ hm

end

/-! ### SIGNAL and MAILBOX -/

/-- A signal or a message that is posted changes no queue, register, memory or tile; at its own module it is sent there. -/
theorem posts_post {c : Instr} {op : Nat} {body : State → Nat → List Byte → State} {m : NetMsg}
    (hexec : Machine.exec c s = hostCmd q op body s) (r : EntryRuns s q op h e)
    (hbody : body (taken s q h) (qref q) e = complete (post (taken s q h) m) (qref q) e csOK 0)
    (hm : (∃ src w, m = .signal src w) ∨ ∃ st w d r, m = .mbox st w d r) {P : Prop}
    (hown : P → post (taken s q h) m = send (taken s q h) m) :
    Posts c s q h e csOK 0 fun s' => (P → s'.net = s.net ++ [m]) ∧ s'.regs = s.regs ∧ SameMem s s' := by
  obtain ⟨hqueues, hregs, hmem⟩ := post_frame (taken s q h) m hm
  refine posts_of_body hexec r hbody hqueues fun s' hn hr hmem' =>
    ⟨fun hp => ?_, hr.trans (hregs.trans taken_regs), sameMem_of_parts (hmem'.trans (hmem.trans memParts_taken))⟩
  rw [hn, hown hp, send_net, taken_net]

theorem taken_module : (taken s q h).module = s.module := rfl

/-- The module that the word of a signal or a message names (R185). -/
theorem bits_word (w : Nat) : bits (BitVec.ofNat 64 w).toNat 30 28 = bits w 30 28 := by
  rw [bits_eq, bits_eq, BitVec.toNat_ofNat]
  omega

theorem signalCommand_posts (r : EntryRuns s q 0x04 h e) (hw : sigWordOk (arg e 0) = true) :
    Posts (.signalCommand q) s q h e csOK 0 fun s' =>
      (bits (arg e 0) 30 28 = s.module → s'.net = s.net ++ [.signal (.host q) (BitVec.ofNat 64 (arg e 0))])
        ∧ s'.regs = s.regs ∧ SameMem s s' := by
  refine posts_post (exec_signalCommand s q) r (if_pos hw) (.inl ⟨_, _, rfl⟩) fun hown => ?_
  rw [post, postSignal, bits_word, taken_module, if_pos hown]

theorem signalCommand_refused (r : EntryRuns s q 0x04 h e) (hw : sigWordOk (arg e 0) = false) :
    Posts (.signalCommand q) s q h e csBadField 0x08 fun s' => s'.net = s.net ∧ s'.regs = s.regs ∧ SameMem s s' :=
  posts_quiet (exec_signalCommand s q) r (if_neg (by rw [hw]; exact Bool.false_ne_true))

theorem mailboxCommand_reserved (r : EntryRuns s q 0x05 h e) (hw : wordRsv (arg e 0) = true) :
    Posts (.mailboxCommand q) s q h e csBadField 0x08 fun s' => s'.net = s.net ∧ s'.regs = s.regs ∧ SameMem s s' :=
  posts_quiet (exec_mailboxCommand s q) r (if_pos hw)

theorem inKeep_taken (a n : Nat) : inKeep (taken s q h) a n = inKeep s a n := rfl

theorem mailboxCommand_unmapped (r : EntryRuns s q 0x05 h e) (hw : wordRsv (arg e 0) = false)
    (hlp : inLp (arg e 1) 64 = false) :
    Posts (.mailboxCommand q) s q h e csErrUnmapped 0 fun s' => s'.net = s.net ∧ s'.regs = s.regs ∧ SameMem s s' := by
  refine posts_quiet (exec_mailboxCommand s q) r ?_
  dsimp only
  rw [if_neg (by simp [hw]), if_pos (by simp [hlp])]

theorem mailboxCommand_kept (r : EntryRuns s q 0x05 h e) (hw : wordRsv (arg e 0) = false)
    (hlp : inLp (arg e 1) 64 = true) (hkeep : inKeep s (arg e 1) 64 = true) :
    Posts (.mailboxCommand q) s q h e csBadField 0x10 fun s' => s'.net = s.net ∧ s'.regs = s.regs ∧ SameMem s s' := by
  refine posts_quiet (exec_mailboxCommand s q) r ?_
  dsimp only
  rw [if_neg (by simp [hw]), if_neg (by simp [hlp]), if_pos (by rw [inKeep_taken, hkeep])]

theorem mailboxCommand_ue (r : EntryRuns s q 0x05 h e) (hw : wordRsv (arg e 0) = false)
    (hlp : inLp (arg e 1) 64 = true) (hkeep : inKeep s (arg e 1) 64 = false) (hm : lpIsBad s (arg e 1) 64 = true) :
    Posts (.mailboxCommand q) s q h e csErrUe rUe fun s' => s'.net = s.net ∧ SameMem s s' := by
  exact posts_lpUe (exec_mailboxCommand s q) r
    ⟨_, (if_neg (by simp [hw])).trans ((if_neg (by simp [hlp])).trans (if_neg (by simp [inKeep_taken, hkeep])))⟩ hm

theorem mailboxCommand_posts (r : EntryRuns s q 0x05 h e) (hw : wordRsv (arg e 0) = false)
    (hlp : inLp (arg e 1) 64 = true) (hkeep : inKeep s (arg e 1) 64 = false) (hm : LpGood s (arg e 1) 64) :
    Posts (.mailboxCommand q) s q h e csOK 0 fun s' =>
      (bits (arg e 0) 30 28 = s.module →
        s'.net = s.net ++ [.mbox (hostStamp s q) (BitVec.ofNat 64 (arg e 0)) (memRead s.lp (arg e 1) 64) false])
      ∧ s'.regs = s.regs ∧ SameMem s s' := by
  refine posts_post (exec_mailboxCommand s q) r ?_ (.inr ⟨_, _, _, _, rfl⟩) fun hown => ?_
  · dsimp only
    rw [if_neg (by simp [hw]), if_neg (by simp [hlp]), if_neg (by simp [inKeep_taken, hkeep]), needMem_good hm, taken_lp]
    rw [hostStamp, taken_module, ← hostStamp]
  · rw [post, bits_word, taken_module, if_pos hown]

end

end Sys2Proof.Machine
end

section
/-! PROOFS. The register, log and region commands of the management queue, and the entries that are no command (R513 to R522,
R541). -/

namespace Sys2Proof.Machine

open Sys2Proof.Claims

section
variable {s : State} {q : QRef} {h : HostQ} {e : List Byte}

/-! ### REG_READ -/

theorem memParts_latchRec (x : State) : memParts (latchRec x) = memParts x := by
  unfold latchRec
  dsimp only
  generalize List.range 8 = ws
  generalize slotBytes x (rd x evPg ev_SLOT) = bs
  induction ws generalizing x with
  | nil => rfl
  | cons w ws ih => exact ih (wri x evPg ev_REC_W w (leNat ((bs.drop (4 * w)).take 4)))

/-- A read of a register latches, counts and clears, and touches no memory (R365, R457, R556). -/
theorem memParts_readFx (x : State) (n off : Nat) : memParts (readFx x n off) = memParts x := by
  unfold readFx
  split
  · split
    · rfl
    · split <;> rfl
  · split
    · rfl
    · split <;> rfl
  · split
    · rfl
    · split <;> rfl
  · split
    · exact memParts_latchRec x
    · rfl
  · split <;> rfl
  · rfl

theorem memParts_pageRead (x : State) (n off : Nat) : memParts (pageRead x n off).2 = memParts x := by
  unfold pageRead
  split
  · exact (memParts_readFx _ n off).trans rfl
  · exact memParts_readFx x n off

theorem pageExists_taken (n : Nat) : pageExists (taken s q h) n = pageExists s n := rfl

theorem regRead_misaligned (r : EntryRuns s q 0x49 h e) (ho : argOff e % 4 ≠ 0) :
    Posts (.regRead q) s q h e csBadField 0x08 fun s' => s'.net = s.net ∧ s'.regs = s.regs ∧ SameMem s s' :=
  posts_quiet (exec_regRead s q) r (if_pos ho)

theorem regRead_unmapped (r : EntryRuns s q 0x49 h e) (ho : argOff e % 4 = 0) (hp : pageExists s (argPage e) = false) :
    Posts (.regRead q) s q h e csErrUnmapped 0 fun s' => s'.net = s.net ∧ s'.regs = s.regs ∧ SameMem s s' :=
  posts_quiet (exec_regRead s q) r ((if_neg (by simp [ho])).trans (if_pos (by simp [pageExists_taken, hp])))

theorem regRead_posts (r : EntryRuns s q 0x49 h e) (ho : argOff e % 4 = 0) (hp : pageExists s (argPage e) = true) :
    Posts (.regRead q) s q h e csOK (pageRead (taken s q h) (argPage e) (argOff e)).1 fun s' => SameMem s s' :=
  posts_of_body (exec_regRead s q) r ((if_neg (by simp [ho])).trans (if_neg (by simp [pageExists_taken, hp])))
    (hostQueues_pageRead _ _ _)
    fun _ _ _ hmem => sameMem_of_parts (hmem.trans ((memParts_pageRead _ _ _).trans memParts_taken))

/-! ### REG_WRITE -/

theorem regWrite_misaligned (r : EntryRuns s q 0x4A h e) (ho : argOff e % 4 ≠ 0) :
    Posts (.regWrite q) s q h e csBadField 0x08 fun s' => s'.net = s.net ∧ s'.regs = s.regs ∧ SameMem s s' :=
  posts_quiet (exec_regWrite s q) r (if_pos ho)

theorem regWrite_unmapped (r : EntryRuns s q 0x4A h e) (ho : argOff e % 4 = 0) (hp : pageExists s (argPage e) = false) :
    Posts (.regWrite q) s q h e csErrUnmapped 0 fun s' => s'.net = s.net ∧ s'.regs = s.regs ∧ SameMem s s' :=
  posts_quiet (exec_regWrite s q) r ((if_neg (by simp [ho])).trans (if_pos (by simp [pageExists_taken, hp])))

theorem forceAllowed_taken : forceAllowed (taken s q h) = forceAllowed s := rfl

theorem hostWriteRefused_taken (n off v : Nat) : hostWriteRefused (taken s q h) n off v = hostWriteRefused s n off v := rfl

theorem memParts_freshFree (x : State) : memParts (freshFree x).2 = memParts x := rfl

theorem freshFree_regs (x : State) : (freshFree x).2.regs = x.regs := rfl

theorem regWrite_denied (r : EntryRuns s q 0x4A h e) (ho : argOff e % 4 = 0) (hp : pageExists s (argPage e) = true)
    (hf : argOff e = 0x018) (hforce : forceAllowed s = false) :
    ∃ d, Posts (.regWrite q) s q h e csDenied d fun s' => s'.regs = s.regs ∧ SameMem s s' :=
  ⟨_, posts_of_body (exec_regWrite s q) r
    ((if_neg (by simp [ho])).trans ((if_neg (by simp [pageExists_taken, hp])).trans
      (if_pos ⟨hf, by simp [forceAllowed_taken, hforce]⟩)))
    (hostQueues_freshFree _)
    fun _ _ hr hmem => ⟨hr.trans ((freshFree_regs _).trans taken_regs),
      sameMem_of_parts (hmem.trans ((memParts_freshFree _).trans memParts_taken))⟩⟩

theorem lp_of_memParts {x y : State} (hm : memParts x = memParts y) : x.lp = y.lp := congrArg (fun m => m.2.2.2.1) hm

theorem hostQueues_pageWrite_accepted
    (hopen : hostWriteRefused s (argPage e) (argOff e) (arg e 1 % 2 ^ 32) = false) :
    hostQueues (pageWrite .host (taken s q h) (argPage e) (argOff e) (arg e 1 % 2 ^ 32)).2 = hostQueues (taken s q h) := by
  simp only [hostWriteRefused, Bool.or_eq_false_iff] at hopen
  exact hostQueues_pageWrite s _ _ _ hopen.1.2 _

section
variable (ho : argOff e % 4 = 0) (hp : pageExists s (argPage e) = true)
  (hf : argOff e = 0x018 → forceAllowed s = true)
include ho hp hf

/-- What REG_WRITE does once its address is one of a register and injection of faults is allowed. -/
theorem regWrite_checked {P : State → Prop} {x : State} {st d : Nat} (r : EntryRuns s q 0x4A h e)
    (hbody : (if hostWriteRefused (taken s q h) (argPage e) (argOff e) (arg e 1 % 2 ^ 32) then
        refuseFree (if argOff e = 0x01C ∧ argPage e < 0x1000 then wrej (taken s q h) (argPage e) else taken s q h) (qref q) e
      else
        if (pageWrite .host (taken s q h) (argPage e) (argOff e) (arg e 1 % 2 ^ 32)).1 then
          complete (pageWrite .host (taken s q h) (argPage e) (argOff e) (arg e 1 % 2 ^ 32)).2 (qref q) e csOK 0
        else refuseFree (pageWrite .host (taken s q h) (argPage e) (argOff e) (arg e 1 % 2 ^ 32)).2 (qref q) e)
      = complete x (qref q) e st d)
    (hx : hostQueues x = hostQueues (taken s q h))
    (hP : ∀ s' : State, s'.regs = x.regs → memParts s' = memParts x → P s') : Posts (.regWrite q) s q h e st d P :=
  posts_of_body (exec_regWrite s q) r
    ((if_neg (by simp [ho])).trans ((if_neg (by simp [pageExists_taken, hp])).trans
      ((if_neg fun hn => hn.2 (by rw [forceAllowed_taken, hf hn.1])).trans hbody)))
    hx fun s' _ hr hm => hP s' hr hm

theorem regWrite_refused (r : EntryRuns s q 0x4A h e)
    (hrefused : hostWriteRefused s (argPage e) (argOff e) (arg e 1 % 2 ^ 32) = true) :
    ∃ d, Posts (.regWrite q) s q h e csRefused d fun s' => (argOff e ≠ 0x01C → s'.regs = s.regs) ∧ SameMem s s' := by
  have hwrej : hostQueues (if argOff e = 0x01C ∧ argPage e < 0x1000 then wrej (taken s q h) (argPage e) else taken s q h)
      = hostQueues (taken s q h) := hostQueues_ite_of (hostQueues_wrej _ _)
  have hmem : memParts (if argOff e = 0x01C ∧ argPage e < 0x1000 then wrej (taken s q h) (argPage e) else taken s q h)
      = memParts (taken s q h) := by
    split
    · rfl
    · rfl
  refine ⟨_, regWrite_checked ho hp hf r (if_pos (by rw [hostWriteRefused_taken, hrefused]))
    ((hostQueues_freshFree _).trans hwrej) fun s' hr hm => ⟨fun hoff => ?_, sameMem_of_parts ?_⟩⟩
  · rw [hr, freshFree_regs, if_neg fun hc => hoff hc.1, taken_regs]
  · rw [hm, memParts_freshFree, hmem, memParts_taken]

theorem regWrite_written (r : EntryRuns s q 0x4A h e)
    (hopen : hostWriteRefused s (argPage e) (argOff e) (arg e 1 % 2 ^ 32) = false)
    (hw : (pageWrite .host (taken s q h) (argPage e) (argOff e) (arg e 1 % 2 ^ 32)).1 = true) :
    Posts (.regWrite q) s q h e csOK 0 fun s' =>
      s'.regs = (pageWrite .host (taken s q h) (argPage e) (argOff e) (arg e 1 % 2 ^ 32)).2.regs
        ∧ s'.lp = (pageWrite .host (taken s q h) (argPage e) (argOff e) (arg e 1 % 2 ^ 32)).2.lp :=
  regWrite_checked ho hp hf r
    ((if_neg (by rw [hostWriteRefused_taken, hopen]; exact Bool.false_ne_true)).trans (if_pos hw))
    (hostQueues_pageWrite_accepted hopen) fun _ hr hm => ⟨hr, lp_of_memParts hm⟩

theorem regWrite_notTaken (r : EntryRuns s q 0x4A h e)
    (hopen : hostWriteRefused s (argPage e) (argOff e) (arg e 1 % 2 ^ 32) = false)
    (hw : (pageWrite .host (taken s q h) (argPage e) (argOff e) (arg e 1 % 2 ^ 32)).1 = false) :
    ∃ d, Posts (.regWrite q) s q h e csRefused d fun s' =>
      s'.regs = (pageWrite .host (taken s q h) (argPage e) (argOff e) (arg e 1 % 2 ^ 32)).2.regs
        ∧ s'.lp = (pageWrite .host (taken s q h) (argPage e) (argOff e) (arg e 1 % 2 ^ 32)).2.lp :=
  ⟨_, regWrite_checked ho hp hf r
    ((if_neg (by rw [hostWriteRefused_taken, hopen]; exact Bool.false_ne_true)).trans (if_neg (by rw [hw]; exact Bool.false_ne_true)))
    ((hostQueues_freshFree _).trans (hostQueues_pageWrite_accepted hopen))
    fun _ hr hm => ⟨hr.trans (freshFree_regs _), lp_of_memParts (hm.trans (memParts_freshFree _))⟩⟩

end

/-! ### LOG_READ and TWIN_READ -/

theorem logRead_refused (r : EntryRuns s q 0x4B h e) (ho : 2 ≤ arg e 0) :
    Posts (.logRead q) s q h e csBadField 0x08 fun s' => s'.net = s.net ∧ s'.regs = s.regs ∧ SameMem s s' :=
  posts_quiet (exec_logRead s q) r (if_pos ho)

/-- The records that LOG_READ sends (R470, R472). -/
def logReadRecs (s : State) (e : List Byte) : List (List Byte) :=
  recsFrom (if arg e 0 = 0 then ringRecs s else mirrorRecs s) (arg e 1) (arg e 4)

theorem logReadRecs_taken : logReadRecs (taken s q h) e = logReadRecs s e := rfl

theorem logRead_posts (r : EntryRuns s q 0x4B h e) (ho : arg e 0 < 2) :
    Posts (.logRead q) s q h e csOK (logReadRecs s e).length fun s' => (logReadRecs s e ≠ [] →
      s'.net = s.net ++ [.rdmaWrite q.port.toNat (arg e 2) (BitVec.ofNat 32 (arg e 3)) (logReadRecs s e).flatten])
        ∧ s'.regs = s.regs ∧ SameMem s s' := by
  refine posts_of_body (x := if (logReadRecs (taken s q h) e).isEmpty then taken s q h
      else send (taken s q h) (.rdmaWrite q.port.toNat (arg e 2) (hostKey e 3) (logReadRecs (taken s q h) e).flatten))
    (exec_logRead s q) r (if_neg (by omega)) ?_ fun s' hn hr hm => ?_
  · split
    · rfl
    · exact hostQueues_send _ _
  · rw [logReadRecs_taken] at hn hr hm
    split at hn
    next hempty =>
      rw [if_pos hempty] at hr hm
      exact ⟨fun hne => absurd (List.isEmpty_iff.1 hempty) hne, hr.trans taken_regs, sameMem_of_parts (hm.trans memParts_taken)⟩
    next hempty =>
      rw [if_neg hempty] at hr hm
      refine ⟨fun _ => ?_, hr.trans ?_, sameMem_of_parts (hm.trans ?_)⟩
      · rw [hn, send_net, taken_net, hostKey]
      · rw [send_regs, taken_regs]
      · rw [memParts_send, memParts_taken]

/-- The module serves the bytes of the region of its twin that the entry names (R446, R450). -/
def twinServed (s : State) (e : List Byte) : Prop :=
  arg e 0 + arg e 1 ≤ keepSize s ∧ (s.failSafe = none ∨ keepServed s = true)

theorem twinServed_iff : twinServed s e ↔
    ¬ (keepSize (taken s q h) < arg e 0 + arg e 1 ∨ (taken s q h).failSafe.isSome = true ∧ ¬ keepServed (taken s q h) = true) := by
  rw [show keepSize (taken s q h) = keepSize s from rfl, show (taken s q h).failSafe = s.failSafe from rfl,
    show keepServed (taken s q h) = keepServed s from rfl, twinServed, not_or, not_lt, not_and, not_not]
  cases s.failSafe <;> simp

theorem twinRead_unserved (r : EntryRuns s q 0x4C h e) (hs : ¬ twinServed s e) :
    Posts (.twinRead q) s q h e csErrUnmapped 0 fun s' => s'.net = s.net ∧ s'.regs = s.regs ∧ SameMem s s' :=
  posts_quiet (exec_twinRead s q) r (if_pos (not_not.1 (mt twinServed_iff.2 hs)))

theorem keepBase_taken : keepBase (taken s q h) = keepBase s := rfl

theorem twinRead_ue (r : EntryRuns s q 0x4C h e) (hs : twinServed s e)
    (hm : lpIsBad s (keepBase s + arg e 0) (arg e 1) = true) :
    Posts (.twinRead q) s q h e csErrUe rUe fun s' => s'.net = s.net ∧ SameMem s s' := by
  rw [← keepBase_taken (q := q) (h := h)] at hm
  exact posts_lpUe (exec_twinRead s q) r ⟨_, if_neg (twinServed_iff.1 hs)⟩ hm

theorem twinRead_posts (r : EntryRuns s q 0x4C h e) (hs : twinServed s e)
    (hm : LpGood s (keepBase s + arg e 0) (arg e 1)) :
    Posts (.twinRead q) s q h e csOK 0 fun s' =>
      s'.net = s.net ++ [.rdmaWrite q.port.toNat (arg e 2) (hostKey e 3) (memRead s.lp (keepBase s + arg e 0) (arg e 1))]
        ∧ s'.regs = s.regs ∧ SameMem s s' := by
  rw [← keepBase_taken (q := q) (h := h)] at hm ⊢
  refine posts_send (exec_twinRead s q) r ((if_neg (twinServed_iff.1 hs)).trans ?_)
  rw [needMem_good hm, taken_lp]

end

end Sys2Proof.Machine
end

section
/-! PROOFS. Entries that do not execute (R513 to R519), and the statement about the host data commands. -/

namespace Sys2Proof.Machine

open Sys2Proof.Claims

section
variable {s : State} {q : QRef} {h : HostQ}

/-- A command that completes an entry of a queue which the fetch has put in place. -/
theorem gives_complete {c : Instr} {x : State} {v : HostQ} {e : List Byte} {st d : Nat}
    (hexec : Machine.exec c s = .next (settle s (complete (queuePut x (qref q) (some v)) (qref q) e st d)))
    (hx : memParts x = memParts s) :
    Gives c s fun s' => queueGet s' (qref q) = some { v with cpls := v.cpls ++ [cplOf e st d] } ∧ SameMem s s' := by
  rw [complete_eq (queueGet_queuePut _ _ _)] at hexec
  refine ⟨_, hexec, ?_, sameMem_of_parts ?_⟩
  · rw [queueGet, settle_queues]
    exact queueGet_queuePut _ _ _
  · rw [memParts_settle, memParts_queuePut, memParts_queuePut, hx]

/-- A completion that is OK is no BAD_FIELD. -/
theorem saidBadField_ok {x : State} {k : Nat} {v : HostQ} (e : List Byte) :
    saidBadField (complete (queuePut x k (some v)) k e csOK 0) k = false := by
  rw [complete_eq (queueGet_queuePut _ _ _), saidBadField, queueGet_queuePut]
  simp [cplOf, csOK]

section
variable (hget : queueGet s (qref q) = some h) (hserved : hostServes s q = true) (hrun : h.stopped = false)
  (hwait : unstarted h ≠ 0)
include hget hserved hrun hwait

/-- An entry in an uncorrectable line (log entry 140). -/
theorem nop_unreadable (hbad : lpIsBad s (h.ring + 64 * (h.head % 2 ^ h.n)) 64 = true) :
    Gives (.nop q) s fun s' => queueGet s' (qref q) = some { h with
      head := (h.head + 1) % 2 ^ 32, cpls := h.cpls ++ [cplOf (ringEntry s h h.head) csErrUe rUe] } ∧ SameMem s s' := by
  have hc := lpCheck_bad s _ _ .ok hbad
  refine gives_complete (v := { h with head := (h.head + 1) % 2 ^ 32 }) ?_
    (x := lpUe s (lpBadAt s (h.ring + 64 * (h.head % 2 ^ h.n)) 64)) (memParts_lpUe s _)
  rw [exec_nop, execNop, hostCmd, done, hostRun, hget]
  simp only [hserved, hrun, hwait, hc, not_true_eq_false, or_false, if_false, Bool.false_eq_true, not_false_eq_true, if_true]

variable (hgood : LpGood s (h.ring + 64 * (h.head % 2 ^ h.n)) 64)
include hgood

/-- An entry out of order stops its queue (R513). -/
theorem nop_outOfOrder (hseq : leNat (((ringEntry s h h.head).drop 0x38).take 4) ≠ h.head) :
    Gives (.nop q) s fun s' => queueGet s' (qref q) = some { h with
      head := (h.head + 1) % 2 ^ 32, stopped := true, cpls := h.cpls ++ [cplOf (ringEntry s h h.head) csBadSeq h.head] }
      ∧ SameMem s s' := by
  have hc := lpCheck_good s _ _ hgood
  refine gives_complete (v := { h with head := (h.head + 1) % 2 ^ 32, stopped := true }) ?_ (x := s) rfl
  rw [exec_nop, execNop, hostCmd, done, hostRun, hget]
  simp only [hserved, hrun, hwait, hc, hseq, not_true_eq_false, or_false, if_false, Bool.false_eq_true, ne_eq,
    not_false_eq_true, if_true]

variable (hseq : leNat (((ringEntry s h h.head).drop 0x38).take 4) = h.head)
include hseq

theorem nop_unknown (ho : (opsOf s q.mgmt).contains (leNat ((ringEntry s h h.head).take 1)) = false) :
    Gives (.nop q) s fun s' => queueGet s' (qref q) = some { h with
      head := (h.head + 1) % 2 ^ 32,
      cpls := h.cpls ++ [cplOf (ringEntry s h h.head) csBadOpcode (leNat ((ringEntry s h h.head).take 1))] }
      ∧ SameMem s s' := by
  have hc := lpCheck_good s _ _ hgood
  refine gives_complete (v := { h with head := (h.head + 1) % 2 ^ 32 }) ?_ (x := s) rfl
  rw [exec_nop, execNop, hostCmd, done, hostRun, hget]
  simp only [hserved, hrun, hwait, hc, hseq, ho, not_true_eq_false, or_false, if_false, Bool.false_eq_true, ne_eq,
    not_false_eq_true, if_true]

variable (ho : (opsOf s q.mgmt).contains (leNat ((ringEntry s h h.head).take 1)) = true)
include ho

/-- The queue holds another command, or one that its FENCE holds back (R515). -/
theorem nop_otherCommand
    (hother : leNat ((ringEntry s h h.head).take 1) ≠ 0x01 ∨ fenced h (ringEntry s h h.head) = true) :
    Answers (.nop q) s s := by
  have hc := lpCheck_good s _ _ hgood
  rw [Answers, exec_nop, execNop, hostCmd, done, hostRun, hget]
  simp only [hserved, hrun, hwait, hc, hseq, ho, hother, not_true_eq_false, or_false, if_false, Bool.false_eq_true, ne_eq,
    if_true]

/-- A NOP with a reserved field that is not 0 (R516). -/
theorem nop_badField (hop : leNat ((ringEntry s h h.head).take 1) = 0x01) (hfree : fenced h (ringEntry s h h.head) = false)
    {f : Nat} (hf : badEntry (ringEntry s h h.head) = some f
      ∨ (badEntry (ringEntry s h h.head) = none ∧ badTail (ringEntry s h h.head) = true ∧ f = 0x3C)) :
    Gives (.nop q) s fun s' => queueGet s' (qref q) = some { h with
      head := (h.head + 1) % 2 ^ 32, cpls := h.cpls ++ [cplOf (ringEntry s h h.head) csBadField f] } ∧ SameMem s s' := by
  have hc := lpCheck_good s _ _ hgood
  refine gives_complete (v := { h with head := (h.head + 1) % 2 ^ 32 }) ?_ (x := s) rfl
  rw [exec_nop, execNop, hostCmd, done, hostRun, hget]
  rw [hop] at ho
  obtain hf | ⟨hf, htail, rfl⟩ := hf
  · simp only [hserved, hrun, hwait, hc, hseq, ho, hop, hfree, hf, not_true_eq_false, if_false, Bool.false_eq_true, ne_eq,
      or_self]
  · simp only [hserved, hrun, hwait, hc, hseq, ho, hop, hfree, hf, htail, saidBadField_ok, not_true_eq_false, if_false,
      Bool.false_eq_true, ne_eq, or_self, not_false_eq_true, and_self, if_true]

end

end

theorem posts_mono {c : Instr} {s : State} {q : QRef} {h : HostQ} {e : List Byte} {st d : Nat} {P Q : State → Prop}
    (hpost : Posts c s q h e st d P) (hPQ : ∀ s', P s' → Q s') : Posts c s q h e st d Q := by
  obtain ⟨s', hexec, hqueue, hP⟩ := hpost
  exact ⟨s', hexec, hqueue, hPQ s' hP⟩

/-- Settles O55, command by command: the fetched entry runs on the state after its fetch, and what the command's body completes in
is that state with the bytes moved, the message sent or the register written. -/
theorem hostDataCommands : Obligations.HostDataCommands := by
  unfold Obligations.HostDataCommands
  refine ⟨fun s q h e => ⟨fun r => ?_, fun r data syn => ⟨fun x hx => copyIn_refused r hx, fun hx => ⟨?_, ?_, ?_⟩⟩,
      fun r syn => ⟨fun x hx => copyOut_refused r hx, fun hx hm => copyOut_sent r hx hm, fun hx hm => copyOut_ue r hx hm⟩,
      fun r => ⟨signalCommand_posts r, signalCommand_refused r⟩,
      fun r => ⟨mailboxCommand_reserved r, mailboxCommand_unmapped r, mailboxCommand_kept r, mailboxCommand_ue r,
        mailboxCommand_posts r⟩⟩,
    fun s q h e => ⟨?_, fun r ho hp => regRead_posts r ho hp, fun r ho hp => ⟨fun hf hd => regWrite_denied r ho hp hf hd,
        fun hf hd => regWrite_refused ho hp hf r hd, fun hf hd => ⟨regWrite_written ho hp hf r hd, regWrite_notTaken ho hp hf r hd⟩⟩,
      fun r => ⟨fun ho => logRead_refused r ho, fun ho => logRead_posts r ho⟩,
      fun r => ⟨fun hs => twinRead_unserved r hs, fun hs hm => twinRead_ue r hs hm, fun hs hm => twinRead_posts r hs hm⟩⟩,
    fun s q h hget hserved hrun hwait => ⟨nop_unreadable hget hserved hrun hwait,
      fun hgood hseq => nop_outOfOrder hget hserved hrun hwait hgood hseq,
      fun hgood hseq => ⟨nop_unknown hget hserved hrun hwait hgood hseq, nop_otherCommand hget hserved hrun hwait hgood hseq,
        fun ho hop hfree f hf => nop_badField hget hserved hrun hwait hgood hseq ho hop hfree hf⟩⟩⟩
  · exact posts_mono (nop_posts r) fun s' ⟨hnet, hregs, hmem⟩ => ⟨hregs, hnet, hmem⟩
  · rintro rfl hm hdata
    exact copyIn_stored r hx hm hdata
  · rintro rfl hdata hpos ha hbad
    exact copyIn_ue r hx hdata hpos ha hbad
  · exact fun hsyn => copyIn_failed r hx hsyn
  · rintro c (⟨r, rfl⟩ | ⟨r, rfl⟩)
    · exact ⟨fun ho => posts_mono (regRead_misaligned r ho) fun _ h => h.2,
        fun ho hp => posts_mono (regRead_unmapped r ho hp) fun _ h => h.2⟩
    · exact ⟨fun ho => posts_mono (regWrite_misaligned r ho) fun _ h => h.2,
        fun ho hp => posts_mono (regWrite_unmapped r ho hp) fun _ h => h.2⟩

end Sys2Proof.Machine
end

section
/-! PROOFS. What containment, the tack lines and the reads of LPDDR5X leave of a load (R493 to R500): the words of the MG
page, the fuses, the image in force, the transfer and the command in progress. -/

namespace Sys2Proof.Machine

open Sys2Proof.Claims

/-- What a load goes by: the words of the MG page, the fuses, the image in force, the transfer and the command in
progress. -/
def loadPart (s : State) := (fun off : Fin 0x1000 => regW s mgPg off, s.fuses, s.image, s.xfer, s.mgmtBusy)

/-- A part of the state that a load does not go by may change. -/
theorem loadPart_congr {x y : State} (hr : y.regs = x.regs) (hf : y.fuses = x.fuses) (hi : y.image = x.image)
    (hx : y.xfer = x.xfer) (hb : y.mgmtBusy = x.mgmtBusy) : loadPart y = loadPart x := by
  simp only [loadPart, regW, hr, hf, hi, hx, hb]

theorem regW_mg_of_loadPart {x y : State} (h : loadPart x = loadPart y) {off : Nat} (hoff : off < 0x1000) :
    regW x mgPg off = regW y mgPg off := congrFun (congrArg Prod.fst h) (⟨off, hoff⟩ : Fin 0x1000)

theorem rd_mg_of_loadPart {x y : State} (h : loadPart x = loadPart y) {f : Fld} (hoff : f.off < 0x1000) :
    rd x mgPg f = rd y mgPg f := by
  rw [rd, rdi, rd, rdi, regW_mg_of_loadPart h (by omega)]

theorem flag_mg_of_loadPart {x y : State} (h : loadPart x = loadPart y) {f : Fld} (hy : Claims.Flag y mgPg f) :
    Claims.Flag x mgPg f := by
  unfold Claims.Flag at hy ⊢
  rwa [regW_mg_of_loadPart h (by decide)]

theorem fuses_of_loadPart {x y : State} (h : loadPart x = loadPart y) : x.fuses = y.fuses := congrArg (·.2.1) h

theorem xfer_of_loadPart {x y : State} (h : loadPart x = loadPart y) : x.xfer = y.xfer := congrArg (·.2.2.2.1) h

theorem ncols_of_loadPart {x y : State} (h : loadPart x = loadPart y) : x.ncols = y.ncols := by
  rw [State.ncols, fuses_of_loadPart h, ← State.ncols]

@[simp] theorem loadPart_ite (c : Prop) [Decidable c] (x y : State) :
    loadPart (if c then x else y) = if c then loadPart x else loadPart y := apply_ite loadPart c x y

@[simp] theorem loadPart_forEach {α : Type} (l : List α) (f : α → State → State)
    (h : ∀ a x, loadPart (f a x) = loadPart x) (s : State) : loadPart (forEach l f s) = loadPart s := by
  induction l generalizing s with
  | nil => rfl
  | cons a l ih => exact (ih (f a s)).trans (h a s)

/-! ### Pages behind the MG page -/

@[simp] theorem tlPg_pos (t : Tile) : 0 < tlPg t := by unfold tlPg; omega
@[simp] theorem mxPg_pos (t : Tile) : 0 < mxPg t := by unfold mxPg; omega
@[simp] theorem vxPg_pos (t : Tile) : 0 < vxPg t := by unfold vxPg; omega
@[simp] theorem syPg_pos (t : Tile) : 0 < syPg t := by unfold syPg; omega
@[simp] theorem lpPgOf_pos (a : Nat) : 0 < lpPgOf a := by unfold lpPgOf lpPg; omega
@[simp] theorem evPg_pos : 0 < evPg := by decide
@[simp] theorem tkPg_pos : 0 < tkPg := by decide
@[simp] theorem cxPg_pos : 0 < cxPg := by decide

section
variable (s : State) {page : Nat}

theorem loadPart_setW (h : 0 < page) (off v : Nat) : loadPart (setW s page off v) = loadPart s := by
  have hw : (fun o : Fin 0x1000 => regW (setW s page off v) mgPg o) = fun o : Fin 0x1000 => regW s mgPg o := funext fun o =>
    regW_setW_ne _ _ _ _ _ _ (by have := o.isLt; simp only [mgPg]; omega)
  exact congrArg (fun w => (w, s.fuses, s.image, s.xfer, s.mgmtBusy)) hw

@[simp] theorem loadPart_wri (h : 0 < page) (f : Fld) (i v : Nat) : loadPart (wri s page f i v) = loadPart s :=
  loadPart_setW s h _ _

@[simp] theorem loadPart_wr (h : 0 < page) (f : Fld) (v : Nat) : loadPart (wr s page f v) = loadPart s :=
  loadPart_setW s h _ _

@[simp] theorem loadPart_inci (h : 0 < page) (f : Fld) (i n : Nat) : loadPart (inci s page f i n) = loadPart s :=
  loadPart_setW s h _ _

@[simp] theorem loadPart_inc (h : 0 < page) (f : Fld) (n : Nat) : loadPart (inc s page f n) = loadPart s :=
  loadPart_setW s h _ _

theorem loadPart_report (page b : Nat) : loadPart (report s page b) = loadPart s := by
  unfold report
  split <;> rfl

@[simp] theorem loadPart_quietPage (page : Nat) : loadPart (quietPage s page) = loadPart s :=
  loadPart_congr rfl rfl rfl rfl rfl

@[simp] theorem loadPart_raiseBit (h : 0 < page) (b : Nat) : loadPart (raiseBit s page b) = loadPart s := by
  unfold raiseBit
  dsimp only
  split
  · exact loadPart_setW s h _ _
  · rw [loadPart_report, loadPart_wr _ h, loadPart_setW s h]

@[simp] theorem loadPart_raiseF (h : 0 < page) (f : Fld) : loadPart (raiseF s page f) = loadPart s :=
  loadPart_raiseBit s h f.lo

end

/-! ### The logbook queue, messages and packets -/

section
variable (s : State)

@[simp] theorem loadPart_logReq (sev code source : Nat) (payload : List Byte) :
    loadPart (logReq s sev code source payload) = loadPart s := by
  unfold logReq
  dsimp only
  split
  · rfl
  · simp only [loadPart_raiseF _ evPg_pos, loadPart_inci _ evPg_pos, loadPart_inc _ evPg_pos]
    rfl

@[simp] theorem loadPart_send (m : NetMsg) : loadPart (send s m) = loadPart s :=
  loadPart_congr rfl rfl rfl rfl rfl

@[simp] theorem loadPart_modTile (t : Tile) (f : TileSt → TileSt) : loadPart (s.modTile t f) = loadPart s :=
  loadPart_congr rfl rfl rfl rfl rfl

/-- A recovery message or a control packet of a collective that no port carries has no sender on a tile to answer (R319). -/
theorem failPkt_none {ty : Nat} (h : ty = tyRcv ∨ ty = tyCxCtrl) (addr : Nat) (data : List Byte) (lost : Bool) :
    failPkt s ty addr data lost = s := by
  obtain rfl | rfl := h
  · rw [failPkt, if_neg (by decide), if_neg (by decide), if_neg (by decide), if_neg (fun hm => absurd hm.1 (by decide))]
  · rw [failPkt, if_neg (by decide), if_neg (by decide), if_neg (by decide), if_neg (fun hm => absurd hm.1 (by decide))]

/-- Such a packet changes the ports alone. -/
theorem sendPkt_eq {ty : Nat} (h : ty = tyRcv ∨ ty = tyCxCtrl) (p : Nat) (c : LinkClass) (flags addr : Nat) (data : List Byte) :
    ∃ ps, sendPkt s p c ty flags addr data = { s with ports := ps } := by
  unfold sendPkt
  dsimp only
  split
  · exact ⟨_, rfl⟩
  split
  · exact ⟨_, rfl⟩
  · exact ⟨s.ports, failPkt_none s h addr data false⟩

@[simp] theorem loadPart_sendRcv (p : Nat) (m : RcvMsg) : loadPart (sendRcv s p m) = loadPart s := by
  obtain ⟨ps, heq⟩ := sendPkt_eq s (.inl rfl) p .rcv 0 0 (rcvBytes m)
  rw [sendRcv, heq]
  rfl

theorem cxCtrlPkt_eq (p gid attempt kind hem : Nat) : ∃ ps, cxCtrlPkt s p gid attempt kind hem = { s with ports := ps } :=
  sendPkt_eq s (.inr rfl) p .sch 0 _ []

@[simp] theorem loadPart_cxCtrlPkt (p gid attempt kind hem : Nat) :
    loadPart (cxCtrlPkt s p gid attempt kind hem) = loadPart s := by
  obtain ⟨ps, heq⟩ := cxCtrlPkt_eq s p gid attempt kind hem
  rw [heq]
  rfl

@[simp] theorem loadPart_sendLost (m : Nat) (x : Option Tile) : loadPart (sendLost s m x) = loadPart s := by
  simp [sendLost]

/-! ### Tack lines -/

@[simp] theorem loadPart_progress : loadPart (progress s) = loadPart s :=
  loadPart_congr rfl rfl rfl rfl rfl

@[simp] theorem loadPart_clearPend (k : Nat) : loadPart (clearPend s k) = loadPart s := by
  simp [clearPend]

@[simp] theorem loadPart_request (t : Tile) (row : Nat) : loadPart (request s t row) = loadPart s :=
  loadPart_congr rfl rfl rfl rfl rfl

@[simp] theorem loadPart_unrequest (t : Tile) (row : Nat) : loadPart (unrequest s t row) = loadPart s :=
  loadPart_congr rfl rfl rfl rfl rfl

@[simp] theorem loadPart_unrequestAll (t : Tile) : loadPart (unrequestAll s t) = loadPart s :=
  loadPart_congr rfl rfl rfl rfl rfl

@[simp] theorem loadPart_causeBit (t : Tile) (code src : Nat) : loadPart (causeBit s t code src) = loadPart s := by
  simp [causeBit]

@[simp] theorem loadPart_causeCapture (t : Tile) (code src pc : Nat) : loadPart (causeCapture s t code src pc) = loadPart s := by
  simp [causeCapture]

@[simp] theorem loadPart_raiseCause (t : Tile) (c : Cause) : loadPart (raiseCause s t c) = loadPart s := by
  have hcause : loadPart (causeCapture (causeBit s t c.code c.src) t c.code c.src c.pc) = loadPart s :=
    (loadPart_causeCapture _ _ _ _ _).trans (loadPart_causeBit s _ _ _)
  unfold raiseCause
  revert hcause
  generalize causeCapture (causeBit s t c.code c.src) t c.code c.src c.pc = x
  intro hcause
  dsimp only
  split
  · split
    · exact hcause
    · exact hcause
  · exact hcause

@[simp] theorem loadPart_tackCause (t : Tile) (k : Nat) : loadPart (tackCause s t k) = loadPart s := by
  simp [tackCause, precise]

theorem loadPart_with_tack (m : SMap (BitVec 8)) (l : List Nat) :
    loadPart { s with tackGot := m, tackSent := l } = loadPart s :=
  loadPart_congr rfl rfl rfl rfl rfl

@[simp] theorem loadPart_breakLine (k : Nat) : loadPart (breakLine s k) = loadPart s := by
  unfold breakLine
  dsimp only
  rw [loadPart_forEach _ _ fun _ _ => by simp, loadPart_with_tack, loadPart_clearPend, loadPart_raiseBit _ tkPg_pos]

@[simp] theorem loadPart_breakTileLines (t : Tile) : loadPart (breakTileLines s t) = loadPart s := by
  simp [breakTileLines]

/-! ### LOST and the fence -/

theorem smGet_map_snd (d : Nat → W32) (f : Nat × W32 → W32) (k : Nat) (m : SMap W32) (h : ∀ v, f (k, v) = v) :
    smGet d (m.map fun c => (c.1, f c)) k = smGet d m k := by
  induction m with
  | nil => rfl
  | cons c m ih =>
    rw [List.map_cons, smGet_cons, smGet_cons, ih]
    split
    next hk => rw [← hk] at h; exact h c.2
    next => rfl

/-- LOST is a bit of the counters' words on the SY pages (R245). -/
@[simp] theorem loadPart_markLost (m : Nat) (x : Option Tile) : loadPart (markLost s m x) = loadPart s := by
  have hw : (fun o : Fin 0x1000 => regW (markLost s m x) mgPg o) = fun o : Fin 0x1000 => regW s mgPg o := funext fun o => by
    have hpage : (mgPg * 0x1000 + o.val) / 0x1000 = 0 := by have := o.isLt; simp only [mgPg]; omega
    have hmap := smGet_map_snd regDflt (fun c =>
      if decide (0x1000 ≤ c.1 / 0x1000) && (c.1 / 0x1000 % 4 == 3) && decide (0x300 ≤ c.1 % 0x1000)
          && decide (c.1 % 0x1000 < 0x3C0) && rd s (c.1 / 0x1000 - 3) tl_STATUS_FENCED == 0 && ownMatches c.2.toNat m x
      then c.2 ||| 0x00800000#32 else c.2) (mgPg * 0x1000 + o) s.regs (fun v => by simp [hpage])
    rw [regW, regW, ← hmap]
    refine congrArg (fun m => (smGet regDflt m (mgPg * 0x1000 + o)).toNat) (List.map_congr_left fun c _ => ?_)
    split <;> rfl
  exact congrArg (fun w => (w, s.fuses, s.image, s.xfer, s.mgmtBusy)) hw

@[simp] theorem loadPart_sendDecision (ts : List Tile) (gid : Nat) (k : DecKind) (hem attempt : Nat) :
    loadPart (sendDecision s ts gid k hem attempt) = loadPart s := by
  exact loadPart_forEach _ _ (fun _ _ => loadPart_send _ _) s

@[simp] theorem loadPart_ctrlEdge (d : CxDesc) (e : CxSrc) (attempt kind hem : Nat) :
    loadPart (ctrlEdge s d e attempt kind hem) = loadPart s := by
  unfold ctrlEdge
  split <;> simp

@[simp] theorem loadPart_cxLast (gid op : Nat) : loadPart (cxLast s gid op) = loadPart s := by
  simp [cxLast]

theorem loadPart_with_cx (g : List CxGroup) : loadPart { s with cx := g } = loadPart s :=
  loadPart_congr rfl rfl rfl rfl rfl

@[simp] theorem loadPart_abortDesc (d : CxDesc) (ts : List Tile) (hem attempt cause : Nat) (from_ : Option CxSrc) :
    loadPart (abortDesc s d ts hem attempt cause from_) = loadPart s := by
  unfold abortDesc
  simp only [loadPart_logReq, loadPart_cxLast, loadPart_inc _ cxPg_pos, loadPart_raiseF _ cxPg_pos]
  rw [loadPart_with_cx, loadPart_forEach _ _ fun _ _ => loadPart_ctrlEdge _ _ _ _ _ _, loadPart_sendDecision]

@[simp] theorem loadPart_abortWhere (p : CxGroup → Bool) (cause : Nat) : loadPart (abortWhere s p cause) = loadPart s := by
  simp [abortWhere, abortGroup]

@[simp] theorem loadPart_abortStow : loadPart (abortStow s) = loadPart s := by
  unfold abortStow
  split
  · exact loadPart_logReq _ _ _ _ _
  · rfl

@[simp] theorem loadPart_idleAccs (t : Tile) : loadPart (idleAccs s t) = loadPart s := by
  simp [idleAccs, clearDec, setAccState]

@[simp] theorem loadPart_fifoReset (row unit : Nat) : loadPart (fifoReset s row unit) = loadPart s := by
  unfold fifoReset
  split <;> rfl

@[simp] theorem loadPart_repairWrite (kind a b seq : Nat) : loadPart (repairWrite s kind a b seq) = loadPart s := by
  unfold repairWrite
  split
  · exact loadPart_logReq _ _ _ _ _
  · rfl

theorem loadPart_with_failed (l : List Nat) : loadPart { s with failed := l } = loadPart s :=
  loadPart_congr rfl rfl rfl rfl rfl

@[simp] theorem loadPart_softRetire (t : Tile) (seq : Nat) : loadPart (softRetire s t seq) = loadPart s := by
  unfold softRetire
  dsimp only
  split
  · rfl
  split
  · exact loadPart_repairWrite s _ _ _ _
  · rw [loadPart_logReq, loadPart_with_failed]

theorem loadPart_with_net (l : List NetMsg) : loadPart { s with net := l } = loadPart s :=
  loadPart_congr rfl rfl rfl rfl rfl

@[simp] theorem loadPart_fenceTile (t : Tile) : loadPart (fenceTile s t) = loadPart s := by
  unfold fenceTile
  split
  · rfl
  extract_lets p seq halted stopped idle quiet marked broken aborted drained
  have hhalted : loadPart halted = loadPart s := loadPart_abortStow s
  clear_value halted
  have hstopped : loadPart stopped = loadPart s := by simp [stopped, p, hhalted]
  clear_value stopped
  have hidle : loadPart idle = loadPart s := by simp [idle, hstopped]
  clear_value idle
  have hquiet : loadPart quiet = loadPart s := by rw [loadPart_unrequestAll, loadPart_with_net, hidle]
  clear_value quiet
  simp [drained, aborted, broken, marked, hquiet]

/-! ### The tile remap -/

@[simp] theorem loadPart_freshTile (t : Tile) : loadPart (freshTile s t) = loadPart s :=
  loadPart_setW s (tlPg_pos t) _ _

theorem loadPart_mapRow (y : Nat) : loadPart (mapRow s y) = loadPart s :=
  loadPart_congr rfl rfl rfl rfl rfl

@[simp] theorem loadPart_remapRow (y : Nat) : loadPart (remapRow s y) = loadPart s := by
  simp [remapRow, loadPart_mapRow]

@[simp] theorem loadPart_resetRow (y : Nat) : loadPart (resetRow s y) = loadPart s := by
  simp [resetRow]

/-! ### Reads of LPDDR5X -/

@[simp] theorem loadPart_lpErr (a type : Nat) : loadPart (lpErr s a type) = loadPart s := by
  simp [lpErr]

@[simp] theorem loadPart_lpUe (a : Nat) : loadPart (lpUe s a) = loadPart s := by
  simp [lpUe]

theorem loadPart_with_lpCe (m : SMap Nat) : loadPart { s with lpCe := m } = loadPart s :=
  loadPart_congr rfl rfl rfl rfl rfl

@[simp] theorem loadPart_lpCorrect (a : Nat) : loadPart (lpCorrect s a) = loadPart s := by
  unfold lpCorrect
  extract_lets page sym counted ce fixed repaired
  have hfixed : loadPart fixed = loadPart s := by
    rw [loadPart_with_lpCe]
    simp [counted, page]
  clear_value fixed
  simp [page, repaired, hfixed]

@[simp] theorem loadPart_lpFixes (ls : List Nat) : loadPart (lpFixes ls s) = loadPart s := by
  induction ls generalizing s with
  | nil => rfl
  | cons l ls ih =>
    rw [lpFixes_cons, ih, loadPart_lpCorrect]
    exact loadPart_congr rfl rfl rfl rfl rfl

@[simp] theorem loadPart_lpCheck_ok (a n : Nat) : loadPart (lpCheck s a n .ok).2 = loadPart s := by
  unfold lpCheck
  split
  · exact loadPart_lpUe s _
  · exact loadPart_lpFixes s _

end

end Sys2Proof.Machine
end

section
/-! PROOFS. The operations of a transfer (R494 to R500): the line k0, the messages of a round, and a segment at a load
port. -/

namespace Sys2Proof.Machine

open Sys2Proof.Claims

/-- What holds before a list is worked off and is kept by each of its members holds after it. -/
theorem forEach_induction {α : Type} {f : α → State → State} {P : State → Prop} (hstep : ∀ a x, P x → P (f a x))
    (l : List α) {s : State} (hs : P s) : P (forEach l f s) := by
  induction l generalizing s with
  | nil => exact hs
  | cons a l ih => exact ih (hstep a s hs)

/-! ### Line k0 (R248, R251, R500) -/

/-- The PEND bits of a line are registers; one that clears is a progress event. -/
theorem clearPend_eq (s : State) (k : Nat) : ∃ r d fd, clearPend s k = { s with regs := r, dlCount := d, dlFired := fd } := by
  unfold clearPend
  refine forEach_induction (P := fun y => ∃ r d fd, y = { s with regs := r, dlCount := d, dlFired := fd }) ?_ _ ?_
  · rintro t x ⟨r, d, fd, rfl⟩
    exact ⟨_, d, fd, rfl⟩
  · split
    · exact ⟨s.regs, s.dlCount, s.dlFired, rfl⟩
    · exact ⟨s.regs, 0, false, rfl⟩

/-- A line is armed by registers and the interrupts of its fault. -/
theorem armLine_eq (s : State) (ts : List Tile) : ∃ r i h d fd,
    armLine s ts = { s with regs := r, irqs := i, hostIrqs := h, dlCount := d, dlFired := fd } := by
  have hset : ∃ r, forEach s.tileList (fun t s => wr s (syPg t) sy_TACK_PART
      (setBits (rd s (syPg t) sy_TACK_PART) 0 0 (b2n (ts.contains t)))) s = { s with regs := r } :=
    forEach_induction (P := fun y => ∃ r, y = { s with regs := r }) (fun t x hx => wr_eq_regs hx _ _ _) _ ⟨s.regs, rfl⟩
  obtain ⟨r, hset⟩ := hset
  obtain ⟨r', d, fd, hclear⟩ := clearPend_eq { s with regs := r } 0
  rw [armLine, hset, hclear]
  exact ⟨_, _, _, d, fd, rfl⟩

@[simp] theorem loadPart_wholeLine (s : State) : loadPart (wholeLine s) = loadPart s := by
  rw [wholeLine, loadPart_quietPage, loadPart_setW _ tkPg_pos]

@[simp] theorem loadPart_armLine (s : State) (ts : List Tile) : loadPart (armLine s ts) = loadPart s := by
  simp [armLine]

/-- The announcement of a line is a packet to each module of its mask. -/
theorem tackAnnounce_eq (s : State) (k : Nat) : ∃ ps l, tackAnnounce s k = { s with ports := ps, tackSent := l } := by
  unfold tackAnnounce
  split
  · refine forEach_induction (P := fun y => ∃ ps l, y = { s with ports := ps, tackSent := l }) ?_ _
      ⟨s.ports, s.tackSent ++ [k], rfl⟩
    rintro m x ⟨ps, l, rfl⟩
    obtain ⟨ps', h⟩ := cxCtrlPkt_eq { s with ports := ps, tackSent := l }
      (boltPort { s with ports := ps, tackSent := l } m 0) (tackId k (rdi s tkPg tk_LINE_GEN k)) 0 5 0
    exact ⟨ps', l, h⟩
  · exact ⟨s.ports, s.tackSent, rfl⟩

@[simp] theorem loadPart_tackAnnounce (s : State) (k : Nat) : loadPart (tackAnnounce s k) = loadPart s := by
  obtain ⟨ps, l, h⟩ := tackAnnounce_eq s k
  rw [h]
  exact loadPart_congr rfl rfl rfl rfl rfl

theorem memParts_tackAnnounce (s : State) (k : Nat) : memParts (tackAnnounce s k) = memParts s := by
  obtain ⟨ps, l, h⟩ := tackAnnounce_eq s k
  rw [h]
  rfl

theorem tackAnnounce_regs (s : State) (k : Nat) : (tackAnnounce s k).regs = s.regs := by
  obtain ⟨ps, l, h⟩ := tackAnnounce_eq s k
  rw [h]

@[simp] theorem loadPart_setPend (s : State) (t : Tile) (k : Nat) : loadPart (setPend s t k) = loadPart s := by
  simp [setPend]

theorem memParts_wr (s : State) (page : Nat) (f : Fld) (v : Nat) : memParts (wr s page f v) = memParts s := rfl

theorem memParts_progress (s : State) : memParts (progress s) = memParts s := rfl

theorem memParts_setPend (s : State) (t : Tile) (k : Nat) : memParts (setPend s t k) = memParts s := by
  rw [setPend, memParts_tackAnnounce, memParts_progress, memParts_wr]

theorem progress_regs (s : State) : (progress s).regs = s.regs := rfl

/-- PEND of line k0 reads as set (R248). -/
theorem tackPend_setPend (s : State) (t : Tile) : tackPend (setPend s t 0) t 0 = true := by
  have hread : rd (setPend s t 0) (syPg t) sy_TACK_PEND = setBits (rd s (syPg t) sy_TACK_PEND) 0 0 1 := by
    rw [setPend, rd_congr ((tackAnnounce_regs _ 0).trans (progress_regs _))]
    exact rd_wr_fits s (syPg t) sy_TACK_PEND _ (by decide) (setBits_lt _ 0 0 1 16 (rdi_lt s (syPg t) sy_TACK_PEND 0) (by decide))
  rw [tackPend, hread, bit, testBit_setBits]
  rfl

/-! ### Messages -/

/-- The state with other messages and another transfer. -/
def withNet (s : State) (l : List NetMsg) (x : Option Xfer) : State := { s with net := l, xfer := x }

section
variable (s : State) (l : List NetMsg) (x : Option Xfer)

@[simp] theorem withNet_net : (withNet s l x).net = l := rfl
@[simp] theorem withNet_xfer : (withNet s l x).xfer = x := rfl
@[simp] theorem withNet_regs : (withNet s l x).regs = s.regs := rfl
@[simp] theorem withNet_lp : (withNet s l x).lp = s.lp := rfl
@[simp] theorem withNet_flash : (withNet s l x).flash = s.flash := rfl
@[simp] theorem withNet_spool : (withNet s l x).spool = s.spool := rfl
@[simp] theorem withNet_module : (withNet s l x).module = s.module := rfl
@[simp] theorem withNet_ptile (n : Nat) : (withNet s l x).ptile n = s.ptile n := ptile_congr rfl rfl n
@[simp] theorem memParts_withNet : memParts (withNet s l x) = memParts s := rfl

end

theorem withNet_withNet (s : State) (l l' : List NetMsg) (x x' : Option Xfer) :
    withNet (withNet s l x) l' x' = withNet s l' x' := rfl

theorem send_withNet (s : State) (l : List NetMsg) (x : Option Xfer) (m : NetMsg) :
    send (withNet s l x) m = withNet s (l ++ [m]) x := rfl

theorem takeMsg_some {s : State} {p : NetMsg → Bool} {m : NetMsg} (h : s.net.find? p = some m) :
    takeMsg s p = (some m, withNet s (s.net.erase m) s.xfer) := by
  rw [takeMsg, h]
  rfl

theorem takeMsg_find_none {s : State} {p : NetMsg → Bool} (h : s.net.find? p = none) : takeMsg s p = (none, s) := by
  rw [takeMsg, h]

theorem dropMsg_eq (s : State) (p : NetMsg → Bool) : ∃ l, dropMsg s p = withNet s l s.xfer := by
  unfold dropMsg takeMsg
  split
  · exact ⟨_, rfl⟩
  · exact ⟨s.net, rfl⟩

/-- A segment that has arrived at a tile stays under way to its other tiles. -/
theorem takeSegment_some {s : State} {t : Tile} {n : Nat} {ts : List Tile} {bs : List Byte}
    (h : s.net.find? (segFor t n) = some (.segment ts n bs)) :
    ∃ l, takeSegment s t n = (some bs, withNet s l s.xfer) := by
  unfold takeSegment
  rw [takeMsg_some h]
  dsimp only
  split
  · exact ⟨_, rfl⟩
  · exact ⟨_, rfl⟩

theorem takeSegment_none {s : State} {t : Tile} {n : Nat} (h : s.net.find? (segFor t n) = none) :
    takeSegment s t n = (none, s) := by
  unfold takeSegment
  rw [takeMsg_find_none h]

theorem segFor_segment {s : State} {t : Tile} {n : Nat} {m : NetMsg} (h : s.net.find? (segFor t n) = some m) :
    ∃ ts bs, m = .segment ts n bs := by
  have hfor := List.find?_some h
  unfold segFor at hfor
  split at hfor
  next ts n' bs =>
    simp only [Bool.and_eq_true, beq_iff_eq] at hfor
    exact ⟨ts, bs, by rw [hfor.1]⟩
  next => cases hfor

/-! ### What a transfer reads -/

theorem lpGood_of_memParts {x y : State} (h : memParts y = memParts x) (a n : Nat) : LpGood y a n ↔ LpGood x a n := by
  simp only [memParts, Prod.mk.injEq] at h
  obtain ⟨-, -, -, -, hbad, hweak, -, -⟩ := h
  simp only [LpGood, lpIsBad, hbad, hweak]

theorem xferSecs_congr {x y : State} (h : y.lp = x.lp) (z : Xfer) : xferSecs y z = xferSecs x z := by
  simp only [xferSecs, secsOf, nsec, img, h]

theorem segBytes_congr {x y : State} (h : y.lp = x.lp) (b : Nat) (xs : List Sec) (n : Nat) :
    segBytes y b xs n = segBytes x b xs n := by
  simp only [segBytes, h]

theorem missing_congr {x y : State} (h : y.lp = x.lp) (z : Xfer) (t : Tile) : missing y z t = missing x z t := by
  rw [missing, missing, xferSecs_congr h]

/-- The verdict on a payload is of the image, the stores and the tile map. -/
theorem payloadOk_congr {x y : State} (hlp : y.lp = x.lp) (htiles : y.tiles = x.tiles) (hspool : y.spool = x.spool)
    (hbad : y.spoolBad = x.spoolBad) (hf : y.fuses = x.fuses) (hu : y.unusable = x.unusable) (b : Nat) (xs : List Sec) (t : Tile) :
    payloadOk y b xs t = payloadOk x b xs t := by
  have hread : readSec y t = readSec x t := funext fun z => by
    unfold readSec
    simp only [tile_congr htiles, spRead, hspool, ptile_congr hf hu]
  have hdigest : tileDigest y b xs t = tileDigest x b xs t := by
    unfold tileDigest
    simp only [hlp]
  unfold payloadOk
  simp only [hread, hdigest, spIsBad, hbad, ptile_congr hf hu]

section
variable (s : State) (l : List NetMsg) (x : Option Xfer)

@[simp] theorem xferSecs_withNet (z : Xfer) : xferSecs (withNet s l x) z = xferSecs s z := xferSecs_congr rfl z

@[simp] theorem segBytes_withNet (b : Nat) (xs : List Sec) (n : Nat) : segBytes (withNet s l x) b xs n = segBytes s b xs n :=
  segBytes_congr rfl b xs n

@[simp] theorem missing_withNet (z : Xfer) (t : Tile) : missing (withNet s l x) z t = missing s z t := missing_congr rfl z t

@[simp] theorem payloadOk_withNet (b : Nat) (xs : List Sec) (t : Tile) :
    payloadOk (withNet s l x) b xs t = payloadOk s b xs t := payloadOk_congr rfl rfl rfl rfl rfl rfl b xs t

end

/-! ### A round (R494, R495) -/

/-- Messages that do not depend on what has been sent go out one after the other. -/
theorem forEach_send {α : Type} (g : State → α → NetMsg) (hg : ∀ y l a, g (withNet y l y.xfer) a = g y a) (as : List α)
    (s : State) : forEach as (fun a x => send x (g x a)) s = withNet s (s.net ++ as.map (g s)) s.xfer := by
  induction as generalizing s with
  | nil => rw [List.map_nil, List.append_nil]; rfl
  | cons a as ih =>
    have hsend : send s (g s a) = withNet s (s.net ++ [g s a]) s.xfer := rfl
    rw [forEach, List.foldl_cons, hsend]
    refine (ih _).trans ?_
    rw [funext (hg s _), withNet_withNet, withNet_net, withNet_xfer, List.append_assoc]
    rfl

/-- The segment `n` of a transfer as a round sends it: to the targets that need it. -/
def roundSegment (s : State) (x : Xfer) (n : Nat) : NetMsg :=
  .segment (x.targets.filter (fun t => (needed (xferSecs s x) t).contains n)) n
    (segBytes s (x.addr + 0x300) (xferSecs s x) n)

/-- A round over an image that reads without an error sends its segments and END, and does nothing else. -/
theorem sendRound_good {s : State} {x : Xfer} (h : LpGood s x.addr x.len) (ns : List Nat) : sendRound s x ns
    = withNet s (s.net ++ ns.map (roundSegment s x) ++ x.targets.map (.endRound · x.round)) s.xfer := by
  unfold sendRound
  rw [lpCheck_good s _ _ h]
  dsimp only
  rw [if_pos rfl, forEach_send (fun y n => .segment (x.targets.filter (fun t => (needed (xferSecs s x) t).contains n)) n
      (segBytes y (x.addr + 0x300) (xferSecs s x) n)) (fun _ _ _ => congrArg (NetMsg.segment _ _) (segBytes_withNet _ _ _ _ _ _)),
    forEach_send (fun _ t => .endRound t x.round) (fun _ _ _ => rfl), withNet_withNet, withNet_net, withNet_xfer]
  rfl

theorem sendRound_good_frame {s : State} {x : Xfer} (h : LpGood s x.addr x.len) (ns : List Nat) :
    (sendRound s x ns).net = s.net ++ ns.map (roundSegment s x) ++ x.targets.map (.endRound · x.round)
      ∧ (sendRound s x ns).regs = s.regs ∧ (sendRound s x ns).xfer = s.xfer ∧ memParts (sendRound s x ns) = memParts s := by
  rw [sendRound_good h]
  exact ⟨withNet_net _ _ _, withNet_regs _ _ _, withNet_xfer _ _ _, memParts_withNet _ _ _⟩

@[simp] theorem loadPart_sendRound (s : State) (x : Xfer) (ns : List Nat) : loadPart (sendRound s x ns) = loadPart s := by
  unfold sendRound
  dsimp only
  rw [loadPart_forEach _ _ fun _ _ => loadPart_send _ _]
  split
  · rw [loadPart_forEach _ _ fun _ _ => loadPart_send _ _, loadPart_lpCheck_ok]
  · exact loadPart_lpCheck_ok s _ _

/-! ### A segment at a load port (R494, R499) -/

/-- What a load port stores does not depend on the messages and on the transfer. -/
theorem putSec_withNet (s : State) (l : List NetMsg) (x : Option Xfer) (t : Tile) (y : Sec) (o : Nat) (bs : List Byte) :
    putSec (withNet s l x) t y o bs = withNet (putSec s t y o bs) l x := by
  unfold putSec
  split
  · rfl
  · rfl
  · rw [withNet_ptile]
    rfl

theorem putSegment_withNet (s : State) (l : List NetMsg) (x : Option Xfer) (t : Tile) (xs : List Sec) (n : Nat) (bs : List Byte) :
    putSegment (withNet s l x) t xs n bs = withNet (putSegment s t xs n bs) l x := by
  unfold putSegment
  generalize (placed 0 xs).filter _ = ps
  induction ps generalizing s with
  | nil => rfl
  | cons p ps ih =>
    rw [forEach, List.foldl_cons, putSec_withNet]
    exact ih _

/-- The other tiles, LPDDR5X, flash and the registers are as before. -/
structure SameButTile (s x : State) (t : Tile) : Prop where
  tile : ∀ u, u ≠ t → x.tile u = s.tile u
  lp : x.lp = s.lp
  flash : x.flash = s.flash
  regs : x.regs = s.regs

theorem SameButTile.trans {s x y : State} {t : Tile} (h : SameButTile s x t) (h' : SameButTile x y t) : SameButTile s y t :=
  ⟨fun u hu => (h'.tile u hu).trans (h.tile u hu), h'.lp.trans h.lp, h'.flash.trans h.flash, h'.regs.trans h.regs⟩

theorem sameButTile_putSec (s : State) (t : Tile) (y : Sec) (o : Nat) (bs : List Byte) :
    SameButTile s (putSec s t y o bs) t := by
  unfold putSec
  split
  · exact ⟨fun u hu => tile_modTile_ne _ _ _ _ hu, rfl, rfl, rfl⟩
  · exact ⟨fun u hu => tile_modTile_ne _ _ _ _ hu, rfl, rfl, rfl⟩
  · exact ⟨fun u _ => rfl, rfl, rfl, rfl⟩

theorem sameButTile_putSegment (s : State) (t : Tile) (xs : List Sec) (n : Nat) (bs : List Byte) :
    SameButTile s (putSegment s t xs n bs) t :=
  forEach_induction (P := fun y => SameButTile s y t) (fun _ _ hx => hx.trans (sameButTile_putSec _ _ _ _ _)) _
    ⟨fun _ _ => rfl, rfl, rfl, rfl⟩

end Sys2Proof.Machine
end

section
/-! PROOFS. Segments, END and STATUS of a tile program's transfer (R494 to R500). -/

namespace Sys2Proof.Machine

open Sys2Proof.Claims

/-! ### The answers of the commands -/

section
variable {s : State} {t : Tile}

theorem answers_segment_none {n : Nat} (ht : t.toNat < s.ntiles) (h : s.net.find? (segFor t n) = none) :
    Answers (.segment (.noc t n)) s s := by
  rw [Answers, exec_segment, execSegment, onTile_of_lt s t _ ht, takeSegment_none h]
  rfl

theorem answers_endRound_none (ht : t.toNat < s.ntiles) (h : s.net.find? (endFor t) = none) :
    Answers (.endRound (.noc t)) s s := by
  rw [Answers, exec_endRound, execEndRound, onTile_of_lt s t _ ht, takeMsg_find_none h]
  rfl

/-- A segment that arrives is taken by the load port, in a state with other messages. -/
theorem answers_segment_some {n : Nat} {ts : List Tile} {bs : List Byte} (ht : t.toNat < s.ntiles)
    (h : s.net.find? (segFor t n) = some (.segment ts n bs)) : ∃ l, Answers (.segment (.noc t n)) s
      (if s.tileOff t then portOff (withNet s l s.xfer) else segmentAt (withNet s l s.xfer) t n bs) := by
  obtain ⟨l, htake⟩ := takeSegment_some h
  refine ⟨l, ?_⟩
  rw [Answers, exec_segment, execSegment, onTile_of_lt s t _ ht, htake]
  rfl

/-- An END that arrives is taken by the load port, in a state with other messages. -/
theorem answers_endRound_some (ht : t.toNat < s.ntiles) (h : (s.net.find? (endFor t)).isSome = true) :
    ∃ l, Answers (.endRound (.noc t)) s
      (if s.tileOff t then portOff (withNet s l s.xfer) else endAtTile (withNet s l s.xfer) t) := by
  obtain ⟨m, hm⟩ := Option.isSome_iff_exists.mp h
  refine ⟨s.net.erase m, ?_⟩
  rw [Answers, exec_endRound, execEndRound, onTile_of_lt s t _ ht, takeMsg_some hm]
  rfl

theorem tile_settle_withNet (s y : State) (l : List NetMsg) (x : Option Xfer) (u : Tile) :
    (settle s (withNet y l x)).tile u = y.tile u := rfl

theorem sameMem_withNet (s : State) (l : List NetMsg) (x : Option Xfer) : SameMem s (settle s (withNet s l x)) :=
  sameMem_of_parts (memParts_withNet s l x)

/-- A tile that is OFF answers MB_ERR_OFF (R18). -/
theorem gives_portOff {c : Instr} {l : List NetMsg} (h : Answers c s (portOff (withNet s l s.xfer))) :
    Gives c s fun s' => .remoteRsp s.module none none rOff ∈ s'.net ∧ s'.xfer = s.xfer ∧ s'.regs = s.regs ∧ SameMem s s' := by
  rw [portOff, withNet_module, send_withNet] at h
  refine gives_of_answers h ⟨?_, withNet_xfer _ _ _, withNet_regs _ _ _, sameMem_withNet _ _ _⟩
  exact List.mem_append_right _ (List.mem_singleton_self _)

theorem gives_offTile {n : Nat} {c : Instr} (ht : t.toNat < s.ntiles) (hoff : s.tileOff t = true)
    (hc : (c = .segment (.noc t n) ∧ (s.net.find? (segFor t n)).isSome = true)
      ∨ (c = .endRound (.noc t) ∧ (s.net.find? (endFor t)).isSome = true)) :
    Gives c s fun s' => .remoteRsp s.module none none rOff ∈ s'.net ∧ s'.xfer = s.xfer ∧ s'.regs = s.regs ∧ SameMem s s' := by
  obtain ⟨rfl, hfind⟩ | ⟨rfl, hfind⟩ := hc
  · obtain ⟨m, hm⟩ := Option.isSome_iff_exists.mp hfind
    obtain ⟨ts, bs, rfl⟩ := segFor_segment hm
    obtain ⟨l, h⟩ := answers_segment_some ht hm
    rw [if_pos hoff] at h
    exact gives_portOff h
  · obtain ⟨l, h⟩ := answers_endRound_some ht hfind
    rw [if_pos hoff] at h
    exact gives_portOff h

end

/-! ### Segments -/

section
variable {s : State} {t : Tile} {x : Xfer}

theorem segmentAt_needed (hx : s.xfer = some x) {i : Nat} (htarget : t ∈ x.targets) (hmiss : i ∈ missing s x t)
    (bs : List Byte) (l : List NetMsg) : segmentAt (withNet s l s.xfer) t i bs
      = withNet (putSegment s t (xferSecs s x) i bs) l (some { x with have_ := x.have_ ++ [(t, i)] }) := by
  unfold segmentAt
  rw [withNet_xfer, hx]
  dsimp only
  rw [if_neg (by simp [htarget, hmiss]), xferSecs_withNet, ← putSegment_withNet]
  rfl

theorem segmentAt_other (hx : s.xfer = some x) {i : Nat} (hother : t ∉ x.targets ∨ i ∉ missing s x t) (bs : List Byte)
    (l : List NetMsg) : segmentAt (withNet s l s.xfer) t i bs = withNet s l s.xfer := by
  unfold segmentAt
  rw [withNet_xfer, hx]
  exact if_pos (by simpa using hother)

section
variable {i : Nat} {ts : List Tile} {bs : List Byte} (ht : t.toNat < s.ntiles) (hon : s.tileOff t = false)
  (hx : s.xfer = some x) (hfind : s.net.find? (segFor t i) = some (.segment ts i bs))
include ht hon hx hfind

/-- A segment that the tile misses is written and noted (R494, R499). -/
theorem gives_segment_needed (htarget : t ∈ x.targets) (hmiss : i ∈ missing s x t) :
    Gives (.segment (.noc t i)) s fun s' =>
      s'.xfer = some { x with have_ := x.have_ ++ [(t, i)] }
        ∧ s'.tile t = (putSegment s t (xferSecs s x) i bs).tile t
        ∧ s'.spool = (putSegment s t (xferSecs s x) i bs).spool
        ∧ (∀ u, u ≠ t → s'.tile u = s.tile u) ∧ s'.lp = s.lp ∧ s'.flash = s.flash ∧ s'.regs = s.regs := by
  obtain ⟨l, h⟩ := answers_segment_some ht hfind
  rw [hon, if_neg Bool.false_ne_true, segmentAt_needed hx htarget hmiss] at h
  have hsame := sameButTile_putSegment s t (xferSecs s x) i bs
  refine gives_of_answers h ⟨?_, tile_settle_withNet _ _ _ _ _, ?_, fun u hu => ?_, ?_, ?_, ?_⟩
  · rw [settle_xfer, withNet_xfer]
  · rw [settle_spool, withNet_spool]
  · rw [tile_settle_withNet, hsame.tile u hu]
  · rw [settle_lp, withNet_lp, hsame.lp]
  · rw [settle_flash, withNet_flash, hsame.flash]
  · rw [settle_regs, withNet_regs, hsame.regs]

/-- Any other segment changes nothing (R494). -/
theorem gives_segment_other (hother : t ∉ x.targets ∨ i ∉ missing s x t) :
    Gives (.segment (.noc t i)) s fun s' => s'.xfer = s.xfer ∧ s'.regs = s.regs ∧ SameMem s s' := by
  obtain ⟨l, h⟩ := answers_segment_some ht hfind
  rw [hon, if_neg Bool.false_ne_true, segmentAt_other hx hother] at h
  exact gives_of_answers h ⟨rfl, rfl, sameMem_withNet _ _ _⟩

end

/-! ### END (R495, R499) -/

theorem mem_settle_withNet (y : State) (l : List NetMsg) (z : Option Xfer) (m : NetMsg) :
    m ∈ (settle s (withNet y (l ++ [m]) z)).net := List.mem_append_right _ (List.mem_singleton_self _)

/-- The state after a target's load port has answered END, with the messages `l` left beside its answer. -/
def endAnswered (s : State) (t : Tile) (x : Xfer) (l : List NetMsg) : State :=
  if ¬ (missing s x t).isEmpty then withNet s (l ++ [.status t (.incomplete (missing s x t))]) s.xfer
  else if payloadOk s (x.addr + 0x300) (xferSecs s x) t then withNet s (l ++ [.status t .digestOk]) s.xfer
  else withNet s (l ++ [.status t .digestBad]) (some { x with have_ := x.have_.filter (fun c => c.1 != t) })

theorem endAtTile_withNet (hx : s.xfer = some x) (htarget : t ∈ x.targets) (l : List NetMsg) :
    endAtTile (withNet s l s.xfer) t = endAnswered s t x l := by
  unfold endAtTile
  rw [withNet_xfer, hx]
  dsimp only
  rw [if_neg (by simpa using htarget), missing_withNet, xferSecs_withNet, payloadOk_withNet, endAnswered, hx]
  rfl

section
variable (ht : t.toNat < s.ntiles) (hon : s.tileOff t = false) (hx : s.xfer = some x) (htarget : t ∈ x.targets)
  (hfind : (s.net.find? (endFor t)).isSome = true)
include ht hon hx htarget hfind

theorem answers_endRound : ∃ l, Answers (.endRound (.noc t)) s (endAnswered s t x l) := by
  obtain ⟨l, h⟩ := answers_endRound_some ht hfind
  rw [hon, if_neg Bool.false_ne_true, endAtTile_withNet hx htarget] at h
  exact ⟨l, h⟩

theorem gives_endRound_incomplete (hmiss : missing s x t ≠ []) : Gives (.endRound (.noc t)) s fun s' =>
    .status t (.incomplete (missing s x t)) ∈ s'.net ∧ s'.xfer = s.xfer ∧ s'.regs = s.regs ∧ SameMem s s' := by
  obtain ⟨l, h⟩ := answers_endRound ht hon hx htarget hfind
  rw [endAnswered, if_pos (by simpa using hmiss)] at h
  exact gives_of_answers h ⟨mem_settle_withNet _ _ _ _, rfl, rfl, sameMem_withNet _ _ _⟩

theorem gives_endRound_digestOk (hmiss : missing s x t = []) (hok : payloadOk s (x.addr + 0x300) (xferSecs s x) t = true) :
    Gives (.endRound (.noc t)) s fun s' =>
      .status t .digestOk ∈ s'.net ∧ s'.xfer = s.xfer ∧ s'.regs = s.regs ∧ SameMem s s' := by
  obtain ⟨l, h⟩ := answers_endRound ht hon hx htarget hfind
  rw [endAnswered, if_neg (by simp [hmiss]), if_pos hok] at h
  exact gives_of_answers h ⟨mem_settle_withNet _ _ _ _, rfl, rfl, sameMem_withNet _ _ _⟩

theorem gives_endRound_digestBad (hmiss : missing s x t = []) (hbad : payloadOk s (x.addr + 0x300) (xferSecs s x) t = false) :
    Gives (.endRound (.noc t)) s fun s' => .status t .digestBad ∈ s'.net ∧ s'.regs = s.regs ∧ SameMem s s'
      ∧ s'.xfer = some { x with have_ := x.have_.filter (fun c => c.1 != t) } := by
  obtain ⟨l, h⟩ := answers_endRound ht hon hx htarget hfind
  rw [endAnswered, if_neg (by simp [hmiss]), if_neg (by simp [hbad])] at h
  exact gives_of_answers h ⟨mem_settle_withNet _ _ _ _, rfl, sameMem_withNet _ _ _, rfl⟩

end

/-! ### STATUS (R495, R500) -/

/-- The transfer after a tile's answer. -/
def Xfer.answer (x : Xfer) (t : Tile) (st : XferStatus) : Xfer :=
  { x with answered := x.answered.filter (fun a => a.1 != t) ++ [(t, st)] }

theorem mem_answer (x : Xfer) (t : Tile) (st : XferStatus) : (t, st) ∈ (x.answer t st).answered :=
  List.mem_append_right _ (List.mem_singleton_self _)

/-- An answer of a target that has not reported is noted; DIGEST_OK arrives on line k0 too. -/
theorem answers_status (ht : t.toNat < s.ntiles) (hx : s.xfer = some x) (htarget : t ∈ x.targets)
    (hrep : reported x t = false) (st : XferStatus) : ∃ l, Answers (.status t st) s
      (if st = .digestOk then setPend (withNet s l (some (x.answer t st))) t 0 else withNet s l (some (x.answer t st))) := by
  obtain ⟨l, hdrop⟩ := dropMsg_eq s (fun m => m == .status t st)
  refine ⟨l, ?_⟩
  rw [Answers, exec_status, execStatus, onTile_of_lt s t _ ht, hdrop]
  dsimp only
  rw [withNet_xfer, hx]
  dsimp only
  rw [if_neg (by simpa [hrep] using htarget)]
  rfl

theorem tackPend_settle (s y : State) (t : Tile) : tackPend (settle s y) t 0 = tackPend y t 0 := rfl

theorem gives_status_digestOk (ht : t.toNat < s.ntiles) (hx : s.xfer = some x) (htarget : t ∈ x.targets)
    (hrep : reported x t = false) : Gives (.status t .digestOk) s fun s' =>
      tackPend s' t 0 = true ∧ (∃ y, s'.xfer = some y ∧ reported y t = true ∧ y.have_ = x.have_) ∧ SameMem s s' := by
  obtain ⟨l, h⟩ := answers_status ht hx htarget hrep .digestOk
  rw [if_pos rfl] at h
  refine gives_of_answers h ⟨(tackPend_settle _ _ t).trans (tackPend_setPend _ t), ⟨x.answer t .digestOk, ?_, ?_, rfl⟩,
    sameMem_of_parts ?_⟩
  · rw [settle_xfer, xfer_of_loadPart (loadPart_setPend _ t 0), withNet_xfer]
  · exact List.contains_iff_mem.mpr (mem_answer x t .digestOk)
  · rw [memParts_settle, memParts_setPend, memParts_withNet]

theorem gives_status_other (ht : t.toNat < s.ntiles) (hx : s.xfer = some x) (htarget : t ∈ x.targets)
    (hrep : reported x t = false) (st : XferStatus) (hst : st ≠ .digestOk) : Gives (.status t st) s fun s' =>
      (∃ y, s'.xfer = some y ∧ (t, st) ∈ y.answered ∧ y.have_ = x.have_) ∧ s'.regs = s.regs ∧ SameMem s s' := by
  obtain ⟨l, h⟩ := answers_status ht hx htarget hrep st
  rw [if_neg hst] at h
  exact gives_of_answers h ⟨⟨x.answer t st, rfl, mem_answer x t st, rfl⟩, rfl, sameMem_withNet _ _ _⟩

/-- A tile that has reported is not heard again. -/
theorem gives_status_reported (ht : t.toNat < s.ntiles) (hx : s.xfer = some x) (hrep : reported x t = true) (st : XferStatus) :
    Gives (.status t st) s fun s' => s'.xfer = s.xfer ∧ s'.regs = s.regs ∧ SameMem s s' := by
  obtain ⟨l, hdrop⟩ := dropMsg_eq s (fun m => m == .status t st)
  have h : Answers (.status t st) s (withNet s l s.xfer) := by
    rw [Answers, exec_status, execStatus, onTile_of_lt s t _ ht, hdrop]
    dsimp only
    rw [withNet_xfer, hx]
    dsimp only
    rw [if_pos (.inr hrep)]
    rfl
  exact gives_of_answers h ⟨rfl, rfl, sameMem_withNet _ _ _⟩

/-! ### The window of rounds 0 to 7 (R495) -/

/-- The targets that have not reported. -/
def laggardsOf (x : Xfer) : List Tile := x.targets.filter (fun t => !reported x t)

/-- The transfer in its next round: of the answers only the reports stand. -/
def nextRound (x : Xfer) : Xfer :=
  { x with round := x.round + 1, answered := x.answered.filter (fun a => a.2 == .digestOk) }

/-- The state from which the next round is sent. -/
def roundState (s : State) (x : Xfer) : State :=
  wr (withNet s s.net (some (nextRound x))) mgPg mg_ROUND (x.round + 1)

theorem roundState_xfer : (roundState s x).xfer = some (nextRound x) := rfl

theorem memParts_roundState : memParts (roundState s x) = memParts s := by
  rw [roundState, memParts_wr, memParts_withNet]

theorem roundState_lp : (roundState s x).lp = s.lp := lp_of_memParts memParts_roundState

theorem roundSegment_roundState (ts : List Tile) (n : Nat) : ∃ us, roundSegment (roundState s x) { nextRound x with targets := ts } n
    = .segment us n (segBytes s (x.addr + 0x300) (xferSecs s x) n) := by
  have hsecs : xferSecs (roundState s x) { nextRound x with targets := ts } = xferSecs s x := xferSecs_congr roundState_lp _
  rw [roundSegment, hsecs, segBytes_congr roundState_lp]
  exact ⟨_, rfl⟩

theorem rd_roundState (h : x.round < 8) : rd (roundState s x) mgPg mg_ROUND = x.round + 1 :=
  rd_wr_fits _ mgPg mg_ROUND _ (by decide) (by simp only [mg_ROUND]; omega)

theorem otherRegs_roundState : OtherRegs s (roundState s x) [(mgPg, mg_ROUND.off)] := fun page off hoff hlt =>
  regW_setW_ne _ _ _ _ _ _ (by
    simp only [List.mem_singleton, Prod.mk.injEq, not_and, mgPg, mg_ROUND] at hoff ⊢
    omega)

theorem answers_statusWindow (hx : s.xfer = some x) : Answers .statusWindow s
    (if (laggardsOf x).isEmpty then s
      else if x.round < 8 then
        sendRound (roundState s x) { nextRound x with targets := laggardsOf x } (((laggardsOf x).flatMap (takenMissing s x)).dedup)
      else laggards s x (laggardsOf x)) := by
  rw [Answers, exec_statusWindow, execStatusWindow, hx]
  rfl

theorem answers_statusWindow_done (hx : s.xfer = some x) (hls : laggardsOf x = []) : Answers .statusWindow s s := by
  have h := answers_statusWindow hx
  rwa [hls, List.isEmpty_nil, if_pos rfl] at h

/-- The next round: its number stands in MG_ROUND, and what is missing and END go out again. -/
theorem gives_statusWindow_round (hx : s.xfer = some x) (hls : laggardsOf x ≠ []) (hround : x.round < 8)
    (hgood : LpGood s x.addr x.len) : Gives .statusWindow s fun s' =>
      (∃ y, s'.xfer = some y ∧ y.round = x.round + 1 ∧ y.have_ = x.have_) ∧ rd s' mgPg mg_ROUND = x.round + 1
        ∧ (∀ t ∈ laggardsOf x, .endRound t (x.round + 1) ∈ s'.net)
        ∧ (∀ t ∈ laggardsOf x, ∀ n ∈ takenMissing s x t,
            ∃ ts, .segment ts n (segBytes s (x.addr + 0x300) (xferSecs s x) n) ∈ s'.net)
        ∧ OtherRegs s s' [(mgPg, mg_ROUND.off)] ∧ SameMem s s' := by
  have h := answers_statusWindow hx
  rw [if_neg (by simpa using hls), if_pos hround] at h
  obtain ⟨hnet, hregs, hxfer, hmem⟩ := sendRound_good_frame (x := { nextRound x with targets := laggardsOf x })
    ((lpGood_of_memParts memParts_roundState _ _).mpr hgood)
    (((laggardsOf x).flatMap (takenMissing s x)).dedup)
  have hregs' := (settle_regs s _).trans hregs
  have hnet' := (settle_net s _).trans hnet
  refine gives_of_answers h ⟨⟨nextRound x, ?_, rfl, rfl⟩, ?_, fun t ht => ?_, fun t ht n hn => ?_, fun page off hoff hlt => ?_,
    sameMem_of_parts ?_⟩
  · rw [settle_xfer, hxfer, roundState_xfer]
  · rw [rd_congr hregs', rd_roundState hround]
  · rw [hnet']
    exact List.mem_append_right _ (List.mem_map.mpr ⟨t, ht, rfl⟩)
  · obtain ⟨us, hseg⟩ := roundSegment_roundState (s := s) (x := x) (laggardsOf x) n
    refine ⟨us, ?_⟩
    rw [hnet', ← hseg]
    exact List.mem_append_left _ (List.mem_append_right _
      (List.mem_map_of_mem (List.mem_dedup.mpr (List.mem_flatMap.mpr ⟨t, ht, hn⟩))))
  · rw [regW, hregs']
    exact otherRegs_roundState page off hoff hlt
  · rw [memParts_settle, hmem, memParts_roundState]

end

end Sys2Proof.Machine
end

section
/-! PROOFS. LOAD (R223, R224, R493, R499): its refusals, and the transfer that an accepted image begins. -/

namespace Sys2Proof.Machine

open Sys2Proof.Claims

/-! ### What a refusal leaves alone -/

/-- The image in force, the transfer, the memories and the host's queues are as before. -/
structure LoadFrame (s x : State) : Prop where
  image : x.image = s.image
  xfer : x.xfer = s.xfer
  mem : memParts x = memParts s
  queues : hostQueues x = hostQueues s

theorem LoadFrame.refl (s : State) : LoadFrame s s := ⟨rfl, rfl, rfl, rfl⟩

theorem LoadFrame.trans {s x y : State} (h : LoadFrame s x) (h' : LoadFrame x y) : LoadFrame s y :=
  ⟨h'.image.trans h.image, h'.xfer.trans h.xfer, h'.mem.trans h.mem, h'.queues.trans h.queues⟩

theorem loadFrame_wr (s : State) (page : Nat) (f : Fld) (v : Nat) : LoadFrame s (wr s page f v) :=
  ⟨rfl, rfl, memParts_wr s page f v, hostQueues_wr s page f v⟩

theorem loadFrame_raiseF (s : State) (page : Nat) (f : Fld) : LoadFrame s (raiseF s page f) := by
  obtain ⟨r, i, h, heq⟩ := raiseBit_eq s page f.lo
  rw [raiseF, heq]
  exact ⟨rfl, rfl, rfl, rfl⟩

theorem loadFrame_logReq (s : State) (sev code source : Nat) (payload : List Byte) :
    LoadFrame s (logReq s sev code source payload) := by
  obtain ⟨r, i, h, l, heq⟩ := logReq_eq s sev code source payload
  rw [heq]
  exact ⟨rfl, rfl, rfl, rfl⟩

theorem loadFrame_lpUe (s : State) (a : Nat) : LoadFrame s (lpUe s a) := by
  obtain ⟨r, i, h, l, heq⟩ := lpUe_eq s a
  rw [heq]
  exact ⟨rfl, rfl, rfl, rfl⟩

theorem loadFrame_freshFree (s : State) : LoadFrame s (freshFree s).2 := ⟨rfl, rfl, memParts_freshFree s, hostQueues_freshFree s⟩

theorem loadFrame_refuseLoad (s : State) (n : Nat) : LoadFrame s (refuseLoad s n) :=
  ((loadFrame_wr s _ _ _).trans (loadFrame_raiseF _ _ _)).trans (loadFrame_logReq _ _ _ _ _)

theorem loadFrame_sigFail (s : State) (obj : Nat) : LoadFrame s (sigFail s obj) :=
  ((loadFrame_raiseF s _ _).trans (loadFrame_wr _ _ _ _)).trans (loadFrame_logReq _ _ _ _ _)

/-! ### The record of a refusal -/

theorem regW_report (s : State) (page b page' off : Nat) : regW (report s page b) page' off = regW s page' off := by
  unfold report
  split <;> rfl

theorem flag_congr {x y : State} (h : x.regs = y.regs) {page : Nat} {f : Fld} (hy : Claims.Flag y page f) :
    Claims.Flag x page f := by
  rw [Claims.Flag, regW, h]
  exact hy

/-- A fault bit stands after it is raised (R544). -/
theorem flag_raiseF (s : State) (page : Nat) (f : Fld) (h : f.lo < 32) : Claims.Flag (raiseF s page f) page f := by
  have hset : bit (regW (setW s page pg_FAULT.off (regW s page pg_FAULT.off ||| 2 ^ f.lo)) page pg_FAULT.off) f.lo = true := by
    rw [regW_setW, if_pos rfl, bit, Nat.testBit_mod_two_pow, Nat.testBit_or, Nat.testBit_two_pow_self]
    simp [h]
  unfold Claims.Flag raiseF raiseBit
  dsimp only
  split
  · exact hset
  · rw [regW_report, wr, wri, regW_setW_ne _ _ _ _ _ _ (by simp only [pg_FAULT, pg_FORCED]; omega)]
    exact hset

/-- A fault bit stands when another bit of its page is raised. -/
theorem flag_raiseF_of_flag {s : State} {page : Nat} {g : Fld} (hg : g.lo < 32) (hs : Claims.Flag s page g) (f : Fld) :
    Claims.Flag (raiseF s page f) page g := by
  have hset : bit (regW (setW s page pg_FAULT.off (regW s page pg_FAULT.off ||| 2 ^ f.lo)) page pg_FAULT.off) g.lo = true := by
    have hbit : (regW s page pg_FAULT.off).testBit g.lo = true := hs
    rw [regW_setW, if_pos rfl, bit, Nat.testBit_mod_two_pow, Nat.testBit_or, hbit]
    simp [hg]
  unfold Claims.Flag raiseF raiseBit
  dsimp only
  split
  · exact hset
  · rw [regW_report, wr, wri, regW_setW_ne _ _ _ _ _ _ (by simp only [pg_FAULT, pg_FORCED]; omega)]
    exact hset

theorem flag_wr {s : State} {page : Nat} {g : Fld} (hs : Claims.Flag s page g) (f : Fld) (v : Nat) (h : f.off ≠ pg_FAULT.off) :
    Claims.Flag (wr s page f v) page g := by
  rw [Claims.Flag, wr, wri, regW_setW_ne _ _ _ _ _ _ (by simp only [Nat.mul_zero, Nat.add_zero]; omega)]
  exact hs

theorem rd_refuseLoad (s : State) {n : Nat} (h : n < 256) : rd (refuseLoad s n) mgPg mg_LOAD_REASON = n := by
  rw [refuseLoad, rd_mg_of_loadPart (loadPart_logReq _ _ _ _ _) (by decide), rd_raiseF_ne _ _ _ _ _ (by decide) (by decide)]
  exact rd_wr_fits s mgPg mg_LOAD_REASON n (by decide) h

theorem flag_refuseLoad (s : State) (n : Nat) : Claims.Flag (refuseLoad s n) mgPg mg_F_LOAD_REFUSED :=
  flag_mg_of_loadPart (loadPart_logReq _ _ _ _ _) (flag_raiseF _ _ _ (by decide))

theorem flag_refuseLoad_of_flag {s : State} {g : Fld} (hg : g.lo < 32) (hs : Claims.Flag s mgPg g) (n : Nat) :
    Claims.Flag (refuseLoad s n) mgPg g :=
  flag_mg_of_loadPart (loadPart_logReq _ _ _ _ _) (flag_raiseF_of_flag hg (flag_wr hs _ _ (by decide)) _)

/-! ### The command -/

/-- The reason of the first check of an image that fails (R223, R493, R525). -/
def loadReason (key : List Byte) (s : State) (e : List Byte) : Nat :=
  if headReason s (arg e 0) (arg e 1) key ≠ 0 then headReason s (arg e 0) (arg e 1) key
  else bodyReason s (arg e 0 + 0x300) (img s (arg e 0) 0x3C 4)

theorem headReason_le (s : State) (a len : Nat) (key : List Byte) : headReason s a len key ≤ 10 := by
  unfold headReason
  simp only [apply_ite (· ≤ 10), Nat.reduceLeDiff, ite_self]

theorem bodyReason_le (s : State) (b n : Nat) : bodyReason s b n ≤ 17 := by
  unfold bodyReason
  simp only [apply_ite (· ≤ 17), Nat.reduceLeDiff, ite_self]

theorem loadReason_lt (key : List Byte) (s : State) (e : List Byte) : loadReason key s e < 256 := by
  unfold loadReason
  have hhead := headReason_le s (arg e 0) (arg e 1) key
  have hbody := bodyReason_le s (arg e 0 + 0x300) (img s (arg e 0) 0x3C 4)
  split <;> omega

/-- LOAD with the image read: it is refused, or its transfer begins. -/
def loadRead (key : List Byte) (k : Nat) (e : List Byte) (s : State) : State :=
  let s' := if headReason s (arg e 0) (arg e 1) key = 2 then sigFail s 1 else s
  if loadReason key s e ≠ 0 then complete (refuseLoad s' (loadReason key s e)) k e csRefused (loadReason key s e)
  else beginXfer (holdCpl s' k e 0x44) (arg e 0) (arg e 1)

/-- LOAD while no other command runs. -/
def loadBody (key : List Byte) (s : State) (k : Nat) (e : List Byte) : State :=
  if s.sec.owner.isNone then complete (refuseLoad s 2) k e csRefused 2
  else if rd s mgPg mg_PHASE < 8 ∨ s.stopped then refuseFree s k e
  else if ¬ inLp (arg e 0) (arg e 1) then complete s k e csErrUnmapped 0
  else needMem s k e (arg e 0) (arg e 1) (loadRead key k e)

theorem execLoad_eq (q : QRef) (key : List Byte) (s : State) :
    execLoad q key s = hostCmd q 0x44 (stateCmd (loadBody key)) s := rfl

section
variable {s : State} {q : QRef} {h : HostQ} {e key : List Byte}

theorem exec_load_runs (key : List Byte) (r : EntryRuns s q 0x44 h e) (hidle : s.mgmtBusy = none) :
    Machine.exec (.load q key) s = .next (settle s (loadBody key (taken s q h) (qref q) e)) := by
  have hbusy : (taken s q h).mgmtBusy = none := hidle
  rw [exec_load, execLoad_eq, hostCmd_runs s q 0x44 h e _ r, stateCmd, hbusy]

/-- A LOAD that completes at once leaves the image in force, the transfer and the memories. -/
theorem posts_load {st d : Nat} {x : State} (r : EntryRuns s q 0x44 h e) (hidle : s.mgmtBusy = none)
    (hbody : loadBody key (taken s q h) (qref q) e = complete x (qref q) e st d) (hx : LoadFrame (taken s q h) x) :
    Posts (.load q key) s q h e st d fun s' =>
      s'.regs = x.regs ∧ s'.image = s.image ∧ s'.xfer = s.xfer ∧ SameMem s s' := by
  refine ⟨_, exec_load_runs key r hidle, ?_⟩
  rw [hbody, complete_taken hx.queues]
  refine ⟨?_, rfl, hx.image, hx.xfer, sameMem_of_parts ?_⟩
  · rw [queueGet, settle_queues]
    exact queueGet_queuePut _ _ _
  · rw [memParts_settle, memParts_queuePut, hx.mem, memParts_taken]

theorem posts_load_refused {x : State} {n : Nat} (r : EntryRuns s q 0x44 h e) (hidle : s.mgmtBusy = none) (hn : n < 256)
    (hbody : loadBody key (taken s q h) (qref q) e = complete (refuseLoad x n) (qref q) e csRefused n)
    (hx : LoadFrame (taken s q h) x) : Posts (.load q key) s q h e csRefused n fun s' =>
      rd s' mgPg mg_LOAD_REASON = n ∧ Claims.Flag s' mgPg mg_F_LOAD_REFUSED ∧ s'.image = s.image ∧ s'.xfer = s.xfer
        ∧ SameMem s s' := by
  refine posts_mono (posts_load r hidle hbody (hx.trans (loadFrame_refuseLoad x n))) fun s' ⟨hregs, himage, hxfer, hmem⟩ => ?_
  exact ⟨(rd_congr hregs _ _).trans (rd_refuseLoad x hn), flag_congr hregs (flag_refuseLoad x n), himage, hxfer, hmem⟩

/-- Without an owner key the reason is 2 (R525). -/
theorem posts_load_keyless (key : List Byte) (r : EntryRuns s q 0x44 h e) (hidle : s.mgmtBusy = none) (hkey : s.sec.owner = none) :
    Posts (.load q key) s q h e csRefused 2 fun s' =>
      rd s' mgPg mg_LOAD_REASON = 2 ∧ Claims.Flag s' mgPg mg_F_LOAD_REFUSED ∧ s'.image = s.image ∧ s'.xfer = s.xfer
        ∧ SameMem s s' := by
  have hkey' : (taken s q h).sec.owner = none := hkey
  exact posts_load_refused r hidle (by decide) (if_pos (by rw [hkey']; rfl)) (.refl _)

theorem not_keyless_taken (hkey : s.sec.owner.isSome = true) : ¬ (taken s q h).sec.owner.isNone = true := by
  obtain ⟨o, ho⟩ := Option.isSome_iff_exists.mp hkey
  have howner : (taken s q h).sec.owner = some o := ho
  rw [howner]
  exact Bool.false_ne_true

theorem rd_taken (page : Nat) (f : Fld) : rd (taken s q h) page f = rd s page f := rd_congr taken_regs page f

section
variable (r : EntryRuns s q 0x44 h e) (hidle : s.mgmtBusy = none) (hkey : s.sec.owner.isSome = true)
include r hidle hkey

/-- A module that is not ready accepts no image (R450, R476). -/
theorem posts_load_early (key : List Byte) (hearly : rd s mgPg mg_PHASE < 8 ∨ s.stopped = true) :
    ∃ d, Posts (.load q key) s q h e csRefused d fun s' =>
      s'.image = s.image ∧ s'.xfer = s.xfer ∧ s'.regs = s.regs ∧ SameMem s s' := by
  have hsome := not_keyless_taken (q := q) (h := h) hkey
  have hearly' : rd (taken s q h) mgPg mg_PHASE < 8 ∨ (taken s q h).stopped = true := by
    rw [rd_taken]
    exact hearly
  refine ⟨_, posts_mono (posts_load r hidle ((if_neg hsome).trans (if_pos hearly')) (loadFrame_freshFree _))
    fun s' ⟨hregs, himage, hxfer, hmem⟩ => ⟨himage, hxfer, hregs.trans ?_, hmem⟩⟩
  rw [freshFree_regs, taken_regs]

variable (hphase : 8 ≤ rd s mgPg mg_PHASE) (hrun : s.stopped = false)
include hphase hrun

omit r hidle in
/-- A ready module looks where the image lies. -/
theorem loadBody_ready (key : List Byte) : loadBody key (taken s q h) (qref q) e
    = if ¬ inLp (arg e 0) (arg e 1) then complete (taken s q h) (qref q) e csErrUnmapped 0
      else needMem (taken s q h) (qref q) e (arg e 0) (arg e 1) (loadRead key (qref q) e) := by
  have hsome := not_keyless_taken (q := q) (h := h) hkey
  have hready : ¬ (rd (taken s q h) mgPg mg_PHASE < 8 ∨ (taken s q h).stopped = true) := by
    have hrun' : (taken s q h).stopped = false := hrun
    rw [rd_taken, hrun']
    simpa using hphase
  exact (if_neg hsome).trans (if_neg hready)

theorem posts_load_unmapped (key : List Byte) (hlp : inLp (arg e 0) (arg e 1) = false) :
    Posts (.load q key) s q h e csErrUnmapped 0 fun s' =>
      s'.image = s.image ∧ s'.xfer = s.xfer ∧ s'.regs = s.regs ∧ SameMem s s' := by
  refine posts_mono (posts_load r hidle ((loadBody_ready hkey hphase hrun key).trans (if_pos (by simp [hlp]))) (.refl _))
    fun s' ⟨hregs, himage, hxfer, hmem⟩ => ⟨himage, hxfer, hregs.trans taken_regs, hmem⟩

variable (hlp : inLp (arg e 0) (arg e 1) = true)
include hlp

/-- An image that cannot be read completes the command with ERR_UE (R280). -/
theorem posts_load_ue (key : List Byte) (hbad : lpIsBad s (arg e 0) (arg e 1) = true) :
    Posts (.load q key) s q h e csErrUe rUe fun s' => s'.image = s.image ∧ s'.xfer = s.xfer ∧ SameMem s s' := by
  have hbody : loadBody key (taken s q h) (qref q) e
      = complete (lpUe (taken s q h) (lpBadAt (taken s q h) (arg e 0) (arg e 1))) (qref q) e csErrUe rUe := by
    rw [loadBody_ready hkey hphase hrun key, if_neg (by simp [hlp]), needMem,
      lpCheck_bad (taken s q h) _ _ .ok (lpIsBad_taken.trans hbad)]
    exact if_neg Bool.false_ne_true
  exact posts_mono (posts_load r hidle hbody (loadFrame_lpUe _ _)) fun s' ⟨_, himage, hxfer, hmem⟩ => ⟨himage, hxfer, hmem⟩

variable (hgood : LpGood s (arg e 0) (arg e 1))
include hgood

omit r hidle in
theorem loadBody_read (key : List Byte) : loadBody key (taken s q h) (qref q) e = loadRead key (qref q) e (taken s q h) := by
  rw [loadBody_ready hkey hphase hrun key, if_neg (by simp [hlp]), needMem_good hgood]

/-- The reason of the first check that fails refuses the image (R224, R493). -/
theorem posts_load_failed (key : List Byte) (hreason : loadReason key (taken s q h) e ≠ 0) :
    Posts (.load q key) s q h e csRefused (loadReason key (taken s q h) e) fun s' =>
      rd s' mgPg mg_LOAD_REASON = loadReason key (taken s q h) e ∧ Claims.Flag s' mgPg mg_F_LOAD_REFUSED
        ∧ s'.image = s.image ∧ s'.xfer = s.xfer ∧ SameMem s s' := by
  refine posts_load_refused r hidle (loadReason_lt _ _ _)
    ((loadBody_read hkey hphase hrun hlp hgood key).trans (if_pos hreason)) ?_
  split
  · exact loadFrame_sigFail _ _
  · exact .refl _

end

end

/-! ### The transfer begins (R499, R500) -/

/-- The spools, flash, the fuses and the command in progress are as before, and no line of LPDDR5X has become bad or weak. -/
structure BeginFrame (s x : State) : Prop where
  spool : x.spool = s.spool
  flash : x.flash = s.flash
  fuses : x.fuses = s.fuses
  mgmtBusy : x.mgmtBusy = s.mgmtBusy
  bad : ∀ l ∈ x.lpBad, l ∈ s.lpBad
  weak : ∀ l ∈ x.lpWeak, l ∈ s.lpWeak

theorem BeginFrame.refl (s : State) : BeginFrame s s := ⟨rfl, rfl, rfl, rfl, fun _ => id, fun _ => id⟩

theorem BeginFrame.trans {s x y : State} (h : BeginFrame s x) (h' : BeginFrame x y) : BeginFrame s y :=
  ⟨h'.spool.trans h.spool, h'.flash.trans h.flash, h'.fuses.trans h.fuses, h'.mgmtBusy.trans h.mgmtBusy,
    fun l hl => h.bad l (h'.bad l hl), fun l hl => h.weak l (h'.weak l hl)⟩

theorem beginFrame_wr (s : State) (page : Nat) (f : Fld) (v : Nat) : BeginFrame s (wr s page f v) :=
  ⟨rfl, rfl, rfl, rfl, fun _ => id, fun _ => id⟩

theorem beginFrame_lpWrite (s : State) (a : Nat) (bs : List Byte) : BeginFrame s (lpWrite s a bs) :=
  ⟨rfl, rfl, rfl, rfl, fun _ hl => List.mem_of_mem_filter hl, fun _ hl => List.mem_of_mem_filter hl⟩

theorem beginFrame_putModule (s : State) (b : Nat) : BeginFrame s (putModule s b) := by
  unfold putModule
  refine forEach_induction (P := fun y => BeginFrame s y) (fun x y hy => hy.trans ?_) _
    (forEach_induction (P := fun y => BeginFrame s y) (fun x y hy => hy.trans (beginFrame_lpWrite _ _ _)) _ (.refl s))
  exact ⟨rfl, rfl, rfl, rfl, fun _ => id, fun _ => id⟩

theorem beginFrame_armLine (s : State) (ts : List Tile) : BeginFrame s (armLine s ts) := by
  obtain ⟨r, i, h, d, fd, heq⟩ := armLine_eq s ts
  rw [heq]
  exact ⟨rfl, rfl, rfl, rfl, fun _ => id, fun _ => id⟩

/-- The module's own sections are in place, and the transfer's counts are 0. -/
def placedFor (s : State) (a : Nat) : State := wr (wr (putModule s (a + 0x300)) mgPg mg_ROUND 0) mgPg mg_LAGGARDS 0

/-- The line k0 is armed for every tile. -/
def armedFor (s : State) (a : Nat) : State := armLine (placedFor s a) (placedFor s a).tileList

/-- The transfer of round 0. -/
def firstXfer (s : State) (a len : Nat) : Xfer :=
  { addr := a, len := len, round := 0, targets := s.tileList, have_ := [], answered := [] }

/-- No image is in force while one is in transfer. -/
def inTransfer (s : State) (x : Xfer) : State := { s with image := none, xfer := some x }

theorem beginXfer_eq (s : State) (a len : Nat) : beginXfer s a len
    = sendRound (inTransfer (armedFor s a) (firstXfer (armedFor s a) a len)) (firstXfer (armedFor s a) a len)
        (segments (xferSecs (armedFor s a) (firstXfer (armedFor s a) a len))) := rfl

theorem beginFrame_armedFor (s : State) (a : Nat) : BeginFrame s (armedFor s a) :=
  (((beginFrame_putModule s _).trans (beginFrame_wr _ _ _ _)).trans (beginFrame_wr _ _ _ _)).trans (beginFrame_armLine _ _)

theorem rd_armedFor (s : State) (a : Nat) : rd (armedFor s a) mgPg mg_ROUND = 0 := by
  rw [armedFor, rd_mg_of_loadPart (loadPart_armLine _ _) (by decide), placedFor, rd_wr_apart _ _ _ _ _ (by decide)]
  exact rd_wr_fits _ mgPg mg_ROUND 0 (by decide) (by decide)

theorem tileList_congr {x y : State} (h : y.fuses = x.fuses) : y.tileList = x.tileList := by
  simp only [State.tileList, State.ntiles, State.ncols, h]

section
variable (s : State) (x : Xfer)

theorem inTransfer_lp : (inTransfer s x).lp = s.lp := rfl
theorem memParts_inTransfer : memParts (inTransfer s x) = memParts s := rfl

/-- Round 0 sends every segment and END to every target; the image that was in force is not any more. -/
theorem sendRound_inTransfer (ns : List Nat) (hgood : LpGood s x.addr x.len) :
    (sendRound (inTransfer s x) x ns).image = none ∧ (sendRound (inTransfer s x) x ns).xfer = some x
      ∧ (∀ u ∈ x.targets, .endRound u x.round ∈ (sendRound (inTransfer s x) x ns).net)
      ∧ (∀ n ∈ ns, roundSegment s x n ∈ (sendRound (inTransfer s x) x ns).net)
      ∧ (sendRound (inTransfer s x) x ns).mgmtBusy = s.mgmtBusy ∧ (sendRound (inTransfer s x) x ns).regs = s.regs
      ∧ memParts (sendRound (inTransfer s x) x ns) = memParts s := by
  have hseg : roundSegment (inTransfer s x) x = roundSegment s x := funext fun n => by
    rw [roundSegment, roundSegment, xferSecs_congr (inTransfer_lp s x), segBytes_congr (inTransfer_lp s x)]
  rw [sendRound_good ((lpGood_of_memParts (memParts_inTransfer s x) _ _).mpr hgood), hseg]
  refine ⟨rfl, rfl, fun u hu => ?_, fun n hn => ?_, rfl, rfl, ?_⟩
  · exact List.mem_append_right _ (List.mem_map.mpr ⟨u, hu, rfl⟩)
  · exact List.mem_append_left _ (List.mem_append_right _ (List.mem_map_of_mem hn))
  · rw [memParts_withNet, memParts_inTransfer]

end

theorem holdCpl_frame (s : State) (k : Nat) (e : List Byte) (op : Nat) :
    ∃ qs, holdCpl s k e op = { s with mgmtBusy := some { op := op, key := k }, queues := qs } := by
  unfold holdCpl pushCpl
  split
  · exact ⟨s.queues, rfl⟩
  · exact ⟨_, rfl⟩

theorem lpGood_of_beginFrame {s x : State} (h : BeginFrame s x) {a n : Nat} (hgood : LpGood s a n) : LpGood x a n :=
  lpGood_of_subset hgood (le_refl a) (le_refl _) h.bad h.weak

/-- An image that passes every check begins its transfer, and the command waits for it (R493, R499). -/
theorem gives_load_begins {s : State} {q : QRef} {h : HostQ} {e key : List Byte} (r : EntryRuns s q 0x44 h e)
    (hidle : s.mgmtBusy = none) (hkey : s.sec.owner.isSome = true) (hphase : 8 ≤ rd s mgPg mg_PHASE) (hrun : s.stopped = false)
    (hlp : inLp (arg e 0) (arg e 1) = true) (hgood : LpGood s (arg e 0) (arg e 1))
    (hpass : loadReason key (taken s q h) e = 0) : Gives (.load q key) s fun s' => s'.image = none
      ∧ (∃ x : Xfer, x = firstXfer s (arg e 0) (arg e 1)
        ∧ s'.xfer = some x ∧ (∀ u ∈ s.tileList, .endRound u 0 ∈ s'.net)
        ∧ ∀ n ∈ segments (xferSecs s' x), .segment (s.tileList.filter (fun u => (needed (xferSecs s' x) u).contains n)) n
            (segBytes s' (arg e 0 + 0x300) (xferSecs s' x) n) ∈ s'.net)
      ∧ s'.mgmtBusy = some { op := 0x44, key := qref q } ∧ rd s' mgPg mg_ROUND = 0 ∧ s'.spool = s.spool
      ∧ s'.flash = s.flash := by
  obtain ⟨qs, hhold⟩ := holdCpl_frame (taken s q h) (qref q) e 0x44
  have hheld : BeginFrame { s with mgmtBusy := some { op := 0x44, key := qref q } } (holdCpl (taken s q h) (qref q) e 0x44) := by
    rw [hhold]
    exact ⟨rfl, rfl, rfl, rfl, fun _ => id, fun _ => id⟩
  have harmed := hheld.trans (beginFrame_armedFor (holdCpl (taken s q h) (qref q) e 0x44) (arg e 0))
  have hround := rd_armedFor (holdCpl (taken s q h) (qref q) e 0x44) (arg e 0)
  have hbody : loadBody key (taken s q h) (qref q) e = beginXfer (holdCpl (taken s q h) (qref q) e 0x44) (arg e 0) (arg e 1) := by
    have hhead : headReason (taken s q h) (arg e 0) (arg e 1) key ≠ 2 := fun h2 => by
      rw [loadReason, h2, if_pos (by decide)] at hpass
      exact absurd hpass (by decide)
    rw [loadBody_read hkey hphase hrun hlp hgood, loadRead, if_neg hhead, if_neg (not_not.mpr hpass)]
  have hexec := exec_load_runs key r hidle
  rw [hbody, beginXfer_eq] at hexec
  revert harmed hround hexec
  generalize armedFor (holdCpl (taken s q h) (qref q) e 0x44) (arg e 0) = y
  intro harmed hround hexec
  have htiles : y.tileList = s.tileList := tileList_congr harmed.fuses
  have hfirst : firstXfer y (arg e 0) (arg e 1) = firstXfer s (arg e 0) (arg e 1) := by rw [firstXfer, htiles, firstXfer]
  rw [hfirst] at hexec
  obtain ⟨himage, hxfer, hend, hseg, hbusy, hregs, hmem⟩ := sendRound_inTransfer y (firstXfer s (arg e 0) (arg e 1))
    (segments (xferSecs y (firstXfer s (arg e 0) (arg e 1)))) (lpGood_of_beginFrame harmed hgood)
  revert himage hxfer hend hseg hbusy hregs hmem hexec
  generalize sendRound _ _ _ = z
  intro hexec himage hxfer hend hseg hbusy hregs hmem
  have hlp' : (settle s z).lp = y.lp := lp_of_memParts ((memParts_settle s z).trans hmem)
  simp only [memParts, Prod.mk.injEq] at hmem
  obtain ⟨hspool, -, -, -, -, -, hflash, -⟩ := hmem
  refine ⟨_, hexec, himage, ⟨_, rfl, hxfer, hend, ?_⟩, hbusy.trans harmed.mgmtBusy, ?_, hspool.trans harmed.spool,
    hflash.trans harmed.flash⟩
  · rw [xferSecs_congr hlp']
    intro n hn
    rw [segBytes_congr hlp']
    exact hseg n hn
  · exact (rd_congr ((settle_regs s z).trans hregs) _ _).trans hround

end Sys2Proof.Machine
end

section
/-! PROOFS. The laggards of round 8 (R496): their rows come up again and receive their payloads anew, or the load is refused
for want of a spare. Then the statement about loads and transfers. -/

namespace Sys2Proof.Machine

open Sys2Proof.Claims

/-! ### A laggard is fenced -/

/-- A laggard is counted and named on the MG page (R496). -/
def markLaggard (s : State) (t : Tile) : State :=
  wr (inc (raiseF s mgPg mg_F_LAGGARD) mgPg mg_LAGGARDS 1) mgPg mg_LAG_TILE t.toNat

/-- The fence and the line k0 leave the MG page as the mark has it. -/
theorem loadPart_fenceLaggard (s : State) (t : Tile) : loadPart (fenceLaggard t s) = loadPart (markLaggard s t) := by
  simp [fenceLaggard, markLaggard]

theorem markLaggard_fuses (s : State) (t : Tile) : (markLaggard s t).fuses = s.fuses := by
  obtain ⟨r, i, h, heq⟩ := raiseBit_eq s mgPg mg_F_LAGGARD.lo
  rw [markLaggard, raiseF, heq]
  rfl

theorem flag_markLaggard (s : State) (t : Tile) : Claims.Flag (markLaggard s t) mgPg mg_F_LAGGARD :=
  flag_wr (flag_wr (flag_raiseF s mgPg mg_F_LAGGARD (by decide)) mg_LAGGARDS _ (by decide)) mg_LAG_TILE _ (by decide)

theorem flag_fenceLaggard (s : State) (t : Tile) : Claims.Flag (fenceLaggard t s) mgPg mg_F_LAGGARD :=
  flag_mg_of_loadPart (loadPart_fenceLaggard s t) (flag_markLaggard s t)

/-- The state with every laggard fenced. -/
def laggardsFenced (s : State) (ls : List Tile) : State := forEach ls fenceLaggard s

theorem flag_laggardsFenced (s : State) {ls : List Tile} (h : ls ≠ []) : Claims.Flag (laggardsFenced s ls) mgPg mg_F_LAGGARD := by
  obtain ⟨t, ts, rfl⟩ := List.exists_cons_of_ne_nil h
  exact forEach_induction (P := fun y => Claims.Flag y mgPg mg_F_LAGGARD) (fun t y _ => flag_fenceLaggard y t) ts
    (flag_fenceLaggard s t)

theorem laggardsFenced_ncols (s : State) (ls : List Tile) : (laggardsFenced s ls).ncols = s.ncols := by
  refine forEach_induction (P := fun y => y.ncols = s.ncols) (fun t y hy => ?_) ls rfl
  rw [ncols_of_loadPart (loadPart_fenceLaggard y t), State.ncols, markLaggard_fuses, ← State.ncols, hy]

/-! ### A row without a spare -/

theorem finishCmd_eq (s : State) (st d : Nat) : ∃ qs, finishCmd s st d = { s with mgmtBusy := none, queues := qs } := by
  unfold finishCmd
  split
  next hnone => exact ⟨s.queues, by rw [← hnone]⟩
  next r _ =>
    dsimp only
    split
    · exact ⟨_, rfl⟩
    · exact ⟨s.queues, rfl⟩

theorem finishCmd_frame (s : State) (st d : Nat) : (finishCmd s st d).xfer = s.xfer ∧ (finishCmd s st d).regs = s.regs
    ∧ (finishCmd s st d).mgmtBusy = none := by
  obtain ⟨qs, heq⟩ := finishCmd_eq s st d
  rw [heq]
  exact ⟨rfl, rfl, rfl⟩

/-- The load is abandoned for want of a spare (R496). -/
def abandonLoad (s : State) : State := finishCmd (refuseLoad (withNet s s.net none) 15) csRefused 15

theorem abandonLoad_frame {s : State} (hflag : Claims.Flag s mgPg mg_F_LAGGARD) : (abandonLoad s).xfer = none
    ∧ rd (abandonLoad s) mgPg mg_LOAD_REASON = 15 ∧ Claims.Flag (abandonLoad s) mgPg mg_F_LOAD_REFUSED
    ∧ (abandonLoad s).mgmtBusy = none ∧ Claims.Flag (abandonLoad s) mgPg mg_F_LAGGARD := by
  obtain ⟨hxfer, hregs, hbusy⟩ := finishCmd_frame (refuseLoad (withNet s s.net none) 15) csRefused 15
  rw [← abandonLoad] at hxfer hregs hbusy
  refine ⟨?_, ?_, flag_congr hregs (flag_refuseLoad _ 15), hbusy,
    flag_congr hregs (flag_refuseLoad_of_flag (by decide) (flag_congr (withNet_regs _ _ _) hflag) 15)⟩
  · rw [hxfer, (loadFrame_refuseLoad _ 15).xfer, withNet_xfer]
  · rw [rd_congr hregs]
    exact rd_refuseLoad _ (by decide)

/-! ### Rows that come up again -/

/-- The transfer in which the tiles `ts` begin anew (R496). -/
def retryXfer (x : Xfer) (ts : List Tile) : Xfer :=
  { x with round := 0, targets := x.targets.filter (fun t => !ts.contains t) ++ ts,
           have_ := x.have_.filter (fun c => !ts.contains c.1),
           answered := x.answered.filter (fun a => a.2 == .digestOk && !ts.contains a.1) }

theorem mem_retryXfer_targets (x : Xfer) {ts : List Tile} {t : Tile} (h : t ∈ ts) : t ∈ (retryXfer x ts).targets :=
  List.mem_append_right _ h

theorem reported_retryXfer (x : Xfer) {ts : List Tile} {t : Tile} (h : t ∈ ts) : reported (retryXfer x ts) t = false := by
  simp [reported, retryXfer, h]

theorem not_mem_retryXfer_have (x : Xfer) {ts : List Tile} {t : Tile} (h : t ∈ ts) (i : Nat) :
    (t, i) ∉ (retryXfer x ts).have_ := by
  simp [retryXfer, h]

/-- The rows `ys` reset. -/
def resetRows (s : State) (ys : List Nat) : State := forEach ys (fun y s => resetRow s y) s

theorem loadPart_resetRows (s : State) (ys : List Nat) : loadPart (resetRows s ys) = loadPart s := by
  simp [resetRows]

/-- The tiles of the rows `ys`. -/
def tilesOfRows (s : State) (ys : List Nat) : List Tile := ys.flatMap (rowTiles s)

/-- The retry stands in the MG page as a transfer in round 0. -/
theorem loadPart_retryRows (s : State) (x : Xfer) (ys : List Nat) : loadPart (retryRows s x ys)
    = loadPart (wr (withNet (resetRows s ys) (resetRows s ys).net (some (retryXfer x (tilesOfRows (resetRows s ys) ys))))
        mgPg mg_ROUND 0) := by
  unfold retryRows
  extract_lets reset ts keep y armed pended
  rw [loadPart_sendRound]
  exact (loadPart_forEach _ _ (fun _ _ => loadPart_setPend _ _ _) _).trans (loadPart_armLine _ _)

theorem mem_rowTiles (s : State) (t : Tile) : t ∈ rowTiles s (t.toNat / s.ncols) := by
  have hcols : 0 < s.ncols := by
    unfold State.ncols
    split <;> decide
  refine List.mem_map.mpr ⟨t.toNat % s.ncols, List.mem_range.mpr (Nat.mod_lt _ hcols), ?_⟩
  rw [Nat.mul_comm, Nat.div_add_mod, BitVec.ofNat_toNat, BitVec.setWidth_eq]

theorem rowTiles_congr {x y : State} (h : y.ncols = x.ncols) (n : Nat) : rowTiles y n = rowTiles x n := by
  rw [rowTiles, rowTiles, h]

theorem retryRows_frame {s : State} (hflag : Claims.Flag s mgPg mg_F_LAGGARD) (x : Xfer) (ys : List Nat) :
    Claims.Flag (retryRows s x ys) mgPg mg_F_LAGGARD ∧ rd (retryRows s x ys) mgPg mg_ROUND = 0
      ∧ (retryRows s x ys).xfer = some (retryXfer x (tilesOfRows (resetRows s ys) ys)) := by
  have hretry := loadPart_retryRows s x ys
  have hreset : Claims.Flag (resetRows s ys) mgPg mg_F_LAGGARD := flag_mg_of_loadPart (loadPart_resetRows s ys) hflag
  refine ⟨flag_mg_of_loadPart hretry (flag_wr (flag_congr (withNet_regs _ _ _) hreset) mg_ROUND 0 (by decide)), ?_, ?_⟩
  · rw [rd_mg_of_loadPart hretry (by decide)]
    exact rd_wr_fits _ mgPg mg_ROUND 0 (by decide) (by decide)
  · rw [xfer_of_loadPart hretry, wr_xfer, withNet_xfer]

/-! ### The window after round 8 -/

/-- A row of the laggards `ls` has fewer spares than laggards (R496). -/
def ShortOfSpares (s : State) (ls : List Tile) : Prop :=
  ∃ y ∈ ls.map (fun t => t.toNat / s.ncols), spareLeft s y < (ls.filter (fun t => t.toNat / s.ncols == y)).length

/-- The rows of the laggards. -/
def laggardRows (s : State) (ls : List Tile) : List Nat := (ls.map (fun t => t.toNat / s.ncols)).dedup

theorem any_laggardRows (s : State) (ls : List Tile) : (laggardRows s ls).any (fun y =>
    decide (spareLeft s y < (ls.filter (fun t => t.toNat / s.ncols == y)).length)) = true ↔ ShortOfSpares s ls := by
  simp only [List.any_eq_true, laggardRows, List.mem_dedup, decide_eq_true_eq, ShortOfSpares]

theorem laggards_eq (s : State) (x : Xfer) (ls : List Tile) : laggards s x ls
    = if (laggardRows s ls).any (fun y => decide (spareLeft s y < (ls.filter (fun t => t.toNat / s.ncols == y)).length))
      then abandonLoad (laggardsFenced s ls) else retryRows (laggardsFenced s ls) x (laggardRows s ls) := rfl

section
variable {s : State} {x : Xfer}

theorem mem_tilesOfRows {ls : List Tile} {t : Tile} (h : t ∈ ls) :
    t ∈ tilesOfRows (resetRows (laggardsFenced s ls) (laggardRows s ls)) (laggardRows s ls) := by
  have hcols : (resetRows (laggardsFenced s ls) (laggardRows s ls)).ncols = s.ncols :=
    (ncols_of_loadPart (loadPart_resetRows _ _)).trans (laggardsFenced_ncols s ls)
  refine List.mem_flatMap.mpr ⟨t.toNat / s.ncols, List.mem_dedup.mpr (List.mem_map_of_mem h), ?_⟩
  rw [rowTiles_congr hcols]
  exact mem_rowTiles s t

theorem flag_settle {y : State} {page : Nat} {f : Fld} (h : Claims.Flag y page f) : Claims.Flag (settle s y) page f :=
  flag_congr (settle_regs s y) h

/-- After round 8 the laggards are fenced, and the load is refused or their rows begin anew (R496). -/
theorem gives_statusWindow_laggards (hx : s.xfer = some x) (hls : laggardsOf x ≠ []) (hround : 8 ≤ x.round) :
    Gives .statusWindow s fun s' => Claims.Flag s' mgPg mg_F_LAGGARD
      ∧ (ShortOfSpares s (laggardsOf x) → s'.xfer = none ∧ rd s' mgPg mg_LOAD_REASON = 15
          ∧ Claims.Flag s' mgPg mg_F_LOAD_REFUSED ∧ s'.mgmtBusy = none)
      ∧ (¬ ShortOfSpares s (laggardsOf x) → rd s' mgPg mg_ROUND = 0 ∧ ∃ y, s'.xfer = some y ∧ y.round = 0 ∧ y.addr = x.addr
          ∧ (∀ t ∈ laggardsOf x, t ∈ y.targets ∧ reported y t = false) ∧ ∀ t ∈ laggardsOf x, ∀ i, (t, i) ∉ y.have_) := by
  have h := answers_statusWindow hx
  have hflag := flag_laggardsFenced s hls
  rw [if_neg (by simpa using hls), if_neg (by omega), laggards_eq] at h
  by_cases hshort : ShortOfSpares s (laggardsOf x)
  · rw [if_pos ((any_laggardRows _ _).mpr hshort)] at h
    obtain ⟨hxfer, hreason, hrefused, hbusy, hlag⟩ := abandonLoad_frame hflag
    exact gives_of_answers h ⟨flag_settle hlag,
      fun _ => ⟨(settle_xfer _ _).trans hxfer, (rd_settle _ _ _ _).trans hreason, flag_settle hrefused,
        (settle_mgmtBusy _ _).trans hbusy⟩, fun hn => absurd hshort hn⟩
  · rw [if_neg (mt (any_laggardRows _ _).mp hshort)] at h
    obtain ⟨hlag, hzero, hxfer⟩ := retryRows_frame hflag x (laggardRows s (laggardsOf x))
    refine gives_of_answers h ⟨flag_settle hlag, fun hs => absurd hs hshort, fun _ => ⟨(rd_settle _ _ _ _).trans hzero, _,
      (settle_xfer _ _).trans hxfer, rfl, rfl, fun t ht => ?_, fun t ht i => ?_⟩⟩
    · exact ⟨mem_retryXfer_targets x (mem_tilesOfRows ht), reported_retryXfer x (mem_tilesOfRows ht)⟩
    · exact not_mem_retryXfer_have x (mem_tilesOfRows ht) i

end

/-- Settles O45: LOAD by the branches of its checks; a segment, END and STATUS by what the load port and the management core
find of the tile; the window by the round that it closes. -/
theorem loadsAndTransfers : Obligations.LoadsAndTransfers := by
  unfold Obligations.LoadsAndTransfers
  refine ⟨fun s q h e key r hidle => ⟨posts_load_keyless key r hidle, fun hkey hearly => posts_load_early r hidle hkey key hearly,
      fun hkey hphase hrun => ⟨posts_load_unmapped r hidle hkey hphase hrun key,
        fun hlp hbad => posts_load_ue r hidle hkey hphase hrun hlp key hbad,
        fun hlp hgood hpass => gives_load_begins r hidle hkey hphase hrun hlp hgood hpass,
        fun hlp hgood hfail => posts_load_failed r hidle hkey hphase hrun hlp hgood key hfail⟩⟩,
    fun s => ⟨fun t n ht => ⟨answers_segment_none ht, answers_endRound_none ht, fun hoff _ => gives_offTile ht hoff⟩,
      fun t x ht hon hx => ⟨fun ts i bs hfind => ⟨gives_segment_needed ht hon hx hfind, gives_segment_other ht hon hx hfind⟩,
        fun htarget => ⟨fun hfind => ⟨gives_endRound_incomplete ht hon hx htarget hfind,
            gives_endRound_digestOk ht hon hx htarget hfind, gives_endRound_digestBad ht hon hx htarget hfind⟩,
          gives_status_digestOk ht hx htarget, gives_status_other ht hx htarget, gives_status_reported ht hx⟩⟩,
      fun x hx => ⟨answers_statusWindow_done hx, gives_statusWindow_round hx, gives_statusWindow_laggards hx⟩⟩⟩

end Sys2Proof.Machine
end

section
/-! PROOFS. The PEND bits of tack lines (R248): what sets and clears one, and what the registers list of a line. Then the
statement about sy.tack and the completion of lines. -/

namespace Sys2Proof.Machine

open Sys2Proof.Claims

/-! ### Listed registers -/

/-- A value other than the default is listed. -/
theorem mem_of_smGet_ne {α : Type} {d : Nat → α} {k : Nat} : ∀ {m : SMap α}, smGet d m k ≠ d k → (k, smGet d m k) ∈ m
  | [], h => absurd rfl h
  | c :: m, h => by
    rw [smGet_cons] at h ⊢
    by_cases hc : c.1 = k
    · subst hc
      rw [if_pos rfl]
      exact List.mem_cons_self
    · rw [if_neg hc] at h ⊢
      exact List.mem_cons_of_mem _ (mem_of_smGet_ne h)

/-- The register of PART and PEND resets to 0 (R248). -/
theorem regDflt_tack (t : Tile) : regDflt (syPg t * 0x1000 + 0x044) = 0 := by
  have hpage : (syPg t * 0x1000 + 0x044) / 0x1000 = syPg t := by omega
  have hoff : (syPg t * 0x1000 + 0x044) % 0x1000 = 0x044 := by omega
  have hblk : pageBlk (syPg t) = some .sy ∨ pageBlk (syPg t) = none := by
    have hkind : syPg t % 4 = 3 := by unfold syPg; omega
    unfold pageBlk
    rw [if_neg (by unfold syPg; omega), if_neg (by unfold syPg; omega), if_neg (by unfold syPg; omega)]
    split
    · exact .inr rfl
    · exact .inl (by rw [hkind]; rfl)
  unfold regDflt
  rw [hpage, hoff]
  obtain h | h := hblk
  · rw [h]; decide
  · rw [h]

/-- A tile whose register of PART and PEND has a bit set is among the tiles that the registers list for it. -/
theorem mem_tilesWhere_tack {s : State} {t : Tile} {n : Nat} (h : bit (regW s (syPg t) 0x044) n = true) :
    t ∈ tilesWhere s 3 0x044 (fun w => bit w n) := by
  have hpage : (syPg t * 0x1000 + 0x044) / 0x1000 = syPg t := by omega
  have hoff : (syPg t * 0x1000 + 0x044) % 0x1000 = 0x044 := by omega
  have hkind : 0x1000 ≤ syPg t ∧ syPg t % 4 = 3 ∧ (syPg t - 0x1000) / 4 = t.toNat := by unfold syPg; omega
  obtain ⟨hlow, hmod, htile⟩ := hkind
  have hne : smGet regDflt s.regs (syPg t * 0x1000 + 0x044) ≠ regDflt (syPg t * 0x1000 + 0x044) := by
    intro he
    rw [regW, he, regDflt_tack] at h
    simp [bit] at h
  refine List.mem_map.mpr ⟨_, List.mem_filter.mpr ⟨mem_of_smGet_ne hne, ?_⟩, ?_⟩
  · dsimp only
    rw [hpage, hoff, hmod, decide_eq_true hlow]
    exact h
  · dsimp only
    rw [hpage, htile, BitVec.ofNat_toNat, BitVec.setWidth_eq]

/-! ### PEND and PART -/

theorem tackPend_eq (s : State) (t : Tile) {k : Nat} (hk : k < 16) :
    tackPend s t k = bit (regW s (syPg t) 0x044) (16 + k) := by
  rw [tackPend, bit, rd, rdi, testBit_bits, decide_eq_true (by simpa [sy_TACK_PEND] using hk), Bool.true_and]
  rfl

theorem tackPart_eq (s : State) (t : Tile) {k : Nat} (hk : k < 16) : tackPart s t k = bit (regW s (syPg t) 0x044) k := by
  rw [tackPart, bit, rd, rdi, testBit_bits, decide_eq_true (by simpa [sy_TACK_PART] using hk), Bool.true_and]
  exact congrArg _ (Nat.zero_add k)

theorem tackPend_congr {x y : State} (h : x.regs = y.regs) (t : Tile) (k : Nat) : tackPend x t k = tackPend y t k := by
  rw [tackPend, rd_congr h]; rfl

theorem tackPend_advance (s : State) (t u : Tile) (k : Nat) : tackPend (advance s t) u k = tackPend s u k := by
  have hreg : regW (advance s t) (syPg u) 0x044 = regW s (syPg u) 0x044 :=
    advance_regW s t _ _ (by simp only [syPg, sy_ISSUE]; omega) (by simp only [syPg, gsPg, gs_ISSUE_LO]; omega)
      (by simp only [syPg, gsPg, gs_ISSUE_HI]; omega)
  exact congrArg (fun w => bit (bits w 31 16) k) hreg

/-- PEND of a tile for a line set or cleared: the one store of sy.tack and of the completion (R248, R249). -/
def putPend (s : State) (t : Tile) (k : Nat) (b : Bool) : State :=
  wr s (syPg t) sy_TACK_PEND (setBits (rd s (syPg t) sy_TACK_PEND) k k (b2n b))

theorem setPend_eq_putPend (s : State) (t : Tile) (k : Nat) :
    setPend s t k = tackAnnounce (progress (putPend s t k true)) k := rfl

theorem clearPend_eq_putPend (s : State) (k : Nat) :
    clearPend s k = forEach (tilesWhere s 3 0x044 (fun w => bit w (16 + k))) (fun t x => putPend x t k false)
      (if (tilesWhere s 3 0x044 (fun w => bit w (16 + k))).isEmpty then s else progress s) := rfl

/-- A store of one PEND bit changes that bit alone. -/
theorem tackPend_putPend (s : State) (t u : Tile) {k j : Nat} (b : Bool) (hk : k < 16) :
    tackPend (putPend s t k b) u j = if u = t ∧ j = k then b else tackPend s u j := by
  by_cases hu : u = t
  · subst hu
    have hread : rd (putPend s u k b) (syPg u) sy_TACK_PEND = setBits (rd s (syPg u) sy_TACK_PEND) k k (b2n b) :=
      rd_wr_fits s (syPg u) sy_TACK_PEND _ (by decide) (setBits_lt _ k k _ 16 (rdi_lt s (syPg u) sy_TACK_PEND 0) hk)
    rw [tackPend, hread, bit, testBit_setBits]
    by_cases hjk : j = k
    · rw [if_pos ⟨by omega, by omega⟩, if_pos ⟨rfl, hjk⟩, hjk, Nat.sub_self]
      cases b <;> rfl
    · rw [if_neg (by omega), if_neg (fun h => hjk h.2)]
      rfl
  · have hpage : t.toNat ≠ u.toNat := fun h => hu (BitVec.eq_of_toNat_eq h.symm)
    rw [if_neg (fun h => hu h.1), tackPend, putPend, rd_wr_ne _ _ _ _ _ _ (by simp only [syPg]; omega)]
    rfl

/-- A store of a PEND bit keeps every register of the pages below those of the tiles. -/
theorem regW_putPend (s : State) (t : Tile) (k : Nat) (b : Bool) {page off : Nat} (hpage : page < 0x1000) (hoff : off < 0x1000) :
    regW (putPend s t k b) page off = regW s page off :=
  regW_setW_ne _ _ _ _ _ _ (by simp only [syPg, sy_TACK_PEND]; omega)

/-! ### What sets PEND -/

theorem setPend_regs (s : State) (t : Tile) (k : Nat) : (setPend s t k).regs = (putPend s t k true).regs := by
  rw [setPend_eq_putPend, tackAnnounce_regs, progress_regs]

theorem tackPend_setPend_line (s : State) (t u : Tile) {k j : Nat} (hk : k < 16) :
    tackPend (setPend s t k) u j = if u = t ∧ j = k then true else tackPend s u j := by
  rw [tackPend_congr (setPend_regs s t k), tackPend_putPend s t u true hk]

/-- Beside registers, PEND that is set changes the packets at the ports, and the mark of the line's announcement. -/
theorem setPend_eq (s : State) (t : Tile) (k : Nat) : ∃ r d fd ps l,
    setPend s t k = { s with regs := r, dlCount := d, dlFired := fd, ports := ps, tackSent := l } := by
  obtain ⟨ps, l, h⟩ := tackAnnounce_eq (progress (putPend s t k true)) k
  rw [setPend_eq_putPend, h]
  exact ⟨_, _, _, ps, l, rfl⟩

theorem setPend_frame (s : State) (t : Tile) (k : Nat) : (setPend s t k).tiles = s.tiles ∧ (setPend s t k).spool = s.spool
    ∧ (setPend s t k).lp = s.lp ∧ (setPend s t k).flash = s.flash ∧ (setPend s t k).net = s.net := by
  obtain ⟨_, _, _, _, _, h⟩ := setPend_eq s t k
  rw [h]
  exact ⟨rfl, rfl, rfl, rfl, rfl⟩

theorem setPend_hmode (s : State) (t u : Tile) (k : Nat) : (setPend s t k).hmode u = s.hmode u := by
  rw [State.hmode, rd_congr (setPend_regs s t k)]
  exact hmode_wr_ne s (syPg t) sy_TACK_PEND _ u (by simp only [syPg, sy_TACK_PEND]; omega)

/-- SCOPE of a line stands on the TK page. -/
theorem lineBolt_congr {x s : State} (h : ∀ off, off < 0x1000 → regW x tkPg off = regW s tkPg off) {k : Nat} (hk : k < 16) :
    lineBolt x k = lineBolt s k := by
  have hreg : regW x tkPg (tk_LINE_SCOPE.off + tk_LINE_SCOPE.stride * k) = regW s tkPg (tk_LINE_SCOPE.off + tk_LINE_SCOPE.stride * k) :=
    h _ (by simp only [tk_LINE_SCOPE]; omega)
  rw [lineBolt, rdi, hreg]
  rfl

/-- On a line of chip scope nothing leaves by a port (R252). -/
theorem setPend_ports {s : State} {k : Nat} (t : Tile) (hk : k < 16) (h : lineBolt s k = false) :
    (setPend s t k).ports = s.ports := by
  have hscope : lineBolt (progress (putPend s t k true)) k = false :=
    (lineBolt_congr (fun off hoff => regW_putPend s t k true (by decide) hoff) hk).trans h
  rw [setPend_eq_putPend, tackAnnounce, if_neg fun hbolt => absurd hbolt.1 (by simp [hscope])]
  rfl

/-- What an issue cycle leaves alone beside `advance_frame`: the ports and the pins. -/
theorem advance_ports_pins (s : State) (t : Tile) : (advance s t).ports = s.ports ∧ (advance s t).pins = s.pins := by
  rw [advance, countIssue_eq]
  by_cases hm : s.hmode t = true
  · rw [if_pos hm]; exact ⟨rfl, rfl⟩
  · rw [if_neg hm]
    dsimp only
    split <;> simp [inc, inci, wr64, progress, State.modTile, State.setTile]

theorem lineBolt_advance (s : State) (t : Tile) {k : Nat} (hk : k < 16) : lineBolt (advance s t) k = lineBolt s k := by
  refine lineBolt_congr (fun off hoff => advance_regW s t _ _ ?_ ?_ ?_) hk
  all_goals simp only [tkPg, syPg, gsPg, sy_ISSUE, gs_ISSUE_LO, gs_ISSUE_HI]; omega

/-! ### sy.tack (R249) -/

/-- The line accepts a sy.tack of the tile (R249, R251): it is not broken, the tile is a participant, and B names its
scope. -/
def LineAccepts (s : State) (t : Tile) (o : TackOp) : Prop :=
  lineBroken s o.k.toNat = false ∧ tackPart s t o.k.toNat = true ∧ (o.b == 1) = lineBolt s o.k.toNat

/-- What a sy.tack does that issues (R194, R249, R251): the handler's raises PRIV, and one that its line does not accept the
SYNC cause. -/
def tackBody (t : Tile) (o : TackOp) (op : Nat) (arrive : Bool) (body : Nat → State → State) (s : State) : State :=
  if s.hmode t then precise s t cPriv (iw (o.enc op))
  else if lineBroken s o.k.toNat || !tackPart s t o.k.toNat || (o.b == 1) != lineBolt s o.k.toNat
      || (arrive && tackPend s t o.k.toNat) then tackCause s t o.k.toNat
  else body o.k.toNat s

theorem tackOp_eq (s : State) (t : Tile) (o : TackOp) (op : Nat) (arrive : Bool) (body : Nat → State → State) :
    tackOp t o op arrive body s = coreOp s t [] (s.p t o.pG) (o.rsv1 != 0 || o.rsv2 != 0) (o.enc op)
      (tackBody t o op arrive body) := rfl

section
variable {c : Instr} {s : State} {t : Tile} {o : TackOp} {op : Nat} {arrive : Bool} {body : Nat → State → State}
  (hexec : exec c s = tackOp t o op arrive body s) (hready : Ready s t)
include hexec hready

theorem answers_tack_skipped (hg : s.p t o.pG = false) : Answers c s (advance s t) :=
  answers_of_coreOp_skipped (hexec.trans (tackOp_eq s t o op arrive body)) hready hg

theorem answers_tack_illegal (hg : s.p t o.pG = true) (hrsv : o.rsv1 ≠ 0 ∨ o.rsv2 ≠ 0) :
    Answers c s (precise s t cIllegal (BitVec.ofNat 64 (o.enc op))) :=
  answers_of_coreOp_illegal (hexec.trans (tackOp_eq s t o op arrive body)) hready (here_nil s t) hg (by simpa using hrsv)

variable (hg : s.p t o.pG = true) (hrsv1 : o.rsv1 = 0) (hrsv2 : o.rsv2 = 0)
include hg hrsv1 hrsv2

theorem answers_tackOp : Answers c s (tackBody t o op arrive body s) :=
  answers_of_coreOp (hexec.trans (tackOp_eq s t o op arrive body)) hready (here_nil s t) hg (by simp [hrsv1, hrsv2])

theorem answers_tack_handler (hm : s.hmode t = true) : Answers c s (precise s t cPriv (BitVec.ofNat 64 (o.enc op))) := by
  have h := answers_tackOp hexec hready hg hrsv1 hrsv2
  rwa [tackBody, if_pos hm] at h

variable (hm : s.hmode t = false)
include hm

theorem answers_tack_refused (hbad : ¬ LineAccepts s t o) : Answers c s (tackCause s t o.k.toNat) := by
  have h := answers_tackOp hexec hready hg hrsv1 hrsv2
  rw [tackBody, if_neg (by simp [hm]), if_pos] at h
  · exact h
  · rw [LineAccepts, not_and_or, not_and_or, Bool.not_eq_false, Bool.not_eq_true] at hbad
    simp only [Bool.or_eq_true, Bool.not_eq_true', bne_iff_ne]
    obtain hbroken | hpart | hscope := hbad
    · exact .inl (.inl (.inl hbroken))
    · exact .inl (.inl (.inr hpart))
    · exact .inl (.inr hscope)

/-- A sy.tack that its line accepts: ARRIVE before the last PEND has cleared raises the SYNC cause. -/
theorem answers_tack_accepted (hok : LineAccepts s t o) :
    Answers c s (if arrive && tackPend s t o.k.toNat then tackCause s t o.k.toNat else body o.k.toNat s) := by
  obtain ⟨hbroken, hpart, hscope⟩ := hok
  have h := answers_tackOp hexec hready hg hrsv1 hrsv2
  rw [tackBody, if_neg (by simp [hm]), hbroken, hpart, hscope] at h
  simpa using h

end

/-- The checks that the forms of sy.tack share (R168, R170, R194, R249, R251). -/
theorem tack_checks {c : Instr} {s : State} {t : Tile} {o : TackOp} {op : Nat} {arrive : Bool} {body : Nat → State → State}
    (hexec : exec c s = tackOp t o op arrive body s) (hready : Ready s t) :
    (s.p t o.pG = false → Answers c s (advance s t))
      ∧ (s.p t o.pG = true → o.rsv1 ≠ 0 ∨ o.rsv2 ≠ 0 → Answers c s (precise s t cIllegal (BitVec.ofNat 64 (o.enc op))))
      ∧ (s.p t o.pG = true → o.rsv1 = 0 → o.rsv2 = 0 → s.hmode t = true →
          Answers c s (precise s t cPriv (BitVec.ofNat 64 (o.enc op))))
      ∧ (s.p t o.pG = true → o.rsv1 = 0 → o.rsv2 = 0 → s.hmode t = false → ¬ LineAccepts s t o →
          Answers c s (tackCause s t o.k.toNat)) :=
  ⟨answers_tack_skipped hexec hready, answers_tack_illegal hexec hready, answers_tack_handler hexec hready,
    answers_tack_refused hexec hready⟩

/-- The tile waits for the completion of the line: with the sy.tack itself, or after it. -/
def awaitLine (x : State) (t : Tile) (k : BitVec 4) (own : Bool) : State :=
  request (x.modTile t (fun ts => { ts with tackWait := some (k, own) })) t rowSync

section
variable {s : State} {t : Tile} {o : TackOp} (hready : Ready s t) (hg : s.p t o.pG = true) (hrsv1 : o.rsv1 = 0)
  (hrsv2 : o.rsv2 = 0) (hm : s.hmode t = false) (hok : LineAccepts s t o)
include hready hg hrsv1 hrsv2 hm hok

theorem answers_syTackArrive : Answers (.syTackArrive t o) s
    (if tackPend s t o.k.toNat then tackCause s t o.k.toNat else setPend (advance s t) t o.k.toNat) :=
  answers_tack_accepted (exec_syTackArrive s t o) hready hg hrsv1 hrsv2 hm hok

theorem answers_syTackWait : Answers (.syTackWait t o) s
    (if tackPend s t o.k.toNat then awaitLine s t o.k true else advance s t) := by
  have h := answers_tack_accepted (c := .syTackWait t o) (by rw [exec_syTackWait, execSyTackWait]) hready hg hrsv1 hrsv2 hm hok
  rw [Bool.false_and, if_neg Bool.false_ne_true] at h
  rw [BitVec.ofNat_toNat, BitVec.setWidth_eq] at h
  exact h

theorem answers_syTackArriveWait : Answers (.syTackArriveWait t o) s
    (if tackPend s t o.k.toNat then tackCause s t o.k.toNat
      else awaitLine (setPend (advance s t) t o.k.toNat) t o.k false) := by
  have h := answers_tack_accepted (c := .syTackArriveWait t o) (by rw [exec_syTackArriveWait, execSyTackArriveWait]) hready hg
    hrsv1 hrsv2 hm hok
  rw [Bool.true_and] at h
  dsimp only at h
  rw [BitVec.ofNat_toNat, BitVec.setWidth_eq] at h
  exact h

end

/-- What a PEND set at issue changes of the machine, and what it leaves alone. -/
theorem arrived_frame (s : State) (t : Tile) (k : BitVec 4) :
    let s1 := setPend (advance s t) t k.toNat
    tackPend s1 t k.toNat = true ∧ (∀ u j, j < 16 → (u, j) ≠ (t, k.toNat) → tackPend s1 u j = tackPend s u j)
      ∧ (s1.tile t).pc = (s.tile t).pc + 1 ∧ (∀ r, s1.g t r = s.g t r) ∧ (∀ i, s1.p t i = s.p t i)
      ∧ (s1.tile t).dstore = (s.tile t).dstore ∧ (∀ u, u ≠ t → s1.tile u = s.tile u)
      ∧ s1.spool = s.spool ∧ s1.lp = s.lp ∧ s1.flash = s.flash ∧ s1.net = s.net
      ∧ (lineBolt s k.toNat = false → s1.ports = s.ports) := by
  intro s1
  obtain ⟨htiles, hspool, hlp, hflash, hnet⟩ := setPend_frame (advance s t) t k.toNat
  obtain ⟨hspool', hlp', hflash', hnet', -⟩ := advance_frame s t
  have htile : ∀ u, s1.tile u = (advance s t).tile u := tile_congr htiles
  refine ⟨?_, fun u j hj hne => ?_, ?_, fun r => ?_, fun i => ?_, ?_, fun u hu => ?_, hspool.trans hspool', hlp.trans hlp',
    hflash.trans hflash', hnet.trans hnet', fun hscope => ?_⟩
  · rw [tackPend_setPend_line _ _ _ k.isLt, if_pos ⟨rfl, rfl⟩]
  · rw [tackPend_setPend_line _ _ _ k.isLt, if_neg fun h => hne (Prod.ext h.1 h.2), tackPend_advance]
  · rw [htile, advance_pc]
  · rw [← advance_g s t t r, State.g, htile, setPend_hmode]; rfl
  · rw [← advance_p s t t i, State.p, htile]; rfl
  · rw [htile, advance_dstore]
  · rw [htile, advance_tile_ne s t u hu]
  · obtain ⟨hports, -⟩ := advance_ports_pins s t
    exact (setPend_ports t k.isLt ((lineBolt_advance s t k.isLt).trans hscope)).trans hports

/-! ### The completion of a line (R248, R252) -/

/-- A participant is among the participants that the registers list. -/
theorem mem_tackTiles {s : State} {t : Tile} {k : Nat} (hk : k < 16) (h : tackPart s t k = true) : t ∈ tackTiles s k :=
  mem_tilesWhere_tack (tackPart_eq s t hk ▸ h)

theorem lineReady_pend {s : State} {k : Nat} (hk : k < 16) (h : lineReady s k = true) :
    lineBroken s k = false ∧ ∀ t : Tile, tackPart s t k = true → tackPend s t k = true := by
  simp only [lineReady, tackAll, Bool.and_eq_true, Bool.not_eq_true', List.all_eq_true] at h
  obtain ⟨⟨hbroken, -, hall⟩, -⟩ := h
  exact ⟨hbroken, fun t ht => hall t (mem_tackTiles hk ht)⟩

/-- PEND of a line cleared at each tile of a list. -/
theorem tackPend_forEach_putPend {k j : Nat} (hk : k < 16) (t : Tile) (ts : List Tile) (s : State) :
    tackPend (forEach ts (fun u x => putPend x u k false) s) t j
      = if t ∈ ts ∧ j = k then false else tackPend s t j := by
  induction ts generalizing s with
  | nil => simp [forEach]
  | cons u ts ih =>
    have hstep : forEach (u :: ts) (fun u x => putPend x u k false) s
        = forEach ts (fun u x => putPend x u k false) (putPend s u k false) := rfl
    rw [hstep, ih, tackPend_putPend s u t false hk]
    by_cases hjk : j = k
    · by_cases hmem : t ∈ ts
      · rw [if_pos ⟨hmem, hjk⟩, if_pos ⟨List.mem_cons_of_mem u hmem, hjk⟩]
      · simp [hmem, hjk]
    · simp [hjk]

theorem tackPend_clearPend (s : State) (t : Tile) {k j : Nat} (hk : k < 16) (hj : j < 16) :
    tackPend (clearPend s k) t j = if j = k then false else tackPend s t j := by
  have hstart : tackPend (if (tilesWhere s 3 0x044 (fun w => bit w (16 + k))).isEmpty then s else progress s) t j
      = tackPend s t j := by
    split <;> rfl
  rw [clearPend_eq_putPend, tackPend_forEach_putPend hk, hstart]
  by_cases hjk : j = k
  · subst hjk
    by_cases hpend : tackPend s t j = true
    · rw [if_pos ⟨mem_tilesWhere_tack (tackPend_eq s t hj ▸ hpend), rfl⟩, if_pos rfl]
    · rw [Bool.not_eq_true] at hpend
      rw [hpend, ite_self, ite_self]
  · rw [if_neg fun h => hjk h.2, if_neg hjk]

theorem regW_clearPend (s : State) (k : Nat) {page off : Nat} (hpage : page < 0x1000) (hoff : off < 0x1000) :
    regW (clearPend s k) page off = regW s page off := by
  rw [clearPend_eq_putPend]
  refine forEach_induction (P := fun y => regW y page off = regW s page off)
    (fun t x hx => (regW_putPend x t k false hpage hoff).trans hx) _ ?_
  split <;> rfl

/-- The registers of a completed line: its PEND bits cleared and its GEN advanced. -/
theorem completeLine_regs (s : State) (k : Nat) : (completeLine s k).regs
    = (wri (clearPend (progress s) k) tkPg tk_LINE_GEN k (rdi s tkPg tk_LINE_GEN k + 1)).regs := rfl

theorem rdi_congr {x y : State} (h : x.regs = y.regs) (page : Nat) (f : Fld) (i : Nat) : rdi x page f i = rdi y page f i := by
  rw [rdi, regW, h]; rfl

theorem tackPend_completeLine (s : State) (t : Tile) {k j : Nat} (hk : k < 16) (hj : j < 16) :
    tackPend (completeLine s k) t j = if j = k then false else tackPend s t j := by
  rw [tackPend_congr (completeLine_regs s k), tackPend,
    rd, rdi_wri_ne _ _ _ _ _ _ _ _ (by simp only [syPg, tkPg, sy_TACK_PEND, tk_LINE_GEN]; omega)]
  exact tackPend_clearPend (progress s) t hk hj

theorem lineGen_completeLine_same (s : State) (k : Nat) :
    rdi (completeLine s k) tkPg tk_LINE_GEN k = (rdi s tkPg tk_LINE_GEN k + 1) % 256 := by
  rw [rdi_congr (completeLine_regs s k)]
  exact rdi_wri_same _ _ _ _ _ (by decide)

theorem lineGen_completeLine_ne (s : State) {k j : Nat} (hj : j < 16) (h : j ≠ k) :
    rdi (completeLine s k) tkPg tk_LINE_GEN j = rdi s tkPg tk_LINE_GEN j := by
  rw [rdi_congr (completeLine_regs s k), rdi_wri_ne _ _ _ _ _ _ _ _ (by simp only [tk_LINE_GEN]; omega), rdi,
    regW_clearPend _ _ (by decide) (by simp only [tk_LINE_GEN]; omega)]
  rfl

/-- Beside registers, a completed line changes its marks of announcement. -/
theorem completeLine_eq (s : State) (k : Nat) : ∃ r d fd got l,
    completeLine s k = { s with regs := r, dlCount := d, dlFired := fd, tackGot := got, tackSent := l } := by
  obtain ⟨r, d, fd, h⟩ := clearPend_eq (progress s) k
  rw [completeLine, h]
  exact ⟨_, d, fd, _, _, rfl⟩

theorem sameMem_completeLine (s : State) (k : Nat) : SameMem s (completeLine s k) := by
  obtain ⟨_, _, _, _, _, h⟩ := completeLine_eq s k
  rw [h]
  exact sameMem_of_parts rfl

theorem completeLine_xfer (s : State) (k : Nat) : (completeLine s k).xfer = s.xfer := by
  obtain ⟨_, _, _, _, _, h⟩ := completeLine_eq s k
  rw [h]

theorem answers_tackLineComplete_waits {s : State} {k : BitVec 4} (h : lineReady s k.toNat = false) :
    Answers (.tackLineComplete k) s s := by
  rw [Answers, exec_tackLineComplete, execTackLineComplete, h]
  rfl

section
variable {s : State} {k : BitVec 4} (h : lineReady s k.toNat = true)
include h

/-- A line that is ready completes. -/
theorem answers_tackLineComplete_line (hload : s.xfer = none ∨ k ≠ 0) :
    Answers (.tackLineComplete k) s (completeLine s k.toNat) := by
  rw [Answers, exec_tackLineComplete, execTackLineComplete, if_neg (by simp [h]), done]
  dsimp only
  rw [completeLine_xfer]
  cases hx : s.xfer with
  | none => rfl
  | some x =>
    have hk : k ≠ 0 := hload.resolve_left (by simp [hx])
    exact congrArg (fun y => Host.Outcome.next (settle s y)) (if_neg hk)

/-- The completion of k0 completes the transfer under way (R500). -/
theorem answers_tackLineComplete_load {x : Xfer} (hx : s.xfer = some x) (hk : k = 0) :
    Answers (.tackLineComplete k) s (finishLoad (completeLine s k.toNat) x) := by
  rw [Answers, exec_tackLineComplete, execTackLineComplete, if_neg (by simp [h]), done]
  dsimp only
  rw [completeLine_xfer, hx]
  exact congrArg (fun y => Host.Outcome.next (settle s y)) (if_pos hk)

end

/-! ### The TACK of another module (R252, R253) -/

theorem takePkt_none {s : State} (hnet : ∀ p h d, .pkt p h d ∉ s.net) (f : Nat → PktHdr → List Byte → Bool) :
    takePkt s f = (false, s) := by
  rw [takePkt, takeMsg_none]
  · rfl
  · intro m hm
    split
    case h_1 q h d => exact absurd hm (hnet q h d)
    case h_2 => rfl

/-- What comes now by a port that is up and of the job has its effect (R25, R320). -/
theorem whenHeard_up {s : State} {q : Nat} (c : LinkClass) (k : State → State) (hup : portUp s q = true)
    (hjob : rd s (lkPg q) lk_CFG_FOREIGN = 0) : whenHeard (false, s) q c k = k s := by
  rw [whenHeard, if_pos (by simpa using hup), unlessForeign, if_neg fun h => absurd (hjob.symm.trans h.1) (by decide)]

theorem whenHeard_down {s : State} {q : Nat} (c : LinkClass) (k : State → State) (hdown : portUp s q = false) :
    whenHeard (false, s) q c k = s := by
  rw [whenHeard, if_neg (by simp [hdown])]

/-- The TACK of module `m` for line `k` and GEN `gen` is kept. -/
def keepTack (s : State) (k m gen : Nat) : State :=
  { progress s with
    tackGot := smPut (fun _ => 0) s.tackGot (k * 256 + gen)
      ((smGet (fun _ => 0) s.tackGot (k * 256 + gen) : BitVec 8) ||| BitVec.ofNat 8 (2 ^ m)) }

theorem keepTack_got (s : State) (k m gen : Nat) (hm : m < 8) :
    (smGet (fun _ => (0 : BitVec 8)) (keepTack s k m gen).tackGot (k * 256 + gen)).getLsbD m = true := by
  rw [keepTack, smGet_smPut_same, BitVec.getLsbD_or, BitVec.getLsbD_ofNat, decide_eq_true hm, Nat.testBit_two_pow_self]
  exact Bool.or_true _

section
variable {s : State} (m : BitVec 3) (k : BitVec 4) (gen : BitVec 8) (hnet : ∀ p h d, .pkt p h d ∉ s.net)
include hnet

theorem answers_tack_unheard (hdown : portUp s (routePort s 64 (boltPort s m.toNat 0)) = false) :
    Answers (.tack m k gen) s s := by
  rw [Answers, exec_tack, execTack, done]
  dsimp only
  rw [takePkt_none hnet, whenHeard_down _ _ hdown]

variable (hup : portUp s (routePort s 64 (boltPort s m.toNat 0)) = true)
  (hjob : rd s (lkPg (routePort s 64 (boltPort s m.toNat 0))) lk_CFG_FOREIGN = 0)
include hup hjob

theorem answers_tack_heard : Answers (.tack m k gen) s
    (if lineBolt s k.toNat ∧ (linePeers s k.toNat).contains m.toNat then keepTack s k.toNat m.toNat gen.toNat
      else logReq (inc (progress s) tkPg tk_STRAY 1) 2 0x0008 tkPg (b1 k.toNat ++ b1 m.toNat)) := by
  rw [Answers, exec_tack, execTack, done]
  dsimp only
  rw [takePkt_none hnet, whenHeard_up _ _ hup hjob]
  rfl

theorem gives_tack_kept (hscope : lineBolt s k.toNat = true) (hpeer : m.toNat ∈ linePeers s k.toNat) :
    Gives (.tack m k gen) s fun s' =>
      (smGet (fun _ => (0 : BitVec 8)) s'.tackGot (k.toNat * 256 + gen.toNat)).getLsbD m.toNat = true
        ∧ s'.regs = s.regs ∧ SameMem s s' := by
  have h := answers_tack_heard m k gen hnet hup hjob
  rw [if_pos ⟨hscope, List.contains_iff_mem.mpr hpeer⟩] at h
  exact gives_of_answers h ⟨keepTack_got s _ _ _ m.isLt, rfl, sameMem_of_parts rfl⟩

theorem answers_tack_stray (hout : lineBolt s k.toNat = false ∨ m.toNat ∉ linePeers s k.toNat) :
    Answers (.tack m k gen) s (logReq (inc (progress s) tkPg tk_STRAY 1) 2 0x0008 tkPg (b1 k.toNat ++ b1 m.toNat)) := by
  have h := answers_tack_heard m k gen hnet hup hjob
  rwa [if_neg] at h
  rintro ⟨hscope, hpeer⟩
  obtain hchip | hnot := hout
  · exact Bool.false_ne_true (hchip.symm.trans hscope)
  · exact hnot (List.contains_iff_mem.mp hpeer)

end

/-- Settles O18: the forms of sy.tack share their checks and differ by what they do with PEND; the tiles of a line are those
that the registers list, so a line that is ready has every participant's PEND, and its completion clears each. -/
theorem tackLinesAndInstructions : Obligations.TackLinesAndInstructions := by
  unfold Obligations.TackLinesAndInstructions
  refine ⟨fun s t o hready => ⟨fun c hc => ?_, fun hg hrsv1 hrsv2 hm hok => ?_, arrived_frame s t o.k⟩,
    fun s k => ⟨lineReady_pend k.isLt, answers_tackLineComplete_waits, answers_tackLineComplete_line,
      fun x h => answers_tackLineComplete_load h,
      fun t => ⟨?_, fun j hj hne => ?_⟩, lineGen_completeLine_same s _, fun j hj hne => lineGen_completeLine_ne s hj hne,
      sameMem_completeLine s _⟩,
    fun s k m gen hnet => ⟨fun hup hjob => ⟨gives_tack_kept m k gen hnet hup hjob, answers_tack_stray m k gen hnet hup hjob⟩,
      answers_tack_unheard m k gen hnet⟩⟩
  · simp only [List.mem_cons, List.not_mem_nil, or_false] at hc
    obtain rfl | rfl | rfl := hc
    · exact tack_checks (exec_syTackArrive s t o) hready
    · exact tack_checks (exec_syTackWait s t o) hready
    · exact tack_checks (exec_syTackArriveWait s t o) hready
  · have harrive := answers_syTackArrive hready hg hrsv1 hrsv2 hm hok
    have hwait := answers_syTackWait hready hg hrsv1 hrsv2 hm hok
    have hboth := answers_syTackArriveWait hready hg hrsv1 hrsv2 hm hok
    refine ⟨fun hpend => ?_, fun hpend => ?_⟩
    · rw [hpend, if_neg Bool.false_ne_true] at harrive hwait hboth
      exact ⟨harrive, hwait, hboth⟩
    · rw [hpend, if_pos rfl] at harrive hwait hboth
      exact ⟨hwait, harrive, hboth⟩
  · rw [tackPend_completeLine s t k.isLt k.isLt, if_pos rfl]
  · rw [tackPend_completeLine s t k.isLt hj, if_neg hne]

end Sys2Proof.Machine
end

section
/-! PROOFS. Mailboxes (R254 to R262): the instructions, a message that arrives and the response to one, and doorbells. Then
the statement about them. -/

namespace Sys2Proof.Machine

open Sys2Proof.Claims

/-! ### mb.send (R256) -/

theorem tileStamp_advance (s : State) (t u : Tile) : tileStamp (advance s t) u = tileStamp s u := by
  obtain ⟨-, hpins⟩ := advance_ports_pins s t
  rw [tileStamp, State.module, hpins]
  rfl

/-- The state after an mb.send: its target waits for a status, and 64 bytes of the data store are posted. -/
def mailSent (s : State) (t : Tile) (o : RfOp) : State :=
  post ((advance s t).modTile t (fun ts => { ts with sends := ts.sends ++ [(s.g t o.gA, o.gD, s.hmode t)] }))
    (.mbox (tileStamp s t) (s.g t o.gA) (memRead (s.tile t).dstore (s.g t o.gB).toNat 64) false)

section
variable {s : State} {t : Tile} {o : RfOp}

/-- An mb.send with a good target word and a good offset acts as what it finds in the data store lets it (R164, R256). -/
theorem answers_mbSend (e : Ecc) (hruns : Runs s t [o.gD, o.gA, o.gB] o.pG) (hfn : o.fn = 0)
    (hword : wordRsv (s.g t o.gA).toNat = false) (halign : (s.g t o.gB).toNat % 64 = 0) (hin : (s.g t o.gB).toNat < 0x10000) :
    Answers (.mbSend t o e) s (match e with
      | .ok => mailSent s t o
      | .corrected => withhold s t rowEcc .passing
      | .uncorrectable => storeUe s t 1 ((s.g t o.gB).toNat / 8)) := by
  obtain ⟨hready, hhere, hg⟩ := hruns
  have h := answers_of_coreOp (c := .mbSend t o e) (by rw [exec_mbSend, execMbSend]) hready hhere hg (bne_eq_false_iff_eq.2 hfn)
  dsimp only at h
  rw [if_neg (by simp [hword]), if_neg (by omega)] at h
  cases e with
  | ok =>
    have hstamp : ∀ f, tileStamp ((advance s t).modTile t f) t = tileStamp s t := fun _ => tileStamp_advance s t t
    rw [dsEcc, hstamp] at h
    exact h
  | corrected => exact h
  | uncorrectable => exact h

/-! ### mb.recv (R258) -/

/-- The tile with the message `x` in its data store at `a`, and 1 in the predicate `pD`. -/
def keptMail (x : Nat × Msg) (a : Nat) (pD : BitVec 3) (ts : TileSt) : TileSt :=
  (dsWrite (ts.takeSlot x) a (padTo 64 x.2.data)).writeP pD true

/-- The state after an mb.recv that takes the message `x`: the tile holds it, with its stamp in gD. -/
def mailTaken (s : State) (t : Tile) (o : RfOp) (x : Nat × Msg) : State :=
  ((advance s t).modTile t (keptMail x (s.g t o.gA).toNat (BitVec.ofNat 3 o.fn.toNat))).setG t o.gD (x.2.stamp.setWidth 64)

/-- The state after an mb.recv that finds no message: 0 in gD and in pD. -/
def mailMissed (s : State) (t : Tile) (o : RfOp) : State :=
  ((advance s t).modTile t (fun ts => ts.writeP (BitVec.ofNat 3 o.fn.toNat) false)).setG t o.gD 0

theorem answers_mbRecv (hruns : Runs s t [o.gD, o.gA] o.pG) (hgB : o.gB = 0) (hfn : o.fn.toNat < 8)
    (halign : (s.g t o.gA).toNat % 64 = 0) (hin : (s.g t o.gA).toNat < 0x10000) :
    Answers (.mbRecv t o) s (match recvMsg (s.tile t) (s.hmode t) with
      | some x => mailTaken s t o x
      | none => mailMissed s t o) := by
  obtain ⟨hready, hhere, hg⟩ := hruns
  have hrsv : bits o.fn.toNat 7 3 = 0 := by rw [bits_eq]; omega
  have h := answers_of_coreOp (c := .mbRecv t o) (by rw [exec_mbRecv, execMbRecv]) hready hhere hg (by simp [hgB, hrsv])
  dsimp only at h
  rw [if_neg (by omega)] at h
  exact h

theorem length_padTo (n : Nat) (bs : List Byte) : (padTo n bs).length = n := by
  simp [padTo]

/-- Beside a predicate, a message taken changes the slots, the causes and the data store. -/
theorem keptMail_frame (x : Nat × Msg) (a : Nat) (pD : BitVec 3) (ts : TileSt) :
    (keptMail x a pD ts).slots = ts.slots.erase x ∧ (keptMail x a pD ts).dstore = memWrite ts.dstore a (padTo 64 x.2.data)
      ∧ (keptMail x a pD ts).pc = ts.pc := by
  obtain ⟨p, hp⟩ := writeP_eq (dsWrite (ts.takeSlot x) a (padTo 64 x.2.data)) pD true
  rw [keptMail, hp]
  exact ⟨rfl, rfl, rfl⟩

theorem writeG_slots (ts : TileSt) (hm : Bool) (r : BitVec 5) (v : W64) : (ts.writeG hm r v).slots = ts.slots := by
  obtain ⟨_, _, h⟩ := writeG_eq ts hm r v
  rw [h]

theorem advance_slots (s : State) (t : Tile) : ((advance s t).tile t).slots = (s.tile t).slots := by rw [advance_tile]

theorem mailTaken_tile (s : State) (t : Tile) (o : RfOp) (x : Nat × Msg) : ∃ hm, (mailTaken s t o x).tile t
    = (keptMail x (s.g t o.gA).toNat (BitVec.ofNat 3 o.fn.toNat) ((advance s t).tile t)).writeG hm o.gD
        (x.2.stamp.setWidth 64) :=
  ⟨_, by rw [mailTaken, setG_eq, tile_modTile_same]⟩

theorem gives_mbRecv {x : Nat × Msg} (h : Answers (.mbRecv t o) s (mailTaken s t o x)) : Gives (.mbRecv t o) s fun s' =>
    (s'.tile t).slots = (s.tile t).slots.erase x
      ∧ (∀ i, memByte (s'.tile t).dstore i = if (s.g t o.gA).toNat ≤ i ∧ i < (s.g t o.gA).toNat + 64
          then (padTo 64 x.2.data).getD (i - (s.g t o.gA).toNat) 0 else memByte (s.tile t).dstore i)
      ∧ s'.g t o.gD = (if o.gD = 0 then 0 else x.2.stamp.setWidth 64) ∧ s'.p t (BitVec.ofNat 3 o.fn.toNat) = true
      ∧ (s'.tile t).pc = (s.tile t).pc + 1 ∧ s'.spool = s.spool ∧ s'.lp = s.lp := by
  obtain ⟨_, htile⟩ := mailTaken_tile s t o x
  obtain ⟨hslots, hstore, hpc⟩ := keptMail_frame x (s.g t o.gA).toNat (BitVec.ofNat 3 o.fn.toNat) ((advance s t).tile t)
  obtain ⟨hspool, hlp, -⟩ := advance_frame s t
  refine gives_of_answers h ⟨?_, fun i => ?_, ?_, ?_, ?_, hspool, hlp⟩
  · rw [tile_settle, htile, writeG_slots, hslots, advance_slots]
  · rw [tile_settle, htile, writeG_dstore, hstore, advance_dstore, memByte_memWrite, length_padTo]
  · rw [g_settle, mailTaken, g_setG, if_pos rfl]
  · rw [p_settle, State.p, htile, TileSt.readP, writeG_p, ← TileSt.readP, keptMail, readP_writeP, if_pos rfl, ite_self]
  · rw [tile_settle, htile, writeG_pc, hpc, advance_pc]

end

/-! ### A message that arrives (R254, R255, R261, R262) -/

/-- The state in which an arriving message is delivered: it is no longer in flight. -/
def mailAt (s : State) (stamp : W32) (w : BitVec 64) (data : List Byte) (rcv : Bool) : State :=
  progress (dropMsg s (isMail stamp w data rcv))

theorem mailAt_frame (s : State) (stamp : W32) (w : BitVec 64) (data : List Byte) (rcv : Bool) :
    (mailAt s stamp w data rcv).regs = s.regs ∧ (mailAt s stamp w data rcv).ntiles = s.ntiles
      ∧ (∀ t, (mailAt s stamp w data rcv).tileOff t = s.tileOff t) ∧ (∀ t, (mailAt s stamp w data rcv).tile t = s.tile t)
      ∧ (mailAt s stamp w data rcv).mgmtBox = s.mgmtBox ∧ (mailAt s stamp w data rcv).spool = s.spool
      ∧ (mailAt s stamp w data rcv).lp = s.lp := by
  obtain ⟨l, h⟩ := dropMsg_eq s (isMail stamp w data rcv)
  rw [mailAt, h]
  exact ⟨rfl, rfl, fun _ => rfl, fun _ => rfl, rfl, rfl, rfl⟩

/-- The response to a message is a message to its sender, or none. -/
theorem mailReply_eq (s : State) (stamp : Nat) (w : W64) (status : Nat) :
    ∃ l, mailReply s stamp w status = withNet s l s.xfer := by
  unfold mailReply
  dsimp only
  split
  · split
    · split
      · exact ⟨s.net, rfl⟩
      · exact ⟨_, rfl⟩
    · exact ⟨_, rfl⟩
  · split
    · exact ⟨_, rfl⟩
    · exact ⟨s.net, rfl⟩

section
variable (s : State) (stamp : Nat) (w : W64) (status : Nat)

theorem mailReply_tile (t : Tile) : (mailReply s stamp w status).tile t = s.tile t := by
  obtain ⟨_, h⟩ := mailReply_eq s stamp w status; rw [h]; rfl
theorem mailReply_mgmtBox : (mailReply s stamp w status).mgmtBox = s.mgmtBox := by
  obtain ⟨_, h⟩ := mailReply_eq s stamp w status; rw [h]; rfl
theorem mailReply_spool : (mailReply s stamp w status).spool = s.spool := by
  obtain ⟨_, h⟩ := mailReply_eq s stamp w status; rw [h]; rfl
theorem mailReply_lp : (mailReply s stamp w status).lp = s.lp := by
  obtain ⟨_, h⟩ := mailReply_eq s stamp w status; rw [h]; rfl

end

/-- A doorbell changes the mark of a sleeping tile alone (R260). -/
theorem ring_eq (s : State) (t : Tile) : ring s t = s ∨ ring s t = s.modTile t (fun ts => { ts with rung := true }) := by
  unfold ring
  split
  · exact .inr rfl
  · exact .inl rfl

theorem ring_frame (s : State) (t : Tile) :
    ((ring s t).tile t).slots = (s.tile t).slots ∧ (ring s t).spool = s.spool ∧ (ring s t).lp = s.lp := by
  obtain h | h := ring_eq s t
  · rw [h]; exact ⟨rfl, rfl, rfl⟩
  · rw [h, tile_modTile_same]; exact ⟨rfl, rfl, rfl⟩

/-- A message for a tile that is not OFF takes the lowest free slot; the fourth is kept from tiles (R254, R261). -/
theorem deliverTile_slot {s : State} {t : Tile} {m : Msg} {n : Nat} (hon : s.tileOff t = false)
    (hfree : freeSlot (s.tile t) = some n)
    (hroom : m.nonTile = false → ((s.tile t).slots.filter (fun x => !x.2.nonTile)).length < 3) :
    ((deliverTile s t m).2.tile t).slots = (s.tile t).slots ++ [(n, m)] ∧ (deliverTile s t m).2.spool = s.spool
      ∧ (deliverTile s t m).2.lp = s.lp := by
  have hdeliver : deliverTile s t m
      = (mbOk, ring ((progress s).modTile t (fun ts => { ts with slots := ts.slots ++ [(n, m)] })) t) := by
    unfold deliverTile
    dsimp only
    rw [if_neg (by simp [hon]), if_neg, hfree]
    rintro ⟨htile, hfull⟩
    exact absurd (hroom (Bool.eq_false_of_not_eq_true htile)) (Nat.not_lt.2 hfull)
  obtain ⟨hslots, hspool, hlp⟩ := ring_frame ((progress s).modTile t (fun ts => { ts with slots := ts.slots ++ [(n, m)] })) t
  rw [tile_modTile_same] at hslots
  rw [hdeliver]
  exact ⟨hslots, hspool, hlp⟩

theorem deliverMsg_tile {s : State} {w : Nat} (m : Msg) (rcv : Bool) (hdest : wordDest w = false) (htile : wordTile w < s.ntiles) :
    deliverMsg s w m rcv = deliverTile s (BitVec.ofNat 11 (wordTile w)) m := by
  rw [deliverMsg, if_neg (by simp [hdest]), if_neg (Nat.not_le.2 htile)]

/-- A message for the management core joins its slots while one of the 56 is free (R262). -/
theorem deliverMsg_mgmt {s : State} {w : Nat} (m : Msg) (hdest : wordDest w = true) (hroom : s.mgmtBox.length < 56) :
    (deliverMsg s w m false).2.mgmtBox = s.mgmtBox ++ [m] := by
  have hbox : (progress s).mgmtBox.length < 56 := hroom
  rw [deliverMsg, if_pos hdest, deliverMgmt, if_neg Bool.false_ne_true, if_pos hbox]
  rfl

/-- The message as the mailbox holds it: with the stamp that its arrival gives it (R255). -/
def mailMsg (s : State) (port : Option (BitVec 6)) (stamp : W32) (data : List Byte) : Msg :=
  { stamp := stampAt s port stamp, data := data }

/-- The status of an arriving message, and the state after its delivery. -/
def mailDelivered (s : State) (port : Option (BitVec 6)) (stamp : W32) (w : BitVec 64) (data : List Byte) : Nat × State :=
  deliverMsg (mailAt s stamp w data false) w.toNat (mailMsg s port stamp data) false

section
variable {s : State} {port : Option (BitVec 6)} {stamp : W32} {w : BitVec 64} {data : List Byte}

theorem mailDelivered_tile {n : Nat} (hdest : wordDest w.toNat = false) (htile : wordTile w.toNat < s.ntiles)
    (hon : s.tileOff (BitVec.ofNat 11 (wordTile w.toNat)) = false)
    (hfree : freeSlot (s.tile (BitVec.ofNat 11 (wordTile w.toNat))) = some n)
    (hroom : (stampAt s port stamp).toNat / 2 ^ 30 = 0 →
      ((s.tile (BitVec.ofNat 11 (wordTile w.toNat))).slots.filter (fun x => !x.2.nonTile)).length < 3) :
    ((mailDelivered s port stamp w data).2.tile (BitVec.ofNat 11 (wordTile w.toNat))).slots
        = (s.tile (BitVec.ofNat 11 (wordTile w.toNat))).slots ++ [(n, mailMsg s port stamp data)]
      ∧ (mailDelivered s port stamp w data).2.spool = s.spool ∧ (mailDelivered s port stamp w data).2.lp = s.lp := by
  obtain ⟨-, hntiles, hoff, htiles, -, hspool, hlp⟩ := mailAt_frame s stamp w data false
  have hkind : (mailMsg s port stamp data).nonTile = false ↔ (stampAt s port stamp).toNat / 2 ^ 30 = 0 := by
    simp [Msg.nonTile, mailMsg]
  obtain ⟨hslots, hspool', hlp'⟩ := deliverTile_slot (m := mailMsg s port stamp data) ((hoff _).trans hon)
    ((congrArg freeSlot (htiles _)).trans hfree) fun h => by rw [htiles]; exact hroom (hkind.1 h)
  rw [mailDelivered, deliverMsg_tile _ false hdest (hntiles.symm ▸ htile)]
  exact ⟨hslots.trans (by rw [htiles]), hspool'.trans hspool, hlp'.trans hlp⟩

theorem mailDelivered_mgmt (hdest : wordDest w.toNat = true) (hroom : s.mgmtBox.length < 56) :
    (mailDelivered s port stamp w data).2.mgmtBox = s.mgmtBox ++ [mailMsg s port stamp data] := by
  obtain ⟨-, -, -, -, hbox, -⟩ := mailAt_frame s stamp w data false
  rw [mailDelivered, deliverMsg_mgmt _ hdest (hbox.symm ▸ hroom), hbox]

/-- A message of this job in its turn is delivered, and its sender hears the status (R25, R240). -/
theorem answers_mailbox (hown : wordModule w.toNat = s.module) (hturn : mailTurn s port stamp w data false = true)
    (hjob : ∀ p, port = some p → rd s (lkPg p.toNat) lk_CFG_FOREIGN = 0) : Answers (.mailbox port stamp w data false) s
      (mailReply (mailDelivered s port stamp w data).2 (stampAt s port stamp).toNat w (mailDelivered s port stamp w data).1) := by
  rw [Answers, exec_mailbox, execMailbox, if_neg (by simp [hown, hturn]), done]
  cases port with
  | none => rfl
  | some p =>
    have hforeign : rd (mailAt s stamp w data false) (lkPg p.toNat) lk_CFG_FOREIGN = 0 := by
      obtain ⟨hregs, -⟩ := mailAt_frame s stamp w data false
      exact (rd_congr hregs _ _).trans (hjob p rfl)
    dsimp only
    rw [unlessForeign, if_neg fun h => absurd (hforeign.symm.trans h.1) (by decide)]
    rfl

end

/-! ### The status of an mb.send (R256) -/

/-- The tile after the status of the mb.send `x`. -/
def mailAnswered (x : W64 × BitVec 5 × Bool) (status : Nat) (ts : TileSt) : TileSt :=
  { ts with sends := ts.sends.erase x }.writeG x.2.2 x.2.1 (BitVec.ofNat 64 status)

section
variable {s : State} {t : Tile} {w : BitVec 64} {x : W64 × BitVec 5 × Bool} (ht : t.toNat < s.ntiles)
  (hfind : (s.tile t).sends.find? (fun y => y.1 == w) = some x) (hnet : ∀ r, .mboxRsp t w r ∉ s.net)
include ht hfind hnet

/-- With no status in flight for it, the oldest mb.send to the target takes the one that the command brings (log entry 13). -/
theorem answers_mailboxResponse (st : BitVec 3) :
    Answers (.mailboxResponse t w st) s ((progress s).modTile t (mailAnswered x st.toNat)) := by
  rw [Answers, exec_mailboxResponse, execMailboxResponse, onTile_of_lt s t _ ht, hfind, done]
  dsimp only
  rw [takeMsg_none]
  · rfl
  · intro m hm
    split
    case h_1 u v r =>
      rw [Bool.and_eq_false_iff, beq_eq_false_iff_ne, beq_eq_false_iff_ne, ← not_and_or]
      rintro ⟨rfl, rfl⟩
      exact hnet r hm
    case h_2 => rfl

theorem gives_mailboxResponse (st : BitVec 3) : Gives (.mailboxResponse t w st) s fun s' =>
    (s'.tile t).sends = (s.tile t).sends.erase x
      ∧ (s'.tile t).readG x.2.2 x.2.1 = (if x.2.1 = 0 then 0 else BitVec.ofNat 64 st.toNat)
      ∧ (s'.tile t).dstore = (s.tile t).dstore ∧ s'.regs = s.regs ∧ s'.spool = s.spool ∧ s'.lp = s.lp := by
  have htile : ((progress s).modTile t (mailAnswered x st.toNat)).tile t = mailAnswered x st.toNat (s.tile t) :=
    tile_modTile_same _ _ _
  obtain ⟨g, gh, hbank⟩ := writeG_eq { s.tile t with sends := (s.tile t).sends.erase x } x.2.2 x.2.1 (BitVec.ofNat 64 st.toNat)
  refine gives_of_answers (answers_mailboxResponse ht hfind hnet st) ⟨?_, ?_, ?_, rfl, rfl, rfl⟩
  · rw [tile_settle, htile, mailAnswered, hbank]
  · rw [tile_settle, htile, mailAnswered, readG_writeG_self]
  · rw [tile_settle, htile, mailAnswered, hbank]

end

/-! ### Doorbells (R260) -/

section
variable {s : State} {t : Tile} (ht : t.toNat < s.ntiles) (hsleep : rd s (tlPg t) tl_STATUS_SLEEP = 1)
include ht hsleep

/-- The pages of a tile have no LOCK, so the doorbell rings (R548). -/
theorem answers_wake : Answers (.wake t) s
    ((countWrite s (tlPg t)).modTile t (fun ts => { ts with rung := true })) := by
  have hopen : locked s (tlPg t) = false := by
    rw [locked, decide_eq_false (by unfold tlPg; omega), Bool.false_and]
  have hasleep : rd (countWrite s (tlPg t)) (tlPg t) tl_STATUS_SLEEP = 1 :=
    (rd_wr_apart s (tlPg t) pg_PG_SEQ _ tl_STATUS_SLEEP (by decide)).trans hsleep
  rw [Answers, exec_wake, execWake, onTile_of_lt s t _ ht, done, actWrite, if_neg (by simp [hopen]), ring, if_pos hasleep]

theorem gives_wake : Gives (.wake t) s fun s' => (s'.tile t).rung = true ∧ (s'.tile t).dstore = (s.tile t).dstore
    ∧ s'.spool = s.spool ∧ s'.lp = s.lp := by
  refine gives_of_answers (answers_wake ht hsleep) ⟨?_, ?_, rfl, rfl⟩
  · rw [tile_settle, tile_modTile_same]
  · rw [tile_settle, tile_modTile_same]; rfl

end

/-- STATUS of a tile that wakes. -/
def awake (s : State) (t : Tile) : State := wr (wr s (tlPg t) tl_STATUS_SLEEP 0) (tlPg t) tl_STATUS_RUNNING 1

/-- A tile that wakes joins the chip at the next program stitch. -/
def woken (s : State) (t : Tile) : State :=
  (awake s t).modTile t (fun ts => { ts with rung := false, issued := s.nextStitch * s.stitchW })

theorem awake_status (s : State) (t : Tile) :
    rd (awake s t) (tlPg t) tl_STATUS_SLEEP = 0 ∧ rd (awake s t) (tlPg t) tl_STATUS_RUNNING = 1 := by
  refine ⟨?_, rd_wr_fits _ _ _ _ (by decide) (by decide)⟩
  rw [awake, rd_wr_apart _ _ tl_STATUS_RUNNING _ tl_STATUS_SLEEP (by decide)]
  exact rd_wr_fits _ _ _ _ (by decide) (by decide)

theorem awake_stitchW (s : State) (t : Tile) : (awake s t).stitchW = s.stitchW := by
  rw [State.stitchW, awake, rd_wr_ne _ _ _ _ _ _ (by simp only [gsPg, tlPg, gs_EASE, tl_STATUS_RUNNING]; omega),
    rd_wr_ne _ _ _ _ _ _ (by simp only [gsPg, tlPg, gs_EASE, tl_STATUS_SLEEP]; omega)]
  rfl

/-- Causes that waited for the tile to wake stop issue at once (R191). -/
def calledIfCaused (s : State) (t : Tile) : State := if (s.tile t).causes.isEmpty then s else request s t rowTrap

theorem calledIfCaused_frame (s : State) (t : Tile) : (calledIfCaused s t).regs = s.regs
    ∧ (calledIfCaused s t).tiles = s.tiles ∧ (calledIfCaused s t).spool = s.spool ∧ (calledIfCaused s t).lp = s.lp := by
  unfold calledIfCaused
  split
  · exact ⟨rfl, rfl, rfl, rfl⟩
  · exact ⟨rfl, rfl, rfl, rfl⟩

theorem answers_tileWake {s : State} {t : Tile} (ht : t.toNat < s.ntiles) (hsleep : rd s (tlPg t) tl_STATUS_SLEEP = 1)
    (hrung : (s.tile t).rung = true) (hon : s.tileOff t = false) : Answers (.tileWake t) s
      (calledIfCaused (woken s t) t) := by
  rw [Answers, exec_tileWake, execTileWake, onTile_of_lt s t _ ht, done, if_neg (by simp [hsleep, hrung, hon])]
  dsimp only
  rw [← awake, awake_stitchW]
  rfl

theorem gives_tileWake {s : State} {t : Tile} (ht : t.toNat < s.ntiles) (hsleep : rd s (tlPg t) tl_STATUS_SLEEP = 1)
    (hrung : (s.tile t).rung = true) (hon : s.tileOff t = false) : Gives (.tileWake t) s fun s' =>
      rd s' (tlPg t) tl_STATUS_SLEEP = 0 ∧ rd s' (tlPg t) tl_STATUS_RUNNING = 1
        ∧ (s'.tile t).issued = s.nextStitch * s.stitchW ∧ (s'.tile t).g = (s.tile t).g
        ∧ (s'.tile t).dstore = (s.tile t).dstore ∧ s'.spool = s.spool ∧ s'.lp = s.lp := by
  obtain ⟨hregs, htiles, hspool, hlp⟩ := calledIfCaused_frame (woken s t) t
  obtain ⟨hzero, hone⟩ := awake_status s t
  have htile : (calledIfCaused (woken s t) t).tile t = { s.tile t with rung := false, issued := s.nextStitch * s.stitchW } := by
    rw [tile_congr htiles, woken, tile_modTile_same, awake, tile_wr, tile_wr]
  refine gives_of_answers (answers_tileWake ht hsleep hrung hon) ⟨?_, ?_, ?_, ?_, ?_, hspool, hlp⟩
  · rw [rd_settle, rd_congr hregs, woken, rd_modTile, hzero]
  · rw [rd_settle, rd_congr hregs, woken, rd_modTile, hone]
  · rw [tile_settle, htile]
  · rw [tile_settle, htile]
  · rw [tile_settle, htile]

/-- Settles O19: mb.send and mb.recv act on the state after issue; a message of the job in its turn is delivered to a slot or
to the management core, and its response goes to the oldest mb.send; a doorbell rings through a page that has no LOCK. -/
theorem mailboxesAndDoorbells : Obligations.MailboxesAndDoorbells := by
  unfold Obligations.MailboxesAndDoorbells
  refine ⟨fun s t o => ⟨fun hruns hfn hword halign hin => ?_, fun hruns hgB hfn halign hin => ?_⟩,
    fun s port stamp w data hown hturn hjob => ⟨fun n hdest htile hon hfree hroom => ?_, fun hdest hroom => ?_,
      fun t w st x ht hfind hnet => gives_mailboxResponse ht hfind hnet st⟩,
    fun s t ht hsleep => ⟨gives_wake ht hsleep, gives_tileWake ht hsleep⟩⟩
  · exact ⟨answers_mbSend .corrected hruns hfn hword halign hin, answers_mbSend .uncorrectable hruns hfn hword halign hin,
      answers_mbSend .ok hruns hfn hword halign hin⟩
  · have hans := answers_mbRecv hruns hgB hfn halign hin
    refine ⟨fun x hx => ?_, fun hx => ?_⟩
    · rw [hx] at hans
      exact gives_mbRecv hans
    · rwa [hx] at hans
  · obtain ⟨hslots, hspool, hlp⟩ := mailDelivered_tile (data := data) hdest htile hon hfree hroom
    refine gives_of_answers (answers_mailbox hown hturn hjob) ⟨?_, ?_, ?_⟩
    · rw [tile_settle, mailReply_tile, hslots, mailMsg]
    · rw [settle_spool, mailReply_spool, hspool]
    · rw [settle_lp, mailReply_lp, hlp]
  · refine gives_of_answers (answers_mailbox hown hturn hjob) ?_
    rw [settle_mgmtBox, mailReply_mgmtBox, mailDelivered_mgmt hdest hroom, mailMsg]

end Sys2Proof.Machine
end

section
/-! PROOFS. The scrub of a spool (R273 to R275): the read at an offset that is no multiple of 8 goes on into the next word, and
behind the last offset of a line into the next line. -/

namespace Sys2Proof.Machine

open Sys2Proof.Claims

/-! ### A scrub whose word is uncorrectable -/

/-- A read that touches an uncorrectable word finds it, whatever else it would find (R274). -/
theorem spoolCheck_bad {s : State} {p o n : Nat} (hbad : spIsBad s p o n = true) (e : Ecc) (port : Nat)
    (synd : Option (BitVec 8)) : spoolCheck s p o n e port synd = (false, spoolUe s p (firstBad s p o n) port synd) :=
  if_pos hbad

/-- A read of good words that finds no other error changes nothing. -/
theorem spoolCheck_good {s : State} {p o n : Nat} (hgood : SpGood s p o n) (port : Nat) (synd : Option (BitVec 8)) :
    spoolCheck s p o n .ok port synd = (true, s) := by
  obtain ⟨hbad, hweak⟩ := hgood
  rw [spoolCheck, hbad, hweak]
  rfl

/-- The line of a scrub is good and the words of its offset are not: the tile is fenced, whatever error the scrub reports. -/
theorem answers_scrub_bad {s : State} {p off t : Nat} (hp : p < 1152) (hoff : off < 0x500000) (hen : rd s stPg st_SCRUB_EN = 1)
    (ht : s.ltile p = some t) (hgood : SpGood s p (off / 64 * 64) 64) (hbad : spIsBad s p off 8 = true) (e : Ecc)
    (synd : BitVec 8) : Answers (.scrub p off e synd) s
      (fenceTile (spoolUe s p (firstBad s p off 8) portScrub (some synd)) (BitVec.ofNat 11 t)) := by
  have hon : ¬ (rd s stPg st_SCRUB_EN = 0 ∨ ¬ spoolPowered s p) := by simp [hen, spoolPowered, ht]
  rw [Answers, exec_scrub, execScrub, if_neg (by omega), done, if_neg hon]
  dsimp only
  rw [spoolCheck_good hgood]
  dsimp only
  rw [if_pos rfl, spoolCheck_bad hbad]
  dsimp only
  rw [if_neg Bool.false_ne_true, ht]

/-! ### A scrub that reads across the end of its line -/

/-- The ST block scrubs, and word 8 of the spool of tile 0, the first of its second line, is uncorrectable. -/
def scrubbing : State := wr { State.reset with spoolBad := [8] } stPg st_SCRUB_EN 1

/-- Offset 63 lies in the first line, which is good, and eight bytes from it on reach into word 8. -/
theorem scrubbing_line : SpGood scrubbing 0 (63 / 64 * 64) 64 ∧ spIsBad scrubbing 0 63 8 = true := by unfold SpGood; decide

theorem answers_scrubbing : Answers (.scrub 0 63 .corrected 0) scrubbing
    (fenceTile (spoolUe scrubbing 0 64 portScrub (some 0)) 0) := by
  obtain ⟨hgood, hbad⟩ := scrubbing_line
  have hans := answers_scrub_bad (t := 0) (by decide) (by decide) (by decide) (by decide) hgood hbad .corrected 0
  rwa [show firstBad scrubbing 0 63 8 = 64 from by decide] at hans

set_option maxRecDepth 2000 in
theorem scrubbing_fenced :
    rd (fenceTile (spoolUe scrubbing 0 64 portScrub (some 0)) 0) (tlPg 0) tl_STATUS_FENCED = 1 := by decide

theorem spoolCorrect_scrubbing_fenced :
    rd (spoolCorrect scrubbing 0 63 portScrub (some 0)) (tlPg 0) tl_STATUS_FENCED = 0 := by decide

/-- Refutes O20: the scrub of `scrubbing` at offset 63 is stated to count a corrected word, because its line is good, and it
finds word 8 of the next line uncorrectable, which fences the tile. -/
theorem not_memoryIsServed : ¬ Obligations.MemoryIsServed := by
  unfold Obligations.MemoryIsServed
  intro h
  obtain ⟨-, -, hscrub⟩ := h
  obtain ⟨hlines, -⟩ := hscrub scrubbing
  obtain ⟨hcorrected, -⟩ := hlines 0 63 0 0 (by decide) (by decide) (by decide) (by decide) scrubbing_line.1
  have hfenced := scrubbing_fenced
  rw [← rd_settle scrubbing, Host.Outcome.next.inj (answers_scrubbing.symm.trans hcorrected), rd_settle,
    spoolCorrect_scrubbing_fenced] at hfenced
  exact absurd hfenced (by decide)

end Sys2Proof.Machine
end

section
/-! PROOFS. The home commit (R293, R439): the merge of a section's bytes into a line of LPDDR5X with a correctable error
(R280), whose record finds the logbook queue full and counts the dropped one, of a severity that the logbook does not have,
in a register of the TW page. -/

namespace Sys2Proof.Machine

open Sys2Proof.Claims

/-! ### A dropped record in a register of a later page -/

/-- The field is a whole register behind those of the logbook queue, and it is where severity `n` would have its counter of
dropped records (R475). -/
structure CountsDrops (page : Nat) (g : Fld) (n : Nat) : Prop where
  place : evPg * 0x1000 + (ev_DROP.off + ev_DROP.stride * n) = page * 0x1000 + g.off
  behind : evPg * 0x1000 + ev_QDROP.off < page * 0x1000 + g.off
  hi : g.hi = 31
  lo : g.lo = 0

section
variable {page n : Nat} {g : Fld} (hdrop : CountsDrops page g n)
include hdrop

theorem rdi_drop_eq (s : State) : rdi s evPg ev_DROP n = rd s page g := by
  rw [rd, rdi, rdi, regW, regW, hdrop.place, hdrop.hi, hdrop.lo]
  rfl

theorem rd_inci_drop (s : State) : rd (inci s evPg ev_DROP n 1) page g = min (rd s page g + 1) (2 ^ 32 - 1) := by
  rw [← rdi_drop_eq hdrop, inci, rdi_wri_same _ _ _ _ _ (by decide), rdi_drop_eq hdrop]
  simp only [Fld.max, ev_DROP]
  omega

/-- A request of severity 1 that finds `fullQueue` counts the record that it drops in the register. -/
theorem rd_logReq_drop {s : State} (hfull : s.logQ = fullQueue n) (hcycle : aonCycle s = 0) (code source : Nat)
    (payload : List Byte) : rd (logReq s 1 code source payload) page g = min (rd s page g + 1) (2 ^ 32 - 1) := by
  have hbehind := hdrop.behind
  simp only [ev_QDROP] at hbehind
  have hcount : ∀ y : State, rd (raiseF (inci (inc y evPg ev_QDROP 1) evPg ev_DROP n 1) evPg ev_F_DROP) page g
      = min (rd y page g + 1) (2 ^ 32 - 1) := fun y => by
    rw [rd_raiseF_ne _ _ _ _ _ (by simp only [pg_FAULT]; omega) (by simp only [pg_FORCED]; omega), rd_inci_drop hdrop,
      rd_inc_ne _ _ _ _ _ _ (by simp only [ev_QDROP]; omega)]
  have hlast := pushLog_fullQueue n
    { sev := 1, code := code, source := source, payload := payload, cycle := aonCycle s } rfl hcycle
  rw [← hfull] at hlast
  simp only [logReq, hlast]
  exact hcount _

end

/-! ### A correction of a line -/

/-- The registers of the LP page that a correction writes before its record (R298). -/
def lpCountFlds : List Fld := [lp_ERR_ADDR_LO, lp_ERR_ADDR_HI, lp_ERR_TYPE, lp_ERR_CHAN, lp_CE_CNT, lp_ERR_SYMBOL]

theorem rd_lpErr_ne (s : State) (a type page : Nat) (g : Fld)
    (h : ∀ f ∈ lpCountFlds, page * 0x1000 + g.off ≠ lpPgOf a * 0x1000 + f.off) : rd (lpErr s a type) page g = rd s page g := by
  have hne : ∀ (y : State) (f : Fld) (v : Nat), f ∈ lpCountFlds → rd (wr y (lpPgOf a) f v) page g = rd y page g :=
    fun y f v hf => rd_wr_ne _ _ _ _ _ _ (h f hf)
  unfold lpErr
  dsimp only
  rw [hne _ lp_ERR_CHAN _ (by decide), hne _ lp_ERR_TYPE _ (by decide), hne _ lp_ERR_ADDR_HI _ (by decide),
    hne _ lp_ERR_ADDR_LO _ (by decide)]

theorem lpErr_frame (s : State) (a type : Nat) : (lpErr s a type).lpCe = s.lpCe ∧ (lpErr s a type).repairN = s.repairN
    ∧ (lpErr s a type).logQ = s.logQ ∧ (lpErr s a type).ticks = s.ticks := by
  obtain ⟨r, herr⟩ := lpErr_eq s a type
  rw [herr]
  exact ⟨rfl, rfl, rfl, rfl⟩

/-- The state in which a correction has captured its place and symbol and has counted itself (R280, R298). -/
def lpCounted (s : State) (a sym : Nat) : State :=
  wr (inc (lpErr s a 1) (lpPgOf a) lp_CE_CNT 1) (lpPgOf a) lp_ERR_SYMBOL sym

theorem rd_lpCounted_ne (s : State) (a sym page : Nat) (g : Fld)
    (h : ∀ f ∈ lpCountFlds, page * 0x1000 + g.off ≠ lpPgOf a * 0x1000 + f.off) : rd (lpCounted s a sym) page g = rd s page g :=
  (rd_wr_ne _ _ _ _ _ _ (h lp_ERR_SYMBOL (by decide))).trans
    ((rd_inc_ne _ _ _ _ _ _ (h lp_CE_CNT (by decide))).trans (rd_lpErr_ne s a 1 page g h))

theorem lpCounted_frame (s : State) (a sym : Nat) : (lpCounted s a sym).lpCe = s.lpCe
    ∧ (lpCounted s a sym).repairN = s.repairN ∧ (lpCounted s a sym).logQ = s.logQ ∧ (lpCounted s a sym).ticks = s.ticks := by
  obtain ⟨hce, hrepairN, hlogQ, hticks⟩ := lpErr_frame s a 1
  exact ⟨((wr_lpCe _ _ _ _).trans (wri_lpCe _ _ _ _ _)).trans hce,
    ((wr_repairN _ _ _ _).trans (wri_repairN _ _ _ _ _)).trans hrepairN,
    ((wr_logQ _ _ _ _).trans (wri_logQ _ _ _ _ _)).trans hlogQ, ((wr_ticks _ _ _ _).trans (wri_ticks _ _ _ _ _)).trans hticks⟩

/-- The repair and the record of a line at its limit, from a full queue. -/
theorem rd_lpLimitRecord_drop {s : State} {p page n : Nat} {g : Fld} (hdrop : CountsDrops page g n)
    (hapart : ∀ off < 0x1000, page * 0x1000 + g.off ≠ p * 0x1000 + off) (hroom : s.repairN < 65536)
    (hfull : s.logQ = fullQueue n) (hcycle : aonCycle s = 0) (kind a b seq code source : Nat) (payload : List Byte) :
    rd (logReq (raiseF (repairWrite s kind a b seq) p lp_F_CE_LIMIT) 1 code source payload) page g
      = min (rd s page g + 1) (2 ^ 32 - 1) := by
  obtain ⟨hregs, hlogQ, hticks⟩ := repairWrite_frame hroom kind a b seq
  rw [rd_logReq_drop hdrop, rd_raiseF_ne _ _ _ _ _ (hapart _ (by decide)) (hapart _ (by decide)), rd_congr hregs]
  · rw [raiseF_logQ, hlogQ, hfull]
  · rw [aonCycle, raiseF_ticks, hticks, ← hcycle, aonCycle]

/-- The end of a correction that began with `x`: the count of its line, and what follows at LP_CE_LIMIT (R282). -/
def lpLimited (x : State) (a sym : Nat) : State :=
  let n := lpPgOf a
  let c := smGet (fun _ => 0) x.lpCe (a / 64) + 1
  let x := { x with lpCe := smPut (fun _ => 0) x.lpCe (a / 64) c }
  if c = rd x n lp_CE_LIMIT then
    let x := repairWrite x 3 (lpChan a) (Config.lpRow (a / 64)).toNat (nextSeqOf x + 1)
    logReq (raiseF x n lp_F_CE_LIMIT) 1 0x0205 n (leBytes 5 a ++ b1 sym)
  else x

theorem lpCorrect_eq (s : State) (a : Nat) : ∃ sym, lpCorrect s a = lpLimited (lpCounted s a sym) a sym := ⟨_, rfl⟩

theorem rd_lpLimited_drop {x : State} {a page n : Nat} {g : Fld} (hdrop : CountsDrops page g n)
    (hapart : ∀ off < 0x1000, page * 0x1000 + g.off ≠ lpPgOf a * 0x1000 + off)
    (hlimit : smGet (fun _ => 0) x.lpCe (a / 64) + 1 = rd x (lpPgOf a) lp_CE_LIMIT) (hroom : x.repairN < 65536)
    (hfull : x.logQ = fullQueue n) (hcycle : aonCycle x = 0) (sym : Nat) :
    rd (lpLimited x a sym) page g = min (rd x page g + 1) (2 ^ 32 - 1) := by
  unfold lpLimited
  dsimp only
  split
  case isFalse hne => exact absurd hlimit hne
  case isTrue =>
    refine (rd_lpLimitRecord_drop hdrop hapart ?_ ?_ ?_ ..).trans ?_
    · exact hroom
    · exact hfull
    · exact hcycle
    · rw [rd_congr (y := x) (by rfl)]

/-- A correction that meets LP_CE_LIMIT of its line (R282), and whose record finds `fullQueue`. -/
theorem rd_lpCorrect_drop {s : State} {a page n : Nat} {g : Fld} (hdrop : CountsDrops page g n)
    (hapart : ∀ off < 0x1000, page * 0x1000 + g.off ≠ lpPgOf a * 0x1000 + off)
    (hlimit : smGet (fun _ => 0) s.lpCe (a / 64) + 1 = rd s (lpPgOf a) lp_CE_LIMIT) (hroom : s.repairN < 65536)
    (hfull : s.logQ = fullQueue n) (hcycle : aonCycle s = 0) :
    rd (lpCorrect s a) page g = min (rd s page g + 1) (2 ^ 32 - 1) := by
  obtain ⟨sym, heq⟩ := lpCorrect_eq s a
  obtain ⟨hce, hrepairN, hlogQ, hticks⟩ := lpCounted_frame s a sym
  have hlimit' : rd (lpCounted s a sym) (lpPgOf a) lp_CE_LIMIT = rd s (lpPgOf a) lp_CE_LIMIT :=
    rd_lpCounted_ne s a sym _ _ fun f hf => by
      have hoff : lp_CE_LIMIT.off ≠ f.off := by revert f; decide
      omega
  rw [heq, rd_lpLimited_drop hdrop hapart (by rw [hce, hlimit, hlimit']) (by rw [hrepairN]; exact hroom)
    (hlogQ.trans hfull) (by rw [← hcycle, aonCycle, aonCycle, hticks]),
    rd_lpCounted_ne s a sym page g fun f hf => hapart _ (by revert f; decide)]

/-! ### Writes of one piece -/

theorem lpStore_piece {s : State} {a : Nat} {bs : List Byte} (hpiece : pieces 64 a bs.length = [(a, bs.length)]) {y : State}
    (hput : lpPut s a bs .ok = (rOK, y)) : lpStore s a bs .ok = (rOK, y) := by
  rw [lpStore, hpiece, putPieces, Nat.sub_self, List.drop_zero, List.take_length]
  simp only [hput, if_true, putPieces]

/-- A whole line is written without a read (R280). -/
theorem lpStore_line (s : State) {a : Nat} {bs : List Byte} (ha : a % 64 = 0) (hlen : bs.length = 64) :
    lpStore s a bs .ok = (rOK, lpWrite s a bs) := by
  refine lpStore_piece ?_ (by rw [lpPut, if_pos (by omega)])
  rw [hlen, pieces, ha]
  rfl

theorem length_secChanged (e : List Byte) (he : e.length = 64) (n fp : Nat) : (secChanged e n fp).length = 64 := by
  simp [secChanged, b1, leBytes, he]

/-! ### A commit whose record changes its stage -/

/-- The register of BUSY and STAGE. -/
def twStatus : Fld := { tw_STAGE with hi := 31 }

/-- The twin engine is on. Record 1 of the home region names a table of one section, the bobbin positions, whose other copy
lies in a line with a correctable error; a line meets LP_CE_LIMIT at its first correction, and the record of that counts a
dropped one in the register of STAGE. -/
def committing : State :=
  wr (wr { State.reset with lp := [(0x98, 1), (0x1000, 3)], lpWeak := [0], logQ := fullQueue (severityAt twPg twStatus) }
    twPg tw_ENABLE 1) (lpPg 0) lp_CE_LIMIT 1

/-- The state in which its home commit begins. -/
def committingHome : State := wr (wr (countWrite committing twPg) twPg tw_BUSY 1) twPg tw_STAGE 1

/-- The state in which the line is corrected. -/
def correctingLine : State := { committingHome with lpWeak := [] }

theorem correctingLine_status : rd (lpCorrect correctingLine 0) twPg twStatus = 0x40000002 := by
  rw [rd_lpCorrect_drop (n := severityAt twPg twStatus) ⟨by decide, by decide, rfl, rfl⟩ ?_ (by decide) (by decide) rfl rfl]
  · decide
  · intro off hoff
    rw [show lpPgOf 0 = 0x0A from by decide]
    simp only [twPg, twStatus, tw_STAGE]
    omega

/-- The section's entry. -/
def bobbinEntry : List Byte := 3 :: List.replicate 63 0

/-- Its positions are merged into the line, which is corrected first. -/
theorem putOwn_committing : putOwn committingHome 0 bobbinEntry (secChanged bobbinEntry 0 0)
    = (rOK, lpWrite (lpCorrect correctingLine 0) 0 (List.replicate 16 0)) := by
  have hbytes : ownBytes committingHome bobbinEntry = some (List.replicate 16 0) := by decide
  have hcheck : lpCheck committingHome 0 16 .ok = (true, lpCorrect correctingLine 0) := by
    rw [lpCheck, if_neg (by decide)]
    rfl
  rw [putOwn, hbytes]
  dsimp only
  rw [show 0 + secOff (secChanged bobbinEntry 0 0) = 0 from by decide]
  refine lpStore_piece (by decide) ?_
  rw [lpPut, if_neg (by decide), List.length_replicate, hcheck]
  rfl

theorem putSection_committing : ∃ y, putSection 0 0 0 (rOK, committingHome) 0 = (rOK, y)
    ∧ y.regs = (lpCorrect correctingLine 0).regs := by
  have hentry : secEntry committingHome (tableAddr 0 0) 0 = bobbinEntry := by decide
  have howned : (ownBytes committingHome bobbinEntry).isSome = true := by decide
  rw [putSection, if_neg (by decide)]
  dsimp only
  rw [hentry, howned, Bool.true_or, if_pos rfl, putOwn_committing]
  dsimp only
  rw [if_neg (by decide), lpStore_line _ (by decide) (length_secChanged _ rfl _ _)]
  exact ⟨_, rfl, rfl⟩

/-- The home commit of a table of one section (R293): the section, then the record. -/
theorem homeCommit_section {s y : State} {n i : Nat} (hrec : baseRec s n = i) (hnsec : min (recNsec s (homeBase s) i) 8192 = 1)
    (hput : putSection (homeBase s) (recTable s (homeBase s) i % 2) n (rOK, s) 0 = (rOK, y)) :
    homeCommit s n = (rOK, wr (lpWrite y (recAddr (homeBase s) (n % 2)) (recBytesOf y (tableAddr (homeBase s) (n % 2)) n 1))
      twPg tw_HOME_STEP n) := by
  unfold homeCommit
  dsimp only
  rw [hrec, hnsec, show List.range 1 = [0] from rfl, List.foldl_cons, List.foldl_nil, hput, if_neg (fun hne => hne rfl)]

theorem status_recorded {y : State} (hregs : y.regs = (lpCorrect correctingLine 0).regs) (a n : Nat) (bs : List Byte) :
    rd (wr (lpWrite y a bs) twPg tw_HOME_STEP n) twPg twStatus = 0x40000002 :=
  (rd_wr_ne _ _ _ _ _ _ (by decide)).trans ((rd_congr (x := lpWrite y a bs) hregs _ _).trans correctingLine_status)

theorem homeCommit_committing : ∃ y, homeCommit committingHome 0 = (rOK, y) ∧ rd y twPg twStatus = 0x40000002 := by
  obtain ⟨y, hput, hregs⟩ := putSection_committing
  have hbase : homeBase committingHome = 0 := by decide
  have htable : recTable committingHome 0 1 % 2 = 0 := by decide
  have hrec : baseRec committingHome 0 = 1 := by decide
  have hnsec : min (recNsec committingHome (homeBase committingHome) 1) 8192 = 1 := by decide
  have hput' : putSection (homeBase committingHome) (recTable committingHome (homeBase committingHome) 1 % 2) 0
      (rOK, committingHome) 0 = (rOK, y) := by rw [hbase, htable]; exact hput
  exact ⟨_, homeCommit_section hrec hnsec hput', status_recorded hregs _ _ _⟩

/-- The stage is the low two bits of its register. -/
theorem stage_eq (s : State) : rd s twPg tw_STAGE = rd s twPg twStatus % 4 := by
  simp only [rd, rdi, bits_eq, tw_STAGE, twStatus]
  omega

theorem committing_stage (s' : State) (h : exec (.twCommit 0) committing = .next s') : rd s' twPg tw_STAGE = 2 := by
  obtain ⟨y, hcommit, hstatus⟩ := homeCommit_committing
  rw [exec_twCommit, execTwCommit, actWrite, if_neg (by decide), twCommitOp, if_neg (by decide), if_neg (by decide)] at h
  dsimp only at h
  rw [show wr (wr (countWrite committing twPg) twPg tw_BUSY 1) twPg tw_STAGE 1 = committingHome from rfl,
    show rd (countWrite committing twPg) twPg tw_STEP = 0 from by decide, hcommit, if_pos rfl] at h
  cases h
  rw [stage_eq, rd_settle, rd_congr (y := y) (by rfl), hstatus]

/-- Refutes O44: the commit of `committing` is stated to leave stage 1 in STAGE, and the record of the line that it corrects
then adds 1 to that register. -/
theorem not_twinCopiesTheStep : ¬ Obligations.TwinCopiesTheStep := by
  unfold Obligations.TwinCopiesTheStep
  intro h
  obtain ⟨hstart, -⟩ := h
  obtain ⟨hgood, -⟩ := hstart committing (by decide) (by decide) (by decide)
  obtain ⟨⟨s', hnext, -, -, -, -, hstage, -⟩, -⟩ := hgood (by decide) rfl
  rw [committing_stage s' hnext] at hstage
  exact absurd hstage (by decide)

end Sys2Proof.Machine
end

section
/-! PROOFS. Port 63 (R25, R312 to R320): an event whose record finds the logbook queue full and counts the dropped one, of a
severity that the logbook does not have, in a register of the port's own page. -/

namespace Sys2Proof.Machine

open Sys2Proof.Claims

/-- Port 63 is in state `st`, and the next record of a severity above 0 counts a dropped one in register `f` of its page. -/
def portCounting (st : Nat) (f : Fld) : State :=
  wr { State.reset with logQ := fullQueue (severityAt (lkPg 63) f) } (lkPg 63) lk_STATUS_STATE st

/-! ### A port that goes DOWN and whose record carries PORT_DOWN away -/

/-- The whole register PG_FAULT. -/
def faultWord : Fld := { pg_FAULT with lo := 0 }

/-- A third attempt at training, which has locked no wavelength. -/
def lastAttempt : Training :=
  { locked := [], rack := 0, bolt := 0, module := 0, port := 0, rtt := 0, txPower := [], attempts := 3, eq := [] }

/-- Port 63 trains with the three fault bits below PORT_DOWN set; the record of PORT_DOWN counts in PG_FAULT. -/
def trainingCounting : State := wr (portCounting stTrain faultWord) (lkPg 63) faultWord 0b0111

/-- PORT_DOWN makes the word 0b1111, and the count of the dropped record makes it 0b10000. -/
theorem trainingCounting_faults (s' : State) (h : exec (.trainingComplete 63 lastAttempt) trainingCounting = .next s') :
    regW s' (lkPg 63) pg_FAULT.off = 0b10000 := by
  cases h
  decide

/-- Refutes O34: the third attempt of `trainingCounting` is stated to leave PORT_DOWN set, and the port's own record then adds
1 to PG_FAULT, which carries that bit away. -/
theorem not_portsTrain : ¬ Obligations.PortsTrain := by
  unfold Obligations.PortsTrain
  intro h
  obtain ⟨-, -, -, htrain⟩ := h trainingCounting 63
  obtain ⟨-, hunlocked⟩ := htrain lastAttempt (by decide) (by decide) (by decide) (by decide) (by decide)
  obtain ⟨-, hthird⟩ := hunlocked ⟨0, by decide, by decide, List.not_mem_nil⟩
  obtain ⟨s', hnext, -, hflag, -⟩ := hthird (by decide)
  rw [Claims.Flag, show (63 : BitVec 6).toNat = 63 from rfl, trainingCounting_faults s' hnext] at hflag
  exact absurd hflag (by decide)

/-- Port 63 is ACTIVE with idle wavelength 8 marked bad and the fault bits WL_SPARED and RETRY_LIMIT set; its records count in
PG_FAULT. -/
def spareless : State :=
  wr (wr (portCounting stActive faultWord) (lkPg 63) lk_STATUS_WL_BAD (2 ^ 8)) (lkPg 63) faultWord 0b0101

/-- WL_NO_SPARE and PORT_DOWN make the word 0b1111, and the records of PORT_DOWN and of the lost path count two dropped ones. -/
theorem spareless_faults (s' : State) (h : exec (.wavelengthFail 63 0) spareless = .next s') :
    regW s' (lkPg 63) pg_FAULT.off = 0b10001 := by
  cases h
  decide

/-- Refutes O36: the failure of wavelength 0 in `spareless` is stated to leave WL_NO_SPARE set, and the port's own records then
add 1 to PG_FAULT twice, which carries that bit away. -/
theorem not_wavelengthWithoutSpareIsDown : ¬ Obligations.WavelengthWithoutSpareIsDown := by
  unfold Obligations.WavelengthWithoutSpareIsDown
  intro h
  obtain ⟨s', hnext, -, hflag, -⟩ := h spareless 63 0 (by decide) (by decide) (by decide) (by decide)
  rw [Claims.Flag, show (63 : BitVec 6).toNat = 63 from rfl, spareless_faults s' hnext] at hflag
  exact absurd hflag (by decide)

/-! ### A spared wavelength whose record changes the count of timeouts -/

/-- Port 63 is ACTIVE with idle wavelength 8, and the record of a spared wavelength counts in LK_TIMEOUT. -/
def sparing : State := portCounting stActive lk_TIMEOUT

theorem sparing_timeouts (s' : State) (h : exec (.wavelengthFail 63 8) sparing = .next s') :
    regW s' (lkPg 63) lk_TIMEOUT.off = 1 := by
  cases h
  decide

/-- Refutes O35: the failure of the idle wavelength in `sparing` is stated to leave LK_TIMEOUT alone, and its own record then
adds 1 to that register. -/
theorem not_wavelengthsAndLasers : ¬ Obligations.WavelengthsAndLasers := by
  unfold Obligations.WavelengthsAndLasers
  intro h
  obtain ⟨hwave, -⟩ := h
  obtain ⟨-, hfails, -⟩ := hwave sparing 63 8 (by decide) (by decide)
  obtain ⟨hspared, -⟩ := hfails (by decide)
  obtain ⟨s', hnext, -, -, -, -, -, hothers, -⟩ := hspared (by decide) (by decide) (by decide)
  have hkept := hothers (lkPg 63) lk_TIMEOUT.off (by decide) (by decide)
  rw [sparing_timeouts s' hnext, show regW sparing (lkPg 63) lk_TIMEOUT.off = 0 from by decide] at hkept
  exact absurd hkept (by decide)

/-! ### A packet of a FOREIGN port whose record counts as another -/

/-- Port 63 is ACTIVE and FOREIGN, and the record of a packet that it drops counts in LK_FOREIGN_DROP. -/
def foreignCounting : State := wr (portCounting stActive lk_FOREIGN_DROP) (lkPg 63) lk_CFG_FOREIGN 1

theorem foreignCounting_drops (s' : State) (h : exec (.rcv 63 .jobHold) foreignCounting = .next s') :
    rd s' (lkPg 63) lk_FOREIGN_DROP = 2 := by
  cases h
  decide

/-- Refutes O37: the one packet that `foreignCounting` drops is stated to leave 1 in LK_FOREIGN_DROP, and its own record then
adds 1 to that register. -/
theorem not_framesAndPackets : ¬ Obligations.FramesAndPackets := by
  unfold Obligations.FramesAndPackets
  intro h
  obtain ⟨-, -, -, hrcv⟩ := h
  obtain ⟨-, hforeign⟩ := hrcv foreignCounting 63 [] (by decide) (fun _ _ _ => List.not_mem_nil)
  obtain ⟨s', hnext, hdrops, -⟩ := hforeign (by decide) .jobHold
  rw [show (63 : BitVec 6).toNat = 63 from rfl, foreignCounting_drops s' hnext] at hdrops
  exact absurd hdrops (by decide)

end Sys2Proof.Machine
end

section
/-! PROOFS. What the entry into fail-safe (R448) leaves of the fault that drives it: the words of the CK page, the memories and
the logbook queue. From it the crossing error (R363). -/

namespace Sys2Proof.Machine

open Sys2Proof.Claims

/-- What a FATAL fault of the clocks has left behind when fail-safe begins: the words of the CK page, the memories, the
logbook queue and fail-safe itself. -/
def fatalPart (s : State) := (fun off : Fin 0x1000 => regW s ckPg off, s.spool, s.lp, s.flash, s.logQ, s.failSafe)

/-- A part of the state that is none of these may change. -/
theorem fatalPart_congr {x y : State} (hr : y.regs = x.regs) (hs : y.spool = x.spool) (hl : y.lp = x.lp) (hf : y.flash = x.flash)
    (hq : y.logQ = x.logQ) (hfs : y.failSafe = x.failSafe) : fatalPart y = fatalPart x := by
  simp only [fatalPart, regW, hr, hs, hl, hf, hq, hfs]

@[simp] theorem fatalPart_ite (c : Prop) [Decidable c] (x y : State) :
    fatalPart (if c then x else y) = if c then fatalPart x else fatalPart y := apply_ite fatalPart c x y

@[simp] theorem fatalPart_forEach {α : Type} (l : List α) (f : α → State → State)
    (h : ∀ a x, fatalPart (f a x) = fatalPart x) (s : State) : fatalPart (forEach l f s) = fatalPart s :=
  forEach_induction (P := fun y => fatalPart y = fatalPart s) (fun a x hx => (h a x).trans hx) l rfl

/-! ### Pages behind the CK page -/

@[simp] theorem ckPg_lt_tlPg (t : Tile) : ckPg < tlPg t := by unfold ckPg tlPg; omega
@[simp] theorem ckPg_lt_mxPg (t : Tile) : ckPg < mxPg t := by unfold ckPg mxPg; omega
@[simp] theorem ckPg_lt_vxPg (t : Tile) : ckPg < vxPg t := by unfold ckPg vxPg; omega
@[simp] theorem ckPg_lt_syPg (t : Tile) : ckPg < syPg t := by unfold ckPg syPg; omega
@[simp] theorem ckPg_lt_lkPg (p : Nat) : ckPg < lkPg p := by unfold ckPg lkPg; omega
@[simp] theorem ckPg_lt_enPg (n : Nat) : ckPg < enPg n := by unfold ckPg enPg; omega
@[simp] theorem ckPg_lt_lpPg (g : Nat) : ckPg < lpPg g := by unfold ckPg lpPg; omega
@[simp] theorem ckPg_lt_evPg : ckPg < evPg := by decide
@[simp] theorem ckPg_lt_twPg : ckPg < twPg := by decide
@[simp] theorem ckPg_lt_tkPg : ckPg < tkPg := by decide

section
variable (s : State) {page : Nat}

theorem fatalPart_setW (h : ckPg < page) (off v : Nat) : fatalPart (setW s page off v) = fatalPart s := by
  have hw : (fun o : Fin 0x1000 => regW (setW s page off v) ckPg o) = fun o : Fin 0x1000 => regW s ckPg o := funext fun o =>
    regW_setW_ne _ _ _ _ _ _ (by have := o.isLt; omega)
  exact congrArg (fun w => (w, s.spool, s.lp, s.flash, s.logQ, s.failSafe)) hw

@[simp] theorem fatalPart_wr (h : ckPg < page) (f : Fld) (v : Nat) : fatalPart (wr s page f v) = fatalPart s :=
  fatalPart_setW s h _ _

@[simp] theorem fatalPart_inci (h : ckPg < page) (f : Fld) (i n : Nat) : fatalPart (inci s page f i n) = fatalPart s :=
  fatalPart_setW s h _ _

@[simp] theorem fatalPart_raiseBit (h : ckPg < page) (b : Nat) : fatalPart (raiseBit s page b) = fatalPart s := by
  have hreport : ∀ x : State, fatalPart (report x page b) = fatalPart x := fun x => by
    unfold report
    split <;> rfl
  unfold raiseBit
  dsimp only
  split
  · exact fatalPart_setW s h _ _
  · rw [hreport, fatalPart_wr _ h, fatalPart_setW s h]

@[simp] theorem fatalPart_raiseF (h : ckPg < page) (f : Fld) : fatalPart (raiseF s page f) = fatalPart s :=
  fatalPart_raiseBit s h f.lo

end

/-! ### Tiles and tack lines -/

section
variable (s : State)

@[simp] theorem fatalPart_modTile (t : Tile) (f : TileSt → TileSt) : fatalPart (s.modTile t f) = fatalPart s :=
  fatalPart_congr rfl rfl rfl rfl rfl rfl

@[simp] theorem fatalPart_unrequest (t : Tile) (row : Nat) : fatalPart (unrequest s t row) = fatalPart s :=
  fatalPart_congr rfl rfl rfl rfl rfl rfl

@[simp] theorem fatalPart_clearPend (k : Nat) : fatalPart (clearPend s k) = fatalPart s := by
  have hprogress : fatalPart (progress s) = fatalPart s := fatalPart_congr rfl rfl rfl rfl rfl rfl
  simp [clearPend, hprogress]

@[simp] theorem fatalPart_raiseCause (t : Tile) (c : Cause) : fatalPart (raiseCause s t c) = fatalPart s := by
  have hcause : fatalPart (causeCapture (causeBit s t c.code c.src) t c.code c.src c.pc) = fatalPart s := by
    simp [causeCapture, causeBit]
  unfold raiseCause
  revert hcause
  generalize causeCapture (causeBit s t c.code c.src) t c.code c.src c.pc = x
  intro hcause
  dsimp only
  split
  · split
    · exact hcause
    · exact hcause
  · exact hcause

@[simp] theorem fatalPart_tackCause (t : Tile) (k : Nat) : fatalPart (tackCause s t k) = fatalPart s := by
  simp [tackCause, precise]

@[simp] theorem fatalPart_breakLine (k : Nat) : fatalPart (breakLine s k) = fatalPart s := by
  have hmarks : ∀ (x : State) m l, fatalPart { x with tackGot := m, tackSent := l } = fatalPart x :=
    fun _ _ _ => fatalPart_congr rfl rfl rfl rfl rfl rfl
  unfold breakLine
  dsimp only
  rw [fatalPart_forEach _ _ fun _ _ => by simp, hmarks, fatalPart_clearPend, fatalPart_raiseBit _ ckPg_lt_tkPg]

@[simp] theorem fatalPart_breakTileLines (t : Tile) : fatalPart (breakTileLines s t) = fatalPart s := by
  simp [breakTileLines]

/-! ### The table of R448 -/

@[simp] theorem fatalPart_haltAll : fatalPart (haltAll s) = fatalPart s := by
  have hreq : ∀ x : State, fatalPart { x with netReq := [] } = fatalPart x := fun _ => fatalPart_congr rfl rfl rfl rfl rfl rfl
  unfold haltAll
  dsimp only
  rw [fatalPart_forEach _ _ fun _ _ => by simp, hreq, fatalPart_forEach _ _ fun _ _ => by simp,
    fatalPart_forEach _ _ fun _ _ => by simp]

@[simp] theorem fatalPart_calEnd (p : Nat) : fatalPart (calEnd s p) = fatalPart s :=
  (fatalPart_wr _ (ckPg_lt_lkPg p) _ _).trans (fatalPart_congr rfl rfl rfl rfl rfl rfl)

@[simp] theorem fatalPart_updatePartner : fatalPart (updatePartner s) = fatalPart s := by
  simp [updatePartner]

@[simp] theorem fatalPart_portsFailSafe : fatalPart (portsFailSafe s) = fatalPart s := by
  simp [portsFailSafe]

@[simp] theorem fatalPart_flushQueue (k status detail : Nat) : fatalPart (flushQueue s k status detail) = fatalPart s := by
  unfold flushQueue
  split <;> rfl

@[simp] theorem fatalPart_flushData : fatalPart (flushData s) = fatalPart s := by
  simp [flushData]

/-- The state in which fail-safe begins: the pins fall, and a stow in progress is abandoned (R414, R448). -/
def beginFailSafe (lull : Bool) : State :=
  abortStow { s with pins := { s.pins with faultN := false, smbAlertN := false }, failSafe := some lull }

/-- After fail-safe begins, its table leaves the fault alone. -/
theorem fatalPart_driveFailSafe (h : s.failSafe = none) (lull : Bool) :
    fatalPart (driveFailSafe s lull) = fatalPart (beginFailSafe s lull) := by
  unfold driveFailSafe
  rw [h]
  simp [beginFailSafe]

/-! ### The record of the fault -/

/-- A record leaves the CK page alone: the counters of dropped records lie behind it (R475). -/
theorem regW_ck_logReq (sev code source : Nat) (payload : List Byte) {off : Nat} (hoff : off < 0x1000) :
    regW (logReq s sev code source payload) ckPg off = regW s ckPg off := by
  have hcount : ∀ x v, fatalPart (raiseF (inci (inc x evPg ev_QDROP 1) evPg ev_DROP v 1) evPg ev_F_DROP) = fatalPart x :=
    fun x v => by simp [inc]
  unfold logReq
  dsimp only
  split
  · rfl
  · exact congrFun (congrArg Prod.fst (hcount _ _)) (⟨off, hoff⟩ : Fin 0x1000)

theorem logReq_logQ (sev code source : Nat) (payload : List Byte) : (logReq s sev code source payload).logQ
    = (pushLog s.logQ { sev := sev, code := code, source := source, payload := payload, cycle := aonCycle s }).1 := by
  unfold logReq
  dsimp only
  split
  · rfl
  · rw [raiseF_logQ]; rfl

/-- An abandoned stow is a record (R414). -/
theorem regW_ck_abortStow {off : Nat} (hoff : off < 0x1000) : regW (abortStow s) ckPg off = regW s ckPg off := by
  unfold abortStow
  split
  · exact regW_ck_logReq _ _ _ _ _ hoff
  · rfl

theorem abortStow_keeps : (abortStow s).spool = s.spool ∧ (abortStow s).lp = s.lp ∧ (abortStow s).flash = s.flash
    ∧ (abortStow s).failSafe = s.failSafe := by
  unfold abortStow
  split
  next r _ =>
    obtain ⟨_, _, _, _, heq⟩ := logReq_eq { s with stowReq := none, stowTold := [] } 3 0x0808 mgPg (leBytes 8 r.k)
    rw [heq]
    exact ⟨rfl, rfl, rfl, rfl⟩
  · exact ⟨rfl, rfl, rfl, rfl⟩

/-! ### Entry into fail-safe -/

/-- Fail-safe, entered or already in force, leaves the CK page and the memories alone (R448). -/
theorem driveFailSafe_keeps (lull : Bool) : (∀ off < 0x1000, regW (driveFailSafe s lull) ckPg off = regW s ckPg off)
    ∧ (driveFailSafe s lull).failSafe.isSome = true ∧ (driveFailSafe s lull).spool = s.spool ∧ (driveFailSafe s lull).lp = s.lp
    ∧ (driveFailSafe s lull).flash = s.flash := by
  cases h : s.failSafe with
  | some l =>
    have hin : s.failSafe.isSome = true := by rw [h]; rfl
    rw [driveFailSafe, if_pos hin]
    exact ⟨fun _ _ => rfl, rfl, rfl, rfl, rfl⟩
  | none =>
    have hpart := fatalPart_driveFailSafe s h lull
    simp only [fatalPart, Prod.mk.injEq] at hpart
    obtain ⟨hck, hspool, hlp, hflash, -, hentered⟩ := hpart
    obtain ⟨hspool', hlp', hflash', hentered'⟩ :=
      abortStow_keeps { s with pins := { s.pins with faultN := false, smbAlertN := false }, failSafe := some lull }
    refine ⟨fun off hoff => ?_, ?_, hspool.trans hspool', hlp.trans hlp', hflash.trans hflash'⟩
    · exact (congrFun hck (⟨off, hoff⟩ : Fin 0x1000)).trans (regW_ck_abortStow _ hoff)
    · rw [hentered, beginFailSafe, hentered']; rfl

/-- Fail-safe logs the stow that it abandons and nothing else (R414). -/
theorem driveFailSafe_logQ (lull : Bool) : (s.failSafe.isSome = true ∨ s.stowReq = none → (driveFailSafe s lull).logQ = s.logQ)
    ∧ ∀ r, s.failSafe = none → s.stowReq = some r → (driveFailSafe s lull).logQ = (pushLog s.logQ
        { sev := 3, code := 0x0808, source := mgPg, payload := leBytes 8 r.k, cycle := aonCycle s }).1 := by
  have hbegun : s.failSafe = none → (driveFailSafe s lull).logQ = (beginFailSafe s lull).logQ := fun h => by
    have hpart := fatalPart_driveFailSafe s h lull
    simp only [fatalPart, Prod.mk.injEq] at hpart
    obtain ⟨-, -, -, -, hlogQ, -⟩ := hpart
    exact hlogQ
  refine ⟨fun h => ?_, fun r hnone hstow => ?_⟩
  · cases hf : s.failSafe with
    | some l =>
      have hin : s.failSafe.isSome = true := by rw [hf]; rfl
      rw [driveFailSafe, if_pos hin]
    | none =>
      have hstow : s.stowReq = none := h.resolve_left (by simp [hf])
      rw [hbegun hf, beginFailSafe, abortStow, hstow]
  · rw [hbegun hnone, beginFailSafe, abortStow, hstow]
    exact logReq_logQ _ _ _ _ _

/-- A FATAL fault of the CK page: its bit, its record, and fail-safe (R359, R363). -/
def ckFatal (f : Fld) (code : Nat) (payload : List Byte) : State :=
  driveFailSafe (logReq (raiseF s ckPg f) 4 code ckPg payload) true

/-- The fault's record, and after it that of an abandoned stow. -/
theorem logsFatal_ckFatal (f : Fld) (code : Nat) (payload : List Byte) :
    LogsFatal s (ckFatal s f code payload) code ckPg payload := by
  obtain ⟨_, _, _, hraise⟩ := raiseBit_eq s ckPg f.lo
  have hlogQ := logReq_logQ (raiseF s ckPg f) 4 code ckPg payload
  obtain ⟨_, _, _, _, hlog⟩ := logReq_eq (raiseF s ckPg f) 4 code ckPg payload
  obtain ⟨hquiet, hstow⟩ := driveFailSafe_logQ (logReq (raiseF s ckPg f) 4 code ckPg payload) true
  have hcycle : aonCycle (logReq (raiseF s ckPg f) 4 code ckPg payload) = aonCycle s := by rw [hlog, raiseF, hraise]; rfl
  have hcycle' : aonCycle (raiseF s ckPg f) = aonCycle s := by rw [raiseF, hraise]; rfl
  have hsafe : (logReq (raiseF s ckPg f) 4 code ckPg payload).failSafe = s.failSafe := by rw [hlog, raiseF, hraise]
  have hreq : (logReq (raiseF s ckPg f) 4 code ckPg payload).stowReq = s.stowReq := by rw [hlog, raiseF, hraise]
  rw [raiseF_logQ, hcycle'] at hlogQ
  rw [hsafe, hreq, hlogQ] at hquiet
  rw [hsafe, hreq, hlogQ, hcycle] at hstow
  exact ⟨hquiet, hstow⟩

/-- What a FATAL fault of the CK page changes there, and that it leaves the memories alone. -/
theorem ckFatal_keeps (f : Fld) (code : Nat) (payload : List Byte) :
    (∀ off < 0x1000, regW (ckFatal s f code payload) ckPg off = regW (raiseF s ckPg f) ckPg off)
      ∧ (ckFatal s f code payload).failSafe.isSome = true ∧ (ckFatal s f code payload).spool = s.spool
      ∧ (ckFatal s f code payload).lp = s.lp ∧ (ckFatal s f code payload).flash = s.flash := by
  obtain ⟨_, _, _, hraise⟩ := raiseBit_eq s ckPg f.lo
  obtain ⟨_, _, _, _, hlog⟩ := logReq_eq (raiseF s ckPg f) 4 code ckPg payload
  obtain ⟨hck, hin, hspool, hlp, hflash⟩ := driveFailSafe_keeps (logReq (raiseF s ckPg f) 4 code ckPg payload) true
  refine ⟨fun off hoff => (hck off hoff).trans (regW_ck_logReq _ _ _ _ _ hoff), hin, hspool.trans ?_, hlp.trans ?_,
    hflash.trans ?_⟩
  · rw [hlog, raiseF, hraise]
  · rw [hlog, raiseF, hraise]
  · rw [hlog, raiseF, hraise]

end

/-- Settles O41: the crossing error is a FATAL fault of the CK page, and neither its record nor the entry into fail-safe
reaches a register of that page or a memory. -/
theorem crossingErrorIsFatal : Obligations.CrossingErrorIsFatal := by
  unfold Obligations.CrossingErrorIsFatal
  intro s x hx
  obtain ⟨hck, hin, hspool, hlp, hflash⟩ := ckFatal_keeps (wr s ckPg ck_XING_ID x.toNat) ck_F_XING_ERR 0x0804 (b1 x.toNat)
  refine ⟨settle s (ckFatal (wr s ckPg ck_XING_ID x.toNat) ck_F_XING_ERR 0x0804 (b1 x.toNat)), ?_, ?_, ?_, hin,
    logsFatal_ckFatal (wr s ckPg ck_XING_ID x.toNat) ck_F_XING_ERR 0x0804 (b1 x.toNat), hlp, hspool, hflash⟩
  · rw [exec_xingErr, execXingErr, if_neg (by simp only [crossings]; omega)]
    rfl
  · rw [rd_settle, rd, rdi, hck _ (by decide)]
    refine (rd_raiseF_ne _ _ _ _ ck_XING_ID (by decide) (by decide)).trans ?_
    exact rd_wr_fits s ckPg ck_XING_ID x.toNat (by decide) x.isLt
  · refine flag_settle ?_
    rw [Claims.Flag, hck _ (by decide)]
    exact flag_raiseF _ _ _ (by decide)

end Sys2Proof.Machine
end

section
/-! PROOFS. Hall time (R350 to R353): an event that ends the lock (R351) while the logbook queue is full, and whose record
counts the dropped one, of a severity that the logbook does not have, in a register of the TM page. -/

namespace Sys2Proof.Machine

open Sys2Proof.Claims

/-- The module is LOCKED, and its next record of a severity above 0 counts a dropped one in register `f` of the TM page. -/
def lockCounting (f : Fld) : State := wr { State.reset with logQ := fullQueue (severityAt tmPg f) } tmPg tm_LOCKED 1

/-! ### A new parent whose record of the lost lock changes the root -/

/-- Port 63 is ACTIVE with a VALID asymmetry, and the record of a lost lock counts in TM_ROOT_ID. -/
def orphan : State := wri (wr (lockCounting tm_ROOT_ID) (lkPg 63) lk_STATUS_STATE stActive) tmPg tm_VALID 63 1

/-- Root 9 of priority 1 announces itself: HOPS is 0. -/
def rootNine : List Byte := leBytes 4 9 ++ leBytes 1 1 ++ leBytes 1 0 ++ leBytes 1 tsLocked ++ leBytes 9 0

/-- The state of `orphan` with that offer. -/
def orphanOffered : State :=
  { orphan with offers := smPut (fun _ => none) orphan.offers 63 (some (announceOf rootNine)) }

theorem orphanOffered_candidates :
    (allOffers orphanOffered).filter (isCandidate orphanOffered) = [(63, announceOf rootNine)] := by decide

theorem orphan_root (s' : State) (h : exec (.announce 63 rootNine) orphan = .next s') : rd s' tmPg tm_ROOT_ID = 10 := by
  cases h
  decide

/-- Refutes O39: the one candidate of `orphan` is stated to leave its root, 9, in TM_ROOT_ID, and the record of the lock that
falls with the new parent then adds 1 to that register. -/
theorem not_timeParentsAndOrigin : ¬ Obligations.TimeParentsAndOrigin := by
  unfold Obligations.TimeParentsAndOrigin
  intro h
  obtain ⟨⟨hannounce, -⟩, -⟩ := h
  obtain ⟨s', hnext, -, -, -, hfollows⟩ := hannounce orphan 63 rootNine (by decide)
  obtain ⟨-, -, hroot, -⟩ := hfollows (by decide) orphanOffered_candidates
  rw [orphan_root s' hnext] at hroot
  exact absurd hroot (by decide)

/-! ### The end of holdover, whose record locks again -/

/-- The whole register of the time state. -/
def timeStatus : Fld := { tm_LOCKED with hi := 31, lo := 0 }

/-- The module is in HOLDOVER, and the record of a lost lock counts in the register of LOCKED, whose bits below LOCKED are
set. -/
def holdingOver : State := wr (wr (lockCounting tm_LOCKED) tmPg timeStatus 0x1FFFFFFF) tmPg tm_TSTATE tsHoldover

/-- The count of the dropped record carries into LOCKED. -/
theorem holdingOver_locked (s' : State) (h : exec .holdoverExpiry holdingOver = .next s') : rd s' tmPg tm_LOCKED = 1 := by
  cases h
  decide

/-- Refutes O40: the end of holdover in `holdingOver` is stated to leave LOCKED at 0, and the record of the lost lock then
carries into that bit. -/
theorem not_timeIsKept : ¬ Obligations.TimeIsKept := by
  unfold Obligations.TimeIsKept
  intro h
  obtain ⟨-, hservo, -⟩ := h
  obtain ⟨-, hholdover, -⟩ := hservo holdingOver
  obtain ⟨s', hnext, -, hlocked, -⟩ := hholdover (by decide)
  rw [holdingOver_locked s' hnext] at hlocked
  exact absurd hlocked (by decide)

end Sys2Proof.Machine
end

section
/-! PROOFS. The scale tracker and the bobbin engine (R371 to R399): a late observation and a reported mismatch whose record finds
the logbook queue full and counts the dropped one, of a severity that the logbook does not have, in a register of the unit's own
page. -/

namespace Sys2Proof.Machine

open Sys2Proof.Claims

/-! ### A late observation whose record counts as another -/

/-- The step has closed and its commit waits (R428), and the record of a late observation counts in NM_OBS_CNT. -/
def observing : State := { State.reset with stepClosed := some false, logQ := fullQueue (severityAt nmPg nm_OBS_CNT) }

/-- The counter of the observations counts this one, and then the dropped record. -/
theorem observing_count (s' : State) (h : exec (.observation 5 0) observing = .next s') : rd s' nmPg nm_OBS_CNT = 2 := by
  cases h
  decide

/-- Refutes O42: the one observation that comes to `observing` is stated to leave 1 in NM_OBS_CNT, and the record of its lateness
(R379) then adds 1 to that register. -/
theorem not_scaleTracker : ¬ Obligations.ScaleTracker := by
  unfold Obligations.ScaleTracker
  intro h
  obtain ⟨hobserve, -⟩ := h
  obtain ⟨s', hnext, -, -, -, hcount, -⟩ := hobserve observing 5 0
  rw [observing_count s' hnext, show rd observing nmPg nm_OBS_CNT = 0 from by decide] at hcount
  exact absurd hcount (by decide)

/-! ### A mismatch whose record carries KAT_FAIL away -/

/-- No program runs, and the record of a mismatch counts in PG_FAULT of the BB page. -/
def mismatching : State := { State.reset with regs := [], logQ := fullQueue (severityAt bbPg pg_FAULT) }

/-- A page of a tile's core is that of a TL block, or of no tile. -/
theorem pageBlk_tlPg_cases (t : Tile) : pageBlk (tlPg t) = some .tl ∨ pageBlk (tlPg t) = none := by
  have hkind : (0x1000 + 4 * t.toNat) % 4 = 0 := by omega
  unfold pageBlk tlPg
  rw [if_neg (by omega), if_neg (by omega), if_neg (by omega), hkind]
  split
  · exact .inr rfl
  · exact .inl rfl

/-- No tile runs at reset. -/
theorem regDflt_tlStatus (t : Tile) : regDflt (tlPg t * 0x1000 + tl_STATUS_RUNNING.off) = 0 := by
  have hpage : (tlPg t * 0x1000 + tl_STATUS_RUNNING.off) / 0x1000 = tlPg t := by simp only [tl_STATUS_RUNNING]; omega
  have hoff : (tlPg t * 0x1000 + tl_STATUS_RUNNING.off) % 0x1000 = tl_STATUS_RUNNING.off := by
    simp only [tl_STATUS_RUNNING]; omega
  rw [regDflt, hpage, hoff]
  rcases pageBlk_tlPg_cases t with hblk | hblk
  · rw [hblk]; decide
  · rw [hblk]

theorem programRuns_of_regs_nil {s : State} (hregs : s.regs = []) : programRuns s = false := by
  refine List.any_eq_false.mpr fun t _ => ?_
  have hstatus : rd s (tlPg t) tl_STATUS_RUNNING = bits (regDflt (tlPg t * 0x1000 + tl_STATUS_RUNNING.off)).toNat 0 0 := by
    rw [rd, rdi, regW, hregs, smGet_nil]; rfl
  rw [hstatus, regDflt_tlStatus]
  decide

theorem mismatching_unlocked : locked mismatching bbPg = false := by
  rw [locked, jobLocks, programRuns_of_regs_nil rfl]
  decide

/-- KAT_FAIL makes the word 0b01, and the count of the dropped record makes it 0b10. -/
theorem mismatching_faults (s' : State) (h : exec .katFailed mismatching = .next s') : regW s' bbPg pg_FAULT.off = 0b10 := by
  rw [exec_katFailed, execKatFailed, actWrite, if_neg (by rw [mismatching_unlocked]; decide)] at h
  cases h
  decide

/-- Refutes O43: a mismatch reported to `mismatching` is stated to leave KAT_FAIL set, and its own record then adds 1 to PG_FAULT,
which carries that bit away. -/
theorem not_bobbinsAndSteps : ¬ Obligations.BobbinsAndSteps := by
  unfold Obligations.BobbinsAndSteps
  intro h
  obtain ⟨hengine, -⟩ := h
  obtain ⟨-, -, hmismatch⟩ := hengine mismatching mismatching_unlocked
  obtain ⟨s', hnext, hflag, -⟩ := hmismatch
  rw [Claims.Flag, mismatching_faults s' hnext] at hflag
  exact absurd hflag (by decide)

end Sys2Proof.Machine
end

section
/-! PROOFS. What every step keeps: the queue first in, first out, and the life-cycle fuses in their ranges (R526 to R528). -/

namespace Sys2Proof.Machine

open Sys2Proof.Claims

/-! ### The queue -/

/-- Settles O1: the definition of a step, read at a queue with a front command. -/
theorem stepRunsFrontCommand : Obligations.StepRunsFrontCommand := by
  unfold Obligations.StepRunsFrontCommand
  exact fun _ _ _ => rfl

/-- A step with a front command runs it on the rest of the queue. -/
theorem step_of_pending {s : State} {c : Instr} {rest : List Instr} (h : s.pending = c :: rest) :
    step s = exec c { s with pending := rest } := by
  rw [step, h]

/-- Settles O3: no answer of a command reaches the queue (`Answer.next_keeps`). -/
theorem queueIsFirstInFirstOut : Obligations.QueueIsFirstInFirstOut := by
  unfold Obligations.QueueIsFirstInFirstOut
  intro s s' c rest hpending hstep
  rw [step_of_pending hpending] at hstep
  obtain ⟨hrest, -, -⟩ := (exec_answer c { s with pending := rest }).next_keeps s' hstep
  exact hrest

/-! ### The life-cycle fuses -/

/-- Settles O7: the fuses of `State.reset` are those of FIELD, with LC_COUNT at 2. -/
theorem resetLifeCycleFuses : Obligations.ResetLifeCycleFuses := by
  unfold Obligations.ResetLifeCycleFuses LifeFuses
  decide

/-- From `f` to `g` the life-cycle fuses keep their ranges, and no fuse that is blown is whole again (R526 to R528). -/
structure FusesGrow (f g : Fuses) : Prop where
  range : f.epoch ≤ 64 ∧ f.lcCount ≤ 16 → g.epoch ≤ 64 ∧ g.lcCount ≤ 16
  epoch : f.epoch ≤ g.epoch
  lcCount : f.lcCount ≤ g.lcCount
  voided : f.voided = true → g.voided = true

theorem FusesGrow.refl (f : Fuses) : FusesGrow f f := ⟨id, Nat.le_refl _, Nat.le_refl _, id⟩

theorem FusesGrow.of_eq {f g : Fuses} (h : g = f) : FusesGrow f g := h ▸ .refl f

/-- Every command but FW_EPOCH and LC_TRANSITION leaves the fuses as they are (R526, R528). -/
theorem exec_keeps_fuses (c : Instr) (s : State) (hepoch : ∀ q, c ≠ .fwEpoch q) (hlc : ∀ q o v, c ≠ .lcTransition q o v) :
    Keeps s (exec c s) := by
  have hmissing : ∀ (p : Prop) [Decidable p] (x : State), Keeps s (if p then .fault .noSuchUnit else done s x) := by
    intro p _ x
    split
    · exact keeps_fault s _
    · exact keeps_done s _
  cases c with
  | fwEpoch q => exact absurd rfl (hepoch q)
  | lcTransition q o v => exact absurd rfl (hlc q o v)
  -- the control core
  | cAdd | cSub | cAnd | cOr | cXor | cShl | cShr | cSar | cMul | cMulhu | cMulh | cDivu | cRemu | cMin | cMax | cMinu
    | cMaxu | cSextb | cSexth | cSextw | cClz | cPopc | cAddi | cAndi | cOri | cXori | cSel | cShi | cMovz | cMovk
    | cGetu | cCmp | cLfence | cBr | cJal | cJr | cTret | cTrap | cHalt | cSleep | pgRd | pgWr | dmGo | dmFence | sySig
    | sySigi | syWait | syRealign | mbSend | mbRecv | cCmpi | cRdv | predicateAnd | predicateOr | predicateXor
    | predicateAndn | predicateNot | cLdb | cLdh | cLdw | cLdd | cStb | cSth | cStw | cStd | cLld | cLldw | cLst | cLstw
    | syTackArrive | syTackWait | syTackArriveWait =>
    exact keeps_onTile s _ _ (keeps_done s _)
  -- the two engines
  | mxOpen | mxMma | mxClose | mxSt | mxLa | mxLt | mxStt | mxTag | mxDrop | vxAdd | vxSub | vxMul | vxDiv | vxFma
    | vxMin | vxMax | vxSqrt | vxRcp | vxRsqrt | vxExp2 | vxLog2 | vxAbs | vxNeg | vxIadd | vxIsub | vxImul | vxAnd
    | vxOr | vxXor | vxShl | vxShr | vxCmp | vxSel | vxCvt | vxCut | vxUncut | vxLd | vxSt | vxLdt | vxLdc | vxWrt
    | vxWrc | vxBcast | vxBob | vxVred | vxTred | vxTamax | vxRdiff | vxGacc | vxGtacc | vxGdot | vxGrd | vxGcvt
    | vxGcomb | vxGdec | vxEvt | vxPick | vxUset | vxSrctx | vxTrk =>
    exact keeps_onTile s _ _ (keeps_done s _)
  -- the events of a tile
  | syWaitTimeout | realignTimeout | realignOverdue | decision | basteCheck | trapEntry | programStart | globalStall
    | dmaTransferStart | dmaTransferComplete | tileWake | wake | fence | tileRemap | status | signalResponse
    | mailboxResponse | lseResp =>
    exact keeps_onTile s _ _ (keeps_done s _)
  | segment m =>
    cases m with
    | net => exact keeps_done s _
    | noc => exact keeps_onTile s _ _ (keeps_done s _)
  | endRound m =>
    cases m with
    | net => exact keeps_done s _
    | noc => exact keeps_onTile s _ _ (keeps_done s _)
  -- the events of another unit
  | fifoResync | xingErr | itDue | itSlice | itOverdue | laserFail | laserLow | rxLos | scrub =>
    exact hmissing _ _
  | smbLogSlot =>
    rw [exec_smbLogSlot, execSmbLogSlot]
    split
    · exact keeps_done s _
    · exact keeps_done s _
  | _ => exact keeps_done s _

/-! ### What a host command that may blow a fuse leaves of them -/

section
variable {s : State} {P : Fuses → Prop}

theorem complete_fuses (s : State) (k : Nat) (e : List Byte) (st d : Nat) : (complete s k e st d).fuses = s.fuses := by
  unfold complete pushCpl
  split
  · rfl
  · rfl

theorem refuseFree_fuses (s : State) (k : Nat) (e : List Byte) : (refuseFree s k e).fuses = s.fuses :=
  complete_fuses _ _ _ _ _

theorem denyFree_fuses (s : State) (k : Nat) (e : List Byte) : (denyFree s k e).fuses = s.fuses :=
  complete_fuses _ _ _ _ _

theorem logReq_fuses (s : State) (sev code source : Nat) (payload : List Byte) :
    (logReq s sev code source payload).fuses = s.fuses :=
  fuses_of_loadPart (loadPart_logReq s sev code source payload)

theorem raiseF_fuses (s : State) (page : Nat) (f : Fld) : (raiseF s page f).fuses = s.fuses := by
  obtain ⟨_, _, _, heq⟩ := raiseBit_eq s page f.lo
  rw [raiseF, heq]

theorem sigFail_fuses (s : State) (obj : Nat) : (sigFail s obj).fuses = s.fuses :=
  (logReq_fuses _ _ _ _ _).trans (raiseF_fuses _ _ _)

theorem needMem_fuses {k a n : Nat} {e : List Byte} {body : State → State} (hs : P s.fuses)
    (hbody : ∀ x, x.fuses = s.fuses → P (body x).fuses) : P (needMem s k e a n body).fuses := by
  have hcheck : (lpCheck s a n .ok).2.fuses = s.fuses := fuses_of_loadPart (loadPart_lpCheck_ok s a n)
  unfold needMem
  dsimp only
  split
  · exact hbody _ hcheck
  · rwa [complete_fuses, hcheck]

theorem stateCmd_fuses {k : Nat} {e : List Byte} {body : State → Nat → List Byte → State} (hs : P s.fuses)
    (hbody : P (body s k e).fuses) : P (stateCmd body s k e).fuses := by
  unfold stateCmd
  split
  · rwa [complete_fuses]
  · exact hbody

/-- A fetch, and every completion of it but by the command itself, leaves the fuses. -/
theorem hostRun_fuses {q : QRef} {op : Nat} {body : State → Nat → List Byte → State} (hs : P s.fuses)
    (hbody : ∀ x k e, x.fuses = s.fuses → P (body x k e).fuses) : P (hostRun q op body s).fuses := by
  unfold hostRun
  dsimp only
  split
  · exact hs
  next h _ =>
  have hcheck : (lpCheck s (h.ring + 64 * (h.head % 2 ^ h.n)) 64 .ok).2.fuses = s.fuses :=
    fuses_of_loadPart (loadPart_lpCheck_ok s _ _)
  have hput : ∀ v, (queuePut (lpCheck s (h.ring + 64 * (h.head % 2 ^ h.n)) 64 .ok).2 (qref q) v).fuses = s.fuses := fun _ => hcheck
  have hdone : ∀ v e st d,
      P (complete (queuePut (lpCheck s (h.ring + 64 * (h.head % 2 ^ h.n)) 64 .ok).2 (qref q) v) (qref q) e st d).fuses := by
    intro v e st d
    rwa [complete_fuses, hput]
  split
  · exact hs
  split
  · exact hdone _ _ _ _
  split
  · exact hdone _ _ _ _
  split
  · exact hdone _ _ _ _
  split
  · exact hs
  split
  · exact hdone _ _ _ _
  split
  · exact hdone _ _ _ _
  · exact hbody _ _ _ (hput _)

end

/-! ### FW_EPOCH and LC_TRANSITION -/

/-- A command that may blow a fuse blows those that its run leaves blown. -/
theorem fusesGrow_doneFuses {s x s' : State} (hx : FusesGrow s.fuses x.fuses) (h : doneFuses s x = .next s') :
    FusesGrow s.fuses s'.fuses := by
  obtain ⟨hrange, hepoch, hcount, hvoided⟩ := hx
  cases h
  exact ⟨hrange, hepoch, hcount, hvoided⟩

/-- FW_EPOCH only raises LC_EPOCH, to at most 64 (R526). -/
theorem execFwEpoch_fusesGrow {s s' : State} {q : QRef} (h : execFwEpoch q s = .next s') : FusesGrow s.fuses s'.fuses := by
  refine fusesGrow_doneFuses (hostRun_fuses (.refl _) fun x k e hx => stateCmd_fuses (.of_eq hx) ?_) h
  dsimp only
  split
  · rw [refuseFree_fuses]
    exact .of_eq hx
  next hfits =>
    rw [complete_fuses]
    refine ⟨fun hr => ⟨?_, ?_⟩, ?_, ?_, ?_⟩
    · show arg e 0 ≤ 64; omega
    · show x.fuses.lcCount ≤ 16; rw [hx]; exact hr.2
    · show s.fuses.epoch ≤ arg e 0; rw [hx] at hfits; omega
    · show s.fuses.lcCount ≤ x.fuses.lcCount; rw [hx]
    · show _ → x.fuses.voided = true; rw [hx]; exact id

theorem drawEntropy_fuses (s : State) : (drawEntropy s).2.fuses = s.fuses := by
  unfold drawEntropy
  split
  · rfl
  · exact wr_fuses _ _ _ _

theorem drawWords_fuses (n : Nat) (s : State) : (drawWords n s).2.fuses = s.fuses := by
  induction n generalizing s with
  | zero => rfl
  | succ n ih => exact (ih _).trans (drawEntropy_fuses s)

theorem returnErase_fuses (s : State) : (returnErase s).fuses = s.fuses := by
  unfold returnErase
  rw [logReq_fuses, wr_fuses, wr_fuses]

theorem lcActions_fuses (s : State) (a b : Nat) : (lcActions s a b).fuses = s.fuses := by
  unfold lcActions
  split
  · rfl
  split
  · dsimp only
    rw [drawWords_fuses]
  split
  · exact returnErase_fuses s
  · rfl

/-- A transition that R528 lists leaves VOID whole, and leads to VOID or on from one of the four states below it. -/
theorem lcAuth_some {s : State} {b : Nat} {own ven auth : Bool} (h : lcAuth s (lcState s) b own ven = some auth) :
    s.fuses.voided = false ∧ (b = 4 ∨ s.fuses.lcCount ≤ 1 ∨ (lcState s = 2 ∧ b = 3) ∨ s.fuses.lcCount % 2 = 1) := by
  have hstate : lcState s = 4 ↔ s.fuses.voided = true := by
    unfold lcState
    cases s.fuses.voided <;> grind
  have hlow : lcState s ≤ 1 → s.fuses.lcCount ≤ 1 := by
    unfold lcState; grind
  have hodd : lcState s = 3 → s.fuses.lcCount % 2 = 1 := by
    unfold lcState; grind
  unfold lcAuth at h
  dsimp only at h
  split at h
  next hb =>
    split at h
    · cases h
    next h4 => exact ⟨by simpa [hstate] using h4, .inl hb⟩
  · have hnot : ∀ n, lcState s = n → n ≠ 4 → s.fuses.voided = false := by
      intro n hn h4
      rw [← hn, ne_eq, hstate] at h4
      simpa using h4
    split at h
    next ha _ => exact ⟨hnot 0 ha (by decide), .inr (.inl (hlow (by omega)))⟩
    next ha _ => exact ⟨hnot 1 ha (by decide), .inr (.inl (hlow (by omega)))⟩
    next ha _ => exact ⟨hnot 2 ha (by decide), .inr (.inr (.inl ⟨ha, rfl⟩))⟩
    next ha _ => exact ⟨hnot 3 ha (by decide), .inr (.inr (.inr (hodd ha)))⟩
    · cases h

/-- The fuse of a transition (R527, R528): VOID, or the next of LC_COUNT. -/
theorem lcBlow_fusesGrow {f : Fuses} {x : State} {a b : Nat} (hx : x.fuses = f)
    (hroom : b = 4 ∨ (f.lcCount ≤ 16 → f.lcCount < 16)) : FusesGrow f (lcBlow x a b).fuses := by
  subst hx
  rw [lcBlow, logReq_fuses]
  dsimp only
  split
  next => exact ⟨id, Nat.le_refl _, Nat.le_refl _, fun _ => rfl⟩
  next hb =>
    have hroom := hroom.resolve_left hb
    exact ⟨fun hr => ⟨hr.1, hroom hr.2⟩, Nat.le_refl _, Nat.le_succ _, id⟩

/-- LC_TRANSITION blows VOID, or the next fuse of LC_COUNT where one is left (R527, R528). -/
theorem execLcTransition_fusesGrow {s s' : State} {q : QRef} {o v : Option LcAuth}
    (h : execLcTransition q o v s = .next s') : FusesGrow s.fuses s'.fuses := by
  refine fusesGrow_doneFuses (hostRun_fuses (.refl _) fun x k e hx => stateCmd_fuses (.of_eq hx) ?_) h
  dsimp only
  split
  · rw [complete_fuses]
    exact .of_eq hx
  refine needMem_fuses (.of_eq hx) fun y hy => ?_
  have hkept : ∀ z : State, z.fuses = y.fuses → FusesGrow s.fuses z.fuses := fun z hz => .of_eq (hz.trans (hy.trans hx))
  have hrefused : ∀ b why, (lcRefused y k e b why).fuses = y.fuses := fun b why =>
    (complete_fuses _ _ _ _ _).trans ((logReq_fuses _ _ _ _ _).trans (raiseF_fuses _ _ _))
  split
  · exact hkept _ (hrefused _ _)
  split
  · exact hkept _ ((complete_fuses _ _ _ _ _).trans ((logReq_fuses _ _ _ _ _).trans (raiseF_fuses _ _ _)))
  · exact hkept _ ((complete_fuses _ _ _ _ _).trans ((logReq_fuses _ _ _ _ _).trans ((raiseF_fuses _ _ _).trans
      (sigFail_fuses _ _))))
  next hauth =>
    split
    · exact hkept _ (hrefused _ _)
    split
    · exact hkept _ (hrefused _ _)
    split
    · exact hkept _ (denyFree_fuses _ _ _)
    · next hfull _ =>
      rw [complete_fuses]
      refine lcBlow_fusesGrow ((lcActions_fuses _ _ _).trans (hy.trans hx)) ?_
      split at hauth
      · obtain ⟨-, hb | hlow | hreturn | hodd⟩ := lcAuth_some hauth
        · exact .inl hb
        · rw [hy, hx] at hlow; exact .inr fun _ => by omega
        · rw [hy, hx] at hfull; exact .inr fun _ => by omega
        · rw [hy, hx] at hodd; exact .inr fun _ => by omega
      · cases hauth

/-! ### Every step -/

theorem exec_fusesGrow {c : Instr} {s s' : State} (h : exec c s = .next s') : FusesGrow s.fuses s'.fuses := by
  by_cases hepoch : ∃ q, c = .fwEpoch q
  · obtain ⟨q, rfl⟩ := hepoch
    exact execFwEpoch_fusesGrow h
  by_cases hlc : ∃ q o v, c = .lcTransition q o v
  · obtain ⟨q, o, v, rfl⟩ := hlc
    exact execLcTransition_fusesGrow h
  · push Not at hepoch hlc
    obtain ⟨-, hfuses⟩ := exec_keeps_fuses c s hepoch hlc s' h
    exact .of_eq hfuses

theorem step_fusesGrow {s s' : State} (h : step s = .next s') : FusesGrow s.fuses s'.fuses := by
  unfold step at h
  split at h
  case h_1 =>
    obtain ⟨-, hfuses⟩ := keeps_done s (tick s) s' h
    exact .of_eq hfuses
  case h_2 c rest _ =>
    have hgrow : FusesGrow ({ s with pending := rest } : State).fuses s'.fuses := exec_fusesGrow h
    exact hgrow

/-- Settles O6: of the commands, FW_EPOCH and LC_TRANSITION alone reach the fuses, and both only blow them (`FusesGrow`). -/
theorem lifeCycleFusesStayInRange : Obligations.LifeCycleFusesStayInRange := by
  unfold Obligations.LifeCycleFusesStayInRange
  intro s s' hs hstep
  obtain ⟨hrange, hepoch, hcount, hvoided⟩ := step_fusesGrow hstep
  exact ⟨hrange hs, hepoch, hcount, hvoided⟩

end Sys2Proof.Machine
end

section
/-! PROOFS. Events of single units whose own record finds the logbook queue full, and counts the dropped one, of a severity that
the logbook does not have, in a register that the event has just written (R467). -/

namespace Sys2Proof.Machine

open Sys2Proof.Claims

/-! ### A fence whose record starts the tile again -/

/-- Tile 0 belongs to an open collective, and the record of its abort counts in the STATUS of tile 0. -/
def fencing : State :=
  { State.reset with cx := [{ loneGroup with tiles := [0] }], logQ := fullQueue (severityAt (tlPg 0) tl_STATUS_RUNNING) }

/-- The fence leaves FENCED alone in the word, and the count of the dropped record sets RUNNING, the bit below. -/
theorem fencing_running (s' : State) (h : exec (.fence 0) fencing = .next s') : rd s' (tlPg 0) tl_STATUS_RUNNING = 1 := by
  cases h
  decide +kernel

/-- Refutes O22: the fence of tile 0 in `fencing` aborts a collective, and the record of the abort adds 1 to the word of RUNNING. -/
theorem not_fencesAndLoss : ¬ Obligations.FencesAndLoss := by
  unfold Obligations.FencesAndLoss
  intro h
  obtain ⟨hfence, -⟩ := h
  obtain ⟨hopen, -⟩ := hfence fencing 0 (by decide)
  obtain ⟨s', hnext, -, hrunning, -⟩ := hopen (by decide)
  rw [fencing_running s' hnext] at hrunning
  exact absurd hrunning (by decide)

/-! ### A second with throttling -/

/-- DUTY is 4, and the record of a throttled second counts in LK_TIMEOUT of port 63. -/
def throttling : State :=
  wr { State.reset with logQ := fullQueue (severityAt (lkPg 63) lk_TIMEOUT) } thPg th_DUTY 4

theorem throttling_timeouts (s' : State) (h : exec .throttle throttling = .next s') : regW s' (lkPg 63) lk_TIMEOUT.off = 1 := by
  cases h
  decide

/-- Refutes O59: the record of a throttled second is stated to change no register but those of the log, and in `throttling` it
adds 1 to one of port 63. -/
theorem not_railsAndTemperatures : ¬ Obligations.RailsAndTemperatures := by
  unfold Obligations.RailsAndTemperatures
  intro h
  obtain ⟨-, htemp⟩ := h
  obtain ⟨-, -, -, -, hthrottle, -⟩ := htemp throttling
  obtain ⟨s', hnext, -, hothers, -⟩ := hthrottle (by decide)
  have hkept := hothers (lkPg 63) lk_TIMEOUT.off (by decide) (by decide)
  rw [throttling_timeouts s' hnext, show regW throttling (lkPg 63) lk_TIMEOUT.off = 0 from by decide] at hkept
  exact absurd hkept (by decide)

/-! ### Fault bits that the record of the fault carries away -/

/-- The page's fault bits below `b` are set, and the next record of a severity above 0 counts a dropped one in the page's
PG_FAULT: the fault bit `b` makes a row of ones, which the count carries away. -/
def faultCounting (page b : Nat) (s : State) : State :=
  wr { s with logQ := fullQueue (severityAt page faultWord) } page faultWord (2 ^ b - 1)

/-- A home region that does not hold the step that the recovery restarts from, which is drained. -/
def restarting : State :=
  faultCounting twPg tw_F_HOME_BAD.lo
    { State.reset with recovery := some { code := 0, drained := true, second := none, again := false, stuck := false } }

theorem restarting_faults (s' : State) (h : exec (.recoveryRestart 0) restarting = .next s') :
    regW s' twPg pg_FAULT.off = 0b1000 := by
  cases h
  decide +kernel

/-- Refutes O48: the restart of `restarting` is stated to leave HOME_BAD set, and the record of that fault adds 1 to PG_FAULT. -/
theorem not_recoveryAndDetach : ¬ Obligations.RecoveryAndDetach := by
  unfold Obligations.RecoveryAndDetach
  intro h
  obtain ⟨hrecovery, -⟩ := h
  obtain ⟨-, -, -, -, -, -, hrestart, -⟩ := hrecovery restarting
  obtain ⟨hheld, -⟩ := hrestart _ 0 rfl
  obtain ⟨-, hbad⟩ := hheld rfl rfl rfl rfl rfl (by decide +kernel) rfl
  obtain ⟨s', hnext, hflag, -⟩ := hbad (by decide +kernel)
  rw [Claims.Flag, restarting_faults s' hnext] at hflag
  exact absurd hflag (by decide)

/-- The field test of tile 0 is due at once, with a deferral limit of 0 hours. -/
def overdue : State :=
  faultCounting itPg it_F_OVERDUE.lo
    (wr { State.reset with it := [(0, { ItTile.reset with due := some 0 })] } itPg it_DEFER_H 0)

theorem overdue_faults (s' : State) (h : exec (.itOverdue 0) overdue = .next s') : regW s' itPg pg_FAULT.off = 0b100 := by
  cases h
  decide

/-- Refutes O49: the deferral of `overdue` is stated to leave OVERDUE set, and the record of that fault adds 1 to PG_FAULT. -/
theorem not_fieldTestsAndFailSafe : ¬ Obligations.FieldTestsAndFailSafe := by
  unfold Obligations.FieldTestsAndFailSafe
  intro h
  obtain ⟨htests, -⟩ := h
  obtain ⟨-, -, -, -, -, hoverdue⟩ := htests overdue 0 (by decide)
  obtain ⟨s', hnext, -, hflag, -⟩ := hoverdue 0 (by decide) (by decide) (by decide)
  rw [Claims.Flag, overdue_faults s' hnext] at hflag
  exact absurd hflag (by decide)

/-- Queue pair 5 of port 0 is ready and has been resent to seven times in a row. -/
def retrying : State :=
  faultCounting (enPg 0) en_F_QP_ERROR.lo (qpPut State.reset 0 5 { st := .ready, retries := 7, rnr := 0, rate := 0 })

theorem retrying_faults (s' : State) (h : exec (.transportRetry 0 5 false) retrying = .next s') :
    regW s' (enPg 0) pg_FAULT.off = 0b1000 := by
  cases h
  decide

/-- Refutes O53: the eighth retry of `retrying` is stated to leave QP_ERROR set, and the record of that fault adds 1 to
PG_FAULT. -/
theorem not_hostLinksAndRdma : ¬ Obligations.HostLinksAndRdma := by
  unfold Obligations.HostLinksAndRdma
  intro h
  obtain ⟨hlink, -⟩ := h
  obtain ⟨-, -, -, -, -, hretry⟩ := hlink retrying 0
  obtain ⟨-, -, heighth⟩ := hretry 5 false
  obtain ⟨s', hnext, -, hflag, -⟩ := heighth (by decide) (.inr (by decide))
  rw [Claims.Flag, show (0 : BitVec 2).toNat = 0 from rfl, retrying_faults s' hnext] at hflag
  exact absurd hflag (by decide)

/-- The management queue of port 0, and a queue without entries. -/
def mgmtQueue : QRef := { port := 0, mgmt := true, q := 0 }
def bareQueue : HostQ :=
  { ring := 0x100000, n := 4, cpl := 0, m := 4, hostKey := 0, dbKey := 0, tail := 0, head := 0, cplCount := 0, consumed := 0,
    stopped := false, cpls := [] }

/-- Port 0 is up, and its management queue, without entries, is connected. -/
def ringing : State :=
  faultCounting (enPg 0) en_F_DOORBELL_BAD.lo
    (wr (wr (wr (wr (queuePut (qpPut State.reset 0 0x10 { st := .ready, retries := 0, rnr := 0, rate := 0 })
      (qref mgmtQueue) (some bareQueue)) (enPg 0) en_ENABLE 1) (enPg 0) en_LINK_UP 1) (enPg 0) en_SENDING_LF 0) ckPg ck_ETH_LOCK 1)

/-- A TAIL of more than 32 bits. -/
def badTail32 : BitVec 64 := 0x100000000

theorem ringing_faults (s' : State) (h : exec (.doorbell mgmtQueue badTail32) ringing = .next s') :
    regW s' (enPg (qref mgmtQueue / 512)) pg_FAULT.off = 0b10000 := by
  cases h
  decide

/-- Refutes O54: the doorbell of `ringing` is stated to leave DOORBELL_BAD set, and the record of that fault adds 1 to PG_FAULT. -/
theorem not_hostQueuesAndRegions : ¬ Obligations.HostQueuesAndRegions := by
  unfold Obligations.HostQueuesAndRegions
  intro h
  obtain ⟨hqueues, -⟩ := h
  obtain ⟨-, hdoorbell, -⟩ := hqueues ringing
  obtain ⟨-, -, hbad, -⟩ := hdoorbell mgmtQueue bareQueue badTail32 (by decide) (by decide)
  obtain ⟨s', hnext, -, hflag, -⟩ := hbad (by decide) (.inl (by decide))
  rw [Claims.Flag, ringing_faults s' hnext] at hflag
  exact absurd hflag (by decide)

/-! ### A line that fails the test of B3 -/

/-- The module is in phase 3, and the record of a line that fails its test counts in the word of TRAINED of channel group 0. -/
def testingLines : State :=
  wr { State.reset with entered := true, logQ := fullQueue (severityAt (lpPg 0) lp_TRAINED) } mgPg mg_PHASE 3

/-- Every channel trains, and line 0 fails its test. -/
def lineFails : B3Obs := { trainFail := [], badLines := [0], badRows := [] }

theorem testingLines_trained (s' : State) (h : exec (.b3 0 lineFails) testingLines = .next s') :
    rd s' (lpPg 0) lp_TRAINED = 0 := by
  cases h
  decide +kernel

/-- Refutes O52: B3 of `testingLines` is stated to leave 0xFFFF in TRAINED, and the record of the line that fails adds 1 to its
word. -/
theorem not_bringUp : ¬ Obligations.BringUp := by
  unfold Obligations.BringUp
  intro h
  obtain ⟨-, hphases⟩ := h
  obtain ⟨-, hb3, -⟩ := hphases testingLines 0
  obtain ⟨htrained, -⟩ := hb3 (by decide) lineFails
  obtain ⟨s', hnext, hwords, -⟩ := htrained (fun _ _ => List.not_mem_nil)
  have hword := hwords 0 (by decide)
  rw [testingLines_trained s' hnext] at hword
  exact absurd hword (by decide)

end Sys2Proof.Machine
end

section
/-! PROOFS. A management queue with one entry; and a test package that no one signed, whose own records find the logbook queue
full (R430). -/

namespace Sys2Proof.Machine

open Sys2Proof.Claims

/-! ### A management queue with one entry -/

/-- An entry with opcode `op` and its arguments, and the queue of which it is the only one. -/
def soleEntry (op : Nat) (args : List Nat) : List Byte := padTo 64 (leBytes 8 op ++ args.flatMap (leBytes 8))
def soleQueue : HostQ := { bareQueue with tail := 1 }

/-- That entry lies in the ring of the management queue of port 0, which is served in phase 8. -/
def serving (op : Nat) (args : List Nat) : State :=
  wr { qpPut State.reset 0 0x10 { st := .ready, retries := 0, rnr := 0, rate := 0 } with
    entered := true, queues := [(qref mgmtQueue, some soleQueue)], lp := memWrite [] 0x100000 (soleEntry op args) } mgPg mg_PHASE 8

/-! ### A test package -/

/-- A package of no bytes, which no key signs. -/
def unsignedPkg : PkgInfo := { version := 0, signed := 0, key := [], sig := [] }

/-- IT_PACKAGE waits; the records of its two faults, SIG_FAIL and PKG_REFUSED, count dropped ones in PG_FAULT of the IT page, of
which bit 1 is set. -/
def refusing : State :=
  wr { serving 0x4D [0, 0] with logQ := fullQueue (severityAt itPg faultWord) } itPg faultWord 0b010

theorem entryRuns_refusing : EntryRuns refusing mgmtQueue 0x4D soleQueue (soleEntry 0x4D [0, 0]) := by
  refine ⟨?queue, ?served, ?running, ?waiting, ?entry, ?readable, ?order, ?opcode, ?known, ?free, ?clean, ?tailed⟩
  case readable => exact ⟨rfl, rfl⟩
  all_goals decide

theorem not_signedBy_nil (held msg sig : List Byte) : signedBy held [] msg sig = false := by
  have hlen : pssVerify [] msg sig = false := by rw [pssVerify]; rfl
  rw [signedBy, hlen, Bool.and_false]

/-- The record of SIG_FAIL makes the word 0b011, PKG_REFUSED makes it 0b111, and its record carries the row of ones away. -/
theorem refusing_faults (s' : State) (h : exec (.itPackage mgmtQueue unsignedPkg) refusing = .next s') :
    regW s' itPg pg_FAULT.off = 0b1000 := by
  cases h
  decide +kernel

/-- Refutes O56: the package of `refusing` is stated to leave PKG_REFUSED set, and the records of the two faults add 2 to
PG_FAULT. -/
theorem not_signedObjectsAndLifeCycle : ¬ Obligations.SignedObjectsAndLifeCycle := by
  unfold Obligations.SignedObjectsAndLifeCycle
  intro h
  obtain ⟨hcommands, -⟩ := h
  obtain ⟨hpackage, -⟩ := hcommands refusing mgmtQueue soleQueue (soleEntry 0x4D [0, 0])
  obtain ⟨-, -, hgood⟩ := hpackage entryRuns_refusing (by decide) unsignedPkg
  obtain ⟨-, -, hunsigned⟩ := hgood (by decide) ⟨rfl, rfl⟩
  obtain ⟨d, s', hnext, -, -, hflag, -⟩ := hunsigned (not_signedBy_nil _ _ _)
  rw [Claims.Flag, refusing_faults s' hnext] at hflag
  exact absurd hflag (by decide)

end Sys2Proof.Machine
end

section
/-! PROOFS. A manifest that the owner signed, accepted by a module whose record of a lost path counts in a port's LK_CFG (R503,
R523). The key is made from the signature: where x and x² leave the same remainder, every power of x opens to x. -/

namespace Sys2Proof.Machine

open Sys2Proof.Claims

/-! ### A manifest and its signature -/

/-- A manifest without bolts, of one module, which is a spare: this one, by its DIE_ID 0 and its grade. -/
def spareManifest : List Byte :=
  [0x4A, 0x54, 0x54, 0x4F, 0x50, 0x4F, 0x4D, 0x46, 1, 0, 0x41] ++ leBytes 13 0 ++ [1] ++ leBytes 5 0 ++ [1] ++ leBytes 225 0
    ++ leBytes 12 0 ++ [0xFF, 0xFF] ++ leBytes 18 0

/-- The encoded message of RFC 8017 for a salt of 64 bytes. -/
def pssEncode (msg salt : List Byte) : List Byte :=
  let h := digestBytes (List.replicate 8 0 ++ digestBytes msg ++ salt)
  let db := List.zipWith (· ^^^ ·) (List.replicate 382 0 ++ 1 :: salt) (pssMask h)
  ((db.headD 0 &&& 0x7F#8) :: db.tail) ++ h ++ [0xBC]

/-- The encoded message is its own signature under a key that is three times its number: with this salt the number leaves 1
modulo 3, and so its square leaves it modulo the key. -/
def spareSig : List Byte := pssEncode spareManifest (leBytes 64 15)
def spareKey : List Byte := (leBytes 512 (3 * beNum spareSig)).reverse

theorem spareKey_verifies : pssVerify spareKey spareManifest spareSig = true := by decide +kernel

/-- The bytes that the owner presents. -/
def spareBytes : List Byte := spareManifest ++ spareSig

theorem length_spareManifest : spareManifest.length = 288 := by decide +kernel
theorem length_spareSig : spareSig.length = 512 := by decide +kernel

theorem length_spareBytes : spareBytes.length = 800 := by
  rw [spareBytes, List.length_append, length_spareManifest, length_spareSig]

theorem mfLen_spareBytes : mfLen spareBytes = 288 := by decide +kernel

/-! ### The module that accepts it -/

/-- The whole register LK_CFG. -/
def cfgWord : Fld := { lk_CFG_ENABLE with lo := 0 }

/-- MANIFEST waits, with those bytes at address 0 and their key installed. Port 63 is ACTIVE and enabled, with every bit of its
LK_CFG but FOREIGN set; the record of its path counts in that register. -/
def accepting : State :=
  let s := wr (wr (serving 0x45 [0, 800]) (lkPg 63) lk_STATUS_STATE stActive) (lkPg 63) cfgWord (2 ^ 31 + (2 ^ 30 - 1))
  { s with logQ := fullQueue (severityAt (lkPg 63) cfgWord), lp := memWrite (serving 0x45 [0, 800]).lp 0 spareBytes,
           sec := { s.sec with owner := some { key := spareKey, counter := 0 } } }

theorem accepting_lp : accepting.lp = memWrite (serving 0x45 [0, 800]).lp 0 spareBytes := by
  rw [accepting]

theorem memRead_accepting_outside {a n : Nat} (ha : 800 ≤ a) :
    memRead accepting.lp a n = memRead (serving 0x45 [0, 800]).lp a n := by
  rw [accepting_lp, memRead_memWrite_disjoint _ _ _ _ _ (.inr (by rw [length_spareBytes]; omega))]

theorem entryRuns_accepting : EntryRuns accepting mgmtQueue 0x45 soleQueue (soleEntry 0x45 [0, 800]) := by
  refine ⟨?queue, ?served, ?running, ?waiting, ?entry, ?readable, ?order, ?opcode, ?known, ?free, ?clean, ?tailed⟩
  case readable => exact ⟨rfl, rfl⟩
  case entry =>
    rw [ringEntry, memRead_accepting_outside (by decide)]
    decide
  all_goals decide

theorem manSigned_accepting : manSigned (taken accepting mgmtQueue soleQueue) spareBytes spareKey = true := by
  have howner : (taken accepting mgmtQueue soleQueue).sec.owner = some { key := spareKey, counter := 0 } := rfl
  have hhash : ownerHash (taken accepting mgmtQueue soleQueue) = digestBytes spareKey := by rw [ownerHash, howner]
  rw [manSigned, hhash, mfLen_spareBytes, spareBytes, List.take_left' length_spareManifest, List.drop_left' length_spareManifest,
    List.take_of_length_le length_spareSig.le, signedBy, spareKey_verifies, beq_self_eq_true, Bool.and_self]

theorem manReason_accepting : manReason (taken accepting mgmtQueue soleQueue) spareBytes spareKey = 0 := by
  have hmagic : mfMagicOk spareBytes = true := by decide +kernel
  unfold manReason
  rw [if_neg (by decide), if_neg (not_not.mpr hmagic), if_neg (not_not.mpr manSigned_accepting)]
  decide +kernel

theorem memRead_accepting : memRead accepting.lp 0 800 = spareBytes := by
  rw [accepting_lp, ← length_spareBytes, memRead_memWrite_same]

/-- The disabled port leaves 2^30 - 1 in LK_CFG, and the count of the dropped record sets the bit above, FOREIGN. -/
theorem acceptMan_accepting : rd (acceptMan (taken accepting mgmtQueue soleQueue) spareBytes) (lkPg 63) lk_CFG_FOREIGN = 1 := by
  decide +kernel

theorem complete_regs (s : State) (k : Nat) (e : List Byte) (st d : Nat) : (complete s k e st d).regs = s.regs := by
  unfold complete pushCpl
  split
  · rfl
  · rfl

/-- The manifest is read, and its check runs at once. -/
theorem exec_manifest_accepting : ∃ x, exec (.manifest mgmtQueue spareKey) accepting = .next (settle accepting x)
    ∧ x.regs = (acceptMan (taken accepting mgmtQueue soleQueue) spareBytes).regs := by
  have hidle : (taken accepting mgmtQueue soleQueue).mgmtBusy = none := by decide
  have ha : arg (soleEntry 0x45 [0, 800]) 0 = 0 := by decide
  have hn : arg (soleEntry 0x45 [0, 800]) 1 = 800 := by decide
  have hbytes : memRead (taken accepting mgmtQueue soleQueue).lp 0 800 = spareBytes := by
    rw [taken_lp, memRead_accepting]
  have hphase : 8 ≤ rd (taken accepting mgmtQueue soleQueue) mgPg mg_PHASE := by decide
  have hsig : manSig (taken accepting mgmtQueue soleQueue) spareBytes spareKey = taken accepting mgmtQueue soleQueue := by
    rw [manSig, if_neg (fun hbad => hbad.2.2 manSigned_accepting)]
  refine ⟨complete (acceptMan (taken accepting mgmtQueue soleQueue) spareBytes) (qref mgmtQueue) (soleEntry 0x45 [0, 800]) csOK 0,
    ?_, complete_regs _ _ _ _ _⟩
  rw [exec_manifest, execManifest, hostCmd_runs _ _ _ _ _ _ entryRuns_accepting, stateCmd, hidle]
  dsimp only
  rw [ha, hn, if_neg (by decide), needMem_good ⟨rfl, rfl⟩, show min 800 _ = 800 from Nat.min_eq_left (by norm_num),
    hbytes, if_pos (.inr (.inr hphase)), checkMan]
  dsimp only
  rw [manReason_accepting, if_pos rfl, hsig, if_pos rfl]

theorem accepting_foreign (s' : State) (h : exec (.manifest mgmtQueue spareKey) accepting = .next s') :
    rd s' (lkPg 63) lk_CFG_FOREIGN = 1 := by
  obtain ⟨x, hexec, hregs⟩ := exec_manifest_accepting
  rw [hexec] at h
  cases h
  rw [rd_settle, rd_congr hregs, acceptMan_accepting]

/-- Refutes O47: the manifest of `accepting` names no port FOREIGN, and the record of the path that port 63 had adds 1 to its
LK_CFG. -/
theorem not_firmwareAndManifests : ¬ Obligations.FirmwareAndManifests := by
  unfold Obligations.FirmwareAndManifests
  intro h
  obtain ⟨-, hmanifest⟩ := h
  obtain ⟨-, -, hread⟩ := hmanifest accepting mgmtQueue soleQueue (soleEntry 0x45 [0, 800]) spareKey entryRuns_accepting (by decide)
  have ha : arg (soleEntry 0x45 [0, 800]) 0 = 0 := by decide
  have hn : arg (soleEntry 0x45 [0, 800]) 1 = 800 := by decide
  rw [ha, hn, memRead_accepting] at hread
  obtain ⟨hcheck, -⟩ := hread (by decide) ⟨rfl, rfl⟩ (by decide)
  obtain ⟨haccepted, -⟩ := hcheck (.inl (by decide))
  obtain ⟨s', hnext, -, -, -, -, hforeign, -⟩ := haccepted manReason_accepting
  have hport := hforeign 63 (by decide)
  rw [accepting_foreign s' hnext, show modForeign spareBytes (entryOf accepting spareBytes) 63 = false from by decide +kernel] at hport
  exact absurd hport (by decide)

end Sys2Proof.Machine
end

section
/-! PROOFS. The logbook and its page (R462 to R472): what a CLEAR, an acceptance and a mirror leave, the copies of the operating
time in flash, and the slot that a read latches. -/

namespace Sys2Proof.Machine

open Sys2Proof.Claims

/-! ### Registers outside a list -/

section
variable {s x y : State} {l : List (Nat × Nat)}

theorem otherRegs_refl (s : State) (l : List (Nat × Nat)) : OtherRegs s s l := fun _ _ _ _ => rfl

/-- A store to a register of the list. -/
theorem otherRegs_wri (h : OtherRegs s x l) (p : Nat) (f : Fld) (i v : Nat) (hreg : (p, f.off + f.stride * i) ∈ l)
    (hf : f.off + f.stride * i < 0x1000) : OtherRegs s (wri x p f i v) l := fun page off hl hoff => by
  have hne : page * 0x1000 + off ≠ p * 0x1000 + (f.off + f.stride * i) := by
    intro heq
    obtain ⟨rfl, rfl⟩ : page = p ∧ off = f.off + f.stride * i := by omega
    exact hl hreg
  exact (regW_setW_ne _ _ _ _ _ _ hne).trans (h page off hl hoff)

theorem otherRegs_congr (h : OtherRegs s x l) (hregs : y.regs = x.regs) : OtherRegs s y l := fun page off hl hoff => by
  rw [regW, hregs]
  exact h page off hl hoff

end

/-! ### SEQ -/

theorem seqAfter_lt (h : Nat) : seqAfter h < 2 ^ 32 := by
  unfold seqAfter
  split
  · decide
  · exact Nat.mod_lt _ (by decide)

theorem seqAfter_ne_zero (h : Nat) : seqAfter h ≠ 0 := by
  unfold seqAfter
  split
  · decide
  · assumption

/-! ### CLEAR -/

/-- The counters of dropped records are zeroed in turn. -/
def dropsCleared (l : List Nat) (s : State) : State := forEach l (fun v s => wri s evPg ev_DROP v 0) s

theorem rdi_dropsCleared {l : List Nat} {s : State} {v : Nat} (h : v ∈ l ∨ rdi s evPg ev_DROP v = 0) :
    rdi (dropsCleared l s) evPg ev_DROP v = 0 := by
  induction l generalizing s with
  | nil => exact h.resolve_left List.not_mem_nil
  | cons u l ih =>
    refine ih ?_
    by_cases huv : v = u
    · exact .inr (by rw [huv, rdi_wri_same _ _ _ _ _ (by decide)]; rfl)
    · refine h.imp (fun hmem => (List.mem_cons.mp hmem).resolve_left huv) fun hzero => ?_
      rw [rdi_wri_ne _ _ _ _ _ _ _ _ (by simp only [ev_DROP]; omega), hzero]

theorem dropsCleared_eq (l : List Nat) (s : State) : ∃ r, dropsCleared l s = { s with regs := r } := by
  refine forEach_induction (P := fun x => ∃ r, x = { s with regs := r }) (fun v x hx => ?_) l ⟨s.regs, rfl⟩
  obtain ⟨r, rfl⟩ := hx
  exact ⟨_, rfl⟩

/-- The registers that a CLEAR writes. -/
def clearRegs : List (Nat × Nat) :=
  [(evPg, ev_QDROP.off), (evPg, ev_HEAD_SEQ.off), (evPg, pg_PG_SEQ.off)] ++ (List.range 5).map (fun v => (evPg, ev_DROP.off + 4 * v))

theorem otherRegs_dropsCleared {s x : State} {l : List Nat} (hl : ∀ v ∈ l, v < 5) (h : OtherRegs s x clearRegs) :
    OtherRegs s (dropsCleared l x) clearRegs := by
  induction l generalizing x with
  | nil => exact h
  | cons u l ih =>
    have hu := hl u (List.mem_cons_self ..)
    refine ih (fun v hv => hl v (List.mem_cons_of_mem _ hv)) (otherRegs_wri h _ _ _ _ ?_ (by simp only [ev_DROP]; omega))
    exact List.mem_append_right _ (List.mem_map.mpr ⟨u, List.mem_range.mpr hu, rfl⟩)

/-- The ring and the drop counters are empty, and so is QDROP when the first record after a CLEAR is accepted, which is
LOG_CLEARED with the head before it. -/
def emptied (s : State) : State := dropsCleared (List.range 5) { s with ring := [] }
def cleared (s : State) : State := wr (emptied s) evPg ev_QDROP 0
def clearedReq (s : State) : LogReq :=
  { sev := 0, code := 0x0810, source := evPg, payload := b4 (rd s evPg ev_HEAD_SEQ), cycle := aonCycle (emptied s) }

theorem evClearOp_eq (s : State) : evClearOp s = acceptRec (cleared s) (clearedReq s) := rfl

theorem rd_countWrite (s : State) (page p : Nat) (f : Fld) (h : p * 0x1000 + f.off ≠ page * 0x1000 + pg_PG_SEQ.off) :
    rd (countWrite s page) p f = rd s p f := rd_wr_ne _ _ _ _ _ _ h

theorem answers_evClear {s : State} (h : locked s evPg = false) : Answers .evClear s (evClearOp (countWrite s evPg)) := by
  rw [Answers, exec_evClear, execEvClear, actWrite, if_neg (by rw [h]; exact Bool.false_ne_true), done]

/-- The record of a request that the EV page stamps now (R463, R466). -/
def recOf (s : State) (q : LogReq) : LogRec :=
  { seq := seqAfter (rd s evPg ev_HEAD_SEQ), sec := rd s evPg ev_SEC, subsec := rd s evPg ev_SUBSEC, pcycle := rd s evPg ev_PCYCLE,
    flags := q.sev + 8 * rd s evPg ev_CAL + 16 * rd s evPg ev_UNSET, code := q.code, source := q.source, payload := q.payload }

theorem recOf_fields (s : State) (q : LogReq) : (recOf s q).seq = seqAfter (rd s evPg ev_HEAD_SEQ) ∧ (recOf s q).sev = q.sev % 8
    ∧ (recOf s q).code = q.code ∧ (recOf s q).payload = q.payload := by
  refine ⟨rfl, ?_, rfl, rfl⟩
  show (q.sev + 8 * rd s evPg ev_CAL + 16 * rd s evPg ev_UNSET) % 8 = q.sev % 8
  omega

/-- The ring with the record in its slot. -/
def ringWith (s : State) (q : LogReq) : SMap (Option LogRec) :=
  smPut (fun _ => none) s.ring (seqAfter (rd s evPg ev_HEAD_SEQ) % 2048) (some (recOf s q))

/-- The slot of the next record holds a more severe one (R468). -/
def slotHeld (s : State) (q : LogReq) : Bool :=
  match smGet (fun _ => none) s.ring (seqAfter (rd s evPg ev_HEAD_SEQ) % 2048) with
  | some o => decide (q.sev < o.sev)
  | none => false

/-- The record of `q` in the state `s` takes its SEQ and, from ERROR on, waits for the mirror (R469, R470). -/
def sequenced (s : State) (q : LogReq) (x : State) : State :=
  let y := wr x evPg ev_HEAD_SEQ (seqAfter (rd s evPg ev_HEAD_SEQ))
  if 3 ≤ q.sev then { y with mirrorQ := y.mirrorQ ++ [recOf s q] } else y

theorem acceptRec_eq (s : State) (q : LogReq) : acceptRec s q = sequenced s q
    (if slotHeld s q then raiseF (inci s evPg ev_DROP q.sev 1) evPg ev_F_DROP else { s with ring := ringWith s q }) := rfl

theorem sequenced_regs (s x : State) (q : LogReq) :
    (sequenced s q x).regs = (wr x evPg ev_HEAD_SEQ (seqAfter (rd s evPg ev_HEAD_SEQ))).regs := by
  unfold sequenced
  split
  · rfl
  · rfl

theorem sequenced_frame (s x : State) (q : LogReq) : (sequenced s q x).ring = x.ring ∧ (sequenced s q x).logQ = x.logQ
    ∧ (sequenced s q x).mirrorQ = (if 3 ≤ q.sev then x.mirrorQ ++ [recOf s q] else x.mirrorQ)
    ∧ (sequenced s q x).mirrorPos = x.mirrorPos ∧ (sequenced s q x).timeNext = x.timeNext
    ∧ memParts (sequenced s q x) = memParts x := by
  unfold sequenced
  split
  · exact ⟨rfl, rfl, rfl, rfl, rfl, rfl⟩
  · exact ⟨rfl, rfl, rfl, rfl, rfl, rfl⟩

/-- The ring reaches no register, and a record that is accepted no other field of the state. -/
theorem wr_regs_with_ring (x : State) (r : SMap (Option LogRec)) (page : Nat) (f : Fld) (v : Nat) :
    (wr { x with ring := r } page f v).regs = (wr x page f v).regs := rfl

theorem sequenced_with_ring (s x : State) (r : SMap (Option LogRec)) (q : LogReq) :
    (sequenced s q { x with ring := r }).ring = r ∧ (sequenced s q { x with ring := r }).logQ = x.logQ
      ∧ (sequenced s q { x with ring := r }).mirrorQ = (if 3 ≤ q.sev then x.mirrorQ ++ [recOf s q] else x.mirrorQ)
      ∧ (sequenced s q { x with ring := r }).mirrorPos = x.mirrorPos
      ∧ (sequenced s q { x with ring := r }).timeNext = x.timeNext
      ∧ memParts (sequenced s q { x with ring := r }) = memParts x := sequenced_frame s { x with ring := r } q

theorem rd_headSeq_sequenced (s x : State) (q : LogReq) :
    rd (sequenced s q x) evPg ev_HEAD_SEQ = seqAfter (rd s evPg ev_HEAD_SEQ) :=
  (rd_congr (sequenced_regs s x q) _ _).trans (rd_wr_fits x evPg ev_HEAD_SEQ _ (by decide) (seqAfter_lt _))

theorem cleared_frame (s : State) : (cleared s).ring = [] ∧ (cleared s).logQ = s.logQ ∧ (cleared s).mirrorQ = s.mirrorQ
    ∧ (cleared s).mirrorPos = s.mirrorPos ∧ (cleared s).timeNext = s.timeNext ∧ memParts (cleared s) = memParts s := by
  obtain ⟨r, hr⟩ := dropsCleared_eq (List.range 5) { s with ring := [] }
  rw [cleared, emptied, hr]
  exact ⟨rfl, rfl, rfl, rfl, rfl, rfl⟩

theorem otherRegs_cleared (s : State) : OtherRegs s (cleared s) clearRegs := by
  have hring : OtherRegs s { s with ring := [] } clearRegs := otherRegs_congr (otherRegs_refl s _) rfl
  exact otherRegs_wri (otherRegs_dropsCleared (fun v hv => List.mem_range.mp hv) hring) _ _ _ _ (by decide) (by decide)

theorem rdi_cleared (s : State) {v : Nat} (hv : v < 5) : rdi (cleared s) evPg ev_DROP v = 0 := by
  rw [cleared, wr, rdi_wri_ne _ _ _ _ _ _ _ _ (by simp only [ev_DROP, ev_QDROP]; omega)]
  exact rdi_dropsCleared (.inl (List.mem_range.mpr hv))

theorem rd_head_dropsCleared {l : List Nat} (s : State) (hl : ∀ v ∈ l, v < 5) :
    rd (dropsCleared l s) evPg ev_HEAD_SEQ = rd s evPg ev_HEAD_SEQ := by
  induction l generalizing s with
  | nil => rfl
  | cons u l ih =>
    have hu := hl u (List.mem_cons_self ..)
    refine (ih _ fun v hv => hl v (List.mem_cons_of_mem _ hv)).trans (rdi_wri_ne _ _ _ _ _ _ _ _ ?_)
    simp only [ev_DROP, ev_HEAD_SEQ]
    omega

theorem rd_head_cleared (s : State) : rd (cleared s) evPg ev_HEAD_SEQ = rd s evPg ev_HEAD_SEQ := by
  rw [cleared, rd_wr_ne _ _ _ _ _ _ (by decide), emptied, rd_head_dropsCleared _ fun v hv => List.mem_range.mp hv]
  exact rd_congr rfl _ _

/-- The ring of a CLEAR is empty, and so its own record takes its slot. -/
theorem acceptRec_cleared (s : State) : acceptRec (cleared s) (clearedReq s)
    = sequenced (cleared s) (clearedReq s) { cleared s with ring := ringWith (cleared s) (clearedReq s) } := by
  obtain ⟨hring, -⟩ := cleared_frame s
  have hfree : slotHeld (cleared s) (clearedReq s) = false := by rw [slotHeld, hring]; rfl
  rw [acceptRec_eq, hfree, if_neg Bool.false_ne_true]

theorem evClearOp_regs (s : State) :
    (evClearOp s).regs = (wr (cleared s) evPg ev_HEAD_SEQ (seqAfter (rd s evPg ev_HEAD_SEQ))).regs := by
  rw [evClearOp_eq, acceptRec_cleared, sequenced_regs, rd_head_cleared, wr_regs_with_ring]

theorem evClearOp_ring (s : State) (i : Nat) : smGet (fun _ => none) (evClearOp s).ring i
    = if i = seqAfter (rd s evPg ev_HEAD_SEQ) % 2048 then some (recOf (cleared s) (clearedReq s)) else none := by
  obtain ⟨hring, -⟩ := cleared_frame s
  obtain ⟨hring', -⟩ := sequenced_with_ring (cleared s) (cleared s) (ringWith (cleared s) (clearedReq s)) (clearedReq s)
  rw [evClearOp_eq, acceptRec_cleared, hring', ringWith, hring, rd_head_cleared, smGet_smPut]
  rfl

theorem evClearOp_frame (s : State) : (evClearOp s).timeNext = s.timeNext ∧ (evClearOp s).mirrorQ = s.mirrorQ
    ∧ (evClearOp s).mirrorPos = s.mirrorPos ∧ (evClearOp s).logQ = s.logQ ∧ memParts (evClearOp s) = memParts s := by
  obtain ⟨-, hlogQ, hmirrorQ, hmirrorPos, hnext, hmem⟩ := cleared_frame s
  obtain ⟨-, hlogQ', hmirrorQ', hmirrorPos', hnext', hmem'⟩ :=
    sequenced_with_ring (cleared s) (cleared s) (ringWith (cleared s) (clearedReq s)) (clearedReq s)
  rw [evClearOp_eq, acceptRec_cleared]
  exact ⟨hnext'.trans hnext, hmirrorQ'.trans hmirrorQ, hmirrorPos'.trans hmirrorPos, hlogQ'.trans hlogQ, hmem'.trans hmem⟩

theorem otherRegs_evClearOp (s : State) : OtherRegs s (evClearOp s) clearRegs :=
  otherRegs_congr (otherRegs_wri (otherRegs_cleared s) evPg ev_HEAD_SEQ 0 _ (by decide) (by decide)) (evClearOp_regs s)

theorem recOf_clearedReq (s : State) : (recOf (cleared s) (clearedReq s)).seq = seqAfter (rd s evPg ev_HEAD_SEQ)
    ∧ (recOf (cleared s) (clearedReq s)).sev = 0 ∧ (recOf (cleared s) (clearedReq s)).code = 0x0810
    ∧ (recOf (cleared s) (clearedReq s)).payload = b4 (rd s evPg ev_HEAD_SEQ) := by
  obtain ⟨hseq, hsev, hcode, hpayload⟩ := recOf_fields (cleared s) (clearedReq s)
  rw [rd_head_cleared] at hseq
  exact ⟨hseq, hsev, hcode, hpayload⟩

theorem rd_evClearOp_qdrop (s : State) : rd (evClearOp s) evPg ev_QDROP = 0 := by
  rw [rd_congr (evClearOp_regs s), rd_wr_ne _ _ _ _ _ _ (by decide)]
  exact rd_wr_same _ _ _ _ (by decide)

theorem rdi_evClearOp_drop (s : State) {v : Nat} (hv : v < 5) : rdi (evClearOp s) evPg ev_DROP v = 0 := by
  refine (rdi_congr (evClearOp_regs s) _ _ _).trans ((rdi_wri_ne _ _ _ _ _ _ _ _ ?_).trans (rdi_cleared s hv))
  simp only [ev_DROP, ev_HEAD_SEQ]
  omega

theorem rd_evClearOp_head (s : State) : rd (evClearOp s) evPg ev_HEAD_SEQ = seqAfter (rd s evPg ev_HEAD_SEQ) := by
  rw [rd_congr (evClearOp_regs s), rd_wr_fits _ _ _ _ (by decide) (seqAfter_lt _)]

/-- Settles O51: LOG_CLEARED takes the first slot of the empty ring (`acceptRec_cleared`), and every store of the clear and of the
acceptance is to a register of `clearRegs`. -/
theorem clearedLogStartsAgain : Obligations.ClearedLogStartsAgain := by
  unfold Obligations.ClearedLogStartsAgain
  intro s hopen
  refine gives_of_answers (answers_evClear hopen) ?_
  have hcount : OtherRegs s (countWrite s evPg) clearRegs :=
    otherRegs_wri (otherRegs_refl s _) _ _ _ _ (by decide) (by decide)
  have hothers : OtherRegs s (evClearOp (countWrite s evPg)) clearRegs := fun page off hl hoff =>
    (otherRegs_evClearOp _ page off hl hoff).trans (hcount page off hl hoff)
  have hhead := rd_evClearOp_head (countWrite s evPg)
  have hring := evClearOp_ring (countWrite s evPg)
  have hrec := recOf_clearedReq (countWrite s evPg)
  rw [rd_countWrite s evPg evPg ev_HEAD_SEQ (by decide)] at hhead hrec
  simp only [rd_countWrite s evPg evPg ev_HEAD_SEQ (by decide)] at hring
  have hqdrop := rd_evClearOp_qdrop (countWrite s evPg)
  have hdrops := fun v hv => rdi_evClearOp_drop (countWrite s evPg) (v := v) hv
  obtain ⟨hseq, hsev, hcode, hpayload⟩ := hrec
  obtain ⟨hnext, hmirrorQ, hmirrorPos, hlogQ, hmem⟩ := evClearOp_frame (countWrite s evPg)
  refine ⟨(rd_settle _ _ _ _).trans hqdrop, fun v hv => (rdi_congr (settle_regs _ _) _ _ _).trans (hdrops v hv),
    ⟨_, hseq, hsev, hcode, hpayload, fun i => ?_⟩, (rd_settle _ _ _ _).trans hhead, otherRegs_congr hothers (settle_regs _ _),
    (settle_timeNext _ _).trans hnext, (settle_mirrorQ _ _).trans hmirrorQ, (settle_mirrorPos _ _).trans hmirrorPos,
    (settle_logQ _ _).trans hlogQ, sameMem_of_parts ((memParts_settle _ _).trans hmem)⟩
  rw [settle_ring]
  exact hring i

end Sys2Proof.Machine
end

section
/-! PROOFS. The acceptance of a record, the mirror, the copies of the operating time and the log registers (R463 to R472). -/

namespace Sys2Proof.Machine

open Sys2Proof.Claims

/-! ### Acceptance -/

theorem answers_recordAcceptance_idle {s : State} (h : s.evLost = true ∨ s.mirrorHold = true ∨ s.logQ = []) :
    Answers .recordAcceptance s s := by
  rw [Answers, exec_recordAcceptance, execRecordAcceptance, done]
  by_cases hheld : s.evLost = true ∨ s.mirrorHold = true
  · rw [if_pos hheld]
  · obtain ⟨hlost, hhold⟩ := not_or.mp hheld
    rw [if_neg hheld, (h.resolve_left hlost).resolve_left hhold]

/-- The state without its oldest request. -/
def requestTaken (s : State) (rs : List LogReq) : State := { s with logQ := rs }

theorem answers_recordAcceptance {s : State} {r : LogReq} {rs : List LogReq} (hlost : s.evLost = false)
    (hhold : s.mirrorHold = false) (hlog : s.logQ = r :: rs) :
    Answers .recordAcceptance s (acceptRec (requestTaken s rs) r) := by
  rw [Answers, exec_recordAcceptance, execRecordAcceptance, if_neg (by rw [hlost, hhold]; decide), hlog]
  rfl

/-- The state in which a record whose slot holds a more severe one takes its SEQ (R468). -/
def dropCounted (s : State) (q : LogReq) : State := raiseF (inci s evPg ev_DROP q.sev 1) evPg ev_F_DROP

theorem dropCounted_eq (s : State) (q : LogReq) : ∃ r i h, dropCounted s q = { s with regs := r, irqs := i, hostIrqs := h } := by
  obtain ⟨r, hr⟩ := inci_eq s evPg ev_DROP q.sev 1
  obtain ⟨r', i, h, hbit⟩ := raiseBit_eq { s with regs := r } evPg ev_F_DROP.lo
  exact ⟨r', i, h, by rw [dropCounted, hr, raiseF, hbit]⟩

/-- The state in which a record takes its SEQ: its slot is written, or it is counted as dropped. -/
def slotted (s : State) (q : LogReq) : State := if slotHeld s q then dropCounted s q else { s with ring := ringWith s q }

theorem slotted_frame (s : State) (q : LogReq) : (slotted s q).logQ = s.logQ ∧ (slotted s q).mirrorQ = s.mirrorQ
    ∧ (slotted s q).ring = (if slotHeld s q then s.ring else ringWith s q) ∧ memParts (slotted s q) = memParts s := by
  unfold slotted
  split
  · obtain ⟨r, i, h, hdrop⟩ := dropCounted_eq s q
    rw [hdrop]
    exact ⟨rfl, rfl, rfl, rfl⟩
  · exact ⟨rfl, rfl, rfl, rfl⟩

theorem slotHeld_iff (s : State) (q : LogReq) : slotHeld s q = true
    ↔ ∃ o, smGet (fun _ => none) s.ring (seqAfter (rd s evPg ev_HEAD_SEQ) % 2048) = some o ∧ q.sev < o.sev := by
  unfold slotHeld
  split
  next o ho => simp [ho]
  next hnone => simp [hnone]

/-- The slot of an accepted record, and the other slots of the ring. -/
theorem ring_acceptRec (s : State) (q : LogReq) : (acceptRec s q).ring = if slotHeld s q then s.ring else ringWith s q := by
  obtain ⟨hring, -⟩ := sequenced_frame s (slotted s q) q
  obtain ⟨-, -, hslot, -⟩ := slotted_frame s q
  exact hring.trans hslot

theorem acceptRec_frame (s : State) (q : LogReq) : (acceptRec s q).logQ = s.logQ
    ∧ (acceptRec s q).mirrorQ = (if 3 ≤ q.sev then s.mirrorQ ++ [recOf s q] else s.mirrorQ)
    ∧ memParts (acceptRec s q) = memParts s := by
  obtain ⟨-, hlogQ', hmirrorQ', -, -, hmem'⟩ := sequenced_frame s (slotted s q) q
  obtain ⟨hlogQ, hmirrorQ, -, hmem⟩ := slotted_frame s q
  rw [hmirrorQ] at hmirrorQ'
  exact ⟨hlogQ'.trans hlogQ, hmirrorQ', hmem'.trans hmem⟩

theorem flag_acceptRec {s : State} {q : LogReq} (h : slotHeld s q = true) : Claims.Flag (acceptRec s q) evPg ev_F_DROP := by
  have hflag : Claims.Flag (slotted s q) evPg ev_F_DROP := by
    rw [slotted, if_pos h]
    exact flag_raiseF _ _ _ (by decide)
  exact flag_congr (sequenced_regs s (slotted s q) q) (flag_wr hflag _ _ (by decide))

/-- A slot of the ring after the acceptance. -/
theorem smGet_ring_acceptRec (s : State) (q : LogReq) (i : Nat) :
    smGet (fun _ => none) (acceptRec s q).ring i = if slotHeld s q = false ∧ i = seqAfter (rd s evPg ev_HEAD_SEQ) % 2048
      then some (recOf s q) else smGet (fun _ => none) s.ring i := by
  rw [ring_acceptRec]
  cases slotHeld s q with
  | true => rfl
  | false =>
    rw [if_neg Bool.false_ne_true, ringWith, smGet_smPut]
    simp only [true_and]

/-- The acceptance of the oldest request (R463, R468 to R470). -/
theorem gives_recordAcceptance {s : State} {r : LogReq} {rs : List LogReq} (hlost : s.evLost = false)
    (hhold : s.mirrorHold = false) (hlog : s.logQ = r :: rs) : Gives .recordAcceptance s fun s' =>
      let n := seqAfter (rd s evPg ev_HEAD_SEQ)
      let old := smGet (fun _ => none) s.ring (n % 2048)
      s'.logQ = rs ∧ rd s' evPg ev_HEAD_SEQ = n ∧ n ≠ 0
        ∧ ((∀ o, old = some o → o.sev ≤ r.sev) → smGet (fun _ => none) s'.ring (n % 2048) = some (recOf s r))
        ∧ (∀ o, old = some o → r.sev < o.sev → s'.ring = s.ring ∧ Claims.Flag s' evPg ev_F_DROP)
        ∧ (∀ i, i ≠ n % 2048 → smGet (fun _ => none) s'.ring i = smGet (fun _ => none) s.ring i)
        ∧ s'.mirrorQ = (if 3 ≤ r.sev then s.mirrorQ ++ [recOf s r] else s.mirrorQ) ∧ SameMem s s' := by
  refine gives_of_answers (answers_recordAcceptance hlost hhold hlog) ?_
  obtain ⟨hlogQ, hmirrorQ, hmem⟩ := acceptRec_frame (requestTaken s rs) r
  have hhead := rd_headSeq_sequenced (requestTaken s rs) (slotted (requestTaken s rs) r) r
  refine ⟨(settle_logQ _ _).trans hlogQ, (rd_settle _ _ _ _).trans hhead, seqAfter_ne_zero _, fun hfree => ?free, fun o ho hsev => ?held,
    fun i hi => ?others, (settle_mirrorQ _ _).trans hmirrorQ, sameMem_of_parts ((memParts_settle _ _).trans hmem)⟩
  case free =>
    have hslot : slotHeld (requestTaken s rs) r = false := by
      rw [← Bool.not_eq_true, slotHeld_iff]
      rintro ⟨o, ho, hlt⟩
      exact absurd (hfree o ho) (Nat.not_le.mpr hlt)
    rw [settle_ring, smGet_ring_acceptRec]
    exact if_pos ⟨hslot, rfl⟩
  case held =>
    have hslot : slotHeld (requestTaken s rs) r = true := (slotHeld_iff _ _).mpr ⟨o, ho, hsev⟩
    refine ⟨?_, flag_settle (flag_acceptRec hslot)⟩
    rw [settle_ring, ring_acceptRec, if_pos hslot]
    rfl
  case others =>
    rw [settle_ring, smGet_ring_acceptRec]
    exact if_neg fun h => hi h.2

/-! ### The mirror -/

theorem answers_mirror_idle {s : State} (h : s.mirrorQ = [] ∨ mgmtRuns s = false) (ok : Bool) : Answers (.mirror ok) s s := by
  have hrest : mirrorOne s ok = s := by
    unfold mirrorOne
    split
    · rfl
    next r rs hq =>
      have hstill : mgmtRuns s = false := h.resolve_left (by rw [hq]; exact List.cons_ne_nil _ _)
      rw [if_pos (by rw [hstill]; exact Bool.false_ne_true)]
  rw [Answers, exec_mirror, execMirror, hrest, done]

theorem length_recBytes (r : LogRec) : (recBytes r).length = 32 := by
  simp only [recBytes, List.length_append, length_leBytes, length_padTo]

/-- The oldest record has its place in flash, and the place after it is the next (R470). -/
def mirrored (s : State) (r : LogRec) (rs : List LogRec) : State :=
  { flWrite { s with mirrorQ := rs, mirrorHold := s.mirrorHold && !rs.isEmpty } (mirrorBase + 32 * s.mirrorPos) (recBytes r) with
    mirrorPos := (s.mirrorPos + 1) % 131072 }

theorem mirrored_frame (s : State) (r : LogRec) (rs : List LogRec) : (mirrored s r rs).mirrorQ = rs
    ∧ (mirrored s r rs).flash = memWrite s.flash (mirrorBase + 32 * s.mirrorPos) (recBytes r)
    ∧ (mirrored s r rs).mirrorPos = (s.mirrorPos + 1) % 131072 ∧ (mirrored s r rs).ring = s.ring
    ∧ (mirrored s r rs).lp = s.lp ∧ (mirrored s r rs).spool = s.spool ∧ (mirrored s r rs).tiles = s.tiles := by
  rw [mirrored]
  exact ⟨rfl, rfl, rfl, rfl, rfl, rfl, rfl⟩

section
variable {s : State} {r : LogRec} {rs : List LogRec} (hq : s.mirrorQ = r :: rs) (hruns : mgmtRuns s = true)
include hq hruns

theorem answers_mirror_ok : Answers (.mirror true) s (wr (wr (mirrored s r rs) evPg ev_MIRROR_SEQ r.seq) evPg ev_MIRROR_COUNT
    (min (rd s evPg ev_MIRROR_COUNT + 1) 131072)) := by
  rw [Answers, exec_mirror, execMirror, mirrorOne, hq]
  dsimp only
  rw [if_neg (not_not.mpr hruns), if_neg (by decide)]
  rfl

theorem answers_mirror_failed : Answers (.mirror false) s (raiseF s evPg ev_F_MIRROR_FAIL) := by
  rw [Answers, exec_mirror, execMirror, mirrorOne, hq]
  dsimp only
  rw [if_neg (not_not.mpr hruns), if_pos (by decide), done]

theorem gives_mirror_ok : Gives (.mirror true) s fun s' => s'.mirrorQ = rs
    ∧ memRead s'.flash (mirrorBase + 32 * s.mirrorPos) 32 = recBytes r ∧ s'.mirrorPos = (s.mirrorPos + 1) % 131072
    ∧ rd s' evPg ev_MIRROR_SEQ = r.seq % 2 ^ 32
    ∧ rd s' evPg ev_MIRROR_COUNT = min (rd s evPg ev_MIRROR_COUNT + 1) 131072 ∧ s'.ring = s.ring
    ∧ s'.lp = s.lp ∧ s'.spool = s.spool ∧ s'.tiles = s.tiles := by
  obtain ⟨hqueue, hflash, hpos, hring, hlp, hspool, htiles⟩ := mirrored_frame s r rs
  refine gives_of_answers (answers_mirror_ok hq hruns) ⟨hqueue, ?flash, hpos, ?seq, ?count, hring, hlp, hspool, htiles⟩
  case flash =>
    have hread := memRead_memWrite_same s.flash (mirrorBase + 32 * s.mirrorPos) (recBytes r)
    rw [length_recBytes] at hread
    rw [settle_flash, wr_flash, wr_flash, hflash, hread]
  case seq =>
    rw [rd_settle, rd_wr_ne _ _ _ _ _ _ (by decide), rd_wr_same _ _ _ _ (by decide)]
    rfl
  case count =>
    rw [rd_settle, rd_wr_fits _ _ _ _ (by decide)]
    simp only [ev_MIRROR_COUNT]
    omega

theorem gives_mirror_failed : Gives (.mirror false) s fun s' =>
    s'.mirrorQ = s.mirrorQ ∧ Claims.Flag s' evPg ev_F_MIRROR_FAIL ∧ SameMem s s' := by
  obtain ⟨r', i, h', hbit⟩ := raiseBit_eq s evPg ev_F_MIRROR_FAIL.lo
  have hraise : raiseF s evPg ev_F_MIRROR_FAIL = { s with regs := r', irqs := i, hostIrqs := h' } := hbit
  refine gives_of_answers (answers_mirror_failed hq hruns) ⟨?_, flag_settle (flag_raiseF _ _ _ (by decide)), sameMem_of_parts ?_⟩
  · rw [settle_mirrorQ, hraise]
  · rw [memParts_settle, hraise]
    rfl

end

end Sys2Proof.Machine
end

section
/-! PROOFS. The copies of the operating time, and the registers of the logbook page that act (R464, R466, R472). -/

namespace Sys2Proof.Machine

open Sys2Proof.Claims

/-! ### The copies in flash -/

/-- The twelve bytes of a copy before its CRC-32. -/
def timeBody (c : TimeCopy) : List Byte := leBytes 4 c.secs ++ leBytes 4 c.pcycle ++ leBytes 4 c.seq

theorem timeCopyBytes_eq (c : TimeCopy) : timeCopyBytes c = timeBody c ++ leBytes 4 (crc32 (timeBody c)) := rfl

theorem length_timeBody (c : TimeCopy) : (timeBody c).length = 12 := by
  simp only [timeBody, List.length_append, length_leBytes]

theorem length_timeCopyBytes (c : TimeCopy) : (timeCopyBytes c).length = 16 := by
  rw [timeCopyBytes_eq, List.length_append, length_timeBody, length_leBytes]

theorem crc32_lt (bs : List Byte) : crc32 bs < 256 ^ 4 := (bs.foldl crcByte 0xFFFFFFFF#32 ^^^ 0xFFFFFFFF#32).isLt

/-- The three words of a copy stand one after the other. -/
theorem timeCopyBytes_words (c : TimeCopy) : (timeCopyBytes c).take 4 = leBytes 4 c.secs
    ∧ ((timeCopyBytes c).drop 4).take 4 = leBytes 4 c.pcycle ∧ ((timeCopyBytes c).drop 8).take 4 = leBytes 4 c.seq := by
  have hfirst : (leBytes 4 c.secs ++ leBytes 4 c.pcycle).length = 8 := by simp only [List.length_append, length_leBytes]
  rw [timeCopyBytes_eq, timeBody, List.append_assoc]
  refine ⟨?_, ?_, ?_⟩
  · rw [List.append_assoc, List.take_left' (length_leBytes 4 _)]
  · rw [List.append_assoc, List.drop_left' (length_leBytes 4 _), List.take_left' (length_leBytes 4 _)]
  · rw [List.drop_left' hfirst, List.take_left' (length_leBytes 4 _)]

/-- A copy that lies in flash is read with its CRC (R464). -/
theorem timeCopy_of_flash {s : State} {i : Nat} {c : TimeCopy} (h : memRead s.flash (timeBase i) 16 = timeCopyBytes c)
    (hsecs : c.secs < 2 ^ 32) (hpcycle : c.pcycle < 2 ^ 32) (hseq : c.seq < 2 ^ 32) : timeCopy s i = some c := by
  obtain ⟨hw0, hw1, hw2⟩ := timeCopyBytes_words c
  have hword : ∀ v, v < 2 ^ 32 → leNat (leBytes 4 v) = v := fun v hv =>
    (leNat_leBytes 4 v).trans (Nat.mod_eq_of_lt hv)
  have hcrc : leNat ((timeCopyBytes c).drop 12) = crc32 ((timeCopyBytes c).take 12) := by
    rw [timeCopyBytes_eq, List.drop_left' (length_timeBody c), List.take_left' (length_timeBody c), leNat_leBytes,
      Nat.mod_eq_of_lt (crc32_lt _)]
  unfold timeCopy
  dsimp only
  rw [h, if_pos hcrc, hw0, hw1, hw2, hword _ hsecs, hword _ hpcycle, hword _ hseq]

theorem timeNow_lt (s : State) : (timeNow s).secs < 2 ^ 32 ∧ (timeNow s).pcycle < 2 ^ 32 ∧ (timeNow s).seq < 2 ^ 32 :=
  ⟨rdi_lt s evPg ev_SEC 0, (rdi_lt s evPg ev_PCYCLE 0).trans (by decide), rdi_lt s evPg ev_HEAD_SEQ 0⟩

/-! ### The write of the store -/

theorem answers_timeStoreWrite_still {s : State} (h : rd s evPg ev_CAL = 1 ∨ s.evLost = true) : Answers .timeStoreWrite s s := by
  rw [Answers, exec_timeStoreWrite, execTimeStoreWrite, writeTime, if_pos h, done]

theorem answers_timeStoreWrite {s : State} (hcal : rd s evPg ev_CAL = 0) (hlost : s.evLost = false) :
    Answers .timeStoreWrite s (putTime s (timeNow s)) := by
  rw [Answers, exec_timeStoreWrite, execTimeStoreWrite, writeTime, if_neg (by rw [hcal, hlost]; decide), done]

theorem putTime_flash (s : State) (c : TimeCopy) :
    (putTime s c).flash = memWrite s.flash (timeBase (b2n s.timeNext)) (timeCopyBytes c) := rfl

theorem memRead_putTime (s : State) (c : TimeCopy) :
    memRead (putTime s c).flash (timeBase (b2n s.timeNext)) 16 = timeCopyBytes c := by
  rw [putTime_flash, ← length_timeCopyBytes c, memRead_memWrite_same]

theorem gives_timeStoreWrite {s : State} (hcal : rd s evPg ev_CAL = 0) (hlost : s.evLost = false) :
    Gives .timeStoreWrite s fun s' =>
      let i := b2n s.timeNext
      memRead s'.flash (timeBase i) 16 = timeCopyBytes (timeNow s) ∧ timeCopy s' i = some (timeNow s)
        ∧ (∀ a, a < timeBase i ∨ timeBase i + 16 ≤ a → memByte s'.flash a = memByte s.flash a)
        ∧ s'.timeNext = !s.timeNext ∧ s'.regs = s.regs ∧ s'.lp = s.lp ∧ s'.spool = s.spool ∧ s'.tiles = s.tiles := by
  obtain ⟨hsecs, hpcycle, hseq⟩ := timeNow_lt s
  have hread := memRead_putTime s (timeNow s)
  refine gives_of_answers (answers_timeStoreWrite hcal hlost)
    ⟨hread, timeCopy_of_flash hread hsecs hpcycle hseq, fun a ha => ?_, rfl, rfl, rfl, rfl, rfl⟩
  rw [settle_flash, putTime_flash]
  exact memByte_memWrite_outside _ _ _ _ (by rwa [length_timeCopyBytes])

/-! ### OPT_REINIT and EV_CAL_SEC -/

/-- Both copies hold `c`. -/
def copiesPut (s : State) (c : TimeCopy) : State := putCopy (putCopy { s with optSet := false } 0 c) 1 c

theorem copiesPut_flash (s : State) (c : TimeCopy) :
    (copiesPut s c).flash = memWrite (memWrite s.flash (timeBase 0) (timeCopyBytes c)) (timeBase 1) (timeCopyBytes c) := rfl

theorem copiesPut_frame (s : State) (c : TimeCopy) : (copiesPut s c).optSet = false ∧ (copiesPut s c).lp = s.lp
    ∧ (copiesPut s c).spool = s.spool ∧ (copiesPut s c).tiles = s.tiles := ⟨rfl, rfl, rfl, rfl⟩

theorem memRead_copiesPut (s : State) (c : TimeCopy) {i : Nat} (hi : i < 2) :
    memRead (copiesPut s c).flash (timeBase i) 16 = timeCopyBytes c := by
  have hfirst := memRead_memWrite_same s.flash (timeBase 0) (timeCopyBytes c)
  have hsecond := memRead_memWrite_same (memWrite s.flash (timeBase 0) (timeCopyBytes c)) (timeBase 1) (timeCopyBytes c)
  rw [length_timeCopyBytes] at hfirst hsecond
  rw [copiesPut_flash]
  obtain rfl | rfl : i = 0 ∨ i = 1 := by omega
  · rw [memRead_memWrite_disjoint _ _ _ _ _ (.inl (by decide)), hfirst]
  · exact hsecond

/-- The count that OPT_REINIT writes (R466). -/
def givenTime (s : State) : TimeCopy := { timeNow s with secs := rd s evPg ev_OPT_SET }

theorem optReinitOp_given {s : State} (h : rd s evPg ev_CAL = 0 ∨ s.optSet = true) : optReinitOp s
    = wr (wr (wr (copiesPut s (givenTime s)) evPg ev_CAL 0) evPg ev_UNSET 0) evPg ev_SEC (rd s evPg ev_OPT_SET) := by
  have hgiven : ¬ (rd s evPg ev_CAL = 1 ∧ ¬ s.optSet = true) := by
    rintro ⟨hcal, hset⟩
    obtain hcal' | hset' := h
    · rw [hcal] at hcal'; cases hcal'
    · exact hset hset'
  rw [optReinitOp, if_neg hgiven]
  rfl

theorem optReinitOp_refused {s : State} (hcal : rd s evPg ev_CAL = 1) (hset : s.optSet = false) : optReinitOp s = s := by
  rw [optReinitOp, if_pos ⟨hcal, by rw [hset]; exact Bool.false_ne_true⟩]

section
variable {s : State} (hopen : locked s evPg = false)
include hopen

theorem answers_optReinit : Answers .optReinit s (optReinitOp (countWrite s evPg)) := by
  rw [Answers, exec_optReinit, execOptReinit, actWrite, if_neg (by rw [hopen]; exact Bool.false_ne_true), done]

theorem answers_calSec (v : W32) : Answers (.calSec v) s (calSecOp (countWrite s evPg) v.toNat) := by
  rw [Answers, exec_calSec, execCalSec, actWrite, if_neg (by rw [hopen]; exact Bool.false_ne_true), done]

theorem gives_optReinit (h : rd s evPg ev_CAL = 0 ∨ s.optSet = true) : Gives .optReinit s fun s' =>
    rd s' evPg ev_SEC = rd s evPg ev_OPT_SET ∧ rd s' evPg ev_CAL = 0 ∧ rd s' evPg ev_UNSET = 0
      ∧ (∀ i, i < 2 → timeCopy s' i = some { timeNow s with secs := rd s evPg ev_OPT_SET }) ∧ s'.optSet = false
      ∧ s'.lp = s.lp ∧ s'.spool = s.spool ∧ s'.tiles = s.tiles := by
  have hcal := rd_countWrite s evPg evPg ev_CAL (by decide)
  have hset := rd_countWrite s evPg evPg ev_OPT_SET (by decide)
  have hnow : givenTime (countWrite s evPg) = { timeNow s with secs := rd s evPg ev_OPT_SET } := by
    rw [givenTime, timeNow, hset, rd_countWrite s evPg evPg ev_PCYCLE (by decide),
      rd_countWrite s evPg evPg ev_HEAD_SEQ (by decide)]
    rfl
  have hop := optReinitOp_given (s := countWrite s evPg) (by rw [hcal]; exact h)
  rw [hset, hnow] at hop
  obtain ⟨-, hpcycle, hseq⟩ := timeNow_lt s
  have hsecs : rd s evPg ev_OPT_SET < 2 ^ 32 := rdi_lt s evPg ev_OPT_SET 0
  have hans := answers_optReinit hopen
  rw [hop] at hans
  obtain ⟨hoptSet, hlp, hspool, htiles⟩ := copiesPut_frame (countWrite s evPg) { timeNow s with secs := rd s evPg ev_OPT_SET }
  refine gives_of_answers hans ⟨?sec, ?cal, ?unset, fun i hi => ?copies, ?optSet, ?lp, ?spool, ?tiles⟩
  case sec => rw [rd_settle, rd_wr_fits _ _ _ _ (by decide) hsecs]
  case cal =>
    rw [rd_settle, rd_wr_ne _ _ _ _ _ _ (by decide), rd_wr_apart _ _ _ _ _ (by decide), rd_wr_fits _ _ _ _ (by decide) (by decide)]
  case unset => rw [rd_settle, rd_wr_ne _ _ _ _ _ _ (by decide), rd_wr_fits _ _ _ _ (by decide) (by decide)]
  case optSet => rw [settle_optSet, wr_optSet, wr_optSet, wr_optSet, hoptSet]
  case lp => rw [settle_lp, wr_lp, wr_lp, wr_lp, hlp]; rfl
  case spool => rw [settle_spool, wr_spool, wr_spool, wr_spool, hspool]; rfl
  case tiles => rw [settle_tiles, wr_tiles, wr_tiles, wr_tiles, htiles]; rfl
  case copies => exact timeCopy_of_flash (memRead_copiesPut (countWrite s evPg) _ hi) hsecs hpcycle hseq

theorem gives_optReinit_refused (hcal : rd s evPg ev_CAL = 1) (hset : s.optSet = false) : Gives .optReinit s fun s' =>
    rd s' evPg ev_CAL = 1 ∧ rd s' evPg ev_SEC = rd s evPg ev_SEC ∧ SameMem s s' := by
  have hcal' := (rd_countWrite s evPg evPg ev_CAL (by decide)).trans hcal
  have hans := answers_optReinit hopen
  rw [optReinitOp_refused hcal' hset] at hans
  exact gives_of_answers hans ⟨(rd_settle _ _ _ _).trans hcal', (rd_settle _ _ _ _).trans (rd_countWrite _ _ _ _ (by decide)),
    sameMem_of_parts rfl⟩

/-- In calendar mode the given time is the count (R466). -/
theorem gives_calSec (v : W32) : Gives (.calSec v) s fun s' => rd s' evPg ev_CAL_SEC = v.toNat
    ∧ rd s' evPg ev_SEC = (if rd s evPg ev_CAL = 1 then v.toNat else rd s evPg ev_SEC)
    ∧ (rd s evPg ev_CAL = 1 → rd s' evPg ev_UNSET = 0) ∧ SameMem s s' := by
  refine gives_of_answers (answers_calSec hopen v) ?_
  have hset := rd_wr_fits (countWrite s evPg) evPg ev_CAL_SEC v.toNat (by decide) v.isLt
  have hcal : rd (wr (countWrite s evPg) evPg ev_CAL_SEC v.toNat) evPg ev_CAL = rd s evPg ev_CAL :=
    (rd_wr_ne _ _ _ _ _ _ (by decide)).trans (rd_countWrite _ _ _ _ (by decide))
  have hsec : rd (wr (countWrite s evPg) evPg ev_CAL_SEC v.toNat) evPg ev_SEC = rd s evPg ev_SEC :=
    (rd_wr_ne _ _ _ _ _ _ (by decide)).trans (rd_countWrite _ _ _ _ (by decide))
  have hmem : memParts (wr (countWrite s evPg) evPg ev_CAL_SEC v.toNat) = memParts s := memParts_wr _ _ _ _
  rw [calSecOp, hcal]
  split
  · refine ⟨?_, ?_, fun _ => ?_, sameMem_of_parts ?_⟩
    · rw [rd_settle, rd_wr_ne _ _ _ _ _ _ (by decide), rd_wr_ne _ _ _ _ _ _ (by decide), hset]
    · rw [rd_settle, rd_wr_ne _ _ _ _ _ _ (by decide), rd_wr_fits _ _ _ _ (by decide) v.isLt]
    · rw [rd_settle, rd_wr_fits _ _ _ _ (by decide) (by decide)]
    · rw [memParts_settle, memParts_wr, memParts_wr, hmem]
  next hoff =>
    exact ⟨(rd_settle _ _ _ _).trans hset, (rd_settle _ _ _ _).trans hsec, fun hon => absurd hon hoff,
      sameMem_of_parts ((memParts_settle _ _).trans hmem)⟩

end

/-! ### A read of EV_REC_W0 -/

/-- The words of a slot, latched in turn. -/
def wordsLatched (bs : List Byte) (l : List Nat) (s : State) : State :=
  forEach l (fun w s => wri s evPg ev_REC_W w (leNat ((bs.drop (4 * w)).take 4))) s

theorem latchRec_eq (s : State) : latchRec s = wordsLatched (slotBytes s (rd s evPg ev_SLOT)) (List.range 8) s := rfl

theorem leNat_take_lt (bs : List Byte) (n : Nat) : leNat (bs.take n) < 256 ^ n := by
  induction n generalizing bs with
  | zero => simp [leNat]
  | succ n ih =>
    cases bs with
    | nil => simp [leNat]
    | cons b bs =>
      have hb := b.isLt
      have hrest := ih bs
      rw [List.take_succ_cons, leNat, Nat.pow_succ]
      omega

theorem rdi_wordsLatched {bs : List Byte} {l : List Nat} {s : State} {w : Nat}
    (h : w ∈ l ∨ rdi s evPg ev_REC_W w = leNat ((bs.drop (4 * w)).take 4)) :
    rdi (wordsLatched bs l s) evPg ev_REC_W w = leNat ((bs.drop (4 * w)).take 4) := by
  induction l generalizing s with
  | nil => exact h.resolve_left List.not_mem_nil
  | cons u l ih =>
    refine ih ?_
    by_cases huw : w = u
    · have hlt : leNat ((bs.drop (4 * u)).take 4) < 2 ^ (ev_REC_W.hi + 1 - ev_REC_W.lo) := leNat_take_lt _ 4
      exact .inr (by rw [huw, rdi_wri_same _ _ _ _ _ (by decide), Nat.mod_eq_of_lt hlt])
    · refine h.imp (fun hmem => (List.mem_cons.mp hmem).resolve_left huw) fun hword => ?_
      rw [rdi_wri_ne _ _ _ _ _ _ _ _ (by simp only [ev_REC_W]; omega), hword]

theorem wordsLatched_eq (bs : List Byte) (l : List Nat) (s : State) : ∃ r, wordsLatched bs l s = { s with regs := r } := by
  refine forEach_induction (P := fun x => ∃ r, x = { s with regs := r }) (fun w x hx => ?_) l ⟨s.regs, rfl⟩
  obtain ⟨r, rfl⟩ := hx
  exact ⟨_, rfl⟩

theorem gives_evRecW0Read (s : State) : Gives .evRecW0Read s fun s' => (∀ w, w < 8 → rdi s' evPg ev_REC_W w
    = leNat (((slotBytes s (rd s evPg ev_SLOT)).drop (4 * w)).take 4)) ∧ SameMem s s' := by
  have hans : Answers .evRecW0Read s (latchRec s) := by rw [Answers, exec_evRecW0Read, execEvRecW0Read, done]
  obtain ⟨r, hr⟩ := wordsLatched_eq (slotBytes s (rd s evPg ev_SLOT)) (List.range 8) s
  refine gives_of_answers hans ⟨fun w hw => ?_, sameMem_of_parts ?_⟩
  · rw [rdi_congr (settle_regs _ _), latchRec_eq, rdi_wordsLatched (.inl (List.mem_range.mpr hw))]
  · rw [memParts_settle, latchRec_eq, hr]
    rfl

/-- Settles O50: each clause is the lemma of its command above. -/
theorem recordsAndLogRegisters : Obligations.RecordsAndLogRegisters := by
  unfold Obligations.RecordsAndLogRegisters
  refine ⟨fun s => ⟨answers_recordAcceptance_idle, fun r rs hlost hhold hlog => gives_recordAcceptance hlost hhold hlog,
      fun h ok => answers_mirror_idle h ok, fun r rs hq hruns => ⟨gives_mirror_ok hq hruns, gives_mirror_failed hq hruns⟩⟩,
    fun s => ⟨answers_timeStoreWrite_still, gives_timeStoreWrite, fun hopen => ⟨gives_optReinit hopen, gives_optReinit_refused hopen,
      gives_calSec hopen⟩, gives_evRecW0Read s⟩⟩

end Sys2Proof.Machine
end

section
/-! PROOFS. Debug tokens and challenges, and the health of the entropy source (R529, R532): what a record leaves of the pages
before the logbook's own. -/

namespace Sys2Proof.Machine

open Sys2Proof.Claims

/-! ### Fault bits and records, seen from the pages LC and SC -/

theorem regW_raiseBit_ne (s : State) (page b page' off : Nat) (hfault : page' * 0x1000 + off ≠ page * 0x1000 + pg_FAULT.off)
    (hforced : page' * 0x1000 + off ≠ page * 0x1000 + pg_FORCED.off) :
    regW (raiseBit s page b) page' off = regW s page' off := by
  have hset : ∀ v, regW (setW s page pg_FAULT.off v) page' off = regW s page' off := fun v => regW_setW_ne _ _ _ _ _ _ hfault
  have hreport : ∀ x : State, regW (report x page b) page' off = regW x page' off := fun x => by
    unfold report
    split
    · rfl
    · rfl
  unfold raiseBit
  dsimp only
  split
  · exact hset _
  · rw [hreport, wr, wri, regW_setW_ne _ _ _ _ _ _ (by simpa using hforced), hset]

/-- A record counts and reports on the logbook's page or behind it (R475). -/
theorem regW_logReq_low (s : State) (sev code source : Nat) (payload : List Byte) {page off : Nat}
    (hlow : page * 0x1000 + off < evPg * 0x1000) : regW (logReq s sev code source payload) page off = regW s page off := by
  have hstore : ∀ (x : State) o v, regW (setW x evPg o v) page off = regW x page off := fun x o v =>
    regW_setW_ne _ _ _ _ _ _ (by omega)
  unfold logReq
  dsimp only
  split
  · rfl
  · rw [raiseF, regW_raiseBit_ne _ _ _ _ _ (by omega) (by omega), inci, wri, hstore, inc, inci, wri, hstore]
    rfl

theorem rd_logReq_low (s : State) (sev code source : Nat) (payload : List Byte) {page : Nat} {f : Fld}
    (hlow : page * 0x1000 + f.off < evPg * 0x1000) : rd (logReq s sev code source payload) page f = rd s page f := by
  rw [rd, rdi, regW_logReq_low s sev code source payload (by simpa using hlow), ← rdi, ← rd]

theorem flag_logReq_low {s : State} {page : Nat} {f : Fld} (h : Claims.Flag s page f) (sev code source : Nat) (payload : List Byte)
    (hlow : page * 0x1000 + pg_FAULT.off < evPg * 0x1000) : Claims.Flag (logReq s sev code source payload) page f := by
  rw [Claims.Flag, regW_logReq_low s sev code source payload hlow]
  exact h

/-- A fault bit and its record. -/
def faultLogged (s : State) (page : Nat) (f : Fld) (sev code source : Nat) (payload : List Byte) : State :=
  logReq (raiseF s page f) sev code source payload

theorem raiseF_keeps (s : State) (page : Nat) (f : Fld) : (raiseF s page f).sec = s.sec ∧ (raiseF s page f).entFails = s.entFails
    ∧ memParts (raiseF s page f) = memParts s := by
  obtain ⟨_, _, _, heq⟩ := raiseBit_eq s page f.lo
  rw [raiseF, heq]
  exact ⟨rfl, rfl, rfl⟩

theorem logReq_keeps (s : State) (sev code source : Nat) (payload : List Byte) : (logReq s sev code source payload).sec = s.sec
    ∧ (logReq s sev code source payload).entFails = s.entFails
    ∧ memParts (logReq s sev code source payload) = memParts s := by
  obtain ⟨_, _, _, _, heq⟩ := logReq_eq s sev code source payload
  rw [heq]
  exact ⟨rfl, rfl, rfl⟩

theorem logs_logReq {s x : State} (hlog : x.logQ = s.logQ) (hticks : x.ticks = s.ticks) (sev code source : Nat)
    (payload : List Byte) : Logs s (settle s (logReq x sev code source payload)) sev code source payload := by
  have hcycle : aonCycle x = aonCycle s := by rw [aonCycle, hticks, ← aonCycle]
  rw [Logs, settle_logQ, logReq_logQ, hlog, hcycle]

section
variable (s : State) (page : Nat) (f : Fld) (sev code source : Nat) (payload : List Byte)

theorem faultLogged_frame : (faultLogged s page f sev code source payload).sec = s.sec
    ∧ memParts (faultLogged s page f sev code source payload) = memParts s := by
  obtain ⟨hsec, -, hmem⟩ := raiseF_keeps s page f
  obtain ⟨hsec', -, hmem'⟩ := logReq_keeps (raiseF s page f) sev code source payload
  exact ⟨hsec'.trans hsec, hmem'.trans hmem⟩

theorem hostQueues_faultLogged : hostQueues (faultLogged s page f sev code source payload) = hostQueues s :=
  (hostQueues_logReq _ _ _ _ _).trans (hostQueues_raiseF _ _ _)

theorem flag_faultLogged (hf : f.lo < 32) (hlow : page * 0x1000 + pg_FAULT.off < evPg * 0x1000) :
    Claims.Flag (faultLogged s page f sev code source payload) page f :=
  flag_logReq_low (flag_raiseF s page f hf) _ _ _ _ hlow

/-- A fault bit of another page stays. -/
theorem flag_faultLogged_of_flag {page' : Nat} {g : Fld} (hs : Claims.Flag s page' g)
    (hlow : page' * 0x1000 + pg_FAULT.off < evPg * 0x1000) (hfault : page' ≠ page) :
    Claims.Flag (faultLogged s page f sev code source payload) page' g := by
  refine flag_logReq_low ?_ _ _ _ _ hlow
  rw [Claims.Flag, raiseF, regW_raiseBit_ne _ _ _ _ _ (by omega) (by simp only [pg_FAULT, pg_FORCED]; omega)]
  exact hs

theorem rd_faultLogged_low {g : Fld} {page' : Nat} (hlow : page' * 0x1000 + g.off < evPg * 0x1000)
    (hfault : page' * 0x1000 + g.off ≠ page * 0x1000 + pg_FAULT.off)
    (hforced : page' * 0x1000 + g.off ≠ page * 0x1000 + pg_FORCED.off) :
    rd (faultLogged s page f sev code source payload) page' g = rd s page' g :=
  (rd_logReq_low _ _ _ _ _ hlow).trans (rd_raiseF_ne s page page' f g hfault hforced)

theorem logs_faultLogged : Logs s (settle s (faultLogged s page f sev code source payload)) sev code source payload :=
  logs_logReq (raiseF_logQ s page f) (raiseF_ticks s page f) _ _ _ _

end

/-! ### Tokens -/

/-- The two register fields that say that debug is open. -/
def openFields (s : State) (sc : BitVec 2) : State := wr (wr s lcPg lc_DEBUG_OPEN 1) lcPg lc_SCOPE sc.toNat

theorem openFields_keeps (s : State) (sc : BitVec 2) : (openFields s sc).logQ = s.logQ ∧ (openFields s sc).ticks = s.ticks
    ∧ (openFields s sc).queues = s.queues ∧ memParts (openFields s sc) = memParts s :=
  ⟨(wr_logQ _ _ _ _).trans (wr_logQ _ _ _ _), (wr_ticks _ _ _ _).trans (wr_ticks _ _ _ _),
    (wr_queues _ _ _ _).trans (wr_queues _ _ _ _), (memParts_wr _ _ _ _).trans (memParts_wr _ _ _ _)⟩

/-- The power cycle is marked as one in which debug was open. -/
def debugNoted (s : State) : State := { s with sec := { s.sec with debugOpened := true } }

theorem debugNoted_keeps (s : State) : (debugNoted s).sec.debugOpened = true ∧ (debugNoted s).regs = s.regs
    ∧ (debugNoted s).logQ = s.logQ ∧ (debugNoted s).ticks = s.ticks ∧ (debugNoted s).queues = s.queues
    ∧ memParts (debugNoted s) = memParts s :=
  ⟨rfl, rfl, rfl, rfl, rfl, rfl⟩

/-- Debug is open with SCOPE `sc` (R529). -/
def debugOpen (s : State) (sc : BitVec 2) : State := debugNoted (openFields s sc)

theorem presentToken_opens {s : State} {tk : Token} (h : tokenFails s tk = none) :
    presentToken s tk = (true, logReq (debugOpen s tk.scope) 1 0x0514 lcPg (b1 tk.scope.toNat)) := by
  rw [presentToken, h]
  rfl

theorem presentToken_denied {s : State} {tk : Token} {r : Nat} (h : tokenFails s tk = some r) :
    presentToken s tk = (false, faultLogged s lcPg lc_F_DEBUG_DENIED 2 0x0515 lcPg (b1 r)) := by
  rw [presentToken, h]
  rfl

theorem debugOpen_frame (s : State) (sc : BitVec 2) : (debugOpen s sc).sec.debugOpened = true ∧ (debugOpen s sc).logQ = s.logQ
    ∧ (debugOpen s sc).ticks = s.ticks ∧ (debugOpen s sc).queues = s.queues ∧ memParts (debugOpen s sc) = memParts s := by
  obtain ⟨hlogQ, hticks, hqueues, hmem⟩ := openFields_keeps s sc
  obtain ⟨hopened, -, hlogQ', hticks', hqueues', hmem'⟩ := debugNoted_keeps (openFields s sc)
  exact ⟨hopened, hlogQ'.trans hlogQ, hticks'.trans hticks, hqueues'.trans hqueues, hmem'.trans hmem⟩

theorem rd_debugOpen (s : State) (sc : BitVec 2) : rd (debugOpen s sc) lcPg lc_DEBUG_OPEN = 1
    ∧ rd (debugOpen s sc) lcPg lc_SCOPE = sc.toNat := by
  have hregs : (debugOpen s sc).regs = (wr (wr s lcPg lc_DEBUG_OPEN 1) lcPg lc_SCOPE sc.toNat).regs :=
    (debugNoted_keeps (openFields s sc)).2.1
  refine ⟨?_, ?_⟩
  · rw [rd_congr hregs, rd_wr_apart _ _ _ _ _ (by decide), rd_wr_fits _ _ _ _ (by decide) (by decide)]
  · rw [rd_congr hregs, rd_wr_fits _ _ _ _ (by decide) sc.isLt]

/-- The debug state after a token that opens it. -/
theorem rd_opened (s : State) (sc : BitVec 2) (payload : List Byte) :
    rd (logReq (debugOpen s sc) 1 0x0514 lcPg payload) lcPg lc_DEBUG_OPEN = 1
      ∧ rd (logReq (debugOpen s sc) 1 0x0514 lcPg payload) lcPg lc_SCOPE = sc.toNat := by
  obtain ⟨hopen, hscope⟩ := rd_debugOpen s sc
  exact ⟨(rd_logReq_low _ _ _ _ _ (by decide)).trans hopen, (rd_logReq_low _ _ _ _ _ (by decide)).trans hscope⟩

theorem rd_denied_open (s : State) (r : Nat) :
    rd (faultLogged s lcPg lc_F_DEBUG_DENIED 2 0x0515 lcPg (b1 r)) lcPg lc_DEBUG_OPEN = rd s lcPg lc_DEBUG_OPEN :=
  rd_faultLogged_low _ _ _ _ _ _ _ (by decide) (by decide) (by decide)

theorem answers_lcToken (s : State) (tk : Token) : Answers (.lcToken tk) s (presentToken s tk).2 := by
  rw [Answers, exec_lcToken, execLcToken, done]

theorem gives_lcToken_opens {s : State} {tk : Token} (h : tokenFails s tk = none) : Gives (.lcToken tk) s fun s' =>
    rd s' lcPg lc_DEBUG_OPEN = 1 ∧ rd s' lcPg lc_SCOPE = tk.scope.toNat ∧ s'.sec.debugOpened = true
      ∧ Logs s s' 1 0x0514 lcPg (b1 tk.scope.toNat) ∧ SameMem s s' := by
  have hans := answers_lcToken s tk
  rw [presentToken_opens h] at hans
  obtain ⟨hopen, hscope⟩ := rd_opened s tk.scope (b1 tk.scope.toNat)
  obtain ⟨hsec, -, hmem⟩ := logReq_keeps (debugOpen s tk.scope) 1 0x0514 lcPg (b1 tk.scope.toNat)
  obtain ⟨hopened, hlogQ, hticks, -, hmem'⟩ := debugOpen_frame s tk.scope
  refine gives_of_answers hans ⟨(rd_settle _ _ _ _).trans hopen, (rd_settle _ _ _ _).trans hscope, ?_,
    logs_logReq hlogQ hticks _ _ _ _, sameMem_of_parts ((memParts_settle _ _).trans (hmem.trans hmem'))⟩
  rw [settle_sec, hsec, hopened]

theorem gives_lcToken_denied {s : State} {tk : Token} {r : Nat} (h : tokenFails s tk = some r) : Gives (.lcToken tk) s fun s' =>
    rd s' lcPg lc_DEBUG_OPEN = rd s lcPg lc_DEBUG_OPEN ∧ Claims.Flag s' lcPg lc_F_DEBUG_DENIED
      ∧ Logs s s' 2 0x0515 lcPg (b1 r) ∧ s'.sec = s.sec ∧ SameMem s s' := by
  have hans := answers_lcToken s tk
  rw [presentToken_denied h] at hans
  obtain ⟨hsec, hmem⟩ := faultLogged_frame s lcPg lc_F_DEBUG_DENIED 2 0x0515 lcPg (b1 r)
  exact gives_of_answers hans ⟨(rd_settle _ _ _ _).trans (rd_denied_open s r),
    flag_settle (flag_faultLogged _ _ _ _ _ _ _ (by decide) (by decide)), logs_faultLogged _ _ _ _ _ _ _,
    (settle_sec _ _).trans hsec, sameMem_of_parts ((memParts_settle _ _).trans hmem)⟩

/-! ### A token on the management queue -/

/-- The state in which a token is presented: after the SIG_FAIL of one whose signature fails. -/
def tokenChecked (s : State) (tk : Token) : State := if tokenFails s tk = some 0 then sigFail s 6 else s

/-- DEBUG_TOKEN with a record that reads. -/
def tokenRead (tk : Token) (k : Nat) (e : List Byte) (s : State) : State :=
  let r := presentToken (tokenChecked s tk) tk
  if r.1 then complete r.2 k e csOK 0 else denyFree r.2 k e

def tokenBody (tk : Token) (s : State) (k : Nat) (e : List Byte) : State :=
  if ¬ inLp (arg e 0) 64 then complete s k e csErrUnmapped 0
  else needMem s k e (arg e 0) 64 (tokenRead tk k e)

theorem exec_debugToken_body (q : QRef) (tk : Token) (s : State) :
    Machine.exec (.debugToken q tk) s = hostCmd q 0x54 (tokenBody tk) s := rfl

theorem sigFail_eq (s : State) (obj : Nat) :
    ∃ r i h q, sigFail s obj = { s with regs := r, irqs := i, hostIrqs := h, logQ := q } := by
  obtain ⟨r, i, h, hraise⟩ := raiseBit_eq s scPg sc_F_SIG_FAIL.lo
  obtain ⟨r', hinc⟩ := inci_eq { s with regs := r, irqs := i, hostIrqs := h } scPg sc_SIG_FAILS 0 1
  obtain ⟨r'', i', h', q, hlog⟩ := logReq_eq { s with regs := r', irqs := i, hostIrqs := h } 2 0x0510 scPg (b1 obj)
  exact ⟨r'', i', h', q, by rw [sigFail, raiseF, hraise, inc, hinc, hlog]⟩

/-- A token whose signature fails fails for that reason whatever the registers hold: the life-cycle state comes before it, the
challenge after. -/
theorem tokenFails_signature {s x : State} {tk : Token} (hstate : lcState x = lcState s) (hsec : x.sec = s.sec)
    (hsigned : tokenSigned x tk = tokenSigned s tk) (h : tokenFails s tk = some 0) : tokenFails x tk = some 0 := by
  unfold tokenFails at h ⊢
  dsimp only at h ⊢
  rw [hstate, hsec, hsigned]
  split at h
  · cases h
  next hlisted =>
    rw [if_neg hlisted]
    split at h
    next hbad => rw [if_pos hbad]
    next =>
      split at h
      · cases h
      · cases h

theorem tokenChecked_opens {s : State} {tk : Token} (h : tokenFails s tk = none) : tokenChecked s tk = s :=
  if_neg (by rw [h]; simp)

theorem tokenFails_tokenChecked {s : State} {tk : Token} {r : Nat} (h : tokenFails s tk = some r) :
    tokenFails (tokenChecked s tk) tk = some r := by
  unfold tokenChecked
  split
  next hzero =>
    obtain ⟨_, _, _, _, heq⟩ := sigFail_eq s 6
    rw [← h, hzero]
    exact tokenFails_signature (by rw [heq]; rfl) (by rw [heq]) (by rw [heq]; rfl) hzero
  next => exact h

theorem tokenChecked_frame (s : State) (tk : Token) : hostQueues (tokenChecked s tk) = hostQueues s
    ∧ memParts (tokenChecked s tk) = memParts s
    ∧ rd (tokenChecked s tk) lcPg lc_DEBUG_OPEN = rd s lcPg lc_DEBUG_OPEN
    ∧ (tokenFails s tk = some 0 → Claims.Flag (tokenChecked s tk) scPg sc_F_SIG_FAIL) := by
  unfold tokenChecked
  split
  next hzero =>
    obtain ⟨_, _, _, _, heq⟩ := sigFail_eq s 6
    refine ⟨hostQueues_congr (by rw [heq]), by rw [heq]; rfl, ?_, fun _ => ?_⟩
    · rw [sigFail, rd_logReq_low _ _ _ _ _ (by decide), rd_inc_ne _ _ _ _ _ _ (by decide), rd_raiseF_ne _ _ _ _ _ (by decide) (by decide)]
    · exact flag_logReq_low (flag_wr (flag_raiseF _ _ _ (by decide)) _ _ (by decide)) _ _ _ _ (by decide)
  next hother => exact ⟨rfl, rfl, rfl, fun hzero => absurd hzero hother⟩

/-- A line that is uncorrectable is recorded on the pages of LPDDR5X and of the logbook, behind the LC page. -/
theorem rd_lpUe_debugOpen (s : State) (a : Nat) : rd (lpUe s a) lcPg lc_DEBUG_OPEN = rd s lcPg lc_DEBUG_OPEN := by
  have hne : ∀ off, off < 0x1000 → lcPg * 0x1000 + lc_DEBUG_OPEN.off ≠ lpPgOf a * 0x1000 + off := fun off hoff => by
    simp only [lpPgOf, lpPg, lcPg, lc_DEBUG_OPEN]
    omega
  rw [lpUe, rd_logReq_low _ _ _ _ _ (by decide), rd_inc_ne _ _ _ _ _ _ (hne _ (by decide)),
    rd_raiseF_ne _ _ _ _ _ (hne _ (by decide)) (hne _ (by decide)), lpErr,
    rd_wr_ne _ _ _ _ _ _ (hne _ (by decide)), rd_wr_ne _ _ _ _ _ _ (hne _ (by decide)),
    rd_wr_ne _ _ _ _ _ _ (hne _ (by decide)), rd_wr_ne _ _ _ _ _ _ (hne _ (by decide))]

section
variable {s : State} {q : QRef} {h : HostQ} {e : List Byte} {tk : Token} (r : EntryRuns s q 0x54 h e)
include r

theorem posts_debugToken_unmapped (hlp : inLp (arg e 0) 64 = false) : Posts (.debugToken q tk) s q h e csErrUnmapped 0 fun s' =>
    s'.regs = s.regs ∧ SameMem s s' :=
  posts_mono (posts_quiet (exec_debugToken_body q tk s) r (if_pos (by rw [hlp]; decide))) fun _ ⟨_, hregs, hmem⟩ => ⟨hregs, hmem⟩

omit r in
theorem tokenBody_mapped (hlp : inLp (arg e 0) 64 = true) : tokenBody tk (taken s q h) (qref q) e
    = needMem (taken s q h) (qref q) e (arg e 0) 64 (tokenRead tk (qref q) e) := if_neg (not_not.mpr hlp)

theorem posts_debugToken_ue (hlp : inLp (arg e 0) 64 = true) (hbad : lpIsBad s (arg e 0) 64 = true) :
    Posts (.debugToken q tk) s q h e csErrUe rUe fun s' => rd s' lcPg lc_DEBUG_OPEN = rd s lcPg lc_DEBUG_OPEN ∧ SameMem s s' := by
  refine posts_of_body (x := lpUe (taken s q h) (lpBadAt (taken s q h) (arg e 0) 64)) (exec_debugToken_body q tk s) r
    ((tokenBody_mapped hlp).trans ?_) (hostQueues_lpUe _ _) fun s' _ hregs hmem => ⟨?_, sameMem_of_parts ?_⟩
  · rw [needMem, lpCheck_bad (taken s q h) _ _ .ok (lpIsBad_taken.trans hbad)]
    exact if_neg Bool.false_ne_true
  · rw [rd_congr hregs, rd_lpUe_debugOpen, rd_taken]
  · rw [hmem, memParts_lpUe, memParts_taken]

omit r in
theorem tokenBody_good (hlp : inLp (arg e 0) 64 = true) (hgood : LpGood s (arg e 0) 64) :
    tokenBody tk (taken s q h) (qref q) e = tokenRead tk (qref q) e (taken s q h) :=
  (tokenBody_mapped hlp).trans (needMem_good hgood)

theorem posts_debugToken_opens (hlp : inLp (arg e 0) 64 = true) (hgood : LpGood s (arg e 0) 64)
    (hok : tokenFails s tk = none) : Posts (.debugToken q tk) s q h e csOK 0 fun s' =>
      rd s' lcPg lc_DEBUG_OPEN = 1 ∧ rd s' lcPg lc_SCOPE = tk.scope.toNat ∧ SameMem s s' := by
  have hok' : tokenFails (taken s q h) tk = none := hok
  have hpresent := presentToken_opens hok'
  obtain ⟨hopen, hscope⟩ := rd_opened (taken s q h) tk.scope (b1 tk.scope.toNat)
  obtain ⟨-, -, hmem⟩ := logReq_keeps (debugOpen (taken s q h) tk.scope) 1 0x0514 lcPg (b1 tk.scope.toNat)
  obtain ⟨-, -, -, hqueues, hmem'⟩ := debugOpen_frame (taken s q h) tk.scope
  refine posts_of_body (x := logReq (debugOpen (taken s q h) tk.scope) 1 0x0514 lcPg (b1 tk.scope.toNat))
    (exec_debugToken_body q tk s) r ((tokenBody_good hlp hgood).trans ?_)
    ((hostQueues_logReq _ _ _ _ _).trans (hostQueues_congr hqueues)) fun s' _ hregs hparts => ⟨?_, ?_, sameMem_of_parts ?_⟩
  · rw [tokenRead, tokenChecked_opens hok', hpresent]
    rfl
  · rw [rd_congr hregs, hopen]
  · rw [rd_congr hregs, hscope]
  · rw [hparts, hmem, hmem', memParts_taken]

theorem posts_debugToken_denied (hlp : inLp (arg e 0) 64 = true) (hgood : LpGood s (arg e 0) 64)
    (hfails : tokenFails s tk ≠ none) : ∃ d, Posts (.debugToken q tk) s q h e csDenied d fun s' =>
      rd s' lcPg lc_DEBUG_OPEN = rd s lcPg lc_DEBUG_OPEN ∧ Claims.Flag s' lcPg lc_F_DEBUG_DENIED
        ∧ (tokenFails s tk = some 0 → Claims.Flag s' scPg sc_F_SIG_FAIL) ∧ SameMem s s' := by
  obtain ⟨why, hwhy⟩ := Option.ne_none_iff_exists'.mp hfails
  have hwhy' : tokenFails (taken s q h) tk = some why := hwhy
  have hchecked := tokenFails_tokenChecked hwhy'
  obtain ⟨hqueues, hmem, hopen, hsig⟩ := tokenChecked_frame (taken s q h) tk
  have hpresent := presentToken_denied hchecked
  obtain ⟨-, hmem'⟩ := faultLogged_frame (tokenChecked (taken s q h) tk) lcPg lc_F_DEBUG_DENIED 2 0x0515 lcPg (b1 why)
  refine ⟨(freshFree (faultLogged (tokenChecked (taken s q h) tk) lcPg lc_F_DEBUG_DENIED 2 0x0515 lcPg (b1 why))).1.toNat % 2 ^ 32,
    posts_of_body
    (x := (freshFree (faultLogged (tokenChecked (taken s q h) tk) lcPg lc_F_DEBUG_DENIED 2 0x0515 lcPg (b1 why))).2)
    (exec_debugToken_body q tk s) r ((tokenBody_good hlp hgood).trans ?_)
    ((hostQueues_freshFree _).trans ((hostQueues_faultLogged _ _ _ _ _ _ _).trans hqueues)) fun s' _ hregs hparts =>
      ⟨?_, ?_, fun hsigned => ?_, sameMem_of_parts ?_⟩⟩
  · rw [tokenRead, hpresent]
    rfl
  · rw [rd_congr hregs]
    exact (rd_denied_open _ _).trans (hopen.trans (rd_taken _ _))
  · exact flag_congr hregs (flag_faultLogged _ _ _ _ _ _ _ (by decide) (by decide))
  · exact flag_congr hregs (flag_faultLogged_of_flag _ _ _ _ _ _ _ (hsig hsigned) (by decide) (by decide))
  · rw [hparts, memParts_freshFree, hmem', hmem, memParts_taken]

end

end Sys2Proof.Machine
end

section
/-! PROOFS. Challenges (R529) and the health of the entropy source (R532). -/

namespace Sys2Proof.Machine

open Sys2Proof.Claims

theorem memParts_countWrite (s : State) (page : Nat) : memParts (countWrite s page) = memParts s := memParts_wr _ _ _ _

theorem memParts_wri (s : State) (page : Nat) (f : Fld) (i v : Nat) : memParts (wri s page f i v) = memParts s := rfl

theorem memParts_wrej (s : State) (page : Nat) : memParts (wrej s page) = memParts s := memParts_wr _ _ _ _

/-- A saturating counter that fits its register counts by one. -/
theorem rd_inc_same (s : State) (page n : Nat) (f : Fld) (h : f.hi < 32) :
    rd (inc s page f n) page f = min (rd s page f + n) f.max := by
  have hpos : 0 < 2 ^ (f.hi + 1 - f.lo) := Nat.two_pow_pos _
  rw [inc, inci, ← wr, rd_wr_same _ _ _ _ h, Nat.mod_eq_of_lt (by simp only [Fld.max]; omega), ← rd]

/-! ### Words of the entropy source -/

/-- The state after a word of a source that has not failed. -/
def wordDrawn (s : State) : State := wr { s with entIdx := s.entIdx + 1, entFails := 0 } scPg sc_ENT_OK 1

theorem drawEntropy_alive {s : State} (h : rd s scPg sc_ENT_FAILED = 0) :
    drawEntropy s = (Config.entropy s.entIdx, wordDrawn s) := by
  rw [drawEntropy, if_neg (by rw [h]; decide), wordDrawn]

theorem rd_wordDrawn (s : State) : rd (wordDrawn s) scPg sc_ENT_OK = 1
    ∧ rd (wordDrawn s) scPg sc_ENT_FAILED = rd s scPg sc_ENT_FAILED :=
  ⟨rd_wr_fits _ _ _ _ (by decide) (by decide), rd_wr_apart _ _ _ _ _ (by decide)⟩

theorem wordDrawn_frame (s : State) : (wordDrawn s).entIdx = s.entIdx + 1 ∧ memParts (wordDrawn s) = memParts s :=
  ⟨wr_entIdx _ _ _ _, memParts_wr _ _ _ _⟩

/-- The words that a source in order gives, in the order of its draws (R532). -/
theorem drawWords_alive {s : State} (n : Nat) (h : rd s scPg sc_ENT_FAILED = 0) :
    (∀ i, i < n → (drawWords n s).1.getD i 0 = Config.entropy (s.entIdx + i))
      ∧ (drawWords n s).2.entIdx = s.entIdx + n ∧ memParts (drawWords n s).2 = memParts s
      ∧ (0 < n → rd (drawWords n s).2 scPg sc_ENT_OK = 1) := by
  induction n generalizing s with
  | zero => exact ⟨fun _ hi => absurd hi (by omega), rfl, rfl, fun h => absurd h (by decide)⟩
  | succ n ih =>
    obtain ⟨hok, hfailed⟩ := rd_wordDrawn s
    obtain ⟨hidx, hmem⟩ := wordDrawn_frame s
    obtain ⟨hwords, hidx', hmem', hok'⟩ := ih (hfailed.trans h)
    rw [drawWords, drawEntropy_alive h]
    refine ⟨fun i hi => ?_, by rw [hidx', hidx]; omega, hmem'.trans hmem, fun _ => ?_⟩
    · cases i with
      | zero => rfl
      | succ i =>
        rw [List.getD_cons_succ, hwords i (by omega), hidx]
        congr 1
        omega
    · cases n with
      | zero => exact hok
      | succ n => exact hok' (by omega)

/-! ### The challenge -/

/-- Word `i` of the challenge in its two registers. -/
def challengeStore (ws : List W64) (i : Nat) (s : State) : State :=
  wri (wri s lcPg lc_CHALLENGE (2 * i) ((ws.getD i 0).toNat % 2 ^ 32)) lcPg lc_CHALLENGE (2 * i + 1) ((ws.getD i 0).toNat / 2 ^ 32)

theorem challengeOp_failed {s : State} (h : rd s scPg sc_ENT_FAILED = 1) : challengeOp s = s := if_pos h

theorem challengeOp_alive {s : State} (h : rd s scPg sc_ENT_FAILED = 0) :
    challengeOp s = forEach (List.range 8) (challengeStore (drawWords 8 s).1) (drawWords 8 s).2 :=
  if_neg (by rw [h]; decide)

theorem challengeStore_frame (ws : List W64) (i : Nat) (s : State) : (challengeStore ws i s).entIdx = s.entIdx
    ∧ memParts (challengeStore ws i s) = memParts s :=
  ⟨rfl, (memParts_wri _ _ _ _ _).trans (memParts_wri _ _ _ _ _)⟩

theorem rd_challengeStore (ws : List W64) {i : Nat} (hi : i < 8) (s : State) :
    rd (challengeStore ws i s) scPg sc_ENT_OK = rd s scPg sc_ENT_OK := by
  have hne : ∀ k, k < 16 → scPg * 0x1000 + (sc_ENT_OK.off + sc_ENT_OK.stride * 0)
      ≠ lcPg * 0x1000 + (lc_CHALLENGE.off + lc_CHALLENGE.stride * k) := fun k hk => by
    simp only [scPg, lcPg, sc_ENT_OK, lc_CHALLENGE]
    omega
  rw [rd, challengeStore, rdi_wri_ne _ _ _ _ _ _ _ _ (hne _ (by omega)), rdi_wri_ne _ _ _ _ _ _ _ _ (hne _ (by omega)), ← rd]

/-- Word `i` of the challenge holds the word that was drawn for it. -/
def HoldsWord (ws : List W64) (i : Nat) (s : State) : Prop :=
  rdi s lcPg lc_CHALLENGE (2 * i) = (ws.getD i 0).toNat % 2 ^ 32
    ∧ rdi s lcPg lc_CHALLENGE (2 * i + 1) = (ws.getD i 0).toNat / 2 ^ 32

theorem rdi_challenge_ne (s : State) (v : Nat) {j k : Nat} (h : j ≠ k) :
    rdi (wri s lcPg lc_CHALLENGE k v) lcPg lc_CHALLENGE j = rdi s lcPg lc_CHALLENGE j :=
  rdi_wri_ne _ _ _ _ _ _ _ _ (by simp only [lc_CHALLENGE]; omega)

theorem rdi_challenge_same (s : State) {v : Nat} (k : Nat) (hv : v < 2 ^ 32) :
    rdi (wri s lcPg lc_CHALLENGE k v) lcPg lc_CHALLENGE k = v :=
  (rdi_wri_same _ _ _ _ _ (by decide)).trans (Nat.mod_eq_of_lt hv)

theorem holdsWord_challengeStore (ws : List W64) (i : Nat) (s : State) : HoldsWord ws i (challengeStore ws i s) :=
  ⟨(rdi_challenge_ne _ _ (by omega)).trans (rdi_challenge_same _ _ (Nat.mod_lt _ (by decide))),
    rdi_challenge_same _ _ (by have := (ws.getD i 0).isLt; omega)⟩

theorem holdsWord_challengeStore_ne {ws : List W64} {i j : Nat} (hij : i ≠ j) {s : State} (h : HoldsWord ws i s) :
    HoldsWord ws i (challengeStore ws j s) := by
  obtain ⟨hlow, hhigh⟩ := h
  exact ⟨(rdi_challenge_ne _ _ (by omega)).trans ((rdi_challenge_ne _ _ (by omega)).trans hlow),
    (rdi_challenge_ne _ _ (by omega)).trans ((rdi_challenge_ne _ _ (by omega)).trans hhigh)⟩

theorem holdsWord_stored {ws : List W64} {l : List Nat} {i : Nat} {s : State} (h : i ∈ l ∨ HoldsWord ws i s) :
    HoldsWord ws i (forEach l (challengeStore ws) s) := by
  induction l generalizing s with
  | nil => exact h.resolve_left (List.not_mem_nil)
  | cons j l ih =>
    refine ih (s := challengeStore ws j s) ?_
    rcases h with hmem | hholds
    · rcases List.mem_cons.mp hmem with rfl | htail
      · exact .inr (holdsWord_challengeStore ws i s)
      · exact .inl htail
    · by_cases hij : i = j
      · exact .inr (hij ▸ holdsWord_challengeStore ws i s)
      · exact .inr (holdsWord_challengeStore_ne hij hholds)

theorem stored_frame (ws : List W64) {l : List Nat} (hl : ∀ i ∈ l, i < 8) (s : State) :
    (forEach l (challengeStore ws) s).entIdx = s.entIdx ∧ memParts (forEach l (challengeStore ws) s) = memParts s
      ∧ rd (forEach l (challengeStore ws) s) scPg sc_ENT_OK = rd s scPg sc_ENT_OK := by
  induction l generalizing s with
  | nil => exact ⟨rfl, rfl, rfl⟩
  | cons i l ih =>
    obtain ⟨hidx, hmem⟩ := challengeStore_frame ws i s
    obtain ⟨hidx', hmem', hok⟩ := ih (fun j hj => hl j (List.mem_cons_of_mem _ hj)) (challengeStore ws i s)
    exact ⟨hidx'.trans hidx, hmem'.trans hmem, hok.trans (rd_challengeStore ws (hl i List.mem_cons_self) s)⟩

/-- A fresh challenge: eight words of the source (R529, R532). -/
theorem challengeOp_fresh {s : State} (h : rd s scPg sc_ENT_FAILED = 0) : (challengeOp s).entIdx = s.entIdx + 8
    ∧ rd (challengeOp s) scPg sc_ENT_OK = 1
    ∧ (∀ i, i < 8 → rdi (challengeOp s) lcPg lc_CHALLENGE (2 * i) + 2 ^ 32 * rdi (challengeOp s) lcPg lc_CHALLENGE (2 * i + 1)
        = (Config.entropy (s.entIdx + i)).toNat)
    ∧ memParts (challengeOp s) = memParts s := by
  obtain ⟨hwords, hidx, hmem, hok⟩ := drawWords_alive 8 h
  obtain ⟨hidx', hmem', hok'⟩ := stored_frame (drawWords 8 s).1 (l := List.range 8) (fun i hi => List.mem_range.mp hi)
    (drawWords 8 s).2
  rw [challengeOp_alive h]
  refine ⟨hidx'.trans hidx, hok'.trans (hok (by decide)), fun i hi => ?_, hmem'.trans hmem⟩
  obtain ⟨hlow, hhigh⟩ := holdsWord_stored (ws := (drawWords 8 s).1) (s := (drawWords 8 s).2) (.inl (List.mem_range.mpr hi))
  rw [hlow, hhigh, hwords i hi]
  exact Nat.mod_add_div _ _

theorem answers_lcChallenge (s : State) : Answers .lcChallenge s (challengeOp s) := by
  rw [Answers, exec_lcChallenge, execLcChallenge, done]

theorem answers_newChallenge (s : State) : Answers .newChallenge s (actWrite s lcPg challengeOp) := by
  rw [Answers, exec_newChallenge, execNewChallenge, done]

/-- What a command gives that leaves a fresh challenge. -/
theorem gives_challenge {c : Instr} {s y : State} (hans : Answers c s (challengeOp y)) (h : rd y scPg sc_ENT_FAILED = 0)
    (hidx : y.entIdx = s.entIdx) (hmem : memParts y = memParts s) : Gives c s fun s' => s'.entIdx = s.entIdx + 8
      ∧ rd s' scPg sc_ENT_OK = 1
      ∧ (∀ i, i < 8 → rdi s' lcPg lc_CHALLENGE (2 * i) + 2 ^ 32 * rdi s' lcPg lc_CHALLENGE (2 * i + 1)
          = (Config.entropy (s.entIdx + i)).toNat) ∧ SameMem s s' := by
  obtain ⟨hidx', hok, hwords, hmem'⟩ := challengeOp_fresh h
  refine gives_of_answers hans ⟨?_, (rd_settle _ _ _ _).trans hok, fun i hi => ?_,
    sameMem_of_parts ((memParts_settle _ _).trans (hmem'.trans hmem))⟩
  · rw [settle_entIdx, hidx', hidx]
  · rw [rdi_settle, rdi_settle, hwords i hi, hidx]

theorem gives_challenges {s : State} (h : rd s scPg sc_ENT_FAILED = 0) {c : Instr}
    (hc : c = .lcChallenge ∨ (c = .newChallenge ∧ locked s lcPg = false)) : Gives c s fun s' => s'.entIdx = s.entIdx + 8
      ∧ rd s' scPg sc_ENT_OK = 1
      ∧ (∀ i, i < 8 → rdi s' lcPg lc_CHALLENGE (2 * i) + 2 ^ 32 * rdi s' lcPg lc_CHALLENGE (2 * i + 1)
          = (Config.entropy (s.entIdx + i)).toNat) ∧ SameMem s s' := by
  rcases hc with rfl | ⟨rfl, hopen⟩
  · exact gives_challenge (answers_lcChallenge s) h rfl rfl
  · have hans := answers_newChallenge s
    rw [actWrite, if_neg (by rw [hopen]; exact Bool.false_ne_true)] at hans
    exact gives_challenge hans ((rd_countWrite _ _ _ _ (by decide)).trans h) (wr_entIdx _ _ _ _) (memParts_countWrite _ _)

theorem challengeNow_wr (s : State) (f : Fld) (v : Nat) (h : f.off < 0x080) : challengeNow (wr s lcPg f v) = challengeNow s := by
  refine List.map_congr_left fun w _ => ?_
  rw [wr, rdi_wri_ne _ _ _ _ _ _ _ _ (by simp only [lc_CHALLENGE]; omega)]

theorem challengeNow_settle (s x : State) : challengeNow (settle s x) = challengeNow x :=
  List.map_congr_left fun w _ => by rw [rdi_settle]

/-- A source that has failed gives no challenge, and LOCK keeps the one that stands (R532, R548). -/
theorem gives_newChallenge_kept {s : State} (h : rd s scPg sc_ENT_FAILED = 1 ∨ locked s lcPg = true) :
    Gives .newChallenge s fun s' => challengeNow s' = challengeNow s ∧ SameMem s s' := by
  have hkept : ∃ f v, f.off < 0x080 ∧ actWrite s lcPg challengeOp = wr s lcPg f v := by
    unfold actWrite
    split
    · exact ⟨pg_WREJ, 1, by decide, rfl⟩
    next hopen =>
      have hfailed : rd (countWrite s lcPg) scPg sc_ENT_FAILED = 1 :=
        (rd_countWrite _ _ _ _ (by decide)).trans (h.resolve_right hopen)
      exact ⟨pg_PG_SEQ, _, by decide, challengeOp_failed hfailed⟩
  obtain ⟨f, v, hoff, hact⟩ := hkept
  have hans := answers_newChallenge s
  rw [hact] at hans
  exact gives_of_answers hans ⟨(challengeNow_settle _ _).trans (challengeNow_wr _ _ _ hoff),
    sameMem_of_parts ((memParts_settle _ _).trans (memParts_wr _ _ _ _))⟩

/-! ### Health tests -/

/-- A failed health test before its record. -/
def healthFailed (s : State) : State := wr (inc (raiseF s scPg sc_F_ENTROPY_HEALTH) scPg sc_HEALTH_FAILS 1) scPg sc_ENT_OK 0

/-- One more failure in a row. -/
def failCounted (s : State) : State := { s with entFails := s.entFails + 1 }

theorem failCounted_frame (s : State) : (failCounted s).entFails = s.entFails + 1 ∧ (failCounted s).regs = s.regs
    ∧ memParts (failCounted s) = memParts s := ⟨rfl, rfl, rfl⟩

/-- A failed health test with its record. -/
def healthLogged (ad : Bool) (s : State) : State := logReq (failCounted (healthFailed s)) 2 0x0517 scPg (b1 (b2n ad))

/-- The failure of the source. -/
def sourceFailed (s : State) : State := faultLogged (wr s scPg sc_ENT_FAILED 1) scPg sc_F_ENTROPY_FAIL 3 0x0518 scPg []

theorem healthFailed_frame (s : State) : (healthFailed s).entFails = s.entFails ∧ memParts (healthFailed s) = memParts s := by
  obtain ⟨-, hfails, hmem⟩ := raiseF_keeps s scPg sc_F_ENTROPY_HEALTH
  exact ⟨(wr_entFails _ _ _ _).trans ((wri_entFails _ _ _ _ _).trans hfails),
    (memParts_wr _ _ _ _).trans ((memParts_wri _ _ _ _ _).trans hmem)⟩

theorem rd_healthFailed (s : State) :
    rd (healthFailed s) scPg sc_HEALTH_FAILS = min (rd s scPg sc_HEALTH_FAILS + 1) (2 ^ 16 - 1)
      ∧ rd (healthFailed s) scPg sc_ENT_OK = 0 ∧ rd (healthFailed s) scPg sc_ENT_FAILED = rd s scPg sc_ENT_FAILED
      ∧ Claims.Flag (healthFailed s) scPg sc_F_ENTROPY_HEALTH := by
  have hraise : ∀ g : Fld, g.off = 0x040 → rd (raiseF s scPg sc_F_ENTROPY_HEALTH) scPg g = rd s scPg g := fun g hg =>
    rd_raiseF_ne _ _ _ _ _ (by rw [hg]; decide) (by rw [hg]; decide)
  refine ⟨?_, rd_wr_fits _ _ _ _ (by decide) (by decide), ?_, ?_⟩
  · rw [healthFailed, rd_wr_apart _ _ _ _ _ (by decide), rd_inc_same _ _ _ _ (by decide), hraise _ (by decide)]
    rfl
  · rw [healthFailed, rd_wr_apart _ _ _ _ _ (by decide), inc, inci, ← wr, rd_wr_apart _ _ _ _ _ (by decide), hraise _ (by decide)]
  · exact flag_wr (flag_wr (flag_raiseF _ _ _ (by decide)) _ _ (by decide)) _ _ (by decide)

theorem healthLogged_spec (ad : Bool) (s : State) :
    rd (healthLogged ad s) scPg sc_HEALTH_FAILS = min (rd s scPg sc_HEALTH_FAILS + 1) (2 ^ 16 - 1)
      ∧ rd (healthLogged ad s) scPg sc_ENT_OK = 0 ∧ rd (healthLogged ad s) scPg sc_ENT_FAILED = rd s scPg sc_ENT_FAILED
      ∧ Claims.Flag (healthLogged ad s) scPg sc_F_ENTROPY_HEALTH ∧ (healthLogged ad s).entFails = s.entFails + 1
      ∧ memParts (healthLogged ad s) = memParts s := by
  obtain ⟨hcount, hok, hfailed, hflag⟩ := rd_healthFailed s
  obtain ⟨hfails, hmem⟩ := healthFailed_frame s
  obtain ⟨hfails', hregs, hmem'⟩ := failCounted_frame (healthFailed s)
  obtain ⟨-, hfails'', hmem''⟩ := logReq_keeps (failCounted (healthFailed s)) 2 0x0517 scPg (b1 (b2n ad))
  have hrd : ∀ g : Fld, scPg * 0x1000 + g.off < evPg * 0x1000 → rd (healthLogged ad s) scPg g = rd (healthFailed s) scPg g :=
    fun g hg => (rd_logReq_low _ _ _ _ _ hg).trans (rd_congr hregs _ _)
  exact ⟨(hrd _ (by decide)).trans hcount, (hrd _ (by decide)).trans hok, (hrd _ (by decide)).trans hfailed,
    flag_logReq_low (flag_congr hregs hflag) _ _ _ _ (by decide),
    hfails''.trans (hfails'.trans (congrArg (· + 1) hfails)), hmem''.trans (hmem'.trans hmem)⟩

theorem sourceFailed_spec (s : State) :
    (∀ g : Fld, g.off = 0x040 → sc_ENT_FAILED.apart g = true → rd (sourceFailed s) scPg g = rd s scPg g)
      ∧ rd (sourceFailed s) scPg sc_ENT_FAILED = 1
      ∧ (Claims.Flag s scPg sc_F_ENTROPY_HEALTH → Claims.Flag (sourceFailed s) scPg sc_F_ENTROPY_HEALTH)
      ∧ (sourceFailed s).entFails = s.entFails ∧ memParts (sourceFailed s) = memParts s := by
  have hlog : ∀ g : Fld, g.off = 0x040 → rd (sourceFailed s) scPg g = rd (wr s scPg sc_ENT_FAILED 1) scPg g := fun g hg =>
    rd_faultLogged_low _ _ _ _ _ _ _ (by rw [hg]; decide) (by rw [hg]; decide) (by rw [hg]; decide)
  obtain ⟨-, hfails, -⟩ := raiseF_keeps (wr s scPg sc_ENT_FAILED 1) scPg sc_F_ENTROPY_FAIL
  obtain ⟨-, hfails', -⟩ := logReq_keeps (raiseF (wr s scPg sc_ENT_FAILED 1) scPg sc_F_ENTROPY_FAIL) 3 0x0518 scPg []
  obtain ⟨-, hmem⟩ := faultLogged_frame (wr s scPg sc_ENT_FAILED 1) scPg sc_F_ENTROPY_FAIL 3 0x0518 scPg []
  exact ⟨fun g hg hapart => (hlog g hg).trans (rd_wr_apart _ _ _ _ _ hapart),
    (hlog _ rfl).trans (rd_wr_fits _ _ _ _ (by decide) (by decide)),
    fun hflag => flag_logReq_low (flag_raiseF_of_flag (by decide) (flag_wr hflag _ _ (by decide)) _) _ _ _ _ (by decide),
    hfails'.trans (hfails.trans (wr_entFails _ _ _ _)), hmem.trans (memParts_wr _ _ _ _)⟩

theorem answers_entropyHealth_failed {s : State} (ad : Bool) (h : rd s scPg sc_ENT_FAILED = 1) : Answers (.entropyHealth ad) s s := by
  rw [Answers, exec_entropyHealth, execEntropyHealth, done, if_pos h]

theorem answers_entropyHealth {s : State} (ad : Bool) (h : rd s scPg sc_ENT_FAILED = 0) : Answers (.entropyHealth ad) s
    (if (healthLogged ad s).entFails < 3 then healthLogged ad s else sourceFailed (healthLogged ad s)) := by
  rw [Answers, exec_entropyHealth, execEntropyHealth, done, if_neg (by rw [h]; decide)]
  rfl

theorem gives_entropyHealth {s : State} (ad : Bool) (h : rd s scPg sc_ENT_FAILED = 0) : Gives (.entropyHealth ad) s fun s' =>
    rd s' scPg sc_HEALTH_FAILS = min (rd s scPg sc_HEALTH_FAILS + 1) (2 ^ 16 - 1) ∧ rd s' scPg sc_ENT_OK = 0
      ∧ Claims.Flag s' scPg sc_F_ENTROPY_HEALTH ∧ s'.entFails = s.entFails + 1
      ∧ rd s' scPg sc_ENT_FAILED = b2n (decide (2 ≤ s.entFails)) ∧ SameMem s s' := by
  have hans := answers_entropyHealth ad h
  obtain ⟨hcount, hok, hfailed, hflag, hfails, hmem⟩ := healthLogged_spec ad s
  rw [hfails] at hans
  by_cases hfew : s.entFails + 1 < 3
  · rw [if_pos hfew] at hans
    refine gives_of_answers hans ⟨(rd_settle _ _ _ _).trans hcount, (rd_settle _ _ _ _).trans hok, flag_settle hflag,
      (settle_entFails _ _).trans hfails, ?_, sameMem_of_parts ((memParts_settle _ _).trans hmem)⟩
    rw [rd_settle, hfailed, h, decide_eq_false (by omega)]
    rfl
  · rw [if_neg hfew] at hans
    obtain ⟨hkept, hset, hflag', hfails', hmem'⟩ := sourceFailed_spec (healthLogged ad s)
    refine gives_of_answers hans ⟨(rd_settle _ _ _ _).trans ((hkept _ (by decide) (by decide)).trans hcount),
      (rd_settle _ _ _ _).trans ((hkept _ (by decide) (by decide)).trans hok), flag_settle (hflag' hflag),
      (settle_entFails _ _).trans (hfails'.trans hfails), ?_,
      sameMem_of_parts ((memParts_settle _ _).trans (hmem'.trans hmem))⟩
    rw [rd_settle, hset, decide_eq_true (by omega)]
    rfl

end Sys2Proof.Machine
end

section
/-! PROOFS. Quotes and certificates (R522, R530, R531), and the statement about debug and identity. -/

namespace Sys2Proof.Machine

open Sys2Proof.Claims

/-! ### The bytes of a quote -/

theorem length_digestBytes (bs : List Byte) : (digestBytes bs).length = 64 := by
  rw [digestBytes]
  simp only [List.map_cons, List.map_nil, List.flatten_cons, List.flatten_nil, List.length_append, List.length_reverse,
    length_leBytes, List.length_nil]

theorem length_measure (x : Option (List Byte)) : (measure x).length = 64 := by
  cases x with
  | none => exact List.length_replicate
  | some bs => exact length_digestBytes bs

theorem length_quoteNonce (s : State) (e : List Byte) : (quoteNonce s e).length = 32 := by
  unfold quoteNonce
  split
  · simp only [List.length_append, length_leBytes]
  · exact length_memRead _ _ _

theorem padTo_self {n : Nat} {bs : List Byte} (h : bs.length = n) : padTo n bs = bs := List.take_left' h

/-- The first 16 bytes: the magic and the die's identity. -/
def quoteHead (s : State) : List Byte :=
  [0x4A#8, 0x54#8, 0x51#8, 0x55#8, 0x4F#8, 0x54#8, 0x45#8, 0x31#8] ++ leBytes 8 s.fuses.c0.dieId.toNat

/-- The 16 bytes of the state of the module. -/
def quoteStatus (s : State) : List Byte :=
  b4 (rd s evPg ev_PCYCLE) ++ b1 (lcState s)
    ++ b1 (rd s lcPg lc_DEBUG_OPEN + 2 * b2n s.sec.debugOpened + 4 * rd s mgPg mg_RECOVERED)
    ++ b1 s.fuses.epoch ++ b1 s.fuses.lcCount ++ b4 (rd s mgPg mg_FW_VER) ++ b4 (rd s itPg it_VER)

/-- The seven measurements. -/
def quoteMeasures (s : State) (m1 : List Byte) : List Byte :=
  measure (some (memRead s.flash 0 256)) ++ m1 ++ measure (some (fuseBytes s.fuses.c0)) ++ measure (some (ownerBytes s))
    ++ measure (s.image.map (fun i => i.1)) ++ measure s.manifest ++ (leBytes 64 Config.romDigest.toNat).reverse

theorem quoteBody_parts (s : State) (nonce m1 : List Byte) :
    quoteBody s nonce m1 = quoteHead s ++ (quoteStatus s ++ (padTo 32 nonce ++ quoteMeasures s m1)) := by
  simp only [quoteBody, quoteHead, quoteStatus, quoteMeasures, List.append_assoc]

theorem length_quoteHead (s : State) : (quoteHead s).length = 16 := by
  rw [quoteHead, List.length_append, length_leBytes]
  rfl

theorem length_quoteStatus (s : State) : (quoteStatus s).length = 16 := by
  simp only [quoteStatus, List.length_append, b4, b1, length_leBytes]

theorem length_quoteMeasures (s : State) {m1 : List Byte} (h : m1.length = 64) : (quoteMeasures s m1).length = 448 := by
  simp only [quoteMeasures, List.length_append, length_measure, h, List.length_reverse, length_leBytes]

section
variable (s : State) {nonce m1 : List Byte} (hnonce : nonce.length = 32) (hm1 : m1.length = 64)
include hm1

theorem length_quoteBody : (quoteBody s nonce m1).length = 512 := by
  simp only [quoteBody_parts, List.length_append, length_quoteHead, length_quoteStatus, length_padTo, length_quoteMeasures s hm1]

theorem length_quoteBytes : (quoteBytes s nonce m1).length = 1024 := by
  rw [quoteBytes, List.length_append, length_quoteBody s hm1, length_padTo]

theorem quoteBytes_signature : (quoteBytes s nonce m1).drop 512
    = padTo 512 (Config.identitySign (s.sec.idKey.getD []) ((quoteBytes s nonce m1).take 512)) := by
  rw [quoteBytes, List.drop_left' (length_quoteBody s hm1), List.take_left' (length_quoteBody s hm1)]

omit hm1 in
theorem quoteBytes_head : (quoteBytes s nonce m1).take 16 = quoteHead s := by
  rw [quoteBytes, quoteBody_parts, List.append_assoc, List.take_left' (length_quoteHead s)]

omit hm1 in
include hnonce in
theorem quoteBytes_nonce : ((quoteBytes s nonce m1).drop 32).take 32 = nonce := by
  have hfront : (quoteHead s ++ quoteStatus s).length = 32 := by
    rw [List.length_append, length_quoteHead, length_quoteStatus]
  rw [quoteBytes, quoteBody_parts, ← List.append_assoc (quoteHead s), List.append_assoc, List.drop_left' hfront, List.append_assoc,
    List.take_left' (length_padTo 32 nonce), padTo_self hnonce]

end

/-! ### QUOTE and IDENTITY -/

/-- Where the nonce of a quote lies in LPDDR5X, and its size: none is read in lull mode (R522). -/
def nonceAt (s : State) (e : List Byte) : Nat := if s.lull then 0 else arg e 0
def nonceSize (s : State) : Nat := if s.lull then 0 else 32

/-- The quote that a state answers. -/
def quoteOf (s : State) (e : List Byte) : List Byte := quoteBytes s (quoteNonce s e) (measurePkg s)

/-- The state in which a quote is answered. -/
def quoted (s : State) (q : QRef) (e : List Byte) : State :=
  send (inc s scPg sc_QUOTES 1) (.rdmaWrite q.port.toNat (arg e 1) (hostKey e 2) (quoteOf s e))

def quoteCmd (q : QRef) (s : State) (k : Nat) (e : List Byte) : State :=
  if ¬ s.lull ∧ ¬ inLp (arg e 0) 32 then complete s k e csErrUnmapped 0
  else needMem s k e (nonceAt s e) (nonceSize s) fun s => complete (quoted s q e) k e csOK 0

theorem exec_quote_body (q : QRef) (s : State) : Machine.exec (.quote q) s = hostCmd q 0x50 (quoteCmd q) s := rfl

theorem lpTouch_none (l : Nat) : lpTouch 0 0 l = false := by
  simp only [lpTouch, Nat.reduceAdd, Nat.reduceDiv, Nat.not_lt_zero, decide_false, Bool.and_false]

theorem lpGood_none (s : State) : LpGood s 0 0 := by
  refine ⟨?_, ?_⟩
  · rw [lpIsBad, List.any_eq_false]
    exact fun l _ => by rw [lpTouch_none]; exact Bool.false_ne_true
  · exact List.filter_eq_nil_iff.mpr fun l _ => by rw [lpTouch_none]; exact Bool.false_ne_true

/-- What a quote says of the module (R530). -/
def QuoteFits (s : State) (e bs : List Byte) : Prop := bs.length = 1024 ∧ bs.take 16 = quoteHead s
  ∧ (bs.drop 32).take 32 = quoteNonce s e ∧ bs.drop 512 = padTo 512 (Config.identitySign (s.sec.idKey.getD []) (bs.take 512))

theorem quoteOf_fits (s : State) (e : List Byte) : QuoteFits s e (quoteOf s e) := by
  have hm1 : (measurePkg s).length = 64 := length_padTo _ _
  exact ⟨length_quoteBytes s hm1, quoteBytes_head s, quoteBytes_nonce s (length_quoteNonce s e), quoteBytes_signature s hm1⟩

section
variable {s : State} {q : QRef} {h : HostQ} {e : List Byte}

theorem taken_lull : (taken s q h).lull = s.lull := rfl

theorem posts_quote_unmapped (r : EntryRuns s q 0x50 h e) (hlull : s.lull = false) (hlp : inLp (arg e 0) 32 = false) :
    Posts (.quote q) s q h e csErrUnmapped 0 fun s' => s'.net = s.net ∧ s'.regs = s.regs ∧ SameMem s s' :=
  posts_quiet (exec_quote_body q s) r (if_pos ⟨by rw [taken_lull, hlull]; decide, by rw [hlp]; decide⟩)

theorem quoteCmd_mapped (hlp : s.lull = true ∨ inLp (arg e 0) 32 = true) : quoteCmd q (taken s q h) (qref q) e
    = needMem (taken s q h) (qref q) e (nonceAt s e) (nonceSize s) fun s => complete (quoted s q e) (qref q) e csOK 0 := by
  refine (if_neg fun hbad => ?_).trans ?_
  · rw [taken_lull] at hbad
    exact hlp.elim hbad.1 hbad.2
  · rw [nonceAt, nonceSize, taken_lull, ← nonceAt, ← nonceSize]

theorem posts_quote_ue (r : EntryRuns s q 0x50 h e) (hlull : s.lull = false) (hlp : inLp (arg e 0) 32 = true)
    (hbad : lpIsBad s (arg e 0) 32 = true) : Posts (.quote q) s q h e csErrUe rUe fun s' => s'.net = s.net ∧ SameMem s s' := by
  refine posts_lpUe (a := nonceAt s e) (n := nonceSize s) (exec_quote_body q s) r ⟨_, quoteCmd_mapped (.inr hlp)⟩ ?_
  rw [nonceAt, nonceSize, hlull]
  exact hbad

theorem posts_quote_ok (r : EntryRuns s q 0x50 h e)
    (hlp : s.lull = true ∨ (inLp (arg e 0) 32 = true ∧ LpGood s (arg e 0) 32)) :
    Posts (.quote q) s q h e csOK 0 fun s' =>
      (∃ bs, s'.net = s.net ++ [.rdmaWrite q.port.toNat (arg e 1) (BitVec.ofNat 32 (arg e 2)) bs] ∧ QuoteFits s e bs)
        ∧ rd s' scPg sc_QUOTES = min (rd s scPg sc_QUOTES + 1) (2 ^ 32 - 1) ∧ OtherRegs s s' [(scPg, sc_QUOTES.off)]
        ∧ SameMem s s' := by
  have hgood : LpGood s (nonceAt s e) (nonceSize s) := by
    rcases hlp with hlull | ⟨-, hgood⟩
    · rw [nonceAt, nonceSize, hlull]
      exact lpGood_none s
    · unfold nonceAt nonceSize
      split
      · exact lpGood_none s
      · exact hgood
  refine posts_of_body (x := quoted (taken s q h) q e) (exec_quote_body q s) r
    ((quoteCmd_mapped (hlp.imp_right And.left)).trans (needMem_good hgood)) ((hostQueues_send _ _).trans (hostQueues_inc _ _ _ _))
    fun s' hnet hregs hmem => ⟨⟨quoteOf (taken s q h) e, ?_, ?_⟩, ?_, ?_, sameMem_of_parts ?_⟩
  · rw [hnet, quoted, send_net, inc, inci, wri_net, taken_net, hostKey]
  · exact quoteOf_fits (taken s q h) e
  · rw [rd_congr hregs, quoted, rd_send, rd_inc_same _ _ _ _ (by decide), rd_taken]
    rfl
  · refine otherRegs_congr (x := inc (taken s q h) scPg sc_QUOTES 1) ?_ hregs
    exact otherRegs_wri (otherRegs_congr (otherRegs_refl s _) taken_regs) _ _ _ _ (List.mem_singleton.mpr rfl) (by decide)
  · rw [hmem, quoted, memParts_send, inc, inci, memParts_wri, memParts_taken]

theorem posts_identity (r : EntryRuns s q 0x51 h e) : Posts (.identity q) s q h e csOK 0 fun s' =>
    s'.net = s.net ++ [.rdmaWrite q.port.toNat (arg e 1) (BitVec.ofNat 32 (arg e 2))
        (match s.sec.idKey with
          | some k => (Config.identityCert s.fuses.c0.dieId k).take (arg e 3)
          | none => [])] ∧ s'.regs = s.regs ∧ SameMem s s' :=
  posts_send (exec_identity s q) r rfl

end

/-- Settles O57: tokens by what `tokenFails` says of them, challenges by the words that the source draws, a quote by the lengths
of its parts. -/
theorem debugAndIdentity : Obligations.DebugAndIdentity := by
  refine ⟨fun s tk => ⟨gives_lcToken_opens, fun r => gives_lcToken_denied, fun q h e r =>
      ⟨posts_debugToken_unmapped r, posts_debugToken_ue r, fun hlp hgood =>
        ⟨posts_debugToken_opens r hlp hgood, posts_debugToken_denied r hlp hgood⟩⟩,
      fun halive c => gives_challenges halive, gives_newChallenge_kept, fun hfailed => ⟨?_, fun ad => answers_entropyHealth_failed ad hfailed⟩,
      fun halive ad => gives_entropyHealth ad halive⟩,
    fun s q h e => ⟨fun r => ⟨posts_quote_unmapped r, posts_quote_ue r, posts_quote_ok r⟩, posts_identity⟩⟩
  have hans := answers_lcChallenge s
  rwa [challengeOp_failed hfailed] at hans

end Sys2Proof.Machine
end

section
/-! PROOFS. Reset of the module, power and pins (R566 to R572). -/

namespace Sys2Proof.Machine

open Sys2Proof.Claims

/-! ### What a reset leaves -/

/-- The state after a reset before the fuses are put into the registers (R451, R567). -/
def resetCore (s : State) : State :=
  { State.reset with
    regs := resetRegs s.regs, fuses := s.fuses, spool := s.spool, spoolBad := s.spoolBad, lp := s.lp, lpBad := s.lpBad,
    spoolWeak := s.spoolWeak, lpWeak := s.lpWeak,
    lpTrained := s.lpTrained, failed := s.failed, flash := s.flash, repairN := s.repairN, timeNext := s.timeNext,
    sec := s.sec, vendorHash := s.vendorHash, itStored := s.itStored, pkgStored := s.pkgStored, ring := s.ring, logQ := s.logQ,
    mirrorPos := s.mirrorPos, ticks := s.ticks, unusable := s.unusable, entIdx := s.entIdx, freeIdx := s.freeIdx,
    freshPower := s.freshPower, evLost := s.evLost, optSet := s.optSet, smbSlot := s.smbSlot,
    irqs := s.irqs.filter (keptFault s), hostIrqs := s.hostIrqs.filter (fun b => keptFault s (mgPg, b)),
    pins := { s.pins with faultN := true }, net := s.net.filter NetMsg.left, pending := s.pending }

theorem resetModule_core (s : State) : resetModule s = fuseWls (withMac (resetCore s)) := rfl

/-- A state that differs from `s` in its registers alone. -/
def RegsOnly (s x : State) : Prop := ∃ r, x = { s with regs := r }

theorem regsOnly_refl (s : State) : RegsOnly s s := ⟨s.regs, rfl⟩

theorem regsOnly_wri {s x : State} (h : RegsOnly s x) (page : Nat) (f : Fld) (i v : Nat) : RegsOnly s (wri x page f i v) := by
  obtain ⟨r, rfl⟩ := h
  exact ⟨_, rfl⟩

theorem regsOnly_wr {s x : State} (h : RegsOnly s x) (page : Nat) (f : Fld) (v : Nat) : RegsOnly s (wr x page f v) :=
  regsOnly_wri h page f 0 v

theorem regsOnly_frame {s x : State} (h : RegsOnly s x) : x.pins = s.pins ∧ x.flash = s.flash ∧ x.ring = s.ring
    ∧ x.logQ = s.logQ ∧ x.ticks = s.ticks ∧ memParts x = memParts s := by
  obtain ⟨r, rfl⟩ := h
  exact ⟨rfl, rfl, rfl, rfl, rfl, rfl⟩

theorem regsOnly_entered {s x : State} (h : RegsOnly s x) : x.entered = s.entered := by
  obtain ⟨r, rfl⟩ := h
  rfl

theorem regsOnly_withMac {s x : State} (h : RegsOnly s x) : RegsOnly s (withMac x) :=
  forEach_induction (P := RegsOnly s) (fun _ _ hx => regsOnly_wr (regsOnly_wr hx _ _ _) _ _ _) _ h

theorem regsOnly_fuseWls {s x : State} (h : RegsOnly s x) : RegsOnly s (fuseWls x) :=
  forEach_induction (P := RegsOnly s) (fun _ _ hx => regsOnly_wr hx _ _ _) _ h

theorem regsOnly_resetModule (s : State) : RegsOnly (resetCore s) (resetModule s) :=
  (congrArg (RegsOnly (resetCore s)) (resetModule_core s)).mpr (regsOnly_fuseWls (regsOnly_withMac (regsOnly_refl _)))

theorem regsOnly_resetLow (s : State) : RegsOnly (resetCore s) (resetLow s) := by
  rw [resetLow]
  exact forEach_induction (P := RegsOnly (resetCore s)) (fun _ _ hx => regsOnly_wr hx _ _ _) _ (regsOnly_resetModule s)

theorem resetLow_frame (s : State) : (resetLow s).tiles = [] ∧ (resetLow s).entered = false ∧ (resetLow s).stopped = false
    ∧ (resetLow s).failSafe = none ∧ (resetLow s).pins = { s.pins with faultN := true } := by
  obtain ⟨r, heq⟩ := regsOnly_resetLow s
  rw [heq]
  exact ⟨rfl, rfl, rfl, rfl, rfl⟩

theorem resetLow_keeps (s : State) : (resetLow s).lp = s.lp ∧ (resetLow s).spool = s.spool ∧ (resetLow s).flash = s.flash
    ∧ (resetLow s).ring = s.ring ∧ (resetLow s).logQ = s.logQ ∧ (resetLow s).ticks = s.ticks := by
  obtain ⟨r, heq⟩ := regsOnly_resetLow s
  rw [heq]
  exact ⟨rfl, rfl, rfl, rfl, rfl, rfl⟩

/-! ### Registers after a reset -/

/-- Where MG_PHASE lies. -/
def phaseKey : Nat := mgPg * 0x1000 + mg_PHASE.off

/-- A word of that register with phase 0. -/
def PhaseZero (w : W32) : Prop := bits w.toNat mg_PHASE.hi mg_PHASE.lo = 0

theorem phaseKept : (fieldsAt .mg mg_PHASE.off).filter (fun f => f.ty == .rws) = [mg_RECOVERED] := by decide +kernel

/-- Of its register RECOVERED alone survives a reset. -/
theorem keptBits_phaseKey (w : W32) : keptBits phaseKey w
    = BitVec.ofNat 32 (setBits (regDflt phaseKey).toNat 13 13 (bits w.toNat 13 13)) := by
  have hblk : pageBlk (phaseKey / 0x1000) = some .mg := rfl
  have hoff : phaseKey % 0x1000 = mg_PHASE.off := rfl
  unfold keptBits
  rw [if_neg (by decide), hblk, hoff]
  dsimp only
  rw [phaseKept]
  rfl

theorem phaseZero_keptBits (w : W32) : PhaseZero (keptBits phaseKey w) := by
  have hdflt : bits (regDflt phaseKey).toNat mg_PHASE.hi mg_PHASE.lo = 0 := by decide +kernel
  rw [PhaseZero, keptBits_phaseKey, BitVec.toNat_ofNat, Nat.mod_eq_of_lt (setBits_lt _ _ _ _ 32 (regDflt phaseKey).isLt (by decide)),
    bits_setBits_ne _ _ _ _ _ _ (by decide) (by decide), hdflt]

theorem phaseZero_resetRegs (m : SMap W32) : PhaseZero (smGet regDflt (resetRegs m) phaseKey) := by
  have hfold : ∀ r : SMap W32, PhaseZero (smGet regDflt r phaseKey) →
      PhaseZero (smGet regDflt (m.foldl (fun r c => smPut regDflt r c.1 (keptBits c.1 c.2)) r) phaseKey) := by
    induction m with
    | nil => exact fun r h => h
    | cons c m ih =>
      refine fun r h => ih _ ?_
      rw [smGet_smPut]
      split
      next hkey => rw [← hkey]; exact phaseZero_keptBits c.2
      next => exact h
  exact hfold _ (by unfold PhaseZero; decide +kernel)

theorem rd_phase_resetCore (s : State) : rd (resetCore s) mgPg mg_PHASE = 0 := phaseZero_resetRegs s.regs

theorem rd_phase_wr (s : State) (page : Nat) (f : Fld) (v : Nat) (hpage : 0 < page) :
    rd (wr s page f v) mgPg mg_PHASE = rd s mgPg mg_PHASE :=
  rd_wr_ne _ _ _ _ _ _ (by simp only [mgPg, mg_PHASE]; omega)

theorem rd_phase_withMac {s : State} (h : rd s mgPg mg_PHASE = 0) : rd (withMac s) mgPg mg_PHASE = 0 := by
  rw [withMac]
  refine forEach_induction (P := fun x => rd x mgPg mg_PHASE = 0) (fun n x hx => ?_) _ h
  rw [rd_phase_wr _ _ _ _ (by simp only [enPg]; omega), rd_phase_wr _ _ _ _ (by simp only [enPg]; omega), hx]

theorem rd_phase_fuseWls {s : State} (h : rd s mgPg mg_PHASE = 0) : rd (fuseWls s) mgPg mg_PHASE = 0 := by
  rw [fuseWls]
  refine forEach_induction (P := fun x => rd x mgPg mg_PHASE = 0) (fun n x hx => ?_) _ h
  rw [rd_phase_wr _ _ _ _ (by simp only [lkPg]; omega), hx]

theorem rd_phase_resetLow (s : State) : rd (resetLow s) mgPg mg_PHASE = 0 := by
  rw [resetLow, resetModule_core]
  refine forEach_induction (P := fun x => rd x mgPg mg_PHASE = 0) (fun n x hx => ?_) _
    (rd_phase_fuseWls (rd_phase_withMac (rd_phase_resetCore s)))
  rw [rd_phase_wr _ _ _ _ (by simp only [lpPg]; omega), hx]

theorem forEach_cons {α : Type} (a : α) (l : List α) (f : α → State → State) (s : State) :
    forEach (a :: l) f s = forEach l f (f a s) := rfl

theorem rd_refreshed {l : List Nat} {g : Nat} {s : State} (h : g ∈ l ∨ rd s (lpPg g) lp_SELF_REFRESH = 1) :
    rd (forEach l (fun g s => wr s (lpPg g) lp_SELF_REFRESH 1) s) (lpPg g) lp_SELF_REFRESH = 1 := by
  induction l generalizing s with
  | nil => exact h.resolve_left List.not_mem_nil
  | cons j l ih =>
    rw [forEach_cons]
    refine ih ?_
    by_cases hj : g = j
    · subst hj
      exact Or.inr (rd_wr_fits s (lpPg g) lp_SELF_REFRESH 1 (by decide) (by decide))
    · refine h.imp (fun hmem => (List.mem_cons.mp hmem).resolve_left hj) fun hset => ?_
      rw [rd_wr_ne _ _ _ _ _ _ (by simp only [lpPg]; omega), hset]

theorem rd_selfRefresh_resetLow (s : State) {g : Nat} (hg : g < 4) : rd (resetLow s) (lpPg g) lp_SELF_REFRESH = 1 := by
  rw [resetLow]
  exact rd_refreshed (.inl (List.mem_range.mpr hg))

/-! ### STBY_VALID, MAIN_APPLIED and PWR_OK -/

theorem gives_stbyValid {s : State} (h : s.pins.stby = false) : Gives .stbyValid s fun s' => s'.pins.stby = true
    ∧ s'.freshPower = true ∧ s'.evLost = true ∧ s'.regs = s.regs ∧ SameMem s s' := by
  have hans : Answers .stbyValid s { s with pins := { s.pins with stby := true }, freshPower := true, evLost := true } := by
    rw [Answers, exec_stbyValid, execStbyValid, done, if_neg (by rw [h]; decide)]
  exact gives_of_answers hans ⟨rfl, rfl, rfl, rfl, sameMem_of_parts rfl⟩

theorem answers_stbyValid {s : State} (h : s.pins.stby = true) : Answers .stbyValid s s := by
  rw [Answers, exec_stbyValid, execStbyValid, done, if_pos h]

/-- The measured voltage of a rail reads, saturated at 0xFFFF. -/
theorem rdi_setMv (s : State) (r mv : Nat) : rdi (setMv s r mv) pwPg pw_MV r = min mv 0xFFFF := by
  rw [setMv, rdi_wri_same _ _ _ _ _ (by decide)]
  exact Nat.mod_eq_of_lt (by simp only [pw_MV]; omega)

theorem regsOnly_setMv {s x : State} (h : RegsOnly s x) (r mv : Nat) : RegsOnly s (setMv x r mv) := regsOnly_wri h _ _ _ _

theorem setMv_pins (s : State) (r mv : Nat) : (setMv s r mv).pins = s.pins := (regsOnly_frame (regsOnly_setMv (regsOnly_refl s) r mv)).1

theorem rdi_setMv_ne (s : State) (mv : Nat) {r j : Nat} (h : r ≠ j) : rdi (setMv s j mv) pwPg pw_MV r = rdi s pwPg pw_MV r :=
  rdi_wri_ne _ _ _ _ _ _ _ _ (by simp only [pw_MV]; omega)

/-- MAIN is on and the memories start empty. -/
def powered (s : State) : State :=
  { s with pins := { s.pins with main := true }, freshPower := true, lp := [], lpBad := [], lpWeak := [],
           spool := [], spoolBad := [], spoolWeak := [] }

theorem powered_spec (s : State) : (powered s).pins.main = true ∧ (powered s).freshPower = true ∧ (powered s).lp = []
    ∧ (powered s).spool = [] ∧ (powered s).flash = s.flash ∧ (powered s).ring = s.ring ∧ (powered s).regs = s.regs :=
  ⟨rfl, rfl, rfl, rfl, rfl, rfl, rfl⟩

/-- Debug is closed (R529). -/
def debugClosed (s : State) : State := wr (wr s lcPg lc_DEBUG_OPEN 0) lcPg lc_SCOPE 0

theorem regsOnly_debugClosed {s x : State} (h : RegsOnly s x) : RegsOnly s (debugClosed x) := regsOnly_wr (regsOnly_wr h _ _ _) _ _ _

def mainOn (s : State) : State := powered (debugClosed s)

/-- What MAIN_APPLIED does once the voltage is stored. -/
def mainChecked (s : State) (mv : Nat) : State :=
  if s.pins.main ∨ ¬ s.pins.stby ∨ ¬ inWindow (faultWindow 0) mv then s else mainOn s

theorem answers_mainApplied (s : State) (mv : Nat) : Answers (.mainApplied mv) s (mainChecked (setMv s 0 mv) mv) := by
  rw [Answers, exec_mainApplied, execMainApplied, done, mainChecked]
  generalize setMv s 0 mv = x
  rfl

theorem mainChecked_on {s : State} {mv : Nat} (hmain : s.pins.main = false) (hstby : s.pins.stby = true)
    (hin : inWindow (faultWindow 0) mv = true) : mainChecked s mv = mainOn s :=
  if_neg (by rw [hmain, hstby, hin]; decide)

theorem mainChecked_quiet {s : State} {mv : Nat}
    (h : s.pins.main = true ∨ s.pins.stby = false ∨ inWindow (faultWindow 0) mv = false) : mainChecked s mv = s :=
  if_pos (h.imp_right (Or.imp (by simp) (by simp)))

theorem gives_mainApplied {s : State} {mv : Nat} (hmv : mv < 2 ^ 16) (hmain : s.pins.main = false) (hstby : s.pins.stby = true)
    (hin : inWindow (faultWindow 0) mv = true) : Gives (.mainApplied mv) s fun s' => s'.pins.main = true ∧ s'.freshPower = true
      ∧ s'.lp = [] ∧ s'.spool = [] ∧ rdi s' pwPg pw_MV 0 = mv ∧ rd s' lcPg lc_DEBUG_OPEN = 0 ∧ s'.flash = s.flash
      ∧ s'.ring = s.ring := by
  obtain ⟨hon, hfresh, hlp, hspool, hflash, hring, hregs⟩ := powered_spec (debugClosed (setMv s 0 mv))
  obtain ⟨-, hflash', hring', -, -, -⟩ := regsOnly_frame (regsOnly_debugClosed (regsOnly_setMv (regsOnly_refl s) 0 mv))
  have hpins := setMv_pins s 0 mv
  have hans := answers_mainApplied s mv
  rw [mainChecked_on (by rw [hpins, hmain]) (by rw [hpins, hstby]) hin, mainOn] at hans
  refine gives_of_answers hans ⟨?_, ?_, ?_, ?_, ?_, ?_, ?_, ?_⟩
  · rw [settle_pins, hon]
  · rw [settle_freshPower, hfresh]
  · rw [settle_lp, hlp]
  · rw [settle_spool, hspool]
  · rw [rdi_settle, rdi_congr hregs, debugClosed, wr, rdi_wri_ne _ _ _ _ _ _ _ _ (by decide), wr, rdi_wri_ne _ _ _ _ _ _ _ _ (by decide),
      rdi_setMv]
    omega
  · rw [rd_settle, rd_congr hregs, debugClosed, rd_wr_apart _ _ _ _ _ (by decide), rd_wr_fits _ _ _ _ (by decide) (by decide)]
  · rw [settle_flash, hflash, hflash']
  · rw [settle_ring, hring, hring']

theorem gives_mainApplied_quiet {s : State} {mv : Nat} (hmv : mv < 2 ^ 16)
    (h : s.pins.main = true ∨ s.pins.stby = false ∨ inWindow (faultWindow 0) mv = false) :
    Gives (.mainApplied mv) s fun s' => rdi s' pwPg pw_MV 0 = mv ∧ s'.pins = s.pins ∧ SameMem s s' := by
  obtain ⟨hpins, -, -, -, -, hmem⟩ := regsOnly_frame (regsOnly_setMv (regsOnly_refl s) 0 mv)
  have hans := answers_mainApplied s mv
  rw [mainChecked_quiet (by rwa [hpins])] at hans
  refine gives_of_answers hans ⟨?_, (settle_pins _ _).trans hpins, sameMem_of_parts ((memParts_settle _ _).trans hmem)⟩
  rw [rdi_settle, rdi_setMv]
  omega

/-- The voltages of a list of rails. -/
def mvsSet (mvs : List Nat) (l : List Nat) (s : State) : State := forEach l (fun r s => setMv s r (mvs.getD r 0)) s

theorem regsOnly_mvsSet (mvs l : List Nat) (s : State) : RegsOnly s (mvsSet mvs l s) :=
  forEach_induction (P := RegsOnly s) (fun _ _ hx => regsOnly_setMv hx _ _) _ (regsOnly_refl s)

theorem rdi_mvsSet {mvs l : List Nat} {r : Nat} {s : State} (h : r ∈ l ∨ rdi s pwPg pw_MV r = min (mvs.getD r 0) 0xFFFF) :
    rdi (mvsSet mvs l s) pwPg pw_MV r = min (mvs.getD r 0) 0xFFFF := by
  induction l generalizing s with
  | nil => exact h.resolve_left List.not_mem_nil
  | cons j l ih =>
    rw [mvsSet, forEach_cons, ← mvsSet]
    refine ih ?_
    by_cases hj : r = j
    · subst hj
      exact .inr (rdi_setMv _ _ _)
    · exact h.imp (fun hmem => (List.mem_cons.mp hmem).resolve_left hj) fun hset => (rdi_setMv_ne _ _ hj).trans hset

/-- PWR_OK drives as `ok` says. -/
def pwrDriven (s : State) (ok : Bool) : State := { s with pins := { s.pins with pwrOk := ok } }

theorem pwrDriven_frame (s : State) (ok : Bool) : (pwrDriven s ok).pins.pwrOk = ok ∧ (pwrDriven s ok).regs = s.regs
    ∧ memParts (pwrDriven s ok) = memParts s := ⟨rfl, rfl, rfl⟩

/-- MAIN is on and each rail lies in its fault window (R566). -/
def railsGood (s : State) (mvs : List Nat) : Bool :=
  s.pins.main && [0, 2, 3, 4, 5, 6, 7].all (fun r => inWindow (faultWindow r) (mvs.getD r 0))

theorem answers_pwrOk (s : State) (mvs : List Nat) :
    Answers (.pwrOk mvs) s (pwrDriven (mvsSet mvs (List.range 8) s) (railsGood s mvs)) := by
  obtain ⟨hpins, -⟩ := regsOnly_frame (regsOnly_mvsSet mvs (List.range 8) s)
  rw [Answers, exec_pwrOk, execPwrOk, done, ← mvsSet, railsGood, ← hpins, pwrDriven]

theorem gives_pwrOk (s : State) (mvs : List Nat) : Gives (.pwrOk mvs) s fun s' => (s'.pins.pwrOk = true ↔ s.pins.main = true
      ∧ ∀ r ∈ [0, 2, 3, 4, 5, 6, 7], inWindow (faultWindow r) (mvs.getD r 0) = true)
    ∧ (∀ r, r < 8 → rdi s' pwPg pw_MV r = min (mvs.getD r 0) 0xFFFF) ∧ SameMem s s' := by
  obtain ⟨-, -, -, -, -, hmem⟩ := regsOnly_frame (regsOnly_mvsSet mvs (List.range 8) s)
  obtain ⟨hok, hregs, hmem'⟩ := pwrDriven_frame (mvsSet mvs (List.range 8) s) (railsGood s mvs)
  refine gives_of_answers (answers_pwrOk s mvs) ⟨?_, fun r hr => ?_,
    sameMem_of_parts ((memParts_settle _ _).trans (hmem'.trans hmem))⟩
  · rw [settle_pins, hok, railsGood, Bool.and_eq_true, List.all_eq_true]
  · rw [rdi_settle, rdi_congr hregs, rdi_mvsSet (.inl (List.mem_range.mpr hr))]

/-! ### RESET_N -/

theorem gives_resetN_high (s : State) : Gives (.resetN true) s fun s' => s'.pins.resetN = true ∧ s'.regs = s.regs ∧ SameMem s s'
    ∧ s'.pins.heldOff = (s.pins.heldOff && (s.pins.resetN || !s.pins.pwrOk)) := by
  have hans : Answers (.resetN true) s
      { s with pins := { s.pins with resetN := true, heldOff := s.pins.heldOff && (s.pins.resetN || !s.pins.pwrOk) } } := by
    rw [Answers, exec_resetN, execResetN, done, if_pos rfl]
  exact gives_of_answers hans ⟨rfl, rfl, sameMem_of_parts rfl, rfl⟩

/-- RESET_N is low. -/
def resetHeld (s : State) : State := { s with pins := { s.pins with resetN := false } }

theorem answers_resetN_fall {s : State} (h : s.pins.resetN = true) :
    Answers (.resetN false) s (resetHeld (resetLow (writeTime s))) := by
  rw [Answers, exec_resetN, execResetN, done, if_neg Bool.false_ne_true, if_pos h, resetHeld]

theorem gives_resetN_low {s : State} (h : s.pins.resetN = false) : Gives (.resetN false) s fun s' => s'.pins.resetN = false
    ∧ s'.pins.heldOff = s.pins.heldOff ∧ s'.regs = s.regs ∧ SameMem s s' := by
  have hans : Answers (.resetN false) s (resetHeld s) := by
    rw [Answers, exec_resetN, execResetN, done, if_neg Bool.false_ne_true, if_neg (by rw [h]; decide), resetHeld]
  exact gives_of_answers hans ⟨rfl, rfl, rfl, sameMem_of_parts rfl⟩

/-- The write of the operating-time store changes flash in its own copies alone (R464). -/
theorem writeTime_keeps (s : State) : (writeTime s).lp = s.lp ∧ (writeTime s).spool = s.spool ∧ (writeTime s).ring = s.ring
    ∧ (writeTime s).pins = s.pins := by
  unfold writeTime
  split
  · exact ⟨rfl, rfl, rfl, rfl⟩
  · exact ⟨rfl, rfl, rfl, rfl⟩

theorem memByte_writeTime (s : State) {a : Nat} (ha : ∀ i, i < 2 → a < timeBase i ∨ timeBase i + 16 ≤ a) :
    memByte (writeTime s).flash a = memByte s.flash a := by
  have hcopy : b2n s.timeNext < 2 := by cases s.timeNext <;> decide
  unfold writeTime
  split
  · rfl
  · rw [putTime_flash]
    exact memByte_memWrite_outside _ _ _ _ (by rw [length_timeCopyBytes]; exact ha _ hcopy)

theorem timeCopy_writeTime {s : State} (hcal : rd s evPg ev_CAL = 0) (hlost : s.evLost = false) {x : State}
    (hx : x.flash = (writeTime s).flash) : timeCopy x (b2n s.timeNext) = some (timeNow s) := by
  obtain ⟨hsecs, hpcycle, hseq⟩ := timeNow_lt s
  refine timeCopy_of_flash ?_ hsecs hpcycle hseq
  rw [hx, writeTime, if_neg (by rw [hcal, hlost]; decide), memRead_putTime]

theorem gives_resetN_fall {s : State} (h : s.pins.resetN = true) : Gives (.resetN false) s fun s' => s'.pins.resetN = false
    ∧ s'.entered = false ∧ s'.pins.heldOff = s.pins.heldOff ∧ s'.tiles = [] ∧ s'.lp = s.lp ∧ s'.spool = s.spool
    ∧ (∀ a, (∀ i, i < 2 → a < timeBase i ∨ timeBase i + 16 ≤ a) → memByte s'.flash a = memByte s.flash a) ∧ s'.ring = s.ring
    ∧ (rd s evPg ev_CAL = 0 → s.evLost = false → timeCopy s' (b2n s.timeNext) = some (timeNow s))
    ∧ s'.stopped = false ∧ s'.failSafe = none ∧ rd s' mgPg mg_PHASE = 0
    ∧ (∀ g, g < 4 → rd s' (lpPg g) lp_SELF_REFRESH = 1) := by
  obtain ⟨htiles, hentered, hstopped, hsafe, hpins⟩ := resetLow_frame (writeTime s)
  obtain ⟨hlp, hspool, hflash, hring, -, -⟩ := resetLow_keeps (writeTime s)
  obtain ⟨hlp', hspool', hring', hpins'⟩ := writeTime_keeps s
  have hregs : (resetHeld (resetLow (writeTime s))).regs = (resetLow (writeTime s)).regs := by rw [resetHeld]
  have hheld : (resetHeld (resetLow (writeTime s))).pins.heldOff = (resetLow (writeTime s)).pins.heldOff := by rw [resetHeld]
  have hflash' : (resetHeld (resetLow (writeTime s))).flash = (writeTime s).flash := by rw [resetHeld, ← hflash]
  refine gives_of_answers (answers_resetN_fall h) ⟨?_, ?_, ?_, ?_, ?_, ?_, fun a ha => ?_, ?_, fun hcal hlost => ?_, ?_, ?_, ?_,
    fun g hg => ?_⟩
  · rw [settle_pins, resetHeld]
  · rw [settle_entered, resetHeld, ← hentered]
  · rw [settle_pins, hheld, hpins, hpins']
  · rw [settle_tiles, resetHeld, ← htiles]
  · rw [settle_lp, resetHeld, ← hlp', ← hlp]
  · rw [settle_spool, resetHeld, ← hspool', ← hspool]
  · rw [settle_flash, hflash', memByte_writeTime s ha]
  · rw [settle_ring, resetHeld, ← hring', ← hring]
  · exact timeCopy_writeTime hcal hlost ((settle_flash _ _).trans hflash')
  · rw [settle_stopped, resetHeld, ← hstopped]
  · rw [settle_failSafe, resetHeld, ← hsafe]
  · rw [rd_settle, rd_congr hregs, rd_phase_resetLow]
  · rw [rd_settle, rd_congr hregs, rd_selfRefresh_resetLow _ hg]

end Sys2Proof.Machine
end

section
/-! PROOFS. Rails out of their window, the loss of standby power, TWIN_PRESENT and the SMBus target (R568 to R573), and the
statement about power, reset and SMBus. -/

namespace Sys2Proof.Machine

open Sys2Proof.Claims

/-! ### MAIN leaves its window -/

/-- MAIN and PWR_OK are off. -/
def mainOff (s : State) : State := { s with pins := { s.pins with main := false, pwrOk := false } }

theorem mainOff_frame (s : State) : (mainOff s).pins = { s.pins with main := false, pwrOk := false } ∧ (mainOff s).flash = s.flash
    ∧ (mainOff s).logQ = s.logQ ∧ (mainOff s).ticks = s.ticks ∧ memParts (mainOff s) = memParts s := ⟨rfl, rfl, rfl, rfl, rfl⟩

/-- The module stays off. -/
def heldOff (s : State) : State := { s with pins := { s.pins with heldOff := true } }

theorem heldOff_frame (s : State) : (heldOff s).pins = { s.pins with heldOff := true } ∧ (heldOff s).entered = s.entered
    ∧ (heldOff s).logQ = s.logQ ∧ (heldOff s).ticks = s.ticks ∧ memParts (heldOff s) = memParts s := ⟨rfl, rfl, rfl, rfl, rfl⟩

theorem logRail_frame (s : State) (r mv : Nat) : (logRail s r mv).pins = s.pins ∧ (logRail s r mv).entered = s.entered
    ∧ memParts (logRail s r mv) = memParts s := by
  obtain ⟨_, _, _, hraise⟩ := raiseBit_eq s pwPg pw_F_RAIL_FAULT.lo
  obtain ⟨_, _, _, _, hlog⟩ := logReq_eq (raiseF s pwPg pw_F_RAIL_FAULT) 4 0x0602 pwPg (b1 r ++ b2 mv)
  rw [logRail, hlog, raiseF, hraise]
  exact ⟨rfl, rfl, rfl⟩

theorem logRail_logs {s x : State} (hlog : x.logQ = s.logQ) (hticks : x.ticks = s.ticks) (r mv : Nat) :
    (logRail x r mv).logQ
      = (pushLog s.logQ { sev := 4, code := 0x0602, source := pwPg, payload := b1 r ++ b2 mv, cycle := aonCycle s }).1 := by
  rw [logRail, logReq_logQ, raiseF_logQ, hlog, aonCycle, raiseF_ticks, hticks, ← aonCycle]

theorem mainLeaves_high {s : State} (mv : Nat) (h : s.pins.resetN = true) :
    mainLeaves s mv = setMv (logRail (heldOff (resetLow (mainOff s))) 0 mv) 0 mv := if_pos h

theorem mainLeaves_low {s : State} (mv : Nat) (h : s.pins.resetN = false) : mainLeaves s mv = setMv (mainOff s) 0 mv :=
  if_neg (by rw [h]; decide)

/-- The two commands by which MAIN leaves its window (R554, R568). -/
theorem answers_mainLeaves {s : State} {mv : Nat} {c : Instr} (hout : inWindow (faultWindow 0) mv = false)
    (hc : (c = .mainFault mv ∧ s.pins.main = true) ∨ c = .railFault 0 mv) : Answers c s (mainLeaves s mv) := by
  rcases hc with ⟨rfl, hmain⟩ | rfl
  · rw [Answers, exec_mainFault, execMainFault, done, if_neg (by rw [hout, hmain]; decide)]
  · rw [Answers, exec_railFault, execRailFault, done, if_neg (by rw [show (0 : BitVec 3).toNat = 0 from rfl, hout]; decide),
      if_pos rfl]

theorem gives_mainLeaves_high {s : State} {mv : Nat} {c : Instr} (hans : Answers c s (mainLeaves s mv))
    (h : s.pins.resetN = true) : Gives c s fun s' => s'.pins.main = false ∧ s'.pins.pwrOk = false ∧ s'.pins.heldOff = true
      ∧ s'.entered = false ∧ s'.tiles = [] ∧ s'.flash = s.flash ∧ Logs s s' 4 0x0602 pwPg (b1 0 ++ b2 mv) := by
  rw [mainLeaves_high mv h] at hans
  obtain ⟨hpins, hflash, hlogQ, hticks, -⟩ := mainOff_frame s
  obtain ⟨htiles, hentered, -, -, hpins'⟩ := resetLow_frame (mainOff s)
  obtain ⟨-, -, hflash', -, hlogQ', hticks'⟩ := resetLow_keeps (mainOff s)
  obtain ⟨hpins'', hentered', hlogQ'', hticks'', hmem''⟩ := heldOff_frame (resetLow (mainOff s))
  obtain ⟨hpins3, hentered3, hmem3⟩ := logRail_frame (heldOff (resetLow (mainOff s))) 0 mv
  have hlogs := logRail_logs (hlogQ''.trans (hlogQ'.trans hlogQ)) (hticks''.trans (hticks'.trans hticks)) 0 mv
  have hregs := regsOnly_setMv (regsOnly_refl (logRail (heldOff (resetLow (mainOff s))) 0 mv)) 0 mv
  obtain ⟨hpins4, -, -, hlogQ4, -, hmem4⟩ := regsOnly_frame hregs
  have hentered4 := regsOnly_entered hregs
  generalize setMv (logRail (heldOff (resetLow (mainOff s))) 0 mv) 0 mv = x at hans hpins4 hlogQ4 hmem4 hentered4
  obtain ⟨-, -, -, -, -, -, hflash4, htiles4⟩ := sameMem_of_parts (hmem4.trans (hmem3.trans hmem''))
  have hallpins : x.pins = { s.pins with main := false, pwrOk := false, faultN := true, heldOff := true } := by
    rw [hpins4, hpins3, hpins'', hpins', hpins]
  refine gives_of_answers hans ⟨?_, ?_, ?_, ?_, ?_, ?_, ?_⟩
  · rw [settle_pins, hallpins]
  · rw [settle_pins, hallpins]
  · rw [settle_pins, hallpins]
  · rw [settle_entered, hentered4, hentered3, hentered', hentered]
  · rw [settle_tiles, htiles4, htiles]
  · rw [settle_flash, hflash4, hflash', hflash]
  · rw [Logs, settle_logQ, hlogQ4, hlogs]

theorem gives_mainLeaves_low {s : State} {mv : Nat} {c : Instr} (hans : Answers c s (mainLeaves s mv))
    (h : s.pins.resetN = false) : Gives c s fun s' => s'.pins.main = false ∧ s'.pins.pwrOk = false
      ∧ s'.logQ = s.logQ ∧ SameMem s s' := by
  rw [mainLeaves_low mv h] at hans
  obtain ⟨hpins, -, hlogQ, -, hmem⟩ := mainOff_frame s
  obtain ⟨hpins', -, -, hlogQ', -, hmem'⟩ := regsOnly_frame (regsOnly_setMv (regsOnly_refl (mainOff s)) 0 mv)
  refine gives_of_answers hans ⟨?_, ?_, ?_, sameMem_of_parts ((memParts_settle _ _).trans (hmem'.trans hmem))⟩
  · rw [settle_pins, hpins', hpins]
  · rw [settle_pins, hpins', hpins]
  · rw [settle_logQ, hlogQ', hlogQ]

theorem answers_mainFault_quiet {s : State} {mv : Nat} (h : inWindow (faultWindow 0) mv = true ∨ s.pins.main = false) :
    Answers (.mainFault mv) s s := by
  rw [Answers, exec_mainFault, execMainFault, done, if_pos (h.imp_right (by simp))]

/-! ### STBY_LOSS and TWIN_PRESENT -/

/-- The whole module after the loss of standby power, before the fuses are put into the registers (R569). -/
def powerLost (s : State) : State :=
  { s with
    regs := State.reset.regs, ring := [], logQ := [], mirrorQ := [], irqs := [], hostIrqs := [], smbSlot := 0,
    freshPower := true, evLost := true, optSet := false, entered := false,
    pins := { s.pins with stby := false, main := false, pwrOk := false, faultN := true, thermAlertN := true,
                          smbAlertN := true, heldOff := false } }

theorem answers_stbyLoss {s : State} (h : s.pins.stby = true) :
    Answers .stbyLoss s (fuseWls (withMac (powerLost (resetModule s)))) := by
  rw [Answers, exec_stbyLoss, execStbyLoss, done, if_neg (by rw [h]; decide), powerLost]

theorem answers_stbyLoss_off {s : State} (h : s.pins.stby = false) : Answers .stbyLoss s s := by
  rw [Answers, exec_stbyLoss, execStbyLoss, done, if_pos (by rw [h]; decide)]

theorem gives_stbyLoss {s : State} (h : s.pins.stby = true) : Gives .stbyLoss s fun s' => s'.pins.stby = false
    ∧ s'.pins.main = false ∧ s'.pins.pwrOk = false ∧ s'.ring = [] ∧ s'.logQ = [] ∧ s'.irqs = [] ∧ s'.entered = false
    ∧ s'.evLost = true ∧ s'.tiles = [] ∧ s'.flash = s.flash := by
  have hans := answers_stbyLoss h
  obtain ⟨r, hreset⟩ := regsOnly_resetModule s
  obtain ⟨r', hlost⟩ := regsOnly_fuseWls (regsOnly_withMac (regsOnly_refl (powerLost (resetModule s))))
  rw [hlost, hreset] at hans
  exact gives_of_answers hans ⟨rfl, rfl, rfl, rfl, rfl, rfl, rfl, rfl, rfl, rfl⟩

/-- The pin of TWIN_PRESENT. -/
def twinPin (s : State) (b : Bool) : State := { s with pins := { s.pins with twinPresent := b } }

theorem twinPin_frame (s : State) (b : Bool) : (twinPin s b).pins.twinPresent = b ∧ memParts (twinPin s b) = memParts s := ⟨rfl, rfl⟩

theorem twinHealthy_absent {s : State} (h : s.pins.twinPresent = true) : twinHealthy s = false := by
  rw [twinHealthy, h]
  rfl

theorem updatePartner_frame (s : State) : (updatePartner s).pins = s.pins ∧ memParts (updatePartner s) = memParts s
    ∧ rd (updatePartner s) twPg tw_PARTNER_OK = b2n (twinHealthy s) := by
  have hfits : ∀ b : Bool, b2n b < 2 ^ (tw_PARTNER_OK.hi + 1 - tw_PARTNER_OK.lo) := by decide
  obtain ⟨_, _, _, hraise⟩ := raiseBit_eq s twPg tw_F_PARTNER_LOST.lo
  unfold updatePartner
  refine ⟨?_, ?_, rd_wr_fits _ _ _ _ (by decide) (hfits _)⟩
  · rw [wr_pins]
    split
    · rw [raiseF, hraise]
    · rfl
  · rw [memParts_wr]
    split
    · exact (raiseF_keeps _ _ _).2.2
    · rfl

theorem gives_twinPresent (s : State) (b : Bool) : Gives (.twinPresent b) s fun s' => s'.pins.twinPresent = b
    ∧ (b = true → rd s' twPg tw_PARTNER_OK = 0) ∧ SameMem s s' := by
  have hans : Answers (.twinPresent b) s (updatePartner (twinPin s b)) := by
    rw [Answers, exec_twinPresent, execTwinPresent, done, twinPin]
  obtain ⟨hpin, hmem⟩ := twinPin_frame s b
  obtain ⟨hpins, hmem', hok⟩ := updatePartner_frame (twinPin s b)
  refine gives_of_answers hans ⟨?_, fun hb => ?_, sameMem_of_parts ((memParts_settle _ _).trans (hmem'.trans hmem))⟩
  · rw [settle_pins, hpins, hpin]
  · rw [rd_settle, hok, twinHealthy_absent (hpin.trans hb)]
    rfl

/-! ### The SMBus target -/

/-- An answer of the SMBus target is nothing but its bytes, while standby power is there (R573). -/
theorem answers_smbReply {s : State} {c : Instr} {bs : List Byte} (hexec : Machine.exec c s = smbReply s bs) :
    Answers c s (if s.pins.stby then send s (.smb bs) else s) := hexec

theorem answers_smb_off {s : State} (h : s.pins.stby = false) (n : BitVec 16) {c : Instr}
    (hc : c = .smbStatus ∨ c = .smbPower ∨ c = .smbTemperature ∨ c = .smbHeadSeq ∨ c = .smbDieId ∨ c = .smbLogSlot
      ∨ c = .smbSlotSelect n) : Answers c s s := by
  have hoff : ∀ x : State, (if s.pins.stby then x else s) = s := fun x => if_neg (by rw [h]; decide)
  have hreply : ∀ bs, Machine.exec c s = smbReply s bs → Answers c s s := fun bs hexec => by
    have hans := answers_smbReply hexec
    rwa [hoff] at hans
  rcases hc with rfl | rfl | rfl | rfl | rfl | rfl | rfl
  · exact hreply _ (exec_smbStatus s)
  · exact hreply _ (exec_smbPower s)
  · exact hreply _ (exec_smbTemperature s)
  · exact hreply _ (exec_smbHeadSeq s)
  · exact hreply _ (exec_smbDieId s)
  · have hexec := exec_smbLogSlot s
    rw [execSmbLogSlot] at hexec
    split at hexec
    · exact hreply _ hexec
    · dsimp only at hexec
      rwa [hoff] at hexec
  · rw [Answers, exec_smbSlotSelect, execSmbSlotSelect, hoff, done]

section
variable {s : State} (h : s.pins.stby = true)
include h

theorem answers_smb_on {c : Instr} {bs : List Byte} (hexec : Machine.exec c s = smbReply s bs) : Answers c s (send s (.smb bs)) := by
  have hans := answers_smbReply hexec
  rwa [if_pos h] at hans

theorem answers_smbLogSlot (hslot : s.smbSlot < 2048) : Answers .smbLogSlot s (send s (.smb (slotBytes s s.smbSlot))) :=
  answers_smb_on h ((exec_smbLogSlot s).trans (if_pos hslot))

/-- What a slot beyond the ring reads: 32 free bytes. -/
def unreadSlot (s : State) : List Byte := (List.range 4).flatMap (fun i => leBytes 8 (Config.free (s.freeIdx + i)).toNat)

omit h in
theorem length_unreadSlot (s : State) : (unreadSlot s).length = 32 := by
  rw [unreadSlot, List.length_flatMap]
  simp only [length_leBytes, List.map_const', List.length_range, List.sum_replicate, smul_eq_mul]

theorem gives_smbLogSlot_beyond (hslot : 2048 ≤ s.smbSlot) : Gives .smbLogSlot s fun s' =>
    (∃ bs, s'.net = s.net ++ [.smb bs] ∧ bs.length = 32) ∧ s'.regs = s.regs ∧ SameMem s s' := by
  have hans : Answers .smbLogSlot s (send { s with freeIdx := s.freeIdx + 4 } (.smb (unreadSlot s))) := by
    rw [Answers, exec_smbLogSlot, execSmbLogSlot, if_neg (by omega), done, if_pos h, unreadSlot]
  exact gives_of_answers hans ⟨⟨unreadSlot s, rfl, length_unreadSlot s⟩, rfl, sameMem_of_parts rfl⟩

theorem answers_smbSlotSelect (n : BitVec 16) : Answers (.smbSlotSelect n) s { s with smbSlot := n.toNat } := by
  rw [Answers, exec_smbSlotSelect, execSmbSlotSelect, if_pos h, done]

/-- The status byte as a number (R573). -/
def statusNum (s : State) : Nat :=
  b2n s.failSafe.isSome * 128 + b2n s.lull * 64 + b2n s.pins.pwrOk * 32 + b2n s.pins.twinPresent * 16
    + (if s.entered then rd s mgPg mg_PHASE else 0xF)

omit h in
/-- Four flags above four bits. -/
theorem flagsByte_bits (a b c d : Bool) {p : Nat} (hp : p < 16) :
    let n := b2n a * 128 + b2n b * 64 + b2n c * 32 + b2n d * 16 + p
    n.testBit 7 = a ∧ n.testBit 6 = b ∧ n.testBit 5 = c ∧ n.testBit 4 = d ∧ n < 256 ∧ n % 16 = p := by
  revert a b c d p
  decide

theorem gives_smbStatus : Gives .smbStatus s fun s' => ∃ b, s'.net = s.net ++ [.smb [b]] ∧ s'.regs = s.regs
    ∧ b.getLsbD 7 = s.failSafe.isSome ∧ b.getLsbD 6 = s.lull ∧ b.getLsbD 5 = s.pins.pwrOk
    ∧ b.getLsbD 4 = s.pins.twinPresent ∧ b.toNat % 16 = (if s.entered then rd s mgPg mg_PHASE else 15) := by
  have hphase : (if s.entered then rd s mgPg mg_PHASE else 15) < 16 := by
    split
    · exact rdi_lt s mgPg mg_PHASE 0
    · decide
  obtain ⟨hsafe, hlull, hpwr, htwin, hlt, hmod⟩ := flagsByte_bits s.failSafe.isSome s.lull s.pins.pwrOk s.pins.twinPresent hphase
  have hbyte : b1 (statusNum s) = [BitVec.ofNat 8 (statusNum s)] := rfl
  have hnum : (BitVec.ofNat 8 (statusNum s)).toNat = statusNum s := (BitVec.toNat_ofNat _ _).trans (Nat.mod_eq_of_lt hlt)
  refine gives_of_answers (answers_smb_on h (exec_smbStatus s)) ⟨BitVec.ofNat 8 (statusNum s), congrArg (fun bs => s.net ++ [.smb bs]) hbyte, rfl, ?_⟩
  simp only [BitVec.getLsbD, hnum]
  exact ⟨hsafe, hlull, hpwr, htwin, hmod⟩

end

/-- Settles O60: resets by what they keep outside the registers, the SMBus target by its one reply. -/
theorem powerResetAndSmbus : Obligations.PowerResetAndSmbus := by
  refine ⟨fun s => ⟨gives_stbyValid, answers_stbyValid, fun mv => gives_mainApplied, fun mv => gives_mainApplied_quiet,
      gives_pwrOk s, gives_resetN_high s, gives_resetN_fall, gives_resetN_low,
      fun mv c hout hc => ⟨gives_mainLeaves_high (answers_mainLeaves hout hc), gives_mainLeaves_low (answers_mainLeaves hout hc)⟩,
      fun mv => answers_mainFault_quiet, gives_stbyLoss, answers_stbyLoss_off, gives_twinPresent s⟩,
    fun s h n c => answers_smb_off h n, fun s h => ⟨?_, ?_, ?_, ?_, answers_smbLogSlot h, gives_smbLogSlot_beyond h,
      gives_smbStatus h, answers_smbSlotSelect h⟩⟩
  · exact answers_smb_on h (exec_smbPower s)
  · exact answers_smb_on h (exec_smbTemperature s)
  · exact answers_smb_on h (exec_smbHeadSeq s)
  · exact answers_smb_on h (exec_smbDieId s)

end Sys2Proof.Machine
end

section
/-! PROOFS. Stow (R409 to R412): the command, and the save of the module's state. -/

namespace Sys2Proof.Machine

open Sys2Proof.Claims

/-! ### Completions of commands that change state -/

section
variable {s x : State} {q : QRef} {h : HostQ} {e : List Byte}

/-- A command completes in state `x`: the queue takes its entry back, and the rest of the answer is `x`. -/
def completedIn (s x : State) (q : QRef) (h : HostQ) (e : List Byte) (st d : Nat) : State :=
  settle s (queuePut x (qref q) (some (posted h (cplOf e st d))))

theorem completedIn_frame (st d : Nat) : (completedIn s x q h e st d).stowReq = x.stowReq
    ∧ (completedIn s x q h e st d).nextStitch = x.nextStitch ∧ (completedIn s x q h e st d).regs = x.regs
    ∧ (completedIn s x q h e st d).logQ = x.logQ ∧ memParts (completedIn s x q h e st d) = memParts x :=
  ⟨rfl, rfl, rfl, rfl, rfl⟩

theorem completedIn_mem (st d : Nat) : (completedIn s x q h e st d).lp = x.lp ∧ (completedIn s x q h e st d).spool = x.spool
    ∧ (completedIn s x q h e st d).flash = x.flash :=
  ⟨rfl, rfl, rfl⟩

theorem posts_completedIn {c : Instr} {op st d : Nat} {body : State → Nat → List Byte → State} {P : State → Prop}
    (hexec : Machine.exec c s = hostCmd q op body s) (r : EntryRuns s q op h e)
    (hbody : body (taken s q h) (qref q) e = complete x (qref q) e st d) (hx : hostQueues x = hostQueues (taken s q h))
    (hP : P (completedIn s x q h e st d)) : Posts c s q h e st d P := by
  refine ⟨_, hexec.trans (hostCmd_runs s q op h e body r), ?_⟩
  rw [hbody, complete_taken hx]
  refine ⟨?_, hP⟩
  rw [queueGet, settle_queues]
  exact queueGet_queuePut _ _ _

/-- A command that changes state runs while no other one does (R522). -/
theorem stateCmd_taken {k : Nat} {body : State → Nat → List Byte → State} (h' : s.mgmtBusy = none) :
    stateCmd body (taken s q h) k e = body (taken s q h) k e := by
  have htaken : (taken s q h).mgmtBusy = none := h'
  rw [stateCmd, htaken]

theorem taken_frame : (taken s q h).stowReq = s.stowReq ∧ (taken s q h).nextStitch = s.nextStitch ∧ (taken s q h).logQ = s.logQ
    ∧ aonCycle (taken s q h) = aonCycle s := ⟨rfl, rfl, rfl, rfl⟩

theorem logReq_stow (x : State) (sev code source : Nat) (payload : List Byte) :
    (logReq x sev code source payload).stowReq = x.stowReq ∧ (logReq x sev code source payload).nextStitch = x.nextStitch
      ∧ (logReq x sev code source payload).spool = x.spool := by
  obtain ⟨_, _, _, _, heq⟩ := logReq_eq x sev code source payload
  rw [heq]
  exact ⟨rfl, rfl, rfl⟩

theorem freshFree_frame (x : State) : (freshFree x).2.stowReq = x.stowReq ∧ (freshFree x).2.nextStitch = x.nextStitch
    ∧ (freshFree x).2.logQ = x.logQ ∧ memParts (freshFree x).2 = memParts x := ⟨rfl, rfl, rfl, rfl⟩

/-- What a command leaves that is refused with a record, whether or not its DETAIL is a free value. -/
theorem refused_logged {sev code source st d : Nat} {payload : List Byte} {x y : State}
    (hy : y = logReq (taken s q h) sev code source payload)
    (hx : x.stowReq = y.stowReq ∧ x.nextStitch = y.nextStitch ∧ x.logQ = y.logQ ∧ memParts x = memParts y) :
    (completedIn s x q h e st d).stowReq = s.stowReq ∧ (completedIn s x q h e st d).nextStitch = s.nextStitch
      ∧ Logs s (completedIn s x q h e st d) sev code source payload ∧ SameMem s (completedIn s x q h e st d) := by
  subst hy
  obtain ⟨hreq, hnext, hlog, hmem⟩ := hx
  obtain ⟨hreq', hnext', -, hlog', hmem'⟩ := completedIn_frame (s := s) (x := x) (q := q) (h := h) (e := e) st d
  obtain ⟨hreq'', hnext'', -⟩ := logReq_stow (taken s q h) sev code source payload
  obtain ⟨-, -, hmem''⟩ := logReq_keeps (taken s q h) sev code source payload
  obtain ⟨hreq3, hnext3, hlog3, hcycle⟩ := taken_frame (s := s) (q := q) (h := h)
  refine ⟨?_, ?_, ?_, sameMem_of_parts ?_⟩
  · rw [hreq', hreq, hreq'', hreq3]
  · rw [hnext', hnext, hnext'', hnext3]
  · rw [Logs, hlog', hlog, logReq_logQ, hlog3, hcycle]
  · rw [hmem', hmem, hmem'', memParts_taken]

end

/-! ### STOW -/

/-- A stow that is accepted (R409). -/
def stowRequested (s : State) (k a : Nat) : State := { s with stowReq := some { k := k, area := a }, stowTold := [] }

/-- It wakes the sleeping tiles. -/
def stowAccepted (s : State) (k a : Nat) : State := forEach s.tileList (fun t s => ring s t) (stowRequested s k a)

/-- STOW on the queue. -/
def stowBody (s : State) (k : Nat) (e : List Byte) : State :=
  if arg e 1 % 2 ^ 30 ≠ 0 ∨ ¬ inLp (arg e 1) areaBytes then complete s k e csBadField 0x10
  else if areaBad s (arg e 1) then complete (logReq s 2 0x0812 mgPg (leBytes 8 (arg e 1))) k e csRefused 1
  else if arg e 0 ≤ s.nextStitch then refuseFree (logReq s 2 0x0806 mgPg (leBytes 8 (arg e 0))) k e
  else complete (stowAccepted s (arg e 0) (arg e 1)) k e csOK 0

theorem exec_stow_body (q : QRef) (s : State) : Machine.exec (.stow q) s = hostCmd q 0x46 (stateCmd stowBody) s := rfl

/-- Waking the sleeping tiles changes nothing but their marks. -/
theorem rings_frame (l : List Tile) (s : State) : (forEach l (fun t s => ring s t) s).regs = s.regs
    ∧ (forEach l (fun t s => ring s t) s).lp = s.lp ∧ (forEach l (fun t s => ring s t) s).spool = s.spool
    ∧ (forEach l (fun t s => ring s t) s).stowReq = s.stowReq
    ∧ hostQueues (forEach l (fun t s => ring s t) s) = hostQueues s := by
  refine forEach_induction (P := fun x => x.regs = s.regs ∧ x.lp = s.lp ∧ x.spool = s.spool ∧ x.stowReq = s.stowReq
    ∧ hostQueues x = hostQueues s) (fun t x hx => ?_) l ⟨rfl, rfl, rfl, rfl, rfl⟩
  rcases ring_eq x t with heq | heq
  · rwa [heq]
  · rw [hostQueues_ring, heq]
    exact hx

theorem stowRequested_frame (s : State) (k a : Nat) : (stowRequested s k a).regs = s.regs ∧ (stowRequested s k a).lp = s.lp
    ∧ (stowRequested s k a).spool = s.spool ∧ (stowRequested s k a).stowReq = some { k := k, area := a }
    ∧ hostQueues (stowRequested s k a) = hostQueues s := ⟨rfl, rfl, rfl, rfl, rfl⟩

theorem stowAccepted_frame (s : State) (k a : Nat) : (stowAccepted s k a).regs = s.regs ∧ (stowAccepted s k a).lp = s.lp
    ∧ (stowAccepted s k a).spool = s.spool ∧ (stowAccepted s k a).stowReq = some { k := k, area := a }
    ∧ hostQueues (stowAccepted s k a) = hostQueues s := by
  obtain ⟨hregs, hlp, hspool, hreq, hqueues⟩ := rings_frame s.tileList (stowRequested s k a)
  obtain ⟨hregs', hlp', hspool', hreq', hqueues'⟩ := stowRequested_frame s k a
  exact ⟨hregs.trans hregs', hlp.trans hlp', hspool.trans hspool', hreq.trans hreq', hqueues.trans hqueues'⟩

section
variable {s : State} {q : QRef} {h : HostQ} {e : List Byte} (r : EntryRuns s q 0x46 h e) (hbusy : s.mgmtBusy = none)
include r hbusy

theorem posts_stow_badField (hbad : arg e 1 % 2 ^ 30 ≠ 0 ∨ inLp (arg e 1) areaBytes = false) :
    Posts (.stow q) s q h e csBadField 0x10 fun s' => s'.stowReq = s.stowReq ∧ s'.regs = s.regs ∧ SameMem s s' := by
  have hbody : stowBody (taken s q h) (qref q) e = complete (taken s q h) (qref q) e csBadField 0x10 :=
    if_pos (hbad.imp_right fun hlp => by rw [hlp]; decide)
  obtain ⟨hreq, -, hregs, -, hmem⟩ := completedIn_frame (s := s) (x := taken s q h) (q := q) (h := h) (e := e) csBadField 0x10
  obtain ⟨hreq', -⟩ := taken_frame (s := s) (q := q) (h := h)
  exact posts_completedIn (exec_stow_body q s) r ((stateCmd_taken hbusy).trans hbody) rfl
    ⟨hreq.trans hreq', hregs.trans taken_regs, sameMem_of_parts (hmem.trans memParts_taken)⟩

variable (haligned : arg e 1 % 2 ^ 30 = 0) (hlp : inLp (arg e 1) areaBytes = true)
include haligned hlp

omit r hbusy in
theorem stowBody_inLp : stowBody (taken s q h) (qref q) e
    = if areaBad (taken s q h) (arg e 1) then
        complete (logReq (taken s q h) 2 0x0812 mgPg (leBytes 8 (arg e 1))) (qref q) e csRefused 1
      else if arg e 0 ≤ s.nextStitch then refuseFree (logReq (taken s q h) 2 0x0806 mgPg (leBytes 8 (arg e 0))) (qref q) e
      else complete (stowAccepted (taken s q h) (arg e 0) (arg e 1)) (qref q) e csOK 0 :=
  if_neg fun hbad => hbad.elim (fun hne => hne haligned) fun hout => hout hlp

theorem posts_stow_areaBad (hbad : areaBad (taken s q h) (arg e 1) = true) : Posts (.stow q) s q h e csRefused 1 fun s' =>
    s'.stowReq = s.stowReq ∧ Logs s s' 2 0x0812 mgPg (leBytes 8 (arg e 1)) ∧ SameMem s s' := by
  obtain ⟨hreq, -, hlogs, hmem⟩ := refused_logged (s := s) (q := q) (h := h) (e := e) (st := csRefused) (d := 1) rfl
    ⟨rfl, rfl, rfl, rfl⟩
  refine posts_completedIn (exec_stow_body q s) r ((stateCmd_taken hbusy).trans ((stowBody_inLp haligned hlp).trans (if_pos hbad)))
    (hostQueues_logReq _ _ _ _ _) ⟨hreq, hlogs, hmem⟩

theorem posts_stow_begun (hgood : areaBad (taken s q h) (arg e 1) = false) (hk : arg e 0 ≤ s.nextStitch) :
    ∃ d, Posts (.stow q) s q h e csRefused d fun s' =>
      s'.stowReq = s.stowReq ∧ Logs s s' 2 0x0806 mgPg (leBytes 8 (arg e 0)) ∧ SameMem s s' := by
  obtain ⟨hreq, -, hlogs, hmem⟩ := refused_logged (s := s) (q := q) (h := h) (e := e) (st := csRefused)
    (d := (freshFree (logReq (taken s q h) 2 0x0806 mgPg (leBytes 8 (arg e 0)))).1.toNat % 2 ^ 32) rfl
    (freshFree_frame (logReq (taken s q h) 2 0x0806 mgPg (leBytes 8 (arg e 0))))
  refine ⟨_, posts_completedIn (exec_stow_body q s) r ((stateCmd_taken hbusy).trans ((stowBody_inLp haligned hlp).trans
    ((if_neg (by rw [hgood]; decide)).trans (if_pos hk)))) ((hostQueues_freshFree _).trans (hostQueues_logReq _ _ _ _ _))
    ⟨hreq, hlogs, hmem⟩⟩

theorem posts_stow_accepted (hgood : areaBad (taken s q h) (arg e 1) = false) (hk : s.nextStitch < arg e 0) :
    Posts (.stow q) s q h e csOK 0 fun s' =>
      s'.stowReq = some { k := arg e 0, area := arg e 1 } ∧ s'.regs = s.regs ∧ s'.lp = s.lp ∧ s'.spool = s.spool := by
  obtain ⟨hregs, hlp', hspool, hreq, hqueues⟩ := stowAccepted_frame (taken s q h) (arg e 0) (arg e 1)
  obtain ⟨hreq', -, hregs', -, -⟩ := completedIn_frame (s := s) (x := stowAccepted (taken s q h) (arg e 0) (arg e 1)) (q := q)
    (h := h) (e := e) csOK 0
  obtain ⟨hlp'', hspool'', -⟩ := completedIn_mem (s := s) (x := stowAccepted (taken s q h) (arg e 0) (arg e 1)) (q := q)
    (h := h) (e := e) csOK 0
  have hparts := sameMem_of_parts (memParts_taken (s := s) (q := q) (h := h))
  obtain ⟨hspool3, -, -, hlp3, -⟩ := hparts
  exact posts_completedIn (exec_stow_body q s) r ((stateCmd_taken hbusy).trans ((stowBody_inLp haligned hlp).trans
    ((if_neg (by rw [hgood]; decide)).trans (if_neg (by omega))))) hqueues
    ⟨hreq'.trans hreq, hregs'.trans (hregs.trans taken_regs), hlp''.trans (hlp'.trans hlp3), hspool''.trans (hspool.trans hspool3)⟩

end

/-! ### The read of the spools -/

/-- What a read of a spool leaves: the data, the uncorrectable words, the tiles and their map, and the stow request. -/
def readParts (s : State) := (s.lp, s.spool, s.tiles, s.spoolBad, s.unusable, s.fuses, s.stowReq)

theorem readParts_of_regsOnly {s x : State} (h : RegsOnly s x) : readParts x = readParts s := by
  obtain ⟨r, rfl⟩ := h
  rfl

theorem readParts_inc (s : State) (page n : Nat) (f : Fld) : readParts (inc s page f n) = readParts s :=
  readParts_of_regsOnly (regsOnly_wri (regsOnly_refl s) _ _ _ _)

theorem readParts_raiseF (s : State) (page : Nat) (f : Fld) : readParts (raiseF s page f) = readParts s := by
  obtain ⟨_, _, _, heq⟩ := raiseBit_eq s page f.lo
  rw [raiseF, heq]
  rfl

theorem readParts_logReq (s : State) (sev code source : Nat) (payload : List Byte) :
    readParts (logReq s sev code source payload) = readParts s := by
  obtain ⟨_, _, _, _, heq⟩ := logReq_eq s sev code source payload
  rw [heq]
  rfl

theorem readParts_repairWrite (s : State) (kind a b seq : Nat) : readParts (repairWrite s kind a b seq) = readParts s := by
  unfold repairWrite
  split
  · exact readParts_logReq _ _ _ _ _
  · rfl

theorem readParts_spoolErr (s : State) (p o port type synd : Nat) : readParts (spoolErr s p o port type synd) = readParts s := by
  refine readParts_of_regsOnly ?_
  unfold spoolErr
  dsimp only
  repeat refine regsOnly_wr ?_ _ _ _
  exact regsOnly_refl s

theorem readParts_spoolUe (s : State) (p o port : Nat) (synd : Option (BitVec 8)) :
    readParts (spoolUe s p o port synd) = readParts s := by
  unfold spoolUe
  dsimp only
  rw [readParts_logReq, readParts_inc, readParts_raiseF, readParts_spoolErr]

/-- The count of corrected errors of a bank row. -/
def rowCount (s : State) (p o : Nat) : Nat := smGet (fun _ => 0) s.spoolCe ((p * 32 + spBank o) * 256 + spBrow o) + 1

/-- That count goes up by one (R273). -/
def rowCounted (s : State) (p o : Nat) : State :=
  { s with spoolCe := smPut (fun _ => 0) s.spoolCe ((p * 32 + spBank o) * 256 + spBrow o) (rowCount s p o) }

/-- The limit of the bank row is reached: a repair record and a MEM record (R276). -/
def rowWorn (s : State) (p o : Nat) : State :=
  logReq (inc (raiseF (repairWrite s 2 p (spBank o * 256 + spBrow o) (nextSeqOf s + 1)) stPg st_F_CE_LIMIT) stPg st_REPAIR_PEND 1)
    1 0x0202 stPg (b2 p ++ b1 (spBank o) ++ b1 (spBrow o))

/-- What a corrected error of a bank row does once it is captured. -/
def rowCorrected (s : State) (p o : Nat) : State :=
  if rowCount s p o = rd (rowCounted s p o) stPg st_CE_LIMIT then rowWorn (rowCounted s p o) p o else rowCounted s p o

theorem spoolCorrect_eq (s : State) (p o port : Nat) (synd : Option (BitVec 8)) : spoolCorrect s p o port synd
    = rowCorrected (inc (spoolErr s p o port 1 (syndOf s (p * 0x100000 + o / 8) synd)) stPg st_CE_CNT 1) p o := rfl

theorem readParts_rowCounted (s : State) (p o : Nat) : readParts (rowCounted s p o) = readParts s := rfl

theorem readParts_rowWorn (s : State) (p o : Nat) : readParts (rowWorn s p o) = readParts s := by
  rw [rowWorn, readParts_logReq, readParts_inc, readParts_raiseF, readParts_repairWrite]

theorem readParts_rowCorrected (s : State) (p o : Nat) : readParts (rowCorrected s p o) = readParts s := by
  unfold rowCorrected
  split
  · rw [readParts_rowWorn, readParts_rowCounted]
  · exact readParts_rowCounted s p o

theorem readParts_spoolCorrect (s : State) (p o port : Nat) (synd : Option (BitVec 8)) :
    readParts (spoolCorrect s p o port synd) = readParts s := by
  rw [spoolCorrect_eq, readParts_rowCorrected, readParts_inc, readParts_spoolErr]

theorem readParts_spoolWeak (s : State) (ws : List Nat) : readParts { s with spoolWeak := ws } = readParts s := rfl

theorem spoolFixes_cons (p port : Nat) (synd : Option (BitVec 8)) (w : Nat) (ws : List Nat) (s : State) :
    spoolFixes p port synd (w :: ws) s = spoolFixes p port synd ws
      (spoolCorrect { s with spoolWeak := s.spoolWeak.erase w } p ((w - p * 0x100000) * 8) port synd) := by
  delta spoolFixes
  rfl

theorem readParts_spoolFixes (p port : Nat) (synd : Option (BitVec 8)) (ws : List Nat) (s : State) :
    readParts (spoolFixes p port synd ws s) = readParts s := by
  induction ws generalizing s with
  | nil => rfl
  | cons w ws ih => rw [spoolFixes_cons, ih, readParts_spoolCorrect, readParts_spoolWeak]

theorem readParts_spoolCheck (s : State) (p o n port : Nat) (synd : Option (BitVec 8)) :
    readParts (spoolCheck s p o n .ok port synd).2 = readParts s := by
  unfold spoolCheck
  split
  · exact readParts_spoolUe _ _ _ _ _
  · exact readParts_spoolFixes _ _ _ _ _

/-- One spool is read after what stands of the read before it. -/
def spoolRead (r : Bool × State) (t : Nat) : Bool × State :=
  let q := spoolCheck r.2 (r.2.ptile t) 0 0x500000 .ok portMaint none
  (r.1 && q.1, q.2)

theorem stowRead_eq (s : State) : stowRead s = (List.range s.ntiles).foldl spoolRead (true, s) := rfl

theorem ptile_of_readParts {x s : State} (h : readParts x = readParts s) (t : Nat) : x.ptile t = s.ptile t := by
  simp only [readParts, Prod.mk.injEq] at h
  obtain ⟨-, -, -, -, hmap, hfuses, -⟩ := h
  simp only [State.ptile, State.usableCols, State.unusableRow, State.ncols, hmap, hfuses]

theorem spIsBad_of_readParts {x s : State} (h : readParts x = readParts s) (p o n : Nat) : spIsBad x p o n = spIsBad s p o n := by
  simp only [readParts, Prod.mk.injEq] at h
  obtain ⟨-, -, -, hbad, -, -, -⟩ := h
  rw [spIsBad, hbad, ← spIsBad]

theorem readParts_spoolReads (l : List Nat) (r : Bool × State) : readParts (l.foldl spoolRead r).2 = readParts r.2 := by
  induction l generalizing r with
  | nil => rfl
  | cons t l ih => exact (ih _).trans (readParts_spoolCheck _ _ _ _ _ _)

/-- The reads fail from the first uncorrectable word on (R274). -/
theorem spoolReads_bad {s : State} (l : List Nat) (r : Bool × State) (hparts : readParts r.2 = readParts s)
    (h : r.1 = false ∨ ∃ t ∈ l, spIsBad s (s.ptile t) 0 0x500000 = true) : (l.foldl spoolRead r).1 = false := by
  induction l generalizing r with
  | nil => exact h.resolve_right fun ⟨_, hmem, _⟩ => absurd hmem List.not_mem_nil
  | cons t l ih =>
    refine ih (spoolRead r t) ((readParts_spoolCheck _ _ _ _ _ _).trans hparts) ?_
    rcases h with hfailed | ⟨u, hu, hbad⟩
    · exact .inl (by rw [spoolRead, hfailed, Bool.false_and])
    · rcases List.mem_cons.mp hu with rfl | htail
      · have hbad' : spIsBad r.2 (r.2.ptile u) 0 0x500000 = true := by
          rwa [ptile_of_readParts hparts, spIsBad_of_readParts hparts]
        exact .inl (by rw [spoolRead, spoolCheck_bad hbad', Bool.and_false])
      · exact .inr ⟨u, htail, hbad⟩

theorem spoolReads_good {s : State} (l : List Nat) (h : ∀ t ∈ l, SpGood s (s.ptile t) 0 0x500000) :
    l.foldl spoolRead (true, s) = (true, s) := by
  induction l with
  | nil => rfl
  | cons t l ih =>
    have hread : spoolRead (true, s) t = (true, s) := by
      rw [spoolRead, spoolCheck_good (h t List.mem_cons_self), Bool.true_and]
    rw [List.foldl_cons, hread]
    exact ih fun u hu => h u (List.mem_cons_of_mem _ hu)

/-! ### STOW_SAVE -/

theorem answers_stowSave_idle {s : State} (h : s.stowReq = none ∨ stowReady s = false) : Answers .stowSave s s := by
  rw [Answers, exec_stowSave, execStowSave, done]
  cases hreq : s.stowReq with
  | none => rfl
  | some r =>
    have hwaits : stowReady s = false := h.resolve_left (by rw [hreq]; exact Option.some_ne_none r)
    dsimp only
    rw [if_pos (by rw [hwaits]; decide)]

theorem answers_stowSave {s : State} {r : StowReq} (hreq : s.stowReq = some r) (hready : stowReady s = true) :
    Answers .stowSave s (if (stowRead s).1 then logReq (saveModule (stowRead s).2 r) 0 0x0807 mgPg (leBytes 8 r.k)
      else abortStow (stowRead s).2) := by
  rw [Answers, exec_stowSave, execStowSave, done, hreq]
  dsimp only
  rw [if_neg (not_not.mpr hready)]

theorem abortStow_request (s : State) : (abortStow s).stowReq = none ∧ (abortStow s).tiles = s.tiles := by
  unfold abortStow
  split
  next r _ =>
    obtain ⟨_, _, _, _, heq⟩ := logReq_eq { s with stowReq := none, stowTold := [] } 3 0x0808 mgPg (leBytes 8 r.k)
    rw [heq]
    exact ⟨rfl, rfl⟩
  next hnone => exact ⟨hnone, rfl⟩

theorem gives_stowSave_bad {s : State} {r : StowReq} (hreq : s.stowReq = some r) (hready : stowReady s = true)
    (hbad : ∃ u, u < s.ntiles ∧ spIsBad s (s.ptile u) 0 0x500000 = true) :
    Gives .stowSave s fun s' => s'.stowReq = none ∧ s'.lp = s.lp ∧ s'.spool = s.spool ∧ s'.tiles = s.tiles := by
  obtain ⟨u, hu, hbad⟩ := hbad
  have hfailed : (stowRead s).1 = false := by
    rw [stowRead_eq]
    exact spoolReads_bad _ _ rfl (.inr ⟨u, List.mem_range.mpr hu, hbad⟩)
  have hparts : readParts (stowRead s).2 = readParts s := by
    rw [stowRead_eq, readParts_spoolReads]
  simp only [readParts, Prod.mk.injEq] at hparts
  obtain ⟨hlp, hspool, htiles, -⟩ := hparts
  obtain ⟨hspool', hlp', -, -⟩ := abortStow_keeps (s := (stowRead s).2)
  obtain ⟨hnone, htiles'⟩ := abortStow_request (stowRead s).2
  have hans := answers_stowSave hreq hready
  rw [if_neg (by rw [hfailed]; decide)] at hans
  refine gives_of_answers hans ⟨?_, ?_, ?_, ?_⟩
  · rw [settle_stowReq, hnone]
  · rw [settle_lp, hlp', hlp]
  · rw [settle_spool, hspool', hspool]
  · rw [settle_tiles, htiles', htiles]

/-- A header behind its first 24 bytes, before it is filled (R412). -/
def headerTail (s : State) (content : List Byte) : List Byte :=
  leBytes 4 (rd s bbPg bb_STEP) ++ leBytes 2 (ownRank s) ++ leBytes 2 0 ++ padTo 64 (bodyDigest s) ++ digestBytes (shapePart s)
    ++ digestBytes content

theorem stowHeader_start (s : State) (k : Nat) (content : List Byte) : stowHeader s k content
    = stowMagic ++ (leBytes 8 (jobId s) ++ (leBytes 8 k ++ (headerTail s content ++ List.replicate 256 0).take 232)) := by
  have hlength : (stowMagic ++ leBytes 8 (jobId s) ++ leBytes 8 k).length = 24 := by
    simp only [List.length_append, length_leBytes]
    rfl
  have hparts : stowHeader s k content = padTo 256 (stowMagic ++ leBytes 8 (jobId s) ++ leBytes 8 k ++ headerTail s content) := by
    simp only [stowHeader, headerTail, List.append_assoc]
  rw [hparts, padTo, List.append_assoc (stowMagic ++ leBytes 8 (jobId s) ++ leBytes 8 k), List.take_append, hlength,
    List.take_of_length_le (by rw [hlength]; decide)]
  simp only [List.append_assoc, Nat.reduceSub]

theorem length_stowHeader (s : State) (k : Nat) (content : List Byte) : (stowHeader s k content).length = 256 := length_padTo _ _

theorem jobId_lt (s : State) : jobId s < 2 ^ 64 := by
  unfold jobId manField
  split
  · exact leNat_take_lt _ _
  · decide

/-- What the area begins with once the module is saved. -/
theorem saveModule_header (s : State) (r : StowReq) : memRead (saveModule s r).lp r.area 8 = stowMagic
    ∧ memNat (saveModule s r).lp (r.area + 8) 8 = jobId s ∧ memNat (saveModule s r).lp (r.area + 0x10) 8 = r.k % 2 ^ 64 := by
  have hinside : ∀ (m : SMap Byte) (content : List Byte) (o : Nat), o + 8 ≤ 256 →
      memRead (memWrite m r.area (stowHeader s r.k content)) (r.area + o) 8 = ((stowHeader s r.k content).drop o).take 8 :=
    fun m content o ho => memRead_memWrite_inside _ _ _ _ _ (by rwa [length_stowHeader])
  have hpart : ∀ (content : List Byte), (stowHeader s r.k content).take 8 = stowMagic
      ∧ ((stowHeader s r.k content).drop 8).take 8 = leBytes 8 (jobId s)
      ∧ ((stowHeader s r.k content).drop 0x10).take 8 = leBytes 8 r.k := fun content => by
    have hmagic : stowMagic.length = 8 := rfl
    have hfront : (stowMagic ++ leBytes 8 (jobId s)).length = 0x10 := by rw [List.length_append, length_leBytes]; rfl
    rw [stowHeader_start]
    refine ⟨List.take_left' hmagic, ?_, ?_⟩
    · rw [List.drop_left' hmagic, List.take_left' (length_leBytes 8 _)]
    · rw [← List.append_assoc, List.drop_left' hfront, List.take_left' (length_leBytes 8 _)]
  unfold saveModule memNat
  dsimp only
  refine ⟨(hinside _ _ 0 (by decide)).trans (hpart _).1, ?_, ?_⟩
  · rw [hinside _ _ 8 (by decide), (hpart _).2.1, leNat_leBytes]
    exact Nat.mod_eq_of_lt (jobId_lt s)
  · rw [hinside _ _ 0x10 (by decide), (hpart _).2.2, leNat_leBytes]
    exact congrArg (r.k % ·) (by decide)

theorem saveModule_frame (s : State) (r : StowReq) : (saveModule s r).stowReq = none ∧ (saveModule s r).spool = s.spool
    ∧ (saveModule s r).flash = s.flash ∧ (saveModule s r).tiles = s.tiles ∧ (saveModule s r).logQ = s.logQ
    ∧ (saveModule s r).ticks = s.ticks := by
  rw [saveModule]
  exact ⟨rfl, rfl, rfl, rfl, rfl, rfl⟩

theorem gives_stowSave_good {s : State} {r : StowReq} (hreq : s.stowReq = some r) (hready : stowReady s = true)
    (hgood : ∀ u, u < s.ntiles → SpGood s (s.ptile u) 0 0x500000) : Gives .stowSave s fun s' =>
      s'.stowReq = none ∧ memRead s'.lp r.area 8 = stowMagic ∧ memNat s'.lp (r.area + 8) 8 = jobId s
        ∧ memNat s'.lp (r.area + 0x10) 8 = r.k % 2 ^ 64 ∧ Logs s s' 0 0x0807 mgPg (leBytes 8 r.k)
        ∧ s'.spool = s.spool ∧ s'.flash = s.flash ∧ s'.tiles = s.tiles := by
  have hread : stowRead s = (true, s) := by
    rw [stowRead_eq]
    exact spoolReads_good _ fun t ht => hgood t (List.mem_range.mp ht)
  have hans := answers_stowSave hreq hready
  rw [hread, if_pos rfl] at hans
  obtain ⟨hnone, hspool, hflash, htiles, hlogQ, hticks⟩ := saveModule_frame s r
  obtain ⟨hmagic, hjob, hk⟩ := saveModule_header s r
  obtain ⟨hnone', -, -⟩ := logReq_stow (saveModule s r) 0 0x0807 mgPg (leBytes 8 r.k)
  obtain ⟨-, -, hmem⟩ := logReq_keeps (saveModule s r) 0 0x0807 mgPg (leBytes 8 r.k)
  obtain ⟨hspool', -, -, hlp', -, -, hflash', htiles'⟩ := sameMem_of_parts hmem
  refine gives_of_answers hans ⟨?_, ?_, ?_, ?_, logs_logReq hlogQ hticks _ _ _ _, ?_, ?_, ?_⟩
  · rw [settle_stowReq, hnone', hnone]
  · rw [settle_lp, hlp', hmagic]
  · rw [settle_lp, hlp', hjob]
  · rw [settle_lp, hlp', hk]
  · rw [settle_spool, hspool', hspool]
  · rw [settle_flash, hflash', hflash]
  · rw [settle_tiles, htiles', htiles]

end Sys2Proof.Machine
end

section
/-! PROOFS. Resume (R413), and the statement about stows and resumes. -/

namespace Sys2Proof.Machine

open Sys2Proof.Claims

/-! ### What the restored state keeps -/

/-- LPDDR5X, flash, the host's queues and the step of the bobbin engine stay. -/
structure Resumed (s x : State) : Prop where
  lp : x.lp = s.lp
  flash : x.flash = s.flash
  queues : hostQueues x = hostQueues s
  step : rd x bbPg bb_STEP = rd s bbPg bb_STEP

theorem Resumed.refl (s : State) : Resumed s s := ⟨rfl, rfl, rfl, rfl⟩

theorem Resumed.trans {s x y : State} (h : Resumed s x) (h' : Resumed x y) : Resumed s y :=
  ⟨h'.lp.trans h.lp, h'.flash.trans h.flash, h'.queues.trans h.queues, h'.step.trans h.step⟩

section
variable {s x : State} (hx : Resumed s x)
include hx

theorem resumed_wri (page : Nat) (f : Fld) (i v : Nat)
    (hne : bbPg * 0x1000 + bb_STEP.off ≠ page * 0x1000 + (f.off + f.stride * i)) : Resumed s (wri x page f i v) :=
  ⟨hx.lp, hx.flash, (hostQueues_wri _ _ _ _ _).trans hx.queues,
    (rdi_wri_ne _ _ _ _ _ _ _ _ (by simpa only [Nat.mul_zero, Nat.add_zero] using hne)).trans hx.step⟩

theorem resumed_wr (page : Nat) (f : Fld) (v : Nat) (hne : bbPg * 0x1000 + bb_STEP.off ≠ page * 0x1000 + f.off) :
    Resumed s (wr x page f v) :=
  resumed_wri hx page f 0 v (by simpa only [Nat.mul_zero, Nat.add_zero] using hne)

theorem resumed_wr64 (page : Nat) (lo hi : Fld) (v : Nat) (hlo : bbPg * 0x1000 + bb_STEP.off ≠ page * 0x1000 + lo.off)
    (hhi : bbPg * 0x1000 + bb_STEP.off ≠ page * 0x1000 + hi.off) : Resumed s (wr64 x page lo hi v) :=
  resumed_wr (resumed_wr hx page lo v hlo) page hi _ hhi

/-- The pages of tiles lie behind the engine's. -/
theorem resumed_tileWri {page : Nat} (hpage : 0x1000 ≤ page) (f : Fld) (i v : Nat) : Resumed s (wri x page f i v) :=
  resumed_wri hx page f i v (by simp only [bbPg, bb_STEP]; omega)

theorem resumed_tileWr {page : Nat} (hpage : 0x1000 ≤ page) (f : Fld) (v : Nat) : Resumed s (wr x page f v) :=
  resumed_tileWri hx hpage f 0 v

theorem resumed_tileWr64 {page : Nat} (hpage : 0x1000 ≤ page) (lo hi : Fld) (v : Nat) : Resumed s (wr64 x page lo hi v) :=
  resumed_tileWr (resumed_tileWr hx hpage lo v) hpage hi _

theorem resumed_modTile (t : Tile) (f : TileSt → TileSt) : Resumed s (x.modTile t f) :=
  hx.trans ⟨rfl, rfl, rfl, rfl⟩

theorem resumed_setPort (p : Nat) (v : PortSt) : Resumed s (setPort x p v) := hx.trans ⟨rfl, rfl, rfl, rfl⟩

theorem resumed_progress : Resumed s (progress x) := hx.trans ⟨rfl, rfl, rfl, rfl⟩

theorem resumed_request (t : Tile) (row : Nat) : Resumed s (request x t row) := hx.trans ⟨rfl, rfl, rfl, rfl⟩

theorem resumed_unrequestAll (t : Tile) : Resumed s (unrequestAll x t) := hx.trans ⟨rfl, rfl, rfl, rfl⟩

theorem resumed_fifoReset (row unit : Nat) : Resumed s (fifoReset x row unit) := by
  unfold fifoReset
  split
  · exact hx
  · exact hx.trans ⟨rfl, rfl, rfl, rfl⟩

theorem resumed_raiseF (page : Nat) (f : Fld) (hfault : bbPg * 0x1000 + bb_STEP.off ≠ page * 0x1000 + pg_FAULT.off)
    (hforced : bbPg * 0x1000 + bb_STEP.off ≠ page * 0x1000 + pg_FORCED.off) : Resumed s (raiseF x page f) := by
  have hstep : rd (raiseF x page f) bbPg bb_STEP = rd x bbPg bb_STEP := rd_raiseF_ne _ _ _ _ _ hfault hforced
  obtain ⟨-, -, hmem⟩ := raiseF_keeps x page f
  obtain ⟨-, -, -, hlp, -, -, hflash, -⟩ := sameMem_of_parts hmem
  exact hx.trans ⟨hlp, hflash, hostQueues_raiseF _ _ _, hstep⟩

theorem resumed_forEach {α : Type} {l : List α} {f : α → State → State} (hf : ∀ a y, Resumed s y → Resumed s (f a y)) :
    Resumed s (forEach l f x) := forEach_induction (P := Resumed s) hf l hx

end

theorem le_syPg (t : Tile) : 0x1000 ≤ syPg t := by simp only [syPg]; omega
theorem le_tlPg (t : Tile) : 0x1000 ≤ tlPg t := by simp only [tlPg]; omega
theorem le_mxPg (t : Tile) : 0x1000 ≤ mxPg t := by simp only [mxPg]; omega

/-! ### The operations of a resume -/

section
variable {s x : State} (hx : Resumed s x)
include hx

theorem resumed_clearSync (t : Tile) : Resumed s (clearSync x t) := by
  have hsy := le_syPg t
  have hcounters := resumed_forEach (l := List.range 48) (resumed_progress hx) fun c y hy =>
    resumed_tileWri (resumed_tileWri (resumed_tileWri (resumed_tileWri hy hsy sy_CNT_COUNT c 0) hsy sy_PC_PROD_CNT c 0) hsy
      sy_PC_CONS_CNT c 0) hsy sy_OWN_LOST c 0
  exact resumed_tileWr (resumed_tileWr hcounters hsy _ _) hsy _ _

theorem resumed_updatePartner : Resumed s (updatePartner x) := by
  unfold updatePartner
  refine resumed_wr ?_ _ _ _ (by decide)
  split
  · exact resumed_raiseF hx _ _ (by decide) (by decide)
  · exact hx

theorem resumed_lkWr {p : Nat} (f : Fld) (v : Nat) (hf : f.off < 0x1000) : Resumed s (wr x (lkPg p) f v) :=
  resumed_wr hx _ _ _ (by simp only [bbPg, bb_STEP, lkPg]; omega)

theorem resumed_setState (p st : Nat) : Resumed s (setState x p st) :=
  resumed_updatePartner (resumed_lkWr hx lk_STATUS_STATE st (by decide))

theorem resumed_beginTraining (p : Nat) : Resumed s (beginTraining x p) := by
  unfold beginTraining
  have hready := resumed_lkWr (p := p) (resumed_fifoReset (resumed_fifoReset (resumed_setPort hx p PortSt.reset) 5 (p / 4)) 6 (p / 4))
    lk_STATUS_CAL_ACTIVE 0 (by decide)
  have htrain := resumed_setState hready p stTrain
  dsimp only
  exact resumed_lkWr (resumed_lkWr (resumed_lkWr htrain _ _ (by decide)) _ _ (by decide)) _ _ (by decide)

omit hx in
theorem resumed_stitchZero (x : State) : Resumed x { x with nextStitch := 0, stitchStall := 0 } := ⟨rfl, rfl, rfl, rfl⟩

theorem resumed_beginProgram : Resumed s (beginProgram x) := by
  unfold beginProgram
  have hbase : Resumed s (wr64 (wr64 x gsPg gs_ISSUE_LO gs_ISSUE_HI 0) gsPg gs_KBASE_LO gs_KBASE_HI 0) :=
    resumed_wr64 (resumed_wr64 hx _ _ _ _ (by decide) (by decide)) _ _ _ _ (by decide) (by decide)
  refine resumed_forEach (hbase.trans (resumed_stitchZero _)) fun t y hy => ?_
  exact resumed_modTile (resumed_tileWr (resumed_clearSync hy t) (le_syPg t) _ _) t _

theorem resumed_startTile (t : Tile) : Resumed s (startTile x t) := by
  have htl := le_tlPg t
  have hrun := resumed_tileWr hx htl tl_CTRL_RUN 1
  unfold startTile
  dsimp only
  split
  · exact hrun
  · exact resumed_modTile (resumed_tileWr (resumed_tileWr (resumed_tileWr (resumed_tileWr (resumed_tileWr (resumed_clearSync
      (resumed_unrequestAll hrun t) t) htl _ _) htl _ _) htl _ _) htl _ _) htl _ _) t _

theorem resumed_resumeTileAt (k issue : Nat) (t : Tile) : Resumed s (resumeTileAt k issue t x) := by
  have htl := le_tlPg t
  have hstart := resumed_startTile hx t
  unfold resumeTileAt
  dsimp only
  split
  · exact hstart
  · exact resumed_request (resumed_modTile (resumed_tileWr64 (resumed_tileWr (resumed_tileWr (resumed_tileWr (resumed_tileWr hstart
      htl _ _) htl _ _) htl _ _) htl _ _) htl _ _ _) t _) t _

omit hx

/-- The origin that an arming stores. -/
def t0Stored (s : State) (v : Nat) : State := wr64 s tmPg tm_T0_LO tm_T0_HI v

/-- An origin that has passed arms nothing. -/
def t0Late (s : State) : State := { s with t0 := none }

/-- The stitch and the rests start from the origin. -/
def t0Counters (s : State) : State := wr64 (wr64 s tmPg tm_STITCH_LO tm_STITCH_HI 0) gsPg gs_REST_LO gs_REST_HI 0

/-- An origin to come. -/
def t0Armed (s : State) (v : Nat) : State :=
  { s with t0 := some v, begun := false, resting := false, rests := [], holdN := [], holdFwd := [], passed := none }

theorem armT0_eq (s : State) (v : Nat) : armT0 s v = if v * 2 ^ 48 < (t0Stored s v).hallTime + 2000 * 2 ^ 48 then
    raiseF (t0Late (t0Stored s v)) tmPg tm_F_T0_LATE else t0Armed (t0Counters (t0Stored s v)) v := rfl

theorem resumed_t0Late (s : State) : Resumed s (t0Late s) := ⟨rfl, rfl, rfl, rfl⟩

theorem resumed_t0Armed (s : State) (v : Nat) : Resumed s (t0Armed s v) := ⟨rfl, rfl, rfl, rfl⟩

include hx

theorem resumed_armT0 (v : Nat) : Resumed s (armT0 x v) := by
  have ht0 : Resumed s (t0Stored x v) := resumed_wr64 hx _ _ _ _ (by decide) (by decide)
  rw [armT0_eq]
  split
  · exact resumed_raiseF (ht0.trans (resumed_t0Late _)) _ _ (by decide) (by decide)
  · have hcounters : Resumed s (t0Counters (t0Stored x v)) :=
      resumed_wr64 (resumed_wr64 ht0 _ _ _ _ (by decide) (by decide)) _ _ _ _ (by decide) (by decide)
    exact hcounters.trans (resumed_t0Armed _ v)

end

theorem resumed_tables (s : State) (nm : SMap NmEnt) (streamUse nextPsn : SMap Nat) (lastSeen : List Nat) (cxHdrs : List CxHdr)
    (cx : List CxGroup) : Resumed s { s with nm := nm, streamUse := streamUse, nextPsn := nextPsn, lastSeen := lastSeen,
                                             cxHdrs := cxHdrs, cx := cx } := ⟨rfl, rfl, rfl, rfl⟩

theorem resumed_restoreSaved (s : State) (ws : List Nat) : Resumed s (restoreSaved s ws).1 := by
  unfold restoreSaved
  dsimp only
  apply resumed_forEach
  · apply resumed_forEach
    · exact resumed_tables s _ _ _ _ _ _
    · exact fun c y hy => resumed_tileWr64 hy (le_mxPg _) _ _ _
  · intro p y hy
    apply resumed_setPort
    split
    · exact resumed_beginTraining hy p
    · exact hy

/-! ### The registers that a resume sets -/

theorem rd64_wr64 (s : State) (page : Nat) (lo hi : Fld) {v : Nat} (hv : v < 2 ^ 64) (hlo : lo.lo = 0 ∧ lo.hi = 31)
    (hhi : hi.lo = 0 ∧ hi.hi = 31) (hne : lo.off ≠ hi.off) : rd64 (wr64 s page lo hi v) page lo hi = v := by
  obtain ⟨hlolo, hlohi⟩ := hlo
  obtain ⟨hhilo, hhihi⟩ := hhi
  have hlow : rd (wr64 s page lo hi v) page lo = v % 2 ^ 32 := by
    rw [wr64, rd_wr_ne _ _ _ _ _ _ (by omega), rd_wr_same _ _ _ _ (by omega), hlolo, hlohi]
  have hhigh : rd (wr64 s page lo hi v) page hi = v / 2 ^ 32 := by
    rw [wr64, rd_wr_same _ _ _ _ (by omega), hhilo, hhihi]
    omega
  rw [rd64, hlow, hhigh]
  omega

theorem rd64_congr {x y : State} (h : x.regs = y.regs) (page : Nat) (lo hi : Fld) : rd64 x page lo hi = rd64 y page lo hi := by
  rw [rd64, rd_congr h, rd_congr h, ← rd64]

theorem rd_t0Counters (s : State) {page : Nat} {f : Fld}
    (h : (page = gsPg ∧ f.off ≠ gs_REST_LO.off ∧ f.off ≠ gs_REST_HI.off ∨ page = tmPg ∧ f.off ≠ tm_STITCH_LO.off ∧ f.off ≠ tm_STITCH_HI.off)
      ∧ f.off < 0x1000) : rd (t0Counters s) page f = rd s page f := by
  obtain ⟨hpage, hoff⟩ := h
  rw [t0Counters, wr64, rd_wr_ne _ _ _ _ _ _ ?_, rd_wr_ne _ _ _ _ _ _ ?_, wr64, rd_wr_ne _ _ _ _ _ _ ?_, rd_wr_ne _ _ _ _ _ _ ?_]
  all_goals
    rcases hpage with ⟨rfl, hlo, hhi⟩ | ⟨rfl, hlo, hhi⟩
    · simp only [gsPg, tmPg, gs_REST_LO, gs_REST_HI, tm_STITCH_LO, tm_STITCH_HI] at *
      omega
    · simp only [gsPg, tmPg, gs_REST_LO, gs_REST_HI, tm_STITCH_LO, tm_STITCH_HI] at *
      omega

/-- An arming keeps what it does not set: neither fault bits nor the counters lie there. -/
theorem rd_armT0 (s : State) (v : Nat) {page : Nat} {f : Fld}
    (h : (page = gsPg ∧ f.off ≠ gs_REST_LO.off ∧ f.off ≠ gs_REST_HI.off ∨ page = tmPg ∧ f.off ≠ tm_STITCH_LO.off ∧ f.off ≠ tm_STITCH_HI.off)
      ∧ f.off < 0x1000) (hfault : 0x040 ≤ f.off) : rd (armT0 s v) page f = rd (t0Stored s v) page f := by
  have hregs : (t0Late (t0Stored s v)).regs = (t0Stored s v).regs := by rw [t0Late]
  have hregs' : (t0Armed (t0Counters (t0Stored s v)) v).regs = (t0Counters (t0Stored s v)).regs := by rw [t0Armed]
  rw [armT0_eq]
  split
  · rw [rd_raiseF_ne _ _ _ _ _ ?_ ?_, rd_congr hregs]
    · obtain ⟨⟨rfl, -⟩ | ⟨rfl, -⟩, hoff⟩ := h
      · simp only [gsPg, tmPg, pg_FAULT]; omega
      · simp only [tmPg, pg_FAULT]; omega
    · obtain ⟨⟨rfl, -⟩ | ⟨rfl, -⟩, hoff⟩ := h
      · simp only [gsPg, tmPg, pg_FORCED]; omega
      · simp only [tmPg, pg_FORCED]; omega
  · rw [rd_congr hregs', rd_t0Counters _ h]

theorem rd64_armT0_kbase (s : State) (v : Nat) :
    rd64 (armT0 s v) gsPg gs_KBASE_LO gs_KBASE_HI = rd64 s gsPg gs_KBASE_LO gs_KBASE_HI := by
  rw [rd64, rd_armT0 _ _ (by decide) (by decide), rd_armT0 _ _ (by decide) (by decide), t0Stored, wr64,
    rd_wr_ne _ _ _ _ _ _ (by decide), rd_wr_ne _ _ _ _ _ _ (by decide), rd_wr_ne _ _ _ _ _ _ (by decide),
    rd_wr_ne _ _ _ _ _ _ (by decide), ← rd64]

theorem rd64_armT0_t0 (s : State) {v : Nat} (hv : v < 2 ^ 64) : rd64 (armT0 s v) tmPg tm_T0_LO tm_T0_HI = v := by
  rw [rd64, rd_armT0 _ _ (by decide) (by decide), rd_armT0 _ _ (by decide) (by decide), ← rd64, t0Stored]
  exact rd64_wr64 _ _ _ _ hv ⟨rfl, rfl⟩ ⟨rfl, rfl⟩ (by decide)

theorem t0Counters_nextStitch (s : State) : (t0Counters s).nextStitch = s.nextStitch := by
  rw [t0Counters, wr64, wr64, wr_nextStitch, wr_nextStitch, wr_nextStitch, wr_nextStitch]

theorem t0Stored_nextStitch (s : State) (v : Nat) : (t0Stored s v).nextStitch = s.nextStitch := by
  rw [t0Stored, wr64, wr_nextStitch, wr_nextStitch]

theorem t0Late_nextStitch (s : State) : (raiseF (t0Late s) tmPg tm_F_T0_LATE).nextStitch = s.nextStitch := by
  obtain ⟨_, _, _, heq⟩ := raiseBit_eq (t0Late s) tmPg tm_F_T0_LATE.lo
  rw [raiseF, heq]
  rfl

theorem t0Armed_nextStitch (s : State) (v : Nat) : (t0Armed s v).nextStitch = s.nextStitch := rfl

theorem armT0_nextStitch (s : State) (v : Nat) : (armT0 s v).nextStitch = s.nextStitch := by
  rw [armT0_eq]
  split
  · rw [t0Late_nextStitch, t0Stored_nextStitch]
  · rw [t0Armed_nextStitch, t0Counters_nextStitch, t0Stored_nextStitch]

/-! ### RESUME -/

/-- The spools as the area holds them. -/
def spoolsBack (s : State) (a : Nat) : State :=
  { s with spool := (List.range s.ntiles).foldl (fun m t => copyBytes s.lp (areaSpool a t) 0x500000 m (spKey (s.ptile t) 0)) s.spool,
           spoolBad := s.spoolBad.filter (fun w => !(decide (w % 0x100000 < 0xA0000) && (s.ltile (w / 0x100000)).isSome)),
           spoolWeak := s.spoolWeak.filter (fun w => !(decide (w % 0x100000 < 0xA0000) && (s.ltile (w / 0x100000)).isSome)) }

/-- The saved numbers are restored, and with them the issue count. -/
def numbersBack (s : State) (a : Nat) : State × Nat := restoreSaved (spoolsBack s a) (savedAt s (areaSaved a))

/-- The tiles start in their handlers. -/
def tilesBack (s : State) (k issue : Nat) : State := forEach s.tileList (resumeTileAt k issue) (beginProgram s)

/-- The issue count and the stitch base. -/
def basesSet (s : State) (issue k : Nat) : State := wr64 (wr64 s gsPg gs_ISSUE_LO gs_ISSUE_HI issue) gsPg gs_KBASE_LO gs_KBASE_HI k

def stitchSet (s : State) (k : Nat) : State := { s with nextStitch := k }

/-- The state that a resume arms. -/
def moduleBack (s : State) (a : Nat) : State :=
  stitchSet (basesSet (tilesBack (wr (numbersBack s a).1 bbPg bb_STEP (memNat s.lp (a + 0x18) 4)) (memNat s.lp (a + 0x10) 8)
    (numbersBack s a).2) (numbersBack s a).2 (memNat s.lp (a + 0x10) 8)) (memNat s.lp (a + 0x10) 8)

theorem resumeModule_eq (s : State) (a t0 : Nat) : resumeModule s a t0 = armT0 (moduleBack s a) t0 := rfl

theorem resumed_spoolsBack (s : State) (a : Nat) : Resumed s (spoolsBack s a) := ⟨rfl, rfl, rfl, rfl⟩

theorem resumed_numbersBack (s : State) (a : Nat) : Resumed s (numbersBack s a).1 :=
  (resumed_spoolsBack s a).trans (resumed_restoreSaved _ _)

theorem resumed_tilesBack (s : State) (k issue : Nat) : Resumed s (tilesBack s k issue) := by
  unfold tilesBack
  exact resumed_forEach (resumed_beginProgram (.refl s)) fun t y hy => resumed_resumeTileAt hy k issue t

theorem resumed_basesSet (s : State) (issue k : Nat) : Resumed s (basesSet s issue k) :=
  resumed_wr64 (resumed_wr64 (.refl s) _ _ _ _ (by decide) (by decide)) _ _ _ _ (by decide) (by decide)

theorem stitchSet_frame (s : State) (k : Nat) : Resumed s (stitchSet s k) ∧ (stitchSet s k).regs = s.regs
    ∧ (stitchSet s k).nextStitch = k := ⟨⟨rfl, rfl, rfl, rfl⟩, rfl, rfl⟩

/-- What a resume leaves (R413). -/
theorem moduleBack_spec (s : State) (a : Nat) : (moduleBack s a).lp = s.lp ∧ (moduleBack s a).flash = s.flash
    ∧ hostQueues (moduleBack s a) = hostQueues s ∧ rd (moduleBack s a) bbPg bb_STEP = memNat s.lp (a + 0x18) 4
    ∧ rd64 (moduleBack s a) gsPg gs_KBASE_LO gs_KBASE_HI = memNat s.lp (a + 0x10) 8
    ∧ (moduleBack s a).nextStitch = memNat s.lp (a + 0x10) 8 := by
  have hnumbers := resumed_numbersBack s a
  unfold moduleBack
  generalize hstep : memNat s.lp (a + 0x18) 4 = step
  generalize hk : memNat s.lp (a + 0x10) 8 = k
  generalize (numbersBack s a).2 = issue
  revert hnumbers
  generalize (numbersBack s a).1 = x
  intro hnumbers
  have hsteplt : step < 2 ^ (bb_STEP.hi + 1 - bb_STEP.lo) := hstep ▸ memNat_lt s.lp (a + 0x18) 4
  have hklt : k < 2 ^ 64 := hk ▸ memNat_lt s.lp (a + 0x10) 8
  have hstored : rd (wr x bbPg bb_STEP step) bbPg bb_STEP = step := rd_wr_fits _ _ _ _ (by decide) hsteplt
  obtain ⟨hset, hregs, hnext⟩ := stitchSet_frame (basesSet (tilesBack (wr x bbPg bb_STEP step) k issue) issue k) k
  have hback : Resumed (wr x bbPg bb_STEP step) (stitchSet (basesSet (tilesBack (wr x bbPg bb_STEP step) k issue) issue k) k) :=
    (resumed_tilesBack _ k issue).trans ((resumed_basesSet _ issue k).trans hset)
  refine ⟨hback.lp.trans ((wr_lp _ _ _ _).trans hnumbers.lp), hback.flash.trans ((wr_flash _ _ _ _).trans hnumbers.flash),
    hback.queues.trans ((hostQueues_wr _ _ _ _).trans hnumbers.queues), hback.step.trans hstored, ?_, hnext⟩
  rw [rd64_congr hregs, basesSet]
  exact rd64_wr64 _ _ _ _ hklt ⟨rfl, rfl⟩ ⟨rfl, rfl⟩ (by decide)

/-- RESUME on the queue, with the area in hand. -/
def resumeRead (a t0 k : Nat) (e : List Byte) (s : State) : State :=
  if resumeReason s a ≠ 0 then complete (logReq s 3 0x0809 mgPg (b1 (resumeReason s a))) k e csRefused (resumeReason s a)
  else complete (resumeModule s a t0) k e csOK 0

def resumeBody (t0 : Nat) (s : State) (k : Nat) (e : List Byte) : State :=
  if arg e 0 % 2 ^ 30 ≠ 0 ∨ ¬ inLp (arg e 0) areaBytes then complete s k e csBadField 0x08
  else needMem s k e (arg e 0) areaBytes (resumeRead (arg e 0) t0 k e)

theorem exec_resume_body (q : QRef) (t0 : BitVec 64) (s : State) :
    Machine.exec (.resume q t0) s = hostCmd q 0x47 (stateCmd (resumeBody t0.toNat)) s := rfl

section
variable {s : State} {q : QRef} {h : HostQ} {e : List Byte} {t0 : BitVec 64} (r : EntryRuns s q 0x47 h e)
  (hbusy : s.mgmtBusy = none)
include r hbusy

theorem posts_resume_badField (hbad : arg e 0 % 2 ^ 30 ≠ 0 ∨ inLp (arg e 0) areaBytes = false) :
    Posts (.resume q t0) s q h e csBadField 0x08 fun s' => s'.nextStitch = s.nextStitch ∧ s'.regs = s.regs ∧ SameMem s s' := by
  have hbody : resumeBody t0.toNat (taken s q h) (qref q) e = complete (taken s q h) (qref q) e csBadField 0x08 :=
    if_pos (hbad.imp_right fun hlp => by rw [hlp]; decide)
  obtain ⟨-, hnext, hregs, -, hmem⟩ := completedIn_frame (s := s) (x := taken s q h) (q := q) (h := h) (e := e) csBadField 0x08
  obtain ⟨-, hnext', -⟩ := taken_frame (s := s) (q := q) (h := h)
  exact posts_completedIn (exec_resume_body q t0 s) r ((stateCmd_taken hbusy).trans hbody) rfl
    ⟨hnext.trans hnext', hregs.trans taken_regs, sameMem_of_parts (hmem.trans memParts_taken)⟩

variable (haligned : arg e 0 % 2 ^ 30 = 0) (hlp : inLp (arg e 0) areaBytes = true)
include haligned hlp

omit r in
theorem resumeBody_inLp : stateCmd (resumeBody t0.toNat) (taken s q h) (qref q) e
    = needMem (taken s q h) (qref q) e (arg e 0) areaBytes (resumeRead (arg e 0) t0.toNat (qref q) e) :=
  (stateCmd_taken hbusy).trans (if_neg fun hbad => hbad.elim (fun hne => hne haligned) fun hout => hout hlp)

theorem posts_resume_ue (hbad : lpIsBad s (arg e 0) areaBytes = true) :
    Posts (.resume q t0) s q h e csErrUe rUe fun s' => s'.nextStitch = s.nextStitch ∧ SameMem s s' := by
  obtain ⟨_, _, _, _, heq⟩ := lpUe_eq (taken s q h) (lpBadAt (taken s q h) (arg e 0) areaBytes)
  have hnext : (lpUe (taken s q h) (lpBadAt (taken s q h) (arg e 0) areaBytes)).nextStitch = (taken s q h).nextStitch := by rw [heq]
  obtain ⟨-, hnext', -, -, hmem⟩ := completedIn_frame (s := s) (x := lpUe (taken s q h) (lpBadAt (taken s q h) (arg e 0) areaBytes))
    (q := q) (h := h) (e := e) csErrUe rUe
  obtain ⟨-, hnext'', -⟩ := taken_frame (s := s) (q := q) (h := h)
  refine posts_completedIn (exec_resume_body q t0 s) r ((resumeBody_inLp hbusy haligned hlp).trans ?_) (hostQueues_lpUe _ _)
    ⟨hnext'.trans (hnext.trans hnext''), sameMem_of_parts (hmem.trans ((memParts_lpUe _ _).trans memParts_taken))⟩
  rw [needMem, lpCheck_bad (taken s q h) _ _ .ok (lpIsBad_taken.trans hbad)]
  exact if_neg Bool.false_ne_true

variable (hgood : LpGood s (arg e 0) areaBytes)
include hgood

theorem posts_resume_refused (hr : resumeReason (taken s q h) (arg e 0) ≠ 0) :
    Posts (.resume q t0) s q h e csRefused (resumeReason (taken s q h) (arg e 0)) fun s' =>
      Logs s s' 3 0x0809 mgPg (b1 (resumeReason (taken s q h) (arg e 0))) ∧ s'.nextStitch = s.nextStitch ∧ SameMem s s' := by
  obtain ⟨-, hnext, hlogs, hmem⟩ := refused_logged (s := s) (q := q) (h := h) (e := e) (st := csRefused)
    (d := resumeReason (taken s q h) (arg e 0)) (sev := 3) (code := 0x0809) (source := mgPg)
    (payload := b1 (resumeReason (taken s q h) (arg e 0))) rfl ⟨rfl, rfl, rfl, rfl⟩
  exact posts_completedIn (exec_resume_body q t0 s) r
    ((resumeBody_inLp hbusy haligned hlp).trans ((needMem_good hgood).trans (if_pos hr))) (hostQueues_logReq _ _ _ _ _)
    ⟨hlogs, hnext, hmem⟩

theorem posts_resume_ok (hr : resumeReason (taken s q h) (arg e 0) = 0) : Posts (.resume q t0) s q h e csOK 0 fun s' =>
    s'.nextStitch = memNat s.lp (arg e 0 + 0x10) 8
      ∧ rd64 s' gsPg gs_KBASE_LO gs_KBASE_HI = memNat s.lp (arg e 0 + 0x10) 8
      ∧ rd s' bbPg bb_STEP = memNat s.lp (arg e 0 + 0x18) 4 ∧ rd64 s' tmPg tm_T0_LO tm_T0_HI = t0.toNat
      ∧ s'.lp = s.lp ∧ s'.flash = s.flash := by
  obtain ⟨-, -, -, htaken, -, -, hflash, -⟩ := sameMem_of_parts (memParts_taken (s := s) (q := q) (h := h))
  obtain ⟨hlp', hflash', hqueues, hstep, hbase, hnext⟩ := moduleBack_spec (taken s q h) (arg e 0)
  have harm := resumed_armT0 (.refl (moduleBack (taken s q h) (arg e 0))) t0.toNat
  obtain ⟨-, hnext', hregs, -, -⟩ := completedIn_frame (s := s) (x := armT0 (moduleBack (taken s q h) (arg e 0)) t0.toNat)
    (q := q) (h := h) (e := e) csOK 0
  obtain ⟨hlp'', -, hflash''⟩ := completedIn_mem (s := s) (x := armT0 (moduleBack (taken s q h) (arg e 0)) t0.toNat)
    (q := q) (h := h) (e := e) csOK 0
  rw [htaken] at hstep hbase hnext hlp'
  refine posts_completedIn (exec_resume_body q t0 s) r
    ((resumeBody_inLp hbusy haligned hlp).trans ((needMem_good hgood).trans (if_neg (not_not.mpr hr))))
    (harm.queues.trans hqueues) ⟨?_, ?_, ?_, ?_, ?_, ?_⟩
  · rw [resumeModule_eq, hnext', armT0_nextStitch, hnext]
  · rw [resumeModule_eq, rd64_congr hregs, rd64_armT0_kbase, hbase]
  · rw [resumeModule_eq, rd_congr hregs, harm.step, hstep]
  · rw [resumeModule_eq, rd64_congr hregs, rd64_armT0_t0 _ t0.isLt]
  · rw [resumeModule_eq, hlp'', harm.lp, hlp']
  · rw [resumeModule_eq, hflash'', harm.flash, hflash', hflash]

end

/-- Settles O46: a stow by the one read of the spools and the bytes of its header, a resume by what each of its operations
leaves alone. -/
theorem stowsAndResumes : Obligations.StowsAndResumes := by
  refine ⟨fun s => ⟨fun q h e r hbusy => ⟨posts_stow_badField r hbusy, fun haligned hlp =>
      ⟨posts_stow_areaBad r hbusy haligned hlp, posts_stow_begun r hbusy haligned hlp, posts_stow_accepted r hbusy haligned hlp⟩⟩,
    answers_stowSave_idle, fun r => gives_stowSave_bad, fun r => gives_stowSave_good⟩,
    fun s q h e t0 r hbusy => ⟨posts_resume_badField r hbusy, posts_resume_ue r hbusy, fun haligned hlp hgood =>
      ⟨posts_resume_refused r hbusy haligned hlp hgood, posts_resume_ok r hbusy haligned hlp hgood⟩⟩⟩

end Sys2Proof.Machine
end
